-- ==== Sys2Proof/Word.lean ====
section
/-!
DEFINITION. The widths the manual uses for the words it moves: bytes of payloads and memories, and the 32-bit
registers of BAR0 (R36). Counts, sizes, identifiers and times are plain naturals.
-/

namespace Sys2Proof

/-- One byte of a payload, a response, the mailbox SRAM or a device buffer. -/
abbrev Byte := BitVec 8

/-- One BAR0 register or mailbox word (R36, R44). -/
abbrev Word := BitVec 32

end Sys2Proof
end

