-- ==== Sys2Proof/Syntax.lean ====
section
/-!
DEFINITION. The commands of the block: one constructor of `Instr` for each row of the opcode table, with the operands
that come from outside the device (the host, the board, the network, media sources) or that a unit of the data plane
works out from content this model does not hold (each such operand is named in the assumption log).
-/

namespace Sys2Proof

/-- A PCIe function: 0 is PF0 and 1 to 32 are the virtual functions (R34). -/
abbrev Fn := Fin 33

/-- A queue of a function: 0 is the admin queue and 1 to 16 are I/O queues. -/
abbrev QId := Fin 17

/-- An encode die's number (R13); which of the eight exist depends on the variant (R12). -/
abbrev DieNo := Fin 8

/-- A task scheduler: 0 to 7 those of the encode dies, 8 the hub's (R15). -/
abbrev SchedNo := Fin 9

/-- How a submission reaches the device: a ring of a function, or the admin queue of a network session (R63). -/
inductive Port where
  | ring (f : Fn) (q : QId)
  | session (n : Fin 4)
deriving DecidableEq, Repr

/-- One 64-byte submission entry with the bytes its `PAYLOAD_ADDR` buffer holds in host memory (or, in a session, the
bytes its PAYLOAD records carry). -/
structure Submission where
  /-- where the entry was submitted -/
  port : Port
  /-- `FLAGS`: bit 0 `EXT`, bit 1 `FENCE` -/
  flags : BitVec 8 := 0
  /-- the reserved byte at `0x03` -/
  reserved03 : BitVec 8 := 0
  cmdId : BitVec 16 := 0
  /-- the reserved half word at `0x06` -/
  reserved06 : BitVec 16 := 0
  handle : BitVec 32 := 0
  payloadLen : BitVec 32 := 0
  payloadAddr : BitVec 64 := 0
  responseAddr : BitVec 64 := 0
  responseLen : BitVec 32 := 0
  /-- the reserved word at `0x24` -/
  reserved24 : BitVec 32 := 0
  /-- the 24 bytes of `INLINE` -/
  inlineBytes : List Byte := []
  /-- the bytes at `PAYLOAD_ADDR` -/
  extBytes : List Byte := []
  /-- the bytes that host memory holds at the further addresses that the payload names: the data of `MEM.COPY`, an image,
  caption constructs, picture planes -/
  hostData : List Byte := []
deriving DecidableEq, Repr

/-- What firmware reads from the head of one submission entry when it fetches it (R47). -/
structure Fetch where
  opcode : BitVec 16 := 0
  flags : BitVec 8 := 0
  cmdId : BitVec 16 := 0
  handle : BitVec 32 := 0
deriving DecidableEq, Repr


/-- Samples of one line of a row that no packet has brought (R325): the component, its line in the row, the first and how many. -/
structure LostRun where
  comp : Fin 3
  line : BitVec 16
  first : BitVec 16
  count : BitVec 16
deriving DecidableEq, Repr

/-- Samples of a CTU row of a source picture as ingest writes them, lines from the top: Y, Cb and Cr, on their own grids (R325,
R326). Lines or samples that are not given read 0. -/
structure RowSamples where
  y : List (List (BitVec 16)) := []
  cb : List (List (BitVec 16)) := []
  cr : List (List (BitVec 16)) := []
  lost : List LostRun := []
deriving DecidableEq, Repr

/-- A `cc_data` construct of 3 bytes (R170). -/
abbrev Caption := Byte × Byte × Byte
/-- An agent ID: class in bits 11:9, number in bits 8:0 (R207). -/
abbrev AgentId := BitVec 12

/-- A task descriptor as a producer writes it to the enqueue port (R210). -/
structure Descriptor where
  flow : BitVec 16
  seq : BitVec 24
  ctl : BitVec 8
  waitMask : BitVec 32
  flags : BitVec 32
  deadline : BitVec 32
  affinity : BitVec 16
  lock : BitVec 8
  opts : BitVec 8
  doneTarget : BitVec 32
  doneSeq : BitVec 24
  reserved1F : BitVec 8
  doneBits : BitVec 32
  entry : BitVec 32
  args : List Byte
deriving DecidableEq, Repr
/-- What the sequence parameter set of a stream says that a decode channel looks at (R242, R243, R246). -/
structure StreamSps where
  /-- 0 HEVC, 1 VVC -/
  codec : Fin 2 := 0
  /-- 0 HEVC Main, 1 HEVC Main 10, 2 HEVC Main 4:2:2 10, 3 VVC Main 10, 4 VVC Main 10 4:4:4, 5 any other -/
  profile : Fin 6 := 1
  /-- 0 4:2:0, 1 4:2:2, 2 4:4:4 -/
  chroma : Fin 3 := 0
  bitDepth : Fin 17 := 8
  width : BitVec 16 := 0
  height : BitVec 16 := 0
  /-- as `LEVEL` of `CHANNEL.CREATE`: ten times the level, with bit 7 for the high tier -/
  level : BitVec 8 := 0
  ctu : Fin 129 := 64
  /-- pictures that the stream's DPB holds -/
  dpb : Fin 17 := 16
deriving DecidableEq, Repr

/-- What a coded access unit that reaches the decoder says of itself (R243): the SPS of the coded video sequence that it begins, if it
begins one, and whether its picture is an IRAP or GDR picture. -/
structure ArrivedAu where
  sps : Option StreamSps := none
  randomAccess : Bool := false
deriving DecidableEq, Repr

/-- CTUs, by raster address, from an erroneous or missing one to the end of its slice (R249). -/
structure DamagedSlice where
  /-- lost in transport, rather than a syntax error -/
  lost : Bool := false
  ctus : List (BitVec 16) := []
deriving DecidableEq, Repr

/-- What decoding a picture finds in the stream (R246 to R250). POCs are signed. -/
structure DecodedPicture where
  poc : BitVec 32
  /-- `PIC_TYPE`: 0 IDR, 1 CRA, 2 BLA, 3 GDR, 4 RASL, 5 RADL, 6 trailing -/
  picType : Fin 7
  tid : Fin 7 := 0
  /-- POCs that its reference list names, that of index 0 first, and those that its reference picture set keeps in the DPB -/
  refs : List (BitVec 32) := []
  keeps : List (BitVec 32) := []
  /-- POCs that the DPB output process puts out before the picture is stored, and after -/
  before : List (BitVec 32) := []
  after : List (BitVec 32) := []
  /-- recovery count of a GDR picture or of a recovery point SEI -/
  recovery : Option (BitVec 32) := none
  /-- slices that cannot be decoded -/
  damaged : List DamagedSlice := []
  /-- flags 3 to 11 and 13 of R250, as the decoder finds them -/
  found : BitVec 14 := 0
  /-- HRD removal time of its access unit, as device time -/
  removal : Option (BitVec 64) := none
  qpAvg : BitVec 8 := 0
  /-- its CTU records, 16 bytes each -/
  ctuRecords : List Byte := []
deriving DecidableEq, Repr
/-- Samples of an audio program's source (R299, R307): the number of the first, then a row for each with the words of the
source's channels. A port's word is the slot of its frame; others are left-justified samples, or AES3 subframes. -/
structure AudioSamples where
  /-- number of the first sample: since lock for an embedded source, else the position of its instant on the output grid; behind
  an ASRC the first position that these samples let it compute -/
  first : BitVec 64
  rows : List (List (BitVec 32)) := []
  /-- source channels that the rows carry -/
  present : BitVec 64 := BitVec.allOnes 64
  /-- behind an ASRC: positions that these samples let it compute, and whether the input lies in its tracking range -/
  positions : BitVec 12 := 0
  inRange : Bool := true
deriving DecidableEq, Repr

/-- A frame received at a port, as the MAC and ingest see it (R321 to R326): its length from destination address to check
sequence, what is wrong with it, its addresses where it carries UDP, and what it carries. -/
structure RxFrame where
  bytes : BitVec 16
  /-- its frame check sequence is wrong -/
  badFcs : Bool := false
  /-- code errors, corrected and uncorrectable codewords of the lane up to and within this frame (R396) -/
  codeErr : BitVec 32 := 0
  fecCorr : BitVec 32 := 0
  fecUncorr : BitVec 32 := 0
  /-- its UDP checksum is non-zero and wrong -/
  badChecksum : Bool := false
  /-- PTP, ARP, neighbour discovery or other management traffic -/
  management : Bool := false
  /-- of those, PTP, ARP or neighbour discovery, which no policer judges (R352) -/
  exempt : Bool := false
  /-- FEC or RTCP (R321) -/
  fecOrRtcp : Bool := false
  /-- traffic above the ingress share of the packet buffer's write port (R432) -/
  overShare : Bool := false
  dest : BitVec 128 := 0
  source : BitVec 128 := 0
  udp : BitVec 16 := 0
  /-- its UDP payload -/
  data : List Byte := []
  /-- kinds 1 and 4: `cc_data` constructs, with the device time of their time-stamp (R170) -/
  captions : List Caption := []
  captionTime : BitVec 64 := 0
deriving DecidableEq, Repr

/-- The data set an Announce message carries (IEEE 1588-2019), as far as the best-master comparison uses it. -/
structure Announce where
  gmId : BitVec 64
  priority1 : BitVec 8
  clockClass : BitVec 8
  accuracy : BitVec 8
  variance : BitVec 16
  priority2 : BitVec 8
  stepsRemoved : BitVec 16
  senderId : BitVec 64
deriving DecidableEq, Repr

/-- A PTP message received at a port (R368, R370). Times are PTP nanoseconds, corrections nanoseconds. -/
inductive PtpMessage where
  /-- a Sync: its origin time (one-step) or none, when a Follow_Up brings it -/
  | sync (origin : Option Nat) (correction : Int)
  | followUp (origin : Nat) (correction : Int)
  /-- the answer to the device's Delay_Req: the master's receive time -/
  | delayResp (received : Nat) (correction : Int)
  | delayReq
  | pdelayReq
  /-- the answer to the device's Pdelay_Req: the peer's receive and send times -/
  | pdelayResp (received sent : Nat) (correction : Int)
  | announce (a : Announce)
  /-- a management message: GET of a supported data set, or a SET -/
  | management (isSet : Bool)
deriving DecidableEq, Repr

/-- What the time unit makes a port send (R356, R371). -/
inductive PtpSend where
  | announce | sync | followUp | delayReq | delayResp | pdelayReq | pdelayResp | pdelayFollowUp | metadata
deriving DecidableEq, Repr

/-- Port states of IEEE 1588-2019, with their codes. -/
inductive PtpPortState where
  | initializing | faulty | disabled | listening | preMaster | master | passive | uncalibrated | slave
deriving DecidableEq, Repr

/-- The format that an SDI input reads from the payload identifier, or counts, at the end of a picture (R398). -/
structure SdiPicture where
  /-- rate code of R397, with bit 7 for 1/1.001 -/
  rate : BitVec 8
  width : BitVec 16
  height : BitVec 16
  rateNum : BitVec 32
  rateDen : BitVec 16
  sampling : BitVec 8
  depth : BitVec 8
  unsupported : Bool
deriving DecidableEq, Repr

/-- One received SDI line (R399): whether its CRC fails, caption constructs in its ancillary data, the picture format
when it ends a picture, and on a quad link the receiver's link number and the greatest skew in ns of the same sub-image
line over the four links. -/
structure SdiLine where
  badCrc : Bool := false
  captions : List Caption := []
  format : Option SdiPicture := none
  link : Option (Fin 4) := none
  skew : Option Nat := none
  /-- the line carries picture samples: its number in the picture, and the samples as octets of ST 2110-20 pixel groups (R333) -/
  active : Bool := true
  number : BitVec 15 := 0
  samples : List Byte := []
  /-- at the end of a picture, its ancillary packets as ST 2110-40 carries them, and how many they are (R333) -/
  ancPackets : BitVec 8 := 0
  ancillary : List Byte := []
deriving DecidableEq, Repr

/-- A die's DRAM: encode dies 0 to 7, and 8 the hub's. -/
abbrev DramNo := Fin 9

/-- An arbiter (R425): the DRAM of an encode die, of the hub, or the egress packet buffer. -/
inductive ArbiterId where
  | dram (die : DieNo)
  | hubDram
  | egress
deriving DecidableEq, Repr

/-- The region of an uncorrectable error (R415, R433 to R435). -/
inductive ErrorRegion where
  /-- the working set of a channel -/
  | workingSet (channel : BitVec 32)
  | code
  /-- hub firmware or the journal -/
  | journal
  | failoverState (channel : BitVec 32)
  | hostBuffer
  /-- an SRAM bank's double-bit error -/
  | sram (channel : BitVec 32)
  | mailbox (function : Fn)
  | packetBuffer
deriving DecidableEq, Repr
/-- Junction temperatures in 0.1 °C: encode dies 0 to 7, then the hub (R503). -/
structure Junctions where
  dies : List Int
  hub : Int
deriving DecidableEq, Repr

/-- Test-port instructions (R454). -/
inductive TapInstruction where
  | bypass | idcode | sample | extest | debugAccess | scan | fuseProgramming
deriving DecidableEq, Repr

/-- An element of an encode die that boot BIST or in-service self-test tests (R476, R501). -/
inductive Element where
  | pixelEngine (n : Fin 256)
  | msu (n : Fin 16)
  | filterUnit (n : Fin 4)
  | sramBank (n : Fin 66)
  | schedulerRam (n : Fin 32)
deriving DecidableEq, Repr

/-- What boot BIST found (R476): the hub, the two management processors, and for each encode die the elements that
failed and whether anything else on it failed. -/
structure BistReport where
  hubFault : Bool := false
  mpAFault : Bool := false
  mpBFault : Bool := false
  elements : List (DieNo × Element) := []
  otherFault : List DieNo := []
deriving DecidableEq, Repr

/-- How a self-test slice ended (R501). -/
inductive SliceResult where
  | pass | fail | deferred
deriving DecidableEq, Repr

/-- A write of the fenced management processor that lands after the fence (R489). -/
inductive LateWrite where
  /-- a journal record of the old epoch in hub DRAM or the scratchpad -/
  | journal
  /-- a device-written mailbox word: SRAM word number and value -/
  | mailbox (word : Fin 16384) (value : BitVec 32)
  /-- a firmware-owned hub register of a function, with no other effect -/
  | register (f : Fn) (rdy qerr cfgErr : Bool)
deriving DecidableEq, Repr


/-- The commands: the rows of the opcode table in its order, but for a second part, again in its order, of rows with no
operand and of rows of units that no program reaches by itself. (Lean's compiler builds values of the first 245
constructors and of those without operand; its kernel, of all.) -/
inductive Instr where
  /-- R10: Host write to a BAR0 register that has no row of its own, applied under its access code -/
  | registerWrite (f : Fn) (bar4 : Bool) (offset : BitVec 18) (width : Fin 9) (value : BitVec 32)
  /-- R40: Host writes ECI_CTRL.EN = 1 to enable ECI for a function, or gets CFG_ERR for a bad ring size -/
  | eciEnable (f : Fn)
  /-- R41: Host clears ECI_CTRL.EN; firmware stops fetching, deletes the I/O queues and clears RDY -/
  | eciDisable (f : Fn)
  /-- R40: Firmware zeroes the device-written index words and sets RDY within 10 ms of the enable or of READY -/
  | eciRdySet (f : Fn)
  /-- R47: Host writes a submission doorbell, and firmware reads that queue's SQ_TAIL -/
  | dbSqWrite (f : Fn) (q : QId) (value : BitVec 32) (entries : List Fetch)
  /-- R47: Firmware re-reads SQ_TAIL at least once per 1 ms while the queue is non-empty -/
  | sqPoll (f : Fn) (q : QId) (entries : List Fetch)
  /-- R52: Host rings a fast-path slot; the write enters the function's fast-path queue, or is discarded as busy or unknown -/
  | dbFastWrite (f : Fn) (value : BitVec 32)
  /-- R52: Firmware serves a queued fast-path request and writes its response, then its completion, first word last -/
  | fastPathServe (f : Fn)
  /-- R42: Host writes 1s to INT_CAUSE to clear the causes it has served -/
  | intCauseClear (f : Fn) (value : BitVec 32)
  /-- R42: Host writes INT_MASK; unmasking a set, due cause may raise its vector -/
  | intMaskWrite (f : Fn) (value : BitVec 32)
  /-- R42: TIME_US passes after the first unsignalled entry, and the coalesced cause becomes due -/
  | coalesceTimeout (f : Fn) (cause : Fin 18)
  /-- R44: Host writes a mailbox SRAM word, which changes ring state at once for a host-written index word -/
  | mailboxHostWrite (f : Fn) (offset : BitVec 18) (width : Fin 9) (value : BitVec 32) (collides : Bool)
  /-- R30: A read of BOOT_STAGE captures the boot status snapshot group -/
  | bootStageCapture (f : Fn)
  /-- R30: A read of TIME_NS captures the device time snapshot group, epoch included -/
  | timeNsCapture (f : Fn)
  /-- R30: A read of MBX_COLLIDE_CNT captures the collision count and clears it in the same source cycle -/
  | mbxCollideCntRead (f : Fn)
  /-- R41: A function-level reset disables ECI for the function, and a VF's objects pass to PF0 -/
  | functionLevelReset (f : Fn)
  /-- R41: Lowering NumVFs or clearing VF Enable disables the VFs removed, moves their objects and closes their sessions -/
  | vfRemoval (n : Fn)
  /-- R34: Host enables virtual functions through the SR-IOV NumVFs field -/
  | vfEnable (n : Fn)
  /-- R407: The link trains or changes speed or width, raising EV_PCIE_LINK when it is below Gen5 x8 -/
  | pcieLinkTrained (gen : Fin 6) (width : Fin 9) (settled : Fin 11)
  /-- R404: The root port requests a transmitter setting in equalisation, and the device applies or rejects it within 500 ns -/
  | pcieEqRequest (lane : Fin 8) (preset : Fin 11)
  /-- R437: A PF0 read or write of BAR2 reaches a mapped buffer through the host token bucket, or an unmapped page -/
  | bar2Access (write : Bool) (offset : BitVec 32) (data : List (BitVec 8))
  /-- R459: A TCP connection reaches the ECI port and starts a handshake, or is refused during a lockout -/
  | sessionConnect (conn : Fin 5) (port : BitVec 16)
  /-- R71: A session with no record for 10 s closes, and EV_SESSION_CLOSED goes to PF0 -/
  | sessionIdleTimeout (n : Fin 4)
  /-- R56: Returns identity and capacities -/
  | deviceIdentify (c : Submission)
  /-- R56: Returns the current device state -/
  | deviceStatus (c : Submission)
  /-- R66: Sets the event ranges and the minimum severity delivered to this function -/
  | deviceEventMask (c : Submission)
  /-- R67: Creates an I/O queue and zeroes its device-written index words -/
  | queueCreate (c : Submission)
  /-- R67: Deletes an I/O queue after completing its fetched commands -/
  | queueDelete (c : Submission)
  /-- R56: Lists the function's objects in increasing handle order -/
  | objectList (c : Submission)
  /-- R57: Transfers ownership of an object and its dependent objects -/
  | objectReassign (c : Submission)
  /-- R68: Sets a VF's quotas -/
  | deviceVfQuota (c : Submission)
  /-- R69: Approves a signed image and writes it to a boot slot other than the active one -/
  | deviceImageLoad (c : Submission)
  /-- R70: Completes OK and schedules a normal or recovery restart -/
  | deviceRestart (c : Submission)
  /-- R70: Echoes its INLINE bytes as its response -/
  | deviceNop (c : Submission)
  /-- R461: Opens ECI inside a network session for the credential's function -/
  | sessionOpen (c : Submission)
  /-- R461: Completes, and then the device closes the session's connection -/
  | sessionClose (c : Submission)
  /-- R71: Holds a session open -/
  | sessionKeepalive (c : Submission)
  /-- R78: Creates and admits a channel under every admission check -/
  | channelCreate (c : Submission)
  /-- R80: Runs admission on a creating payload without creating or reserving anything -/
  | channelAdmitCheck (c : Submission)
  /-- R105: Re-admits an IDLE channel with a new configuration as one change -/
  | channelSet (c : Submission)
  /-- R75: Stages the start of a channel on pipe 0 to 2 at the next source picture boundary -/
  | channelStart (c : Submission)
  /-- R73: Stages the stop of a channel on pipe 0 to 2 at the next picture boundary -/
  | channelStop (c : Submission)
  /-- R92: Frees an IDLE channel and its charge unless another object names it -/
  | channelDestroy (c : Submission)
  /-- R97: Returns the channel's state, condition and counters -/
  | channelQuery (c : Submission)
  /-- R85: Writes the pipe-3 shadow slot table -/
  | slotTableSet (c : Submission)
  /-- R84: Returns the applied and pending shadow slot tables -/
  | slotTableGet (c : Submission)
  /-- R102: Creates a slate surface on the dies named -/
  | slateCreate (c : Submission)
  /-- R102: Frees a slate that no channel names -/
  | slateDestroy (c : Submission)
  /-- R77: Returns the die's load terms and DRAM charge -/
  | dieLoad (c : Submission)
  /-- R134: Turns tools off and limits the references of an IDLE channel -/
  | codingTools (c : Submission)
  /-- R135: Returns the tools and presets in use -/
  | codingToolsGet (c : Submission)
  /-- R136: Stages the scene-change and global-motion controls -/
  | analysisSet (c : Submission)
  /-- R133: Returns the last picture's analysis results -/
  | analysisQuery (c : Submission)
  /-- R109: Returns RECIPE_VERSION and the digest of the recipe manifest -/
  | recipeInfo (c : Submission)
  /-- R171: Sets the picture structure, refresh and repetition of an IDLE channel -/
  | codingStructure (c : Submission)
  /-- R172: Stages HDR metadata and caption settings -/
  | codingSei (c : Submission)
  /-- R173: Returns the structure and SEI settings in force -/
  | codingStructureGet (c : Submission)
  /-- R205: Stages the quality target, QP bounds, perceptual offsets and cap -/
  | rcSet (c : Submission)
  /-- R206: Returns the rate settings in force and the derived limits -/
  | rcGet (c : Submission)
  /-- R200: Returns the last picture's rate results -/
  | rcQuery (c : Submission)
  /-- R176: Returns the timeline and the release schedule -/
  | delayQuery (c : Submission)
  /-- R240: Returns the scheduler's occupancy, ready lists and counters -/
  | schedStatus (c : Submission)
  /-- R240: Returns the state of the 256 keeper locks -/
  | schedLocks (c : Submission)
  /-- R240: Returns the task flows that serve a channel -/
  | schedFlows (c : Submission)
  /-- R241: Creates a trace object and its buffer -/
  | traceCreate (c : Submission)
  /-- R241: Begins trace capture within 10 µs -/
  | traceStart (c : Submission)
  /-- R241: Ends trace capture within 10 µs -/
  | traceStop (c : Submission)
  /-- R239: Returns the trace write pointer and counts -/
  | traceStatus (c : Submission)
  /-- R241: Stops a trace if it runs, and frees the object and its buffer -/
  | traceDestroy (c : Submission)
  /-- R244: Creates and admits a decode channel -/
  | decodeCreate (c : Submission)
  /-- R246: Passes one access unit from host memory to a decode channel -/
  | decodeSubmit (c : Submission)
  /-- R246: Frees output surfaces, letting held pictures be output -/
  | decodeReturn (c : Submission)
  /-- R243: Returns the decode counts -/
  | decodeQuery (c : Submission)
  /-- R251: Sets live or reference mode and an optional AU ring -/
  | channelMode (c : Submission)
  /-- R256: Submits a source picture for a host-memory channel -/
  | picSubmit (c : Submission)
  /-- R257: Reports the host's AU ring read offset and returns the write offset -/
  | refRing (c : Submission)
  /-- R258: Sets the jig patterns and the generator of an IDLE E3 channel -/
  | jigSet (c : Submission)
  /-- R260: Sets up, changes or frees the channel's statistics ring -/
  | statsSet (c : Submission)
  /-- R261: Reports the statistics ring read offset and returns the write offset and counts -/
  | statsRead (c : Submission)
  /-- R266: Binds a check unit to a target and snoop point -/
  | checkBind (c : Submission)
  /-- R266: Stops a check unit at the next boundary -/
  | checkUnbind (c : Submission)
  /-- R266: Pushes a set of expected values onto a check unit's queue -/
  | checkExpect (c : Submission)
  /-- R265: Returns a check unit's last value and counts -/
  | checkQuery (c : Submission)
  /-- R271: Sets the colour system of an IDLE channel -/
  | composeSet (c : Submission)
  /-- R278: Creates a layer and its buffers -/
  | layerCreate (c : Submission)
  /-- R288: Stages a layer's state -/
  | layerSet (c : Submission)
  /-- R288: Checks and applies the channel's staged layer changes at a picture boundary -/
  | layerCommit (c : Submission)
  /-- R288: Stages a layer's removal -/
  | layerDestroy (c : Submission)
  /-- R290: Returns a layer's applied and staged state -/
  | layerQuery (c : Submission)
  /-- R287: Sets the rendition scaler's taps and coefficient set for an IDLE rendition -/
  | renditionScale (c : Submission)
  /-- R285: Writes the die's custom coefficient set for a tap count -/
  | scalerCoefSet (c : Submission)
  /-- R285: Returns coefficient set 1, 2 or 3 for a tap count -/
  | scalerCoefGet (c : Submission)
  /-- R295: Sets the mode, role, rate and format of a disabled port, or disables a port -/
  | audioPortSet (c : Submission)
  /-- R297: Stages new slot masks and an output map for the next TDM frame boundary -/
  | audioPortSlots (c : Submission)
  /-- R294: Returns the port's settings, masks, clock state and framing errors -/
  | audioPortQuery (c : Submission)
  /-- R317: Sets the source and family of a frame clock -/
  | frameClockSet (c : Submission)
  /-- R299: Creates an audio program, with its ASRC or DSP -/
  | audioProgramCreate (c : Submission)
  /-- R318: Stages a program's mute mask and fade time -/
  | audioProgramSet (c : Submission)
  /-- R318: Frees a program that nothing names -/
  | audioProgramDestroy (c : Submission)
  /-- R306: Returns a program's gains and its late, overrun and silent counts -/
  | audioProgramQuery (c : Submission)
  /-- R304: Returns an ASRC's ratio, lock state and lock count -/
  | asrcQuery (c : Submission)
  /-- R303: Returns a source's measured rate class, offset and sample count -/
  | audioRateQuery (c : Submission)
  /-- R312: Sets the audio groups embedded in an SDI output -/
  | audioEmbedSet (c : Submission)
  /-- R323: Creates an ingress stream -/
  | ingressCreate (c : Submission)
  /-- R323: Frees an ingress stream that no consumer names -/
  | ingressDestroy (c : Submission)
  /-- R359: Returns an ingress stream's counters and path states -/
  | ingressQuery (c : Submission)
  /-- R328: Creates and admits an egress stream -/
  | egressCreate (c : Submission)
  /-- R335: Changes an egress stream at its next access-unit boundary -/
  | egressSet (c : Submission)
  /-- R358: Ends an egress stream at a boundary and frees it once its packets have left -/
  | egressDestroy (c : Submission)
  /-- R359: Returns an egress stream's counters and key phase -/
  | egressQuery (c : Submission)
  /-- R336: Turns signed manifests on or off, or changes their settings, at a boundary -/
  | egressProvenance (c : Submission)
  /-- R343: Binds a KEY to the other key phase at a chosen access unit -/
  | egressKey (c : Submission)
  /-- R353: Sets the impairment injection of an egress stream -/
  | egressImpair (c : Submission)
  /-- R348: Sets a class shaper from the next refill tick -/
  | shaperSet (c : Submission)
  /-- R351: Sets a port's gate list, starting at a cycle time at least 2 µs ahead -/
  | gatelistSet (c : Submission)
  /-- R349: Returns the gate list in force and any pending list -/
  | gatelistQuery (c : Submission)
  /-- R352: Binds a policer to an ingress stream or a port -/
  | policerCreate (c : Submission)
  /-- R352: Changes a policer's rate, burst and action -/
  | policerSet (c : Submission)
  /-- R352: Frees a policer -/
  | policerDestroy (c : Submission)
  /-- R359: Sets a port's MAC and IP addresses -/
  | portAddr (c : Submission)
  /-- R338: Returns the provenance KEY_ID, public key and certificate -/
  | provKey (c : Submission)
  /-- R355: Selects the egress arbiter's one-cycle-ahead or same-cycle decision mode -/
  | arbiterMode (c : Submission)
  /-- R384: Returns the servo, PTP and epoch state -/
  | timeQuery (c : Submission)
  /-- R372: Sets the servo source and loop settings -/
  | servoSet (c : Submission)
  /-- R376: Returns the servo to FREE -/
  | servoReset (c : Submission)
  /-- R368: Sets the PTP instance -/
  | ptpSet (c : Submission)
  /-- R370: Sets a port's board delays and asymmetry -/
  | ptpPortSet (c : Submission)
  /-- R377: Sets PPS_OUT, REF10M_OUT and PPS_IN from the next whole PTP second -/
  | ppsSet (c : Submission)
  /-- R378: Gives the PTP seconds of the next PPS_IN edge -/
  | timeSetTod (c : Submission)
  /-- R380: Sets the alignment domain membership -/
  | domainSet (c : Submission)
  /-- R381: Marks an IDLE channel aligned, with an offset -/
  | channelAlign (c : Submission)
  /-- R381: Returns a channel's anchor alignment index -/
  | alignQuery (c : Submission)
  /-- R408: Sets a lane's mode, negotiation, training, EEE and test -/
  | laneSet (c : Submission)
  /-- R409: Restarts negotiation and training, or SDI adaptation, and completes with the result -/
  | laneTrain (c : Submission)
  /-- R407: Returns a lane's state, format and counters -/
  | laneQuery (c : Submission)
  /-- R391: Sets fixed transmitter taps on an untrained lane -/
  | laneTaps (c : Submission)
  /-- R402: Sets an SDI output's source -/
  | sdiOutSet (c : Submission)
  /-- R443: Returns a die's operating point, counters, arbiter and link state -/
  | memQuery (c : Submission)
  /-- R443: Sets the neighbour-refresh exponent and the DRAM maximum grant -/
  | memSet (c : Submission)
  /-- R419: Checks and stages a change of an encode die's DRAM operating point -/
  | memFreq (c : Submission)
  /-- R439: Copies between host memory and a mapped device buffer -/
  | memCopy (c : Submission)
  /-- R457: Returns a signed attestation quote and the kind 2 certificate -/
  | secQuote (c : Submission)
  /-- R456: Returns the certificates of kinds 1 to 4 -/
  | secCerts (c : Submission)
  /-- R458: Unwraps delivered key material into a KEY object -/
  | keyImport (c : Submission)
  /-- R458: Frees a KEY object that no stream binds -/
  | keyDestroy (c : Submission)
  /-- R451: Programs the fuses of a life-cycle move, wipes the scratchpad and schedules a restart -/
  | secLcAdvance (c : Submission)
  /-- R453: Programs owner key slot 5 -/
  | secOwnerKeyAdd (c : Submission)
  /-- R453: Revokes a key slot -/
  | secKeyRevoke (c : Submission)
  /-- R448: Raises a fuse SVN to the running image's SVN -/
  | secSvnCommit (c : Submission)
  /-- R455: Returns a fresh debug nonce -/
  | secDebugChallenge (c : Submission)
  /-- R455: Wipes the scratchpad and opens debug instructions until the next reset -/
  | secDebugUnlock (c : Submission)
  /-- R464: Sets the tamper sensor responses and the loop arming -/
  | secTamperSet (c : Submission)
  /-- R465: Returns the tamper log -/
  | secTamperLog (c : Submission)
  /-- R465: Empties the tamper log and clears quote flag 3 -/
  | secTamperClear (c : Submission)
  /-- R468: Reads the monotonic counter, or increments it and then reads it -/
  | secCounter (c : Submission)
  /-- R462: Writes a credential table entry -/
  | secCredSet (c : Submission)
  /-- R505: Returns boot slots, counters, processor states and the reason log -/
  | healthQuery (c : Submission)
  /-- R474: Approves the other slot and makes it the trial slot of the next start -/
  | bootSlotSet (c : Submission)
  /-- R499: Runs BIST on a fenced die and returns it to service if BIST passes -/
  | dieRepair (c : Submission)
  /-- R490: Runs BIST on the fenced management processor and makes it a warm standby if BIST passes -/
  | mpRepair (c : Submission)
  /-- R501: Returns the self-test counts -/
  | isstQuery (c : Submission)
  /-- R485: Returns the keep-alive supply log -/
  | kaLog (c : Submission)
  /-- R503: Returns the junction temperatures and the alert state -/
  | thermQuery (c : Submission)
  /-- R73: A channel's picture boundary applies staged sets, start and stop, and condition and policy changes -/
  | pictureBoundary (chan : BitVec 32)
  /-- R86: Pipe 3 ends a picture or becomes able to start one, and takes the next eligible picture -/
  | pipe3PictureBoundary (die : DieNo)
  /-- R98: Row 0 has not arrived one row period after its expected capture, and the channel codes a repeat -/
  | sourcePictureMissing (chan : BitVec 32)
  /-- R323: A frame received at a port is time-stamped, checked, policed, matched and merged -/
  | ingressPacket (port : Fin 18) (f : RxFrame)
  /-- R325: A missing packet is declared lost w after a higher sequence number arrives, and its samples are filled -/
  | packetLossDeclare (ing : BitVec 32)
  /-- R326: A merge path with no packet for 100 ms is down -/
  | pathDownTimeout (ing : BitVec 32) (path : Fin 2)
  /-- R326: A down path is up again after 100 ms of packets -/
  | pathUp (ing : BitVec 32) (path : Fin 2)
  /-- R325: Ingest posts a CTU row's row-arrival flag behind its data within 3 µs of the row becoming complete -/
  | rowArrivalPost (chan : BitVec 32) (row : BitVec 8) (capture : BitVec 64) (samples : RowSamples)
  /-- R398: An SDI receiver locks to a rate within 50 ms of signal onset -/
  | sdiRateLock (lane : Fin 16) (rate : Fin 5) (fractional : Bool)
  /-- R399: An SDI line's EAV is time-stamped and the line is written and CRC-checked -/
  | sdiLineReceive (lane : Fin 16) (line : SdiLine)
  /-- R256: A submitted picture has been copied into device memory, and its rows are posted -/
  | pictureCopyDone (chan : BitVec 32) (luma chroma captions : List Byte)
  /-- R269: The composition unit completes a CTU row and posts its composed-row flag -/
  | compositionRowDone (chan : BitVec 32) (pic : BitVec 64) (row : BitVec 8)
  /-- R289: Firmware raises EV_COMMIT_APPLIED after row 0 is composed under the new layer state -/
  | commitAppliedReport (chan : BitVec 32)
  /-- R107: Pre-analysis completes a row's pyramid and measures and raises its analysis-done flag -/
  | analysisRowDone (chan : BitVec 32) (pic : BitVec 64) (row : BitVec 8) (odd : Bool)
  /-- R211: A producer writes a descriptor, and the scheduler allocates it or back-pressures -/
  | descriptorEnqueue (sched : SchedNo) (producer : AgentId) (d : Descriptor)
  /-- R235: A bound clears and a stalled enqueue or sequence post proceeds -/
  | backpressureEnd (sched : SchedNo)
  /-- R214: A post ORs bits into the flags of the task it names -/
  | taskPost (sched : SchedNo) (task : BitVec 16) (bits : BitVec 32)
  /-- R214: A post ORs bits into a sequence number's live tasks and latches them -/
  | sequencePost (sched : SchedNo) (flow : BitVec 12) (seq : BitVec 24) (bits : BitVec 32)
  /-- R214: A post ORs bits into every live task of a flow -/
  | flowPost (sched : SchedNo) (flow : BitVec 12) (bits : BitVec 32)
  /-- R216: The scheduler hands the best eligible ready task to a free agent -/
  | taskDispatch (sched : SchedNo) (agent : AgentId)
  /-- R221: An agent reports completion; the record is delivered or discarded, and posts and lock release follow -/
  | taskComplete (sched : SchedNo) (agent : AgentId) (task : BitVec 16)
  /-- R224: A cancel names one task, which completes CANCELLED -/
  | taskCancel (sched : SchedNo) (task : BitVec 16)
  /-- R219: An undispatched task with DL_CANCEL reaches its deadline and completes EXPIRED -/
  | deadlineExpiry (sched : SchedNo)
  /-- R228: A CTRL or external agent requests a keeper lock directly -/
  | directLockAcquire (sched : SchedNo) (agent : AgentId) (lock : BitVec 8)
  /-- R231: A task outlasts its class watchdog, is aborted, and its agent is reset -/
  | taskWatchdog (sched : SchedNo) (agent : AgentId)
  /-- R191: Core 0 judges the oldest uncommitted row within 20 µs of its entropy coding completing -/
  | rowJudgement (chan : BitVec 32)
  /-- R146: A commit order makes the judged row final and COMMITTED -/
  | commitOrder (chan : BitVec 32) (pic : BitVec 64) (row : BitVec 8)
  /-- R147: A rewind order squashes, flips buffers and re-enqueues the judged row at a raised QP -/
  | rewindOrder (chan : BitVec 32) (pic : BitVec 64) (row : BitVec 8)
  /-- R147: The row-start checkpoint is restored and its flag posted -/
  | checkpointRestoreDone (chan : BitVec 32)
  /-- R159: A fill order makes the judged row FILLED and reconstructs it from its fill coding -/
  | fillOrder (chan : BitVec 32) (pic : BitVec 64) (row : BitVec 8)
  /-- R155: The odd die applies a commit, rewind or fill order from the even die within 1 µs -/
  | partnerOrder (chan : BitVec 32)
  /-- R153: Seam data from the partner arrives and is kept, or discarded as an older generation -/
  | seamDataArrival (chan : BitVec 32) (odd : Bool)
  /-- R158: At a DU's stitch deadline its uncommitted rows become FILLED -/
  | stitchDeadline (chan : BitVec 32) (pic : BitVec 64) (du : BitVec 8)
  /-- R157: The stitch unit releases a ready DU to the hub within 10 µs, in order -/
  | stitchRelease (chan : BitVec 32) (tile : Fin 3)
  /-- R160: A DU record reaches the hub and stream assembly joins, packetises, hashes and encrypts it -/
  | duRecordArrival (chan : BitVec 32)
  /-- R176: The release timer frees a decoding unit at t_rel -/
  | duRelease (chan : BitVec 32)
  /-- R338: The hub completes signing a segment's manifest and queues its carriage -/
  | manifestSigned (eg : BitVec 32)
  /-- R346: A frame finishes on the wire, and the port selects its next frame -/
  | frameTxEnd (port : Fin 18)
  /-- R351: A new gate list starts, cutting the old list's entry in progress -/
  | gatelistStart (port : Fin 18)
  /-- R356: The time unit triggers a class-7 PTP message, which departs within the urgent bound -/
  | ptpSendTrigger (port : Fin 16) (m : PtpSend)
  /-- R246: A coded access unit reaches the decoder or its coded buffer -/
  | decoderAuArrival (chan : BitVec 32) (au : ArrivedAu)
  /-- R246: The decoder completes a picture, outputs it and writes its conformance record -/
  | decodePictureDone (chan : BitVec 32) (p : DecodedPicture)
  /-- R265: A check unit's value for a picture completes and is compared with its queue -/
  | checkValueComplete (unit : BitVec 32) (pic : BitVec 64) (value : BitVec 64)
  /-- R402: An SDI output reaches a picture boundary and shows its next picture -/
  | sdiOutPictureBoundary (lane : Fin 8)
  /-- R294: A port's FSYNC edge starts a TDM frame, is time-stamped, and applies staged slots -/
  | audioFsyncEdge (port : Fin 8) (goodLength : Bool)
  /-- R294: No BCLK edge for 4 sample periods makes a slave port's input slots underrun -/
  | audioClockLoss (port : Fin 8)
  /-- R307: Source samples reach a program's buffer, or are discarded as late or overrun -/
  | audioSampleArrival (prog : BitVec 32) (samples : AudioSamples)
  /-- R300: At τ_k + W a grid position is delivered to every sink -/
  | audioPositionDelivery (prog : BitVec 32)
  /-- R303: A 100 ms rate measurement window ends and the rate class may change -/
  | rateWindowEnd (source : BitVec 32) (microHz : BitVec 64) (samples : BitVec 32)
  /-- R304: An ASRC tracking within 2 ppm for 4 ms locks and ramps in -/
  | asrcLock (asrc : Fin 64) (ratio : BitVec 64)
  /-- R315: A DSP completes an AAC-LC access unit -/
  | aacAuDone (prog : BitVec 32) (data : List Byte)
  /-- R370: A PTP message is received and time-stamped at the reference plane -/
  | ptpMessageReceive (port : Fin 16) (domain : BitVec 8) (m : PtpMessage)
  /-- R369: No Announce within announceReceiptTimeout triggers the best-master algorithm -/
  | announceReceiptTimeout (port : Fin 16)
  /-- R369: Firmware changes a PTP port state within 20 ms of its cause -/
  | ptpPortStateChange (port : Fin 16) (target : PtpPortState)
  /-- R378: A PPS_IN edge is time-stamped and gives the servo an offset -/
  | ppsInEdge (rising : Bool)
  /-- R394: A lane detector asserts and the lane goes down -/
  | laneDetectorAssert (lane : Fin 104) (levels : BitVec 5)
  /-- R394: Detectors cleared for 1 ms bring an Ethernet or SDI lane up -/
  | laneUpTimer (lane : Fin 104)
  /-- R388: Auto-negotiation resolves the mode and FEC -/
  | autonegDone (lane : Fin 18) (fec : Fin 4)
  /-- R390: Both receivers are ready and training ends -/
  | trainingDone (lane : Fin 16) (eye : Fin 101)
  /-- R414: A controller scrubs its stack and writes back corrected lines -/
  | scrubPass (die : DramNo) (corrected : BitVec 32)
  /-- R415: An uncorrectable line is poisoned and handled by its region -/
  | dramUncorrectable (die : DramNo) (region : ErrorRegion) (line : BitVec 32)
  /-- R420: The DRAM relocks at the new rate, granting resumes and EV_MEM_FREQ is raised -/
  | freqChangeDone (d : DieNo) (stallNs : BitVec 16)
  /-- R25: A link direction without progress for 50 µs faults the die beyond it -/
  | dowelStall (link : Fin 16)
  /-- R523: SYS_RST_N low for 2 µs is recognised as a reset -/
  | sysRstNLow (ns : Nat)
  /-- R475: The ROM samples straps, checks keep-alive and fuses, and chooses a normal start or recovery -/
  | romStart (bootHost bootRecovery : Bool) (dramOk flashOk : Bool)
  /-- R475: The ROM re-checks the junction every 100 ms while it is too hot -/
  | thermalWaitCheck (junctions : Junctions)
  /-- R447: The security processor approves or fails the chosen images -/
  | imageVerifyDone (pufOk : Bool)
  /-- R476: Boot BIST ends, fencing elements or holding dies in reset -/
  | bistDone (report : BistReport)
  /-- R477: An encode die reports READY -/
  | dieReady (d : DieNo)
  /-- R477: A die not READY within 2.5 s is held in reset -/
  | dieReadyTimeout (d : DieNo)
  /-- R494: A die-controller core's heartbeat reaches the supervisor -/
  | dieHeartbeat (d : DieNo) (core : Fin 2)
  /-- R494: Four missed heartbeats make the supervisor treat the die as faulted -/
  | heartbeatTimeout (d : DieNo)
  /-- R493: Core 1 sends the per-picture fail-over state, which the hub applies -/
  | failoverStateUpdate (chan : BitVec 32)
  /-- R493: A die sends a picture's fill set before coding its row 0 -/
  | fillSetUpdate (chan : BitVec 32) (pic : BitVec 64) (tile : Fin 3)
  /-- R501: Each die starts a self-test slice every 50 ms -/
  | isstSliceStart (d : DieNo)
  /-- R502: A slice ends; the element returns to service or is fenced -/
  | isstSliceEnd (d : DieNo) (result : SliceResult)
  /-- R503: Junction sensors are sampled and the thermal alert is raised or cleared -/
  | thermalSample (junctions : Junctions)
  /-- R504: At 110 °C the comparator drives THERM_TRIP_N low and the device enters the safe state -/
  | thermTrip (die : Fin 9)
  /-- R490: The repair BIST of a fenced management processor ends; it becomes a warm standby, or stays fenced with E_REPAIR -/
  | mpRepairBistDone (pass : Bool)
  /-- R259: In live mode, a row of the jig generator's picture becomes available at its scheduled capture time and is posted -/
  | generatedRowAvailable (chan : BitVec 32) (row : BitVec 8)
  /-- R459: The device receives H1 and answers with H2, signed by IDK -/
  | handshakeH1 (conn : Fin 5) (frame : List (BitVec 8))
  /-- R460: The device checks the controller key and the H3 signature, decapsulates and derives the session keys -/
  | handshakeH3 (conn : Fin 5) (frame : List (BitVec 8))
  /-- R459: A handshake not complete within 5 s is rejected -/
  | handshakeTimeout (conn : Fin 5)
  /-- R460: A protected session frame is authenticated and decrypted, and its ECI records are taken in order -/
  | protectedFrame (n : Fin 4) (frame : List (BitVec 8))
  /-- R225: Every task of a flow at or after a sequence number is cancelled -/
  | flowSquash (sched : SchedNo) (flow : BitVec 12) (seq : BitVec 24)
  /-- R228: A CTRL or external agent releases a keeper lock directly -/
  | directLockRelease (sched : SchedNo) (agent : AgentId) (lock : BitVec 8)
  /-- R349: A gate-list entry's interval ends and the next entry's gate states apply -/
  | gateEntryChange (port : Fin 18)
  /-- R316: A DSP with no access unit for 5 ms is restarted, and silent units are emitted -/
  | dspWatchdog (dsp : Fin 4)
  /-- R316: A restarted DSP resumes encoding with a ramp-in -/
  | dspRestartDone (dsp : Fin 4)
  /-- R390: The partner's coefficient request is applied to the device's taps within 1 µs -/
  | coeffUpdateRequest (lane : Fin 16) (tap : Fin 5) (up : Bool)
  /-- R390: The clause's wait timer expires and training fails -/
  | trainingWaitTimeout (lane : Fin 16)
  /-- R392: The transmitter enters low-power idle after 10 µs without queued frames -/
  | lpiEntry (lane : Fin 16)
  /-- R426: A request arrives at an oldest-first arbiter and ages until granted -/
  | arbiterRequest (arbiter : ArbiterId) (requester : BitVec 6) (beats : BitVec 9) (line : BitVec 27) (write : Bool) (cycles : BitVec 12) (drained : BitVec 7)
  /-- R429: A requester asking for a beat beyond the maximum grant is cut off and quarantined -/
  | arbiterCutoff (arbiter : ArbiterId) (requester : BitVec 6) (beat : BitVec 16)
  /-- R441: A flit with a CRC error or sequence gap triggers a replay -/
  | dowelFlitError (link : Fin 16) (first : BitVec 16)
  /-- R442: Retraining ends and replay resumes from the oldest unacknowledged flit -/
  | dowelRetrainDone (link : Fin 16) (failedLane : Option (Fin 17))
  /-- R463: A tamper sensor trips; it is logged and its response applied -/
  | tamperTrip (sensor : Fin 6) (second : Option (Fin 6)) (whileOff : Bool)
  /-- R454: A test-port instruction is loaded and gated by DBG_KILL -/
  | tapInstructionLoad (load : TapInstruction)
  /-- R499: The repair BIST of a fenced encode die ends; the die reloads and returns to service, or the command completes with E_REPAIR -/
  | dieRepairBistDone (d : DieNo) (pass : Bool)
  /-- R489: A write issued by the fenced management processor before the fence lands in hub DRAM, the scratchpad, the mailbox or a register up to 2 µs later -/
  | fencedProcessorLateWrite (w : LateWrite)
  /-- R392: The wake time of a transmitter in low-power idle ends, and the frame that was queued in LPI may start -/
  | lpiWakeExpiry (lane : Fin 16)
  /-- R392: The link partner enters or leaves low-power idle, and the lane's receive side follows it -/
  | partnerLpi (lane : Fin 16) (enter : Bool)
  /-- R409: An SDI input's equaliser adaptation and rate search, restarted by LANE.TRAIN, fail, and the command completes with E_LANE_TRAIN -/
  | sdiAdaptationFail (lane : Fin 16)
  /-- R30: A read of REC_STATE captures the recovery window snapshot group -/
  | recStateCapture
  /-- R406: PERST_N resets the PCIe interface only, disables every function and resets configuration space -/
  | perstNAssert
  /-- R542: PERST_N rises, and the link trains with configuration space answering within 100 ms -/
  | perstNRelease
  /-- R406: The link goes down without PERST_N, and firmware holds the completions and events it cannot write -/
  | pcieLinkDown
  /-- R406: The link returns to L0 within 100 ms, and the held completions and events are written in order -/
  | pcieLinkReturn
  /-- R406: The link stays down for 100 ms, and firmware acts as at PERST_N -/
  | pcieLinkLossTimeout
  /-- R405: The transmitter enters L0s after 1 µs without traffic -/
  | aspmL0sEntry
  /-- R405: The link enters L1 after 10 µs idle in both directions -/
  | aspmL1Entry
  /-- R459: The 10 s refusal after 8 rejections ends -/
  | connectionLockoutEnd
  /-- R20: A staged set reaches a data-plane unit, which fixes its boundary and acknowledges -/
  | stagedSetArrival
  /-- R70: The device restarts 10 ms after the completion of DEVICE.RESTART or of a life-cycle move -/
  | restartDelayExpiry
  /-- R482: Recovery command 1 returns the reason log -/
  | recGetReasons
  /-- R482: Recovery command 2 returns a recovery-mode quote and certificate -/
  | recGetAttestation
  /-- R482: Recovery command 3 approves the staged image and writes it to any slot -/
  | recLoadImage
  /-- R482: Recovery command 4 makes a slot active at once and clears any trial -/
  | recSetBootSlot
  /-- R482: Recovery command 5 restarts, setting the attempt flag for a normal start -/
  | recRestart
  /-- R482: Recovery command 6 repeats an interrupted life-cycle move -/
  | recFinishLcMove
  /-- R481: Writing key 0x7E5C_0000 to REC_RESET makes the hub reset logic restart normally within 1 ms -/
  | recResetNormal
  /-- R481: Writing key 0x7E5C_0001 to REC_RESET sets the recovery request and restarts -/
  | recResetRecovery
  /-- R344: Every 100 ns every pacer, shaper and policer bucket is refilled -/
  | refillTick
  /-- R363: TIME_NS wraps, and the epoch and WRAP advance -/
  | timeWrap
  /-- R365: Firmware extends the wrap count and journals the tuple at least once per second -/
  | maintenancePass
  /-- R372: No usable measurement for the timeout moves a LOCKED servo to HOLDOVER -/
  | servoHoldoverTimeout
  /-- R377: PPS_OUT rises at each whole PTP second plus the offset -/
  | ppsOutEdge
  /-- R378: No PPS_IN edge for 1.5 s raises EV_PPS_IN lost -/
  | ppsInLost
  /-- R378: REF10M_IN absent for 1 ms makes the servo take frequency from its source -/
  | ref10mInLost
  /-- R466: Firmware deletes KEY objects, closes sessions and draws a new TK after a wipe -/
  | wipeDone
  /-- R492: The security processor's fatal error restarts it and acts as a wipe -/
  | spFatalError
  /-- R470: All three rails are good and the device leaves reset -/
  | powerGood
  /-- R508: A rail below 90 % for 1 µs puts the device into reset -/
  | brownOut
  /-- R523: SYS_RST_N released starts the device -/
  | sysRstNRelease
  /-- R475: Firmware reports READY, READY goes high and the boot counter clears -/
  | firmwareReady
  /-- R478: No READY within 10 s fails the start -/
  | firmwareReadyTimeout
  /-- R478: The device restarts within 100 ms after a failed start -/
  | failedStartRestart
  /-- R488: The primary management processor reports to the supervisor -/
  | mpReport
  /-- R489: No report for 20 ms makes the supervisor fence the primary -/
  | mpReportTimeout
  /-- R489: The primary signals a fatal error and is fenced -/
  | mpFatalError
  /-- R489: The standby has started its verified firmware and replays the journal -/
  | standbyStartDone
  /-- R489: The standby becomes primary, completes journaled commands, writes EV_TAKEOVER and clears TAKEOVER -/
  | takeoverComplete
  /-- R485: VKA_MAIN below 1.62 V switches the island to VKA_BAK -/
  | kaSwitchToBackup
  /-- R485: VKA_MAIN above 1.70 V for 10 ms switches the island back -/
  | kaSwitchToMain
  /-- R492: The restarted security processor is back, and the waiting signature and quote requests, including late manifests, proceed -/
  | securityProcessorRestartDone
  /-- R378: REF10M_IN returns after being absent, and the servo may take frequency from it again -/
  | ref10mInReturn
  /-- R488: The primary journals its other firmware state, including the maintenance tuple and event ring positions, at least every 10 ms -/
  | firmwareStateJournal
deriving DecidableEq, Repr

end Sys2Proof
end

