-- ==== Sys2Proof/Config.lean ====
section
/-!
DEFINITION. The functions and values that the manual leaves to a named standard or leaves open. None has a body:
nothing can be proved about a value of theirs, and every claim holds whatever they are.
-/

namespace Sys2Proof.Config

open Sys2Proof (Byte)

/-- A fresh open value: applied to the state's counter `free` (each use is named in the assumption log). -/
opaque freeNat : Nat → Nat

/-- SHA3-256 (FIPS 202) of a run of bytes, before it is cut to 32 bytes. -/
opaque sha3 : List Byte → List Byte

/-- ML-DSA signature verification (FIPS 204): parameter set (44 or 65), public key, message, signature. -/
opaque mlDsaVerify : Nat → List Byte → List Byte → List Byte → Bool

/-- ML-DSA signing (FIPS 204): parameter set, key seed, message. -/
opaque mlDsaSign : Nat → List Byte → List Byte → List Byte

/-- The ML-DSA or ML-KEM public key of a seed (FIPS 203, FIPS 204): algorithm code of a certificate, seed. -/
opaque publicKey : Nat → List Byte → List Byte

/-- ML-KEM-768 decapsulation (FIPS 203): key seeds d and z, ciphertext. -/
opaque mlKemDecaps : List Byte → List Byte → List Byte → List Byte

/-- AES-256-GCM opening: key, IV, additional data, ciphertext with tag; none when the tag fails. -/
opaque gcmOpen : List Byte → List Byte → List Byte → List Byte → Option (List Byte)

/-- AES-256 of one block (FIPS 197): key, block. -/
opaque aesBlock : List Byte → List Byte → List Byte

/-- A section of a TS table (ISO/IEC 13818-1) with its pointer field: for the PAT the PID of the PMT; for the PMT the PID of the PCR,
and the stream type and PID of each stream, the manifests' PID behind its registration descriptor (R331, R340). -/
opaque patSection : Nat → List Byte
opaque pmtSection : Nat → List (Nat × Nat) → Option Nat → List Byte

/-- A precomputed silent AAC-LC access unit in ADTS (R316): channels, rate code, bit rate. -/
opaque silentAac : Nat → Nat → Nat → List Byte

/-- The ST 302M payload of some positions of 24-bit samples, channel by channel. -/
opaque st302m : List (List Nat) → List Byte

/-- The die's 32-byte PUF key (R445). -/
opaque pufKey : List Byte

/-- Bytes from the TRNG: applied to the state's counter `free`. -/
opaque trng : Nat → List Byte

/-- Version of the mask ROM (R445). -/
opaque romVersion : Nat

/-- Gwedayr's manufacturer code of IDCODE (R454). -/
opaque manufacturerCode : Nat

/-- Whether the PCIe PHY accepts a transmitter preset that the root port requests (R404). -/
opaque eqAccepts : Nat → Bool

/-- The two fixed scaler coefficient sets the device holds (R285), but for the last tap of a phase: set (1 or 2), taps, phase, tap. -/
opaque scalerCoef : Nat → Nat → Nat → Nat → Int

/-- The sample of an audio channel times a gain in units of 2^-23, between silence and full (R305 names no rounding). -/
opaque gainProduct : Int → Nat → Int

/-- The value that an ASRC computes for a grid position from the recent samples of a channel (R304): rate codes of input and output,
samples, position. -/
opaque resample : Nat → Nat → List Int → Nat → Int

/-- A fade-out gain of R305 in units of 2^-23: position and length of the fade. -/
opaque fadeGain : Nat → Nat → Nat

/-- The addend that the servo's proportional-integral loop computes (R372 names no gains): applied to the state's counter
`free`, whether frequency comes from `REF10M_IN`, the present addend, the offset and the time constant. -/
opaque servoAddend : Nat → Bool → Int → Int → Nat → Int

/-- Nanoseconds that the keep-alive oscillator counts in some nanoseconds of device time; held to ±1 % where it is used (R487). -/
opaque kaOscillator : Nat → Nat

/-- The public key that an owner slot hash stands for (a kind 5 certificate names its issuer by hash only, R460). -/
opaque ownerKey : List Byte → List Byte

/-- The event bits that hardware producers of the coding core post, by kind (the recipes of the die firmware choose which of
the 32 event bits stand for what): 1 row arrival, 2 composed row, 3 analysis done, 4 seam data, 5 checkpoint restored. -/
opaque eventBits : Nat → Nat

/-- Device time of the next picture boundary of an SDI output that loops an input through or carries black in its place: the
input's phase and the delay of at most 2 lines (R402) are not given. Applied to the output's handle and the present time. -/
opaque sdiBoundary : Nat → Nat → Nat

/-- The samples of a picture as its standard decodes them (H.265, H.266): the
access unit, and the planes Y, Cb and Cr of each picture of its reference list. -/
opaque decodePicture : List Byte → List (List (List (List Nat))) → List (List (List Nat))

/-- A decoded picture in the chroma format and bit depth of its output surfaces where they differ from its own, which R246 does not
state: chroma format and bit depth from and to, planes. -/
opaque outputFormat : Nat → Nat → Nat → Nat → List (List (List Nat)) → List (List (List Nat))

end Sys2Proof.Config
end

