-- ==== Sys2Proof/Machine/Bits.lean ====
section
/-!
DEFINITION. Bit fields, little-endian byte fields of payloads and responses, and two's-complement readings. Every
multi-byte field of the command interface is little-endian (R7).
-/

namespace Sys2Proof.Machine

open Sys2Proof (Byte)

/-- Bits `lo` to `lo + len - 1` of a value. -/
def bits (v lo len : Nat) : Nat := v / 2 ^ lo % 2 ^ len

/-- One bit of a value. -/
def bit (v i : Nat) : Bool := v / 2 ^ i % 2 == 1

/-- A value with bit `i` set. -/
def setBit (v i : Nat) : Nat := if bit v i then v else v + 2 ^ i

/-- A value with bit `i` clear. -/
def clearBit (v i : Nat) : Nat := if bit v i then v - 2 ^ i else v

/-- One bit as a number. -/
def b2n (b : Bool) : Nat := if b then 1 else 0

/-- How many of the low `n` bits of a value are set. -/
def popCount (v : Nat) : Nat → Nat
  | 0 => 0
  | n + 1 => popCount v n + v / 2 ^ n % 2

/-- The quotient rounded up. -/
def cdiv (a b : Nat) : Nat := (a + b - 1) / b

/-- `v` as `n` bytes, least significant first. -/
def le : Nat → Nat → List Byte
  | 0, _ => []
  | n + 1, v => BitVec.ofNat 8 v :: le n (v / 256)

/-- The value of a run of bytes, least significant first. -/
def ofLe : List Byte → Nat
  | [] => 0
  | b :: bs => b.toNat + 256 * ofLe bs

/-- `n` bytes of a payload from an offset; bytes beyond the payload read as zero (R49). -/
def fieldAt (p : List Byte) (off n : Nat) : Nat := ofLe ((p.drop off).take n)

def u8 (p : List Byte) (off : Nat) : Nat := fieldAt p off 1
def u16 (p : List Byte) (off : Nat) : Nat := fieldAt p off 2
def u32 (p : List Byte) (off : Nat) : Nat := fieldAt p off 4
def u64 (p : List Byte) (off : Nat) : Nat := fieldAt p off 8

/-- A `w`-bit value read as two's complement (R7). -/
def sgn (w v : Nat) : Int := if v % 2 ^ w < 2 ^ (w - 1) then (v % 2 ^ w : Nat) else (v % 2 ^ w : Nat) - (2 ^ w : Nat)

/-- An integer as a `w`-bit two's-complement value. -/
def twos (w : Nat) (i : Int) : Nat := (i % (2 ^ w : Nat)).toNat

def s8 (p : List Byte) (off : Nat) : Int := sgn 8 (u8 p off)
def s16 (p : List Byte) (off : Nat) : Int := sgn 16 (u16 p off)
def s32 (p : List Byte) (off : Nat) : Int := sgn 32 (u32 p off)
def s64 (p : List Byte) (off : Nat) : Int := sgn 64 (u64 p off)

/-- `n` payload bytes at an offset, padded with zeros (R49). -/
def slice (p : List Byte) (off n : Nat) : List Byte :=
  let b := (p.drop off).take n
  b ++ List.replicate (n - b.length) 0

/-- A run of reserved payload bytes is zero. -/
def zeros (p : List Byte) (off n : Nat) : Bool := fieldAt p off n == 0

def clampN (lo hi v : Nat) : Nat := max lo (min hi v)
def clampI (lo hi v : Int) : Int := max lo (min hi v)

/-- Round half up of a rational `a / b`, for `b > 0` (floor of a/b + 1/2). -/
def roundHalfUp (a : Int) (b : Nat) : Int := (2 * a + b) / (2 * b : Nat)

/-- One step of the generator of R259, and the next value: the register after 32 steps. -/
def lfsrStep (r : Nat) : Nat := if r % 2 = 1 then (r / 2) ^^^ 0x80200003 else r / 2
def lfsrNext (r : Nat) : Nat := (List.range 32).foldl (fun r _ => lfsrStep r) r

/-- A counter that saturates at the largest value of its `n` bytes (R240). -/
def sat (n v : Nat) : List Byte := le n (min v (256 ^ n - 1))

end Sys2Proof.Machine
end

