-- ==== Sys2Proof/Machine/Cells.lean ====
section
/-!
DEFINITION. Byte memories in canonical form: address and byte pairs with strictly rising addresses and no byte equal
to what an unlisted address reads as, which is zero (DESIGN CHOICE, log entry 3).
-/

namespace Sys2Proof.Machine

open Sys2Proof (Byte)

/-- A byte memory. -/
abbrev Cells := List Host.Cell

/-- The byte at an address; an unlisted address reads zero. -/
def Cells.get (m : Cells) (a : Nat) : Byte :=
  match m with
  | [] => 0
  | (b, v) :: r => if b = a then v else Cells.get r a

/-- The memory with a byte stored, in canonical form. -/
def Cells.set (m : Cells) (a : Nat) (v : Byte) : Cells :=
  match m with
  | [] => if v = 0 then [] else [(a, v)]
  | (b, w) :: r =>
    if a < b then (if v = 0 then (b, w) :: r else (a, v) :: (b, w) :: r)
    else if a = b then (if v = 0 then r else (a, v) :: r)
    else (b, w) :: Cells.set r a v

/-- A run of bytes stored from an address. -/
def Cells.store (m : Cells) (a : Nat) : List Byte → Cells
  | [] => m
  | v :: vs => Cells.store (m.set a v) (a + 1) vs

/-- `n` bytes from an address. -/
def Cells.load (m : Cells) (a : Nat) : Nat → List Byte
  | 0 => []
  | n + 1 => m.get a :: Cells.load m (a + 1) n

/-- Every listed address lies above a bound, the addresses rise strictly, and no listed byte is zero. -/
def Cells.wfFrom (lo : Nat) : Cells → Bool
  | [] => true
  | (a, v) :: r => decide (lo ≤ a) && !decide (v = 0) && Cells.wfFrom (a + 1) r

/-- The canonical form. -/
def Memory.wf (m : Cells) : Bool := Cells.wfFrom 0 m

end Sys2Proof.Machine
end

