-- ==== Sys2Proof/Machine/Change.lean ====
section
/-!
DEFINITION. The staged sets that firmware sends to units of the data plane (R19): what each changes when its boundary
comes. Settings are carried as the payload bytes of the command that gave them.
-/

namespace Sys2Proof.Machine

open Sys2Proof (Byte)

/-- A change that a staged set makes at its boundary. -/
inductive Change where
  /-- `CHANNEL.START` (R73) -/
  | start (ch : Nat)
  /-- `CHANNEL.STOP` (R73) -/
  | stop (ch : Nat)
  /-- `SLOT_TABLE.SET`: the shadow slot table of a die (R85) -/
  | slotTable (die : Nat) (slots : List Nat)
  /-- `ANALYSIS.SET` (R136) -/
  | analysis (ch : Nat) (p : List Byte)
  /-- `CODING.SEI` (R172) -/
  | sei (ch : Nat) (p : List Byte)
  /-- `RC.SET` (R205) -/
  | rc (ch : Nat) (p : List Byte)
  /-- `STATS.SET` (R260) -/
  | stats (ch : Nat) (p : List Byte)
  /-- `CHECK.BIND` and `CHECK.UNBIND` (R266) -/
  | checkBind (check : Nat) (p : List Byte)
  | checkUnbind (check : Nat)
  /-- `LAYER.COMMIT`: the staged layer states taken, and the layers removed (R288) -/
  | layers (ch : Nat) (sets : List (Nat × List Byte)) (removed : List Nat)
  /-- `EGRESS.SET` (R335), `EGRESS.PROVENANCE` (R336), `EGRESS.KEY` (R343), `EGRESS.IMPAIR` (R353) and the end of a
  stream (R358) -/
  | egress (eg : Nat) (p : List Byte)
  | provenance (eg : Nat) (p : List Byte)
  | egressKey (eg key phase : Nat)
  | impair (eg : Nat) (p : List Byte)
  | egressEnd (eg : Nat)
  /-- `SHAPER.SET` (R348) -/
  | shaper (port cls : Nat) (p : List Byte)
  /-- `POLICER.SET` (R352) -/
  | policer (pol : Nat) (p : List Byte)
  /-- `GATELIST.SET` (R351) -/
  | gates (port : Nat) (p : List Byte)
  /-- `AUDIO_PORT.SLOTS` (R297) -/
  | audioSlots (port : Nat) (p : List Byte)
  /-- `AUDIO_PROGRAM.SET` (R318) -/
  | audioProgram (prog : Nat) (p : List Byte)
  /-- `PPS.SET` (R377) -/
  | pps (p : List Byte)
  /-- `AUDIO_EMBED.SET` (R312) -/
  | embed (lane : Nat) (p : List Byte)
  /-- `SDI_OUT.SET` (R402) -/
  | sdiOut (lane : Nat) (p : List Byte)
  /-- `MEM.FREQ`: a die's DRAM operating point (R419) -/
  | memFreq (die point : Nat)
deriving DecidableEq, Repr

end Sys2Proof.Machine
end

