-- ==== Sys2Proof/Machine/Tab.lean ====
section
/-!
DEFINITION. A table from numbers (handles, queue numbers, lanes, slots) to records: a list of pairs with strictly
rising keys. It is plain data, so equal tables are equal lists.
-/

namespace Sys2Proof.Machine

/-- A sparse table keyed by a number. -/
abbrev Tab (α : Type) := List (Nat × α)

variable {α : Type}

/-- The entry under a key. -/
def Tab.find (t : Tab α) (k : Nat) : Option α :=
  match t with
  | [] => none
  | (j, v) :: r => if j = k then some v else Tab.find r k

/-- The entry under a key, or a default where the table lists none. -/
def Tab.look (t : Tab α) (d : α) (k : Nat) : α := (t.find k).getD d

/-- The table with an entry under a key. -/
def Tab.put (t : Tab α) (k : Nat) (v : α) : Tab α :=
  match t with
  | [] => [(k, v)]
  | (j, w) :: r => if k < j then (k, v) :: (j, w) :: r else if k = j then (k, v) :: r else (j, w) :: Tab.put r k v

/-- The table without any entry under a key. -/
def Tab.del (t : Tab α) (k : Nat) : Tab α := t.filter fun e => e.1 != k

/-- The table with its entry under a key, if any, changed. -/
def Tab.upd (t : Tab α) (k : Nat) (f : α → α) : Tab α := t.map fun e => if e.1 = k then (e.1, f e.2) else e

/-- The table with the entry under a key, or the default, changed and listed. -/
def Tab.modD (t : Tab α) (d : α) (k : Nat) (f : α → α) : Tab α := t.put k (f (t.look d k))

/-- Every entry changed. -/
def Tab.mapV (t : Tab α) (f : Nat → α → α) : Tab α := t.map fun e => (e.1, f e.1 e.2)

/-- The entries a test picks. -/
def Tab.sel (t : Tab α) (p : Nat → α → Bool) : Tab α := t.filter fun e => p e.1 e.2

/-- Whether a key is listed. -/
def Tab.has (t : Tab α) (k : Nat) : Bool := (t.find k).isSome

def Tab.keys (t : Tab α) : List Nat := t.map (·.1)
def Tab.vals (t : Tab α) : List α := t.map (·.2)

/-- The keys rise strictly. -/
def Tab.sorted : Tab α → Bool
  | [] => true
  | [_] => true
  | (j, _) :: (k, w) :: r => decide (j < k) && Tab.sorted ((k, w) :: r)

end Sys2Proof.Machine
end

