-- ==== Sys2Proof/Machine/StateEci.lean ====
section
/-!
DEFINITION. The state of the command interface (The Etdun Command Interface, Architecture and Data Flow): status
codes, entries, rings, functions, fetched and running commands, sessions.
-/

namespace Sys2Proof.Machine

open Sys2Proof (Byte Word Submission)

/-- Status codes of completions (R59 and the status tables of the chapters). -/
inductive Status where
  | ok | wAppliedLater | wStartAdvanced | wDegraded
  | eBusy | eBadOpcode | eBadParam | eBadHandle | eState | eNoCapacity | eDenied | eLinebuf | eTakeover | eTimeout
  | eIntegrity | eLocked | eHwFault
  | eQid | eRingParam | eQuota | eSession
  /-- an error of a subsystem: range byte and number (R58) -/
  | sub (range n : Nat)
deriving DecidableEq, Repr

/-- The 16-bit `STATUS` value of a status (R58, R59). -/
def Status.code : Status → Nat
  | .ok => 0 | .wAppliedLater => 1 | .wStartAdvanced => 2 | .wDegraded => 3
  | .eBusy => 0x100 | .eBadOpcode => 0x101 | .eBadParam => 0x102 | .eBadHandle => 0x103 | .eState => 0x104
  | .eNoCapacity => 0x105 | .eDenied => 0x106 | .eLinebuf => 0x107 | .eTakeover => 0x108 | .eTimeout => 0x109
  | .eIntegrity => 0x10A | .eLocked => 0x10B | .eHwFault => 0x10C
  | .eQid => 0x1000 | .eRingParam => 0x1001 | .eQuota => 0x1002 | .eSession => 0x1003
  | .sub r n => 0x1000 + r * 0x100 + n

/-- A status below `0x0100` is OK or a warning: the command took effect (R59). -/
def Status.isError (st : Status) : Bool := decide (0x100 ≤ st.code)

/-- The effect boundary a completion reports (R19). -/
inductive Boundary where
  | pic (n : Nat)
  | time (t : Nat)
deriving DecidableEq, Repr

/-- What a command answers: the fields of its completion entry and its response bytes. -/
structure Reply where
  status : Status := .ok
  result : Nat := 0
  detail : Nat := 0
  boundary : Option Boundary := none
  response : List Byte := []
  /-- bytes that `MEM.COPY` writes to host memory -/
  copied : List Byte := []
deriving DecidableEq, Repr

/-- A completion entry as written to a completion ring, a fast-path slot or a session (table of 32 bytes), with the
response bytes written to `RESPONSE_ADDR`. -/
structure Completion where
  status : Status
  cmdId : Nat
  sqHead : Nat := 0
  queue : Nat := 0
  phase : Bool := true
  trunc : Bool := false
  result : Nat := 0
  /-- full length of the response -/
  responseLen : Nat := 0
  boundary : Option Boundary := none
  detail : Nat := 0
  /-- the response bytes written, at most `RESPONSE_LEN` of them (R49) -/
  response : List Byte := []
  /-- the bytes that `MEM.COPY` has written to host memory (R439) -/
  copied : List Byte := []
deriving DecidableEq, Repr

/-- An event entry (table of 32 bytes). -/
structure Event where
  code : Nat
  severity : Nat
  handle : Nat
  time : Nat
  /-- none is written as all ones -/
  pic : Option Nat := none
  detail : Nat := 0
  phase : Bool := true
  afterLoss : Bool := false
deriving DecidableEq, Repr

/-- How a command came in: a ring, a fast-path slot or a network session. -/
inductive Via where
  | ring (f q : Nat)
  | fast (f slot : Nat)
  | session (n f : Nat)
deriving DecidableEq, Repr

/-- The function with whose rights a command acts (R56, R64). -/
def Via.fn : Via → Nat
  | .ring f _ => f
  | .fast f _ => f
  | .session _ f => f

/-- One submission entry that firmware has fetched and not yet started. `seq` orders fetches over all queues (R21,
R62); `sqHead` is the submission head after this fetch. -/
structure Token where
  via : Via
  seq : Nat
  opcode : Nat
  cmdId : Nat
  handle : Nat
  fence : Bool
  sqHead : Nat := 0
  /-- its function's ECI was disabled, or its session closed, after the fetch: it takes effect and writes no completion
  (R41, R64) -/
  mute : Bool := false
  /-- a session's submission entry with what its PAYLOAD records have carried so far (R63); a ring's entry stays in host
  memory -/
  entry : Option Submission := none
deriving DecidableEq, Repr

/-- A command that is being run: its token and its submission entry. -/
structure Cmd where
  tok : Token
  sub : Submission
deriving DecidableEq, Repr

/-- The kind of boundary a staged set waits for, with the object it belongs to (R19). -/
inductive BoundaryKind where
  /-- the first picture boundary of a channel not begun -/
  | picture (ch : Nat)
  /-- a picture boundary of a source (the start of a channel) -/
  | source (ch : Nat)
  /-- pipe 3's next picture boundary on a die -/
  | pipe3 (die : Nat)
  /-- the next access unit of an egress stream -/
  | accessUnit (eg : Nat)
  /-- a named access unit of an egress stream -/
  | accessUnitAt (eg n : Nat)
  /-- the next TDM frame of an audio port -/
  | tdm (port : Nat)
  /-- the next TDM frame of an audio program -/
  | position (prog : Nat)
  /-- the next picture boundary of an SDI output -/
  | sdiOut (lane : Nat)
  /-- the next 100 ns refill tick -/
  | refill
  /-- a named device time -/
  | timeAt (t : Nat)
  /-- no boundary: at the completion (R541) -/
  | now
deriving DecidableEq, Repr

/-- What a started command still waits for before it completes. -/
inductive Await where
  /-- its staged set reaching the data-plane unit (R20) -/
  | arrival (kind : BoundaryKind) (change : Change)
  /-- the deletion of a queue, after every fetched command of it (R67) -/
  | queueDelete (q : Nat)
  /-- the repair BIST of a die (R499) -/
  | dieRepair (die : Nat)
  /-- the repair BIST of the fenced management processor (R490) -/
  | mpRepair
  /-- the end of a lane's training or adaptation (R409) -/
  | train (lane : Nat)
  /-- the copy of a submitted picture (R256) -/
  | pictureCopy (ch pic : Nat)
  /-- the security processor's restart (R492) -/
  | securityProcessor
  /-- the end of the picture that pipe 3 of a die codes, with a set that has reached the die (R85) -/
  | pipe3Boundary (die : Nat) (change : Change)
deriving DecidableEq, Repr

/-- A command that firmware has started (and journaled, R22) and not yet completed, with the completion it will get. -/
structure Running where
  cmd : Cmd
  await : Await
  reply : Reply
deriving DecidableEq, Repr

/-- A staged set whose boundary a unit has fixed (R20); sets of one boundary apply in submission order (R21). -/
structure Staged where
  kind : BoundaryKind
  boundary : Boundary
  seq : Nat
  change : Change
deriving DecidableEq, Repr

/-- A submission and completion ring pair. The index words live in the mailbox SRAM; `sqHead` and `cqTail` are
firmware's own copies (R44). -/
structure Queue where
  sqBase : Nat := 0
  cqBase : Nat := 0
  sqLog2 : Nat := 4
  cqLog2 : Nat := 4
  sqHead : Nat := 0
  cqTail : Nat := 0
  /-- the phase bit of the present pass over the completion ring (R50) -/
  phase : Bool := true
  /-- the error state of R48 -/
  error : Bool := false
  /-- no more fetching: the queue is being deleted (R67) -/
  deleting : Bool := false
  /-- firmware knows entries to fetch: a doorbell rang, or its last reading of `SQ_TAIL` left some (R47, R62) -/
  rung : Bool := false
  /-- fetched commands that hold a completion slot and have not completed (R47) -/
  claimed : Nat := 0
  /-- the completion entries firmware has written, by ring slot -/
  cq : Tab Completion := []
deriving DecidableEq, Repr

/-- A function's event ring (R51). -/
structure EventRing where
  base : Nat := 0
  log2 : Nat := 4
  tail : Nat := 0
  phase : Bool := true
  error : Bool := false
  /-- entries written, by ring slot -/
  slots : Tab Event := []
  /-- up to 256 events held while the ring has no space, oldest first -/
  held : List Event := []
  /-- events lost beyond the held ones, or discarded while ECI is disabled (R41, R51) -/
  lost : Nat := 0
  lostFirst : Nat := 0
  lostLast : Nat := 0
  /-- the next entry written carries `AFTER_LOSS` -/
  afterLoss : Bool := false
deriving DecidableEq, Repr

/-- One coalesced cause: entries since its vector was last raised and the time of the first of them (R42). -/
structure Coalesce where
  entries : Nat := 0
  first : Option Nat := none
deriving DecidableEq, Repr

/-- A function's holding sets of the snapshot groups (R30, R32). -/
structure Holding where
  bootStage : Word := 0
  bootStatus : Word := 0
  bootCount : Word := 0
  timeNs : Word := 0
  timeFrac : Word := 0
  epoch0 : Word := 0
  epoch1 : Word := 0
  epoch2 : Word := 0
  recState : Word := 0
  recReason0 : Word := 0
  recReason1 : Word := 0
  mbxCollideCnt : Word := 0
deriving DecidableEq, Repr

/-- Firmware's holding sets (R32): the device time group, and the last capture of each group that only firmware reads, by
group: 0 stream counters, 1 lane counters, 2 scheduler state, 3 ASRC state, 4 memory counters (R29). -/
structure FwHolding where
  timeNs : Nat := 0
  timeFrac : Nat := 0
  epNs : Nat := 0
  epSec : Nat := 0
  wraps : Nat := 0
  groups : Tab (List Nat) := []
deriving DecidableEq, Repr

/-- A VF's quotas (R68). -/
structure Quota where
  dieMask : Nat := 0
  maxChannels : Nat := 0
  maxEgress : Nat := 0
  maxIngress : Nat := 0
deriving DecidableEq, Repr

/-- One function's instance of the BAR0 registers, its rings and its interrupt state (R37). -/
structure FnState where
  /-- a VF that the SR-IOV capability enables (R34); PF0 is always present -/
  enabled : Bool := false
  /-- `ECI_CTRL.EN` -/
  en : Bool := false
  rdy : Bool := false
  cfgErr : Bool := false
  asqBase : BitVec 64 := 0
  acqBase : BitVec 64 := 0
  eqBase : BitVec 64 := 0
  ringSizes : Word := 0
  /-- the ring bases and sizes as they stood when `EN` was set (R40) -/
  setAsq : BitVec 64 := 0
  setAcq : BitVec 64 := 0
  setEq : BitVec 64 := 0
  setSizes : Word := 0
  intCause : Nat := 0
  /-- `BOOT`, `MBX_COLLIDE` and `FAST_DONE` are masked at reset -/
  intMask : Nat := 0x940000
  intCoalesce : Word := 0
  /-- coalesced causes that are due (R42), as a mask of cause bits -/
  due : Nat := 0
  /-- by cause bit: 0 `ACQ`, 1 to 16 `IOCQ`, 17 `EVENT` -/
  coalesce : Tab Coalesce := []
  /-- how often each MSI-X vector has been raised -/
  raised : Tab Nat := []
  /-- the words of the MSI-X table that software has written, and the pending-bit array (R35) -/
  msix : Tab Word := []
  pba : Nat := 0
  fastBusy : Bool := false
  collide : Bool := false
  collideCnt : Nat := 0
  /-- when `EV_MBX_COLLIDE` was last sent (at most one per 1 ms) -/
  collideSent : Option Nat := none
  hold : Holding := {}
  queues : Tab Queue := []
  ring : EventRing := {}
  /-- fast-path slots whose doorbell waits, in doorbell order (R52) -/
  fastQueue : List Nat := []
  /-- the command being served from a slot has started and not completed -/
  fastRunning : List Nat := []
  /-- `DEVICE.EVENT_MASK` -/
  eventRanges : Nat := 0x7FFF
  eventMinSeverity : Nat := 0
  quota : Quota := {}
deriving DecidableEq, Repr

/-- A record sent to the controller of a network session (R63), in the order sent. -/
inductive Record where
  | complete (c : Completion)
  /-- up to 65,532 bytes of the preceding completion's response -/
  | response (bytes : List Byte)
  | event (e : Event)
deriving DecidableEq, Repr

/-- Where the handshake of a network connection stands (R459, R460). -/
inductive SessionPhase where
  /-- connected, H1 awaited -/
  | connected
  /-- H2 sent, H3 awaited -/
  | h2Sent
  /-- keys derived: the session is established -/
  | established
deriving DecidableEq, Repr

/-- One network connection to the ECI port and the session on it. -/
structure Session where
  phase : SessionPhase := .connected
  /-- when the connection was made: the handshake must end within 5 s (R459) -/
  since : Nat := 0
  /-- the function whose rights the credential gives -/
  fn : Nat := 0
  credential : Nat := 0
  /-- `SESSION.OPEN` has been taken -/
  opened : Bool := false
  lastRecord : Nat := 0
  /-- frame counters of the two directions (R460) -/
  rxCount : Nat := 0
  txCount : Nat := 0
  /-- controller-to-device and device-to-controller keys (R460) -/
  rxKey : List Byte := []
  txKey : List Byte := []
  sent : List Record := []
  /-- the preceding submission, which PAYLOAD records belong to -/
  lastSubmit : Option Nat := none
  /-- close once the completion of `SESSION.CLOSE` has been sent -/
  closing : Bool := false
  /-- the transcript so far: H1 as received and H2 as sent -/
  h1 : List Byte := []
  h2 : List Byte := []
deriving DecidableEq, Repr

/-- An ownership transfer: commands fetched before `seq` are judged by the former owner (R57). -/
structure Transfer where
  handle : Nat
  former : Nat
  seq : Nat
deriving DecidableEq, Repr

/-- A type's first-in first-out free list of indices: never used ones from `next` on, after those freed (R55). -/
structure FreeList where
  next : Nat := 0
  freed : List Nat := []
deriving DecidableEq, Repr

/-- The command interface as a whole. -/
structure Eci where
  fns : Tab FnState := []
  /-- the mailbox SRAM (R43): bytes at SRAM offsets; an unlisted byte reads 0 -/
  mailbox : Cells := []
  /-- SR-IOV NumVFs (R34) -/
  numVfs : Nat := 0
  nextSeq : Nat := 0
  /-- the function and queue from which the round of R62 goes on -/
  turn : Nat × Nat := (0, 0)
  /-- firmware's holding sets -/
  fwHold : FwHolding := {}
  fetched : List Token := []
  running : List Running := []
  staged : List Staged := []
  sessions : Tab Session := []
  /-- the TCP port of the ECI listener (R63, R461) -/
  sessionPort : Nat := 7418
  /-- times of the rejections counted towards a lockout, and when a lockout ends (R459) -/
  rejections : List Nat := []
  lockoutUntil : Option Nat := none
  /-- owners of objects (R56); a hardware object not listed belongs to PF0 -/
  owners : Tab Nat := []
  /-- the last owner of a destroyed object (R51) -/
  lastOwners : Tab Nat := []
  transfers : List Transfer := []
  /-- free lists, by object type -/
  freeLists : Tab FreeList := []
  /-- committed configuration (R457): by handle, the payload of the last command of each opcode that created or set it -/
  config : Tab (Tab (List Byte)) := []
  /-- the host PCIe link carries writes (R406) -/
  linkUp : Bool := false
  /-- when the link went down without `PERST_N` -/
  linkDownAt : Option Nat := none
  /-- `PERST_N` is low, and when it rose -/
  perst : Bool := false
  /-- the link's data rate generation and width (R403, R407), and its low-power state (R405): 0 L0, 1 L0s, 2 L1 -/
  linkGen : Nat := 0
  linkWidth : Nat := 0
  linkPower : Nat := 0
  /-- by lane: presets of the root port's transmitters that phase 2 settled, and the answers to its last requests (R404) -/
  presets : Tab Nat := []
  eqAnswers : Tab Bool := []
  /-- completions held while the link is down or a take-over runs: function, queue, entry, oldest first (R406) -/
  heldCompletions : List (Nat × Nat × Completion) := []
deriving DecidableEq, Repr

end Sys2Proof.Machine
end

