-- ==== Sys2Proof/Machine/Names.lean ====
section
/-!
DEFINITION. The names of the status tables, the event tables and the opcode tables of the manual's chapters (R58, R59).
-/

namespace Sys2Proof.Machine

def eLevel : Status := .sub 1 0
def eMitre : Status := .sub 1 1
def eP3Rate : Status := .sub 1 2
def eSlotTable : Status := .sub 1 3
def eSlateFormat : Status := .sub 1 4
def eSource : Status := .sub 1 5
def eLadder : Status := .sub 1 6
def eDelay : Status := .sub 1 7
def eStructure : Status := .sub 2 0
def eRcCpb : Status := .sub 3 0
def eRcRateLow : Status := .sub 3 1
def eRcQp : Status := .sub 3 2
def eTraceLimit : Status := .sub 4 0
def eDecFormat : Status := .sub 5 0
def eRefSource : Status := .sub 5 1
def eJig : Status := .sub 5 2
def eStatsSize : Status := .sub 5 3
def eCheckBind : Status := .sub 5 4
def eLayerLimit : Status := .sub 6 0
def eCompFormat : Status := .sub 6 1
def eLayerGeom : Status := .sub 6 2
def eAudioBclk : Status := .sub 7 0
def eAudioClock : Status := .sub 7 1
def eAudioRoute : Status := .sub 7 2
def eAudioPlayout : Status := .sub 7 3
def eAac : Status := .sub 7 4
def eNetKind : Status := .sub 8 0
def eNetFormat : Status := .sub 8 1
def eNetAddr : Status := .sub 8 2
def ePaceLow : Status := .sub 8 3
def eGatelist : Status := .sub 8 4
def eKeyShared : Status := .sub 8 5
def eProvKind : Status := .sub 8 6
def eImpair : Status := .sub 8 7
def eArbMode : Status := .sub 8 8
def eTimeUnlocked : Status := .sub 9 0
def eAlign : Status := .sub 9 1
def eLaneMode : Status := .sub 10 0
def eLaneKind : Status := .sub 10 1
def eLaneTrain : Status := .sub 10 2
def eQuad : Status := .sub 10 3
def eMemFreq : Status := .sub 11 0
def eCopyRange : Status := .sub 11 1
def eLcPrecond : Status := .sub 12 0
def eAuthCounter : Status := .sub 12 1
def eLastKey : Status := .sub 12 2
def eSvn : Status := .sub 12 3
def eKeyExists : Status := .sub 12 4
def eSlotActive : Status := .sub 13 0
def eRepair : Status := .sub 13 1

/-- An event kind: its code and the severity its table gives. -/
abbrev EventKind := Nat × Nat

def evEventLost : EventKind := (0x8001, 1)
def evTakeover : EventKind := (0x8002, 1)
def evOwnerChanged : EventKind := (0x8003, 0)
def evQueueError : EventKind := (0x8004, 2)
def evMbxCollide : EventKind := (0x8005, 1)
def evSessionClosed : EventKind := (0x8006, 0)
def evChannelState : EventKind := (0x8101, 0)
def evInputLost : EventKind := (0x8102, 1)
def evSlateOn : EventKind := (0x8103, 1)
def evInputRestored : EventKind := (0x8104, 0)
def evChannelRetime : EventKind := (0x8105, 1)
def evSlotTableApplied : EventKind := (0x8106, 0)
def evEffortLowered : EventKind := (0x8107, 1)
def evSceneChange : EventKind := (0x8201, 0)
def evMsuShared : EventKind := (0x8202, 1)
def evRefreshDone : EventKind := (0x8203, 0)
def evCaptionDrop : EventKind := (0x8204, 1)
def evRcSkive : EventKind := (0x8301, 1)
def evRcDeadlineFill : EventKind := (0x8302, 1)
def evChannelSlip : EventKind := (0x8303, 1)
def evRcRecovered : EventKind := (0x8304, 2)
def evSchedFull : EventKind := (0x8401, 1)
def evLockBroken : EventKind := (0x8402, 2)
def evTaskAborted : EventKind := (0x8403, 2)
def evAgentFenced : EventKind := (0x8404, 2)
def evTraceDone : EventKind := (0x8405, 0)
def evDecRefMissing : EventKind := (0x8501, 1)
def evDecError : EventKind := (0x8502, 1)
def evDecNonconform : EventKind := (0x8503, 1)
def evCheckMismatch : EventKind := (0x8504, 2)
def evCheckEmpty : EventKind := (0x8505, 0)
def evStatsOverrun : EventKind := (0x8506, 1)
def evRefHalt : EventKind := (0x8507, 2)
def evCommitApplied : EventKind := (0x8601, 0)
def evWeltError : EventKind := (0x8602, 1)
def evAudioUnderrun : EventKind := (0x8701, 1)
def evAudioRestored : EventKind := (0x8702, 0)
def evAudioOverrun : EventKind := (0x8703, 1)
def evAudioRate : EventKind := (0x8704, 1)
def evAsrcLock : EventKind := (0x8705, 0)
def evSlotsApplied : EventKind := (0x8706, 0)
def evAudioPort : EventKind := (0x8707, 2)
def evAudioDspRestart : EventKind := (0x8708, 2)
def evIngressLoss : EventKind := (0x8801, 1)
def evIngressPath : EventKind := (0x8802, 1)
def evIngressTiming : EventKind := (0x8803, 1)
def evGatelistApplied : EventKind := (0x8804, 0)
def evKeyApplied : EventKind := (0x8805, 0)
def evProvBacklog : EventKind := (0x8806, 1)
def evPolicerDrop : EventKind := (0x8807, 1)
def evPaceQueue : EventKind := (0x8808, 1)
def evTimeState : EventKind := (0x8901, 1)
def evTimeStep : EventKind := (0x8902, 1)
def evPtpPort : EventKind := (0x8903, 0)
def evPtpGm : EventKind := (0x8904, 1)
def evEpochResolved : EventKind := (0x8905, 1)
def evPpsIn : EventKind := (0x8906, 1)
def evAlignLost : EventKind := (0x8907, 1)
def evLaneUp : EventKind := (0x8A01, 0)
def evLaneDown : EventKind := (0x8A02, 1)
def evLaneFec : EventKind := (0x8A03, 1)
def evSdiFormat : EventKind := (0x8A04, 1)
def evSdiSkew : EventKind := (0x8A05, 2)
def evSdiCrc : EventKind := (0x8A06, 1)
def evPcieLink : EventKind := (0x8A07, 1)
def evArbCutoff : EventKind := (0x8B01, 2)
def evMemEcc : EventKind := (0x8B02, 0)
def evMemUncorr : EventKind := (0x8B03, 2)
def evMemFreq : EventKind := (0x8B04, 0)
def evDowelReplay : EventKind := (0x8B05, 1)
def evDowelRetrain : EventKind := (0x8B06, 1)
def evPbDrop : EventKind := (0x8B07, 1)
def evSramSpare : EventKind := (0x8B08, 1)
def evTamper : EventKind := (0x8C01, 2)
def evKeyWiped : EventKind := (0x8C02, 2)
def evDebugUnlocked : EventKind := (0x8C03, 2)
def evCounterRestored : EventKind := (0x8C04, 1)
def evSessionRejected : EventKind := (0x8C05, 1)
def evDieFault : EventKind := (0x8D01, 2)
def evDieFailover : EventKind := (0x8D02, 2)
def evIsstFail : EventKind := (0x8D03, 2)
def evMpState : EventKind := (0x8D04, 1)
def evKaSupply : EventKind := (0x8D05, 1)
def evBootFallback : EventKind := (0x8D06, 2)
def evDegraded : EventKind := (0x8D07, 2)
def evThermAlert : EventKind := (0x8E01, 2)

/-- Every opcode that a command uses; any other completes with `E_BAD_OPCODE` (R58). -/
def knownOpcodes : List Nat :=
  [0x0001, 0x0002, 0x0003, 0x0004, 0x0005, 0x0006, 0x0007, 0x0008, 0x0009, 0x000A, 0x000B, 0x0010, 0x0011, 0x0012,
   0x0101, 0x0102, 0x0103, 0x0104, 0x0105, 0x0106, 0x0107, 0x0108, 0x0109, 0x010A, 0x010B, 0x010C,
   0x0201, 0x0202, 0x0203, 0x0204, 0x0205, 0x0206, 0x0207, 0x0208,
   0x0301, 0x0302, 0x0303, 0x0304,
   0x0401, 0x0402, 0x0403, 0x0404, 0x0405, 0x0406, 0x0407, 0x0408,
   0x0501, 0x0502, 0x0503, 0x0504, 0x0505, 0x0506, 0x0507, 0x0508, 0x0509, 0x050A, 0x050B, 0x050C, 0x050D, 0x050E,
   0x0601, 0x0602, 0x0603, 0x0604, 0x0605, 0x0606, 0x0607, 0x0608, 0x0609,
   0x0701, 0x0702, 0x0703, 0x0704, 0x0705, 0x0706, 0x0707, 0x0708, 0x0709, 0x070A, 0x070B,
   0x0801, 0x0802, 0x0803, 0x0804, 0x0805, 0x0806, 0x0807, 0x0808, 0x0809, 0x080A, 0x080B, 0x080C, 0x080D, 0x080E, 0x080F, 0x0810, 0x0811, 0x0812, 0x0813,
   0x0901, 0x0902, 0x0903, 0x0904, 0x0905, 0x0906, 0x0907, 0x0908, 0x0909, 0x090A,
   0x0A01, 0x0A02, 0x0A03, 0x0A04, 0x0A05,
   0x0B01, 0x0B02, 0x0B03, 0x0B04,
   0x0C01, 0x0C02, 0x0C03, 0x0C04, 0x0C05, 0x0C06, 0x0C07, 0x0C08, 0x0C09, 0x0C0A, 0x0C0B, 0x0C0C, 0x0C0D, 0x0C0E, 0x0C0F,
   0x0D01, 0x0D02, 0x0D03, 0x0D04, 0x0D05, 0x0D06,
   0x0E01]

end Sys2Proof.Machine
end

