-- ==== Sys2Proof/Machine/Sizes.lean ====
section
/-!
DEFINITION. How many bytes the payload of a command has: its payload table, or its prose description, with any variable
part sized by its count field (R8). Bytes beyond it are neither read nor checked.
-/

namespace Sys2Proof.Machine

open Sys2Proof (Byte)

/-- Payloads of a fixed length, by opcode: every command whose table or description has no count field. -/
def fixedSizes : List (Nat × Nat) :=
  [(0x0003, 4), (0x0004, 20), (0x0005, 4), (0x0006, 8), (0x0007, 8), (0x0008, 8), (0x000A, 4), (0x0101, 64), (0x0102, 64),
   (0x0103, 64), (0x0108, 264), (0x010A, 8), (0x0201, 16), (0x0203, 8), (0x0206, 16), (0x0207, 40), (0x0301, 16),
   (0x0404, 24), (0x0501, 32), (0x0505, 8), (0x0506, 48), (0x0508, 16), (0x0509, 8), (0x050B, 16), (0x0601, 8),
   (0x0602, 8), (0x0603, 64), (0x0607, 8), (0x0701, 8), (0x0702, 136), (0x0704, 8), (0x0705, 32), (0x0706, 8),
   (0x070B, 72), (0x0801, 112), (0x0804, 128), (0x0805, 128), (0x0808, 32), (0x0809, 16), (0x080A, 40), (0x080B, 16),
   (0x080E, 16), (0x080F, 16), (0x0811, 0x21), (0x0813, 1), (0x0902, 16), (0x0904, 80), (0x0905, 16), (0x0906, 16),
   (0x0908, 8), (0x0909, 8), (0x0A01, 8), (0x0A04, 8), (0x0A05, 8), (0x0B02, 8), (0x0B03, 8), (0x0C03, 1164)]

/-- The length of the payload `p` of an opcode's command (R8). A command whose length no count field and no table limits
here takes all that was given. -/
def payloadSize (op : Nat) (p : List Byte) : Nat :=
  match fixedSizes.find? fun e => e.1 == op with
  | some e => e.2
  | none =>
    if op = 0x050D then 8 + 16 * u16 p 0
    else if op = 0x0608 then 4 + 128 * u8 p 0
    else if op = 0x080C then 0x10 + 8 * u16 p 0xC
    else if op = 0x0C0B ∧ p.length ≤ 24 then 8
    else p.length

/-- The payload proper, missing bytes read as zero (R8, R49). -/
def payloadBytes (op : Nat) (p : List Byte) : List Byte := slice p 0 (payloadSize op p)

end Sys2Proof.Machine
end

