-- ==== Sys2Proof/Machine/StateAudio.lean ====
section
/-!
DEFINITION. The state of audio ports, frame clocks, programs, rate measurement, ASRCs and the audio DSPs (Audio Ports,
Sample Clocks and Alignment).
-/

namespace Sys2Proof.Machine

open Sys2Proof (Byte)

/-- Where a program channel's gain stands (R305, R306). The index counts positions of the curve of length `n`. -/
inductive Gain where
  | full | silent
  | fading (i n : Nat)
  | ramping (i n : Nat)
deriving DecidableEq, Repr

/-- One audio port (R291 to R298). -/
structure AudioPort where
  /-- 0 disabled, 1 I2S, 2 TDM -/
  mode : Nat := 0
  role : Nat := 0
  clock : Nat := 0
  rate : Nat := 0
  slots : Nat := 2
  slotBits : Nat := 32
  sampleBits : Nat := 24
  timing : Nat := 0
  inMask : Nat := 0
  outMask : Nat := 0
  /-- output map words by slot -/
  map : List Nat := List.replicate 32 0
  /-- the port has been set to disabled and ends its output at the next frame (R295) -/
  ending : Bool := false
  frames : Nat := 0
  lastFsync : Option Nat := none
  clockLost : Bool := false
  framingErrors : Nat := 0
  /-- framing errors since the last `EV_AUDIO_PORT` -/
  framingSince : Nat := 0
  /-- ramps of newly enabled output slots, by slot (R297) -/
  outGains : Tab Gain := []
  /-- the words of the present output frame by slot; none at high impedance -/
  sdout : List (Option Nat) := []
deriving DecidableEq, Repr

/-- One frame clock (R293, R317). -/
structure FrameClock where
  /-- 0 device time, 1 `AMCLK_IN0`, 2 `AMCLK_IN1` -/
  source : Nat := 0
  family : Nat := 0
  out : Nat := 0
  hz : Nat := 0
  /-- when `FRAME_CLOCK.SET` took effect: the frame count starts at the first edge after it (R293) -/
  since : Nat := 0
deriving DecidableEq, Repr

/-- One channel of an audio program. -/
structure AudioChan where
  gain : Gain := .silent
  /-- positions of good instants since the last gap, and the position that follows them (R309) -/
  good : Nat := 0
  goodNext : Nat := 0
  /-- faded by an underrun, and not yet returned -/
  under : Bool := true
  muted : Bool := false
  /-- its input slot has just been enabled: it ramps in with its first sample (R297) -/
  fresh : Bool := false
  /-- positions without source data since the fade began -/
  missing : Nat := 0
  /-- its last source sample, left-justified in 32 bits -/
  held : Int := 0
deriving DecidableEq, Repr

/-- An audio program (R299 to R315). -/
structure Program where
  source : Nat := 0
  channels : Nat := 1
  rate : Nat := 2
  kind : Nat := 0
  flags : Nat := 0
  playout : Nat := 0
  fadeUs : Nat := 1000
  kbps : Nat := 0
  map : List Byte := []
  asrc : Option Nat := none
  dsp : Option Nat := none
  chans : List AudioChan := []
  /-- next grid position to deliver -/
  next : Nat := 0
  /-- samples in the buffer: by position, those of the channels that have it -/
  buffer : Tab (Tab Int) := []
  /-- behind an ASRC: recent rows of source samples by source channel, newest last -/
  input : List (List Int) := []
  /-- what the program's last positions carried, channel by channel, newest last (R300) -/
  outs : List (List Int) := []
  late : Nat := 0
  overrun : Nat := 0
  overrunSince : Nat := 0
  silent : Nat := 0
  lastUnderrun : Option Nat := none
  lastOverrun : Option Nat := none
  /-- the position at which a restarted DSP's ramp-in begins (R316) -/
  rampAt : Option Nat := none
  /-- the next access unit, and the silent ones that the hub has emitted -/
  aus : Nat := 0
  silentAus : Nat := 0
deriving DecidableEq, Repr

/-- A rate measurement of one source (R303). -/
structure RateMeas where
  /-- recognised class, or none for unknown -/
  cls : Option Nat := none
  /-- offset in 0.01 ppm -/
  offset : Int := 0
  samples : Nat := 0
  /-- class of the last window, and when that window ended -/
  last : Option Nat := none
  windowEnd : Nat := 0
  /-- the rate has been lost since it was first recognised -/
  lost : Bool := false
deriving DecidableEq, Repr

/-- An ASRC in use (R304). -/
structure Asrc where
  program : Nat := 0
  locked : Bool := false
  /-- tracked ratio in units of 2^-32 -/
  ratio : Nat := 0
  locks : Nat := 0
  inRate : Option Nat := none
deriving DecidableEq, Repr

/-- One audio DSP (R314, R316). -/
structure Dsp where
  /-- when it last completed an access unit, or since when it owes one -/
  lastAu : Nat := 0
  restarting : Option Nat := none
deriving DecidableEq, Repr

/-- Audio. -/
structure Audio where
  ports : Tab AudioPort := []
  clocks : Tab FrameClock := []
  programs : Tab Program := []
  rates : Tab RateMeas := []
  asrcs : Tab Asrc := []
  dsps : Tab Dsp := []
  /-- `AUDIO_EMBED.SET` payloads in force, by SDI output lane handle -/
  embeds : Tab (List Byte) := []
  /-- samples that an SDI output embeds: of its groups in order, 24 bits each (R312) -/
  embedded : Tab (List Nat) := []
  /-- t_e of each embedded source (R311): the device time of a sample and the sample's number since lock -/
  te : Tab (Nat × Nat) := []
deriving DecidableEq, Repr

end Sys2Proof.Machine
end

