-- ==== Sys2Proof/Machine/StateBoot.lean ====
section
/-!
DEFINITION. The state of start-up, the keep-alive island, the security processor, management and encode-die health
(Start-up, Recovery, Fail-over and Self-test; Security and Life Cycle).
-/

namespace Sys2Proof.Machine

open Sys2Proof (Byte)

/-- `BOOT_STAGE.STAGE`. -/
inductive Stage where
  | reset | rom | verify | bist | fwStart | ready | recovery | safe
deriving DecidableEq, Repr

/-- The value of `BOOT_STAGE.STAGE`. -/
def Stage.code : Stage → Nat
  | .reset => 0 | .rom => 1 | .verify => 2 | .bist => 3 | .fwStart => 4 | .ready => 5 | .recovery => 0xE
  | .safe => 0xF

/-- The variants of R1. -/
inductive Variant where
  | vx88 | vx84 | vx82
deriving DecidableEq, Repr

/-- Encode dies of a variant (R12). -/
def Variant.dies : Variant → Nat
  | .vx88 => 8 | .vx84 => 4 | .vx82 => 2

/-- The PF0 device identifier (R34). -/
def Variant.deviceId : Variant → Nat
  | .vx88 => 0x8808 | .vx84 => 0x8804 | .vx82 => 0x8802

/-- Channels of a variant (R78 check 4). -/
def Variant.channels : Variant → Nat
  | .vx88 => 128 | .vx84 => 64 | .vx82 => 32

/-- The fuses that the manual gives a meaning (R444). Redundant fields are kept as their bits, thermometer fields as
the number of bits set. -/
structure Fuses where
  serial : Nat := 0
  variant : Variant := .vx88
  /-- 0 commercial, 1 extended -/
  grade : Nat := 0
  hubStep : Nat := 0
  encStep : Nat := 0
  /-- four redundant pairs; parts ship in VENDOR (R450), pair 0 set -/
  lc : Nat := 3
  dbgKill : Nat := 0
  vendorRevoke : Nat := 0
  ownerRevoke : Nat := 0
  vendorHash : Tab (List Byte) :=
    [(0, List.replicate 32 1), (1, List.replicate 32 2), (2, List.replicate 32 3), (3, List.replicate 32 4)]
  ownerHash : Tab (List Byte) := [(4, List.replicate 32 0), (5, List.replicate 32 0)]
  idSeed : List Byte := List.replicate 32 0
  fwSvn : Nat := 0
  rcpSvn : Nat := 0
deriving DecidableEq, Repr

/-- One entry of the keep-alive reason log (R483). -/
structure Reason where
  reason : Nat
  stage : Nat
  count : Nat
  detail : Nat := 0
  seconds : Nat
deriving DecidableEq, Repr

/-- One entry of the tamper log (R465). -/
structure TamperEntry where
  sensor : Nat
  response : Nat
  whileOff : Bool
  seconds : Nat
  counter : Nat
deriving DecidableEq, Repr

/-- The keep-alive island (R485); no start cause resets it (R470). -/
structure KeepAlive where
  /-- the signature checks: the contents have been kept (R486) -/
  signature : Bool := false
  bootCount : Nat := 0
  /-- the reason code of a recovery request: `0x02` or `0x03` -/
  request : Option Nat := none
  attempt : Bool := false
  /-- newest first, at most three -/
  reasons : List Reason := []
  /-- oldest first, at most 32 -/
  tamperLog : List TamperEntry := []
  tamperOverflow : Nat := 0
  /-- responses of the six sensors (R463) -/
  responses : List Nat := [1, 1, 0, 2, 1, 1]
  loopArmed : Bool := false
  counter : Nat := 0
  seconds : Nat := 0
  /-- the part of a second beside them, in ns -/
  rest : Nat := 0
  lcShadow : Nat := 0
  /-- kind and seconds, oldest first, at most 16 -/
  supplyLog : List (Nat × Nat) := []
  onBackup : Bool := false
  /-- trips seen while main power was off and not yet reported -/
  tripsWhileOff : List TamperEntry := []
deriving DecidableEq, Repr

/-- The boot record and the contents of the boot flash (R472, R473). -/
structure Flash where
  seqNo : Nat := 0
  /-- 0 slot A, 1 slot B -/
  active : Nat := 0
  trial : Option Nat := none
  tried : Bool := false
  /-- images by slot code: 0 A firmware, 1 A recipes, 2 B firmware, 3 B recipes -/
  images : Tab (List Byte) := []
  /-- the last sealed monotonic-counter backup (R468) -/
  counterBackup : Nat := 0
  /-- the credential table: index to key hash, function and enable (R462) -/
  credentials : Tab (List Byte × Nat × Bool) := []
  /-- the identity certificate -/
  identity : List Byte := []
  /-- the configuration area: addresses of ports 16 and 17 and the session port (R472) -/
  portAddr : Tab (List Byte) := []
  sessionPort : Option Nat := none
  /-- reason with which the start that ran the trial failed, or 0 (R474) -/
  trialFail : Nat := 0
deriving DecidableEq, Repr

/-- State of a management processor (R488 to R490), as `HEALTH.QUERY` codes it. -/
inductive MpState where
  | primary | coldStandby | warmStandby | fenced
deriving DecidableEq, Repr

def MpState.code : MpState → Nat
  | .primary => 0 | .coldStandby => 1 | .warmStandby => 2 | .fenced => 3

/-- A life-cycle move in progress or interrupted, a debug unlock and the key state of the security processor. -/
structure Security where
  /-- the debug nonce, when it was given, and whether it is unused (R455) -/
  nonce : Option (List Byte × Nat) := none
  /-- scope bits open until the next reset -/
  debugScope : Nat := 0
  /-- quote flag 1: debug unlocked since the start -/
  unlocked : Bool := false
  /-- the wipe generation: TK drawn so far (R445, R466) -/
  tk : Nat := 0
  /-- monotonic counter at the start, when the certificates of the keys were issued -/
  issued : Nat := 0
  /-- step 5 of a wipe is still to come: the trips to report and the highest response -/
  wipePending : Option (List TamperEntry × Nat) := none
  /-- the key registers have been cleared by a response of 2 -/
  keysCleared : Bool := false
  /-- the secure scratchpad holds firmware's journal copy (R466 step 6) -/
  scratchpadValid : Bool := true
  /-- the security processor runs; while it restarts, signatures and quotes wait (R492) -/
  spUp : Bool := true
  /-- ξ could be formed at this start (R446) -/
  xiFormed : Bool := true
  /-- KEY objects: KEY_ID and sealed material -/
  keys : Tab (Nat × List Byte) := []
  /-- the TAP instruction in force, as the test port answered it (R454) -/
  tap : Nat := 0
  /-- what the test data register then returns: the IDCODE word, where that instruction is in force (R454) -/
  tapOut : Option Nat := none
deriving DecidableEq, Repr

/-- One encode die's health: heartbeats, epoch token, self-test. -/
structure DieHealth where
  /-- the die's epoch token (R26) -/
  token : Nat := 0
  /-- last heartbeat of each die-controller core -/
  beat0 : Nat := 0
  beat1 : Nat := 0
  /-- fenced pixel engines, by engine number -/
  enginesFenced : List Nat := []
  /-- MSUs, filter units and scheduler memories fenced -/
  msusFenced : List Nat := []
  filtersFenced : List Nat := []
  ramsFenced : List Nat := []
  /-- SRAM banks fenced, and the spares already swapped in for them -/
  banksFenced : List Nat := []
  banksSwapped : List Nat := []
  /-- self-test position in the cycle of 572 slices -/
  slice : Nat := 0
  sliceStart : Option Nat := none
  /-- when the present 50 ms period began -/
  period : Nat := 0
  slices : Nat := 0
  fails : Nat := 0
  deferred : Nat := 0
  cycleStart : Nat := 0
  lastCycleMs : Nat := 0
  /-- channels whose FAULT_POLICY is still to be applied after a fence took the die above capacity (R96) -/
  policyPending : Bool := false
deriving DecidableEq, Repr

/-- Start-up, boot status, management processors, thermal state and pins. -/
structure Boot where
  stage : Stage := .reset
  /-- a rail is not good, or `SYS_RST_N` is low: the device is held in reset (R470) -/
  held : Bool := true
  railsGood : Bool := false
  sysRstLow : Bool := false
  fuses : Fuses := {}
  ka : KeepAlive := {}
  flash : Flash := {}
  sec : Security := {}
  /-- 0 MP-A, 1 MP-B -/
  mpActive : Nat := 0
  mpA : MpState := .primary
  mpB : MpState := .coldStandby
  degraded : Bool := false
  recovery : Bool := false
  /-- encode dies fenced or held in reset, and dies that reported READY, as masks -/
  diesFenced : Nat := 0
  diesReady : Nat := 0
  /-- dies that a fault fenced, among `diesFenced` -/
  diesFaulted : Nat := 0
  health : Tab DieHealth := []
  eciVersion : Nat := 0
  fwVersion : Nat := 0
  recipeVersion : Nat := 0
  /-- manifest digests of the running images (R445) -/
  fwDigest : List Byte := List.replicate 32 0
  rcpDigest : List Byte := List.replicate 32 0
  /-- the slot this start runs from, and whether it runs the trial -/
  slot : Nat := 0
  trialRun : Bool := false
  /-- a trial fell back at this start: slot tried, reason -/
  fallback : Option (Nat × Nat) := none
  /-- the last failed start's reason, for `EV_BOOT_FALLBACK` -/
  lastFail : Nat := 0
  bootHost : Bool := true
  startRef : Nat := 0
  /-- the ROM waits for the junction to cool, since when (R475), and the reason for which recovery mode follows -/
  thermalWait : Option Nat := none
  recoverAs : Option Nat := none
  /-- length of the thermal waits of this start -/
  waited : Nat := 0
  kaColdAtStart : Bool := false
  counterRestored : Bool := false
  /-- a failed start restarts the device within 100 ms -/
  failedAt : Option Nat := none
  /-- a restart is due: time, recovery (R70, R451) -/
  restartAt : Option (Nat × Bool) := none
  /-- management fail-over in progress since the fence -/
  fencedAt : Option Nat := none
  /-- no processor is left (R491) -/
  noStandby : Bool := false
  standbyUp : Bool := false
  mpEpoch : Nat := 0
  lastReport : Nat := 0
  /-- when firmware last journaled its other state, and the event ring tails it journaled, by function (R488) -/
  journaledAt : Nat := 0
  journalTuple : List Nat := []
  /-- own copies of the mailbox words and registers (`RDY`, `CFG_ERR`) that late writes of the fenced processor hit -/
  lateWords : Tab (List Byte) := []
  lateRegs : Tab (Bool × Bool) := []
  /-- die number to repair BIST end -/
  repairing : List Nat := []
  mpRepairing : Bool := false
  /-- junctions in 0.1 °C: dies 0 to 7, then the hub -/
  junctions : List Int := [250, 250, 250, 250, 250, 250, 250, 250, 250]
  thermAlert : Bool := false
  thermTripLatch : Bool := false
  /-- recovery window registers -/
  recState : Nat := 0
  recCmd : Nat := 0
  recStatus : Nat := 0
  recResp : Nat := 0
  recArg : Nat := 0
  recLen : Nat := 0
deriving DecidableEq, Repr

end Sys2Proof.Machine
end

