-- ==== Sys2Proof/Machine/StateMedia.lean ====
section
/-!
DEFINITION. What pictures and their coding are made of: samples, pyramids, motion search results, codings of rows,
checkpoints and NAL units (Pre-analysis and Hierarchical Motion Search; Coding Core; Composition).
-/

namespace Sys2Proof.Machine

open Sys2Proof (Byte)

/-- Lines of samples, from the top. -/
abbrev Plane := List (List Nat)

/-- Samples of a picture or of a part of it. -/
structure Frame where
  y : Plane := []
  cb : Plane := []
  cr : Plane := []
deriving DecidableEq, Repr, Inhabited

/-- The pyramid levels of some lines of luma (R112). -/
structure Pyramid where
  l1 : Plane := []
  l2 : Plane := []
  l3 : Plane := []
deriving DecidableEq, Repr

/-! ### Motion search (R119 to R130) -/

/-- A vector in quarter-pel with its cost. -/
structure Hit where
  x : Int := 0
  y : Int := 0
  cost : Nat := 0
deriving DecidableEq, Repr, Inhabited

/-- Rows of blocks of a result field, from the top. -/
abbrev Field := List (List Hit)

/-- The search results of one CTU row against one reference, on one half (R126). -/
structure SearchRow where
  /-- the best two vectors of each L3 block -/
  l3 : List (List (List Hit)) := []
  l2 : Field := []
  l0 : Field := []
  /-- quarter-pel vector and cost of every 8 × 8 block -/
  fine : Field := []
  /-- the member vector of each aligned block of 16, 32, 64 and 128 luma samples -/
  members : List Field := []
deriving DecidableEq, Repr, Inhabited

/-! ### The coding of a row (R145, R147, R151) -/

/-- A coding unit as the recipes decided it: its luma area, its class (R133), and its first-list vector and reference. -/
structure Cu where
  area : Nat := 0
  cls : Nat := 0
  mvx : Int := 0
  mvy : Int := 0
  ref : Nat := 0
deriving DecidableEq, Repr, Inhabited

/-- The decisions of a row's CTUs on one half, and its reconstruction before in-loop filtering. -/
structure RowOut where
  ctus : List (List Cu) := []
  /-- syntax elements for entropy coding -/
  syntaxes : List Nat := []
  recon : Frame := {}
deriving DecidableEq, Repr, Inhabited

/-- A row-start checkpoint (R145). -/
structure Checkpoint where
  contexts : List Nat := []
  range : Nat := 510
  low : Nat := 0
  outstanding : Nat := 0
  position : Nat := 0
  qp : Nat := 0
  history : List (Int × Int × Nat) := []
deriving DecidableEq, Repr, Inhabited

/-- A row's substream on one half, and the states of the engine that later rows take over. -/
structure EntOut where
  bits : Nat := 0
  ctuBits : List Nat := []
  stream : List Byte := []
  /-- context variables after CTU 0 and after CTU 1 -/
  after0 : List Nat := []
  after1 : List Nat := []
  /-- the engine after the last CTU -/
  last : Checkpoint := {}
deriving DecidableEq, Repr, Inhabited

/-- What a row's filter tasks wrote on one half: the band at the boundary with the row above, which belongs to this row, and
the rest of the row (R151). -/
structure Filtered where
  band : Frame := {}
  body : Frame := {}
deriving DecidableEq, Repr, Inhabited

/-- One side of a row's speculative buffers, with its parts by half (R147). -/
structure RowBuf where
  qp : Nat := 0
  stage : Nat := 0
  ctuQps : List Nat := []
  points : Tab Checkpoint := []
  outs : Tab RowOut := []
  ents : Tab EntOut := []
  filt : Tab Filtered := []
deriving DecidableEq, Repr

/-- How a fill codes a CTU (R198). -/
inductive FillKind where
  | merge | zeroVec | intra
deriving DecidableEq, Repr

/-! ### Welt blocks as the device writes them (R274 to R276) -/

/-- A block of a plane: mode, length in 32-byte units, constants, sub-block descriptors (base and width), and samples of each
component less their base. -/
structure WeltBlock where
  mode : Nat := 0
  len : Nat := 0
  consts : List Nat := []
  descs : List (Nat × Nat) := []
  values : List Nat := []
deriving DecidableEq, Repr

/-- The blocks of a CTU row of a reference picture: luma, and chroma pairs; rows of blocks. -/
structure WeltRow where
  luma : List (List WeltBlock) := []
  chroma : List (List WeltBlock) := []
deriving DecidableEq, Repr

/-! ### The mitre seam (R153) -/

/-- What crosses the partner link. -/
inductive SeamItem where
  /-- the seam band of a row -/
  | band (pic row : Nat)
  /-- the reference columns of a row with its temporal motion column -/
  | columns (pic row : Nat)
  /-- a row's size, odd die to even die -/
  | size (pic row : Nat)
  /-- a row's pre-analysis sums -/
  | sums (pic row : Nat)
  /-- scene-change counts, odd die to even die -/
  | counts (pic : Nat)
  /-- the L3 field of a row, odd die to even die -/
  | field (pic row : Nat)
  /-- the fitted global motion, even die to odd die -/
  | motion (pic : Nat)
  /-- an order, even die to odd die: 0 commit, 1 rewind, 2 fill, 3 squash at the row -/
  | order (pic row kind : Nat)
deriving DecidableEq, Repr

/-- An item on the partner link: its sender's half (0 even, 1 odd), epoch token and row generation. -/
structure Crossing where
  half : Nat
  token : Nat
  gen : Nat
  item : SeamItem
deriving DecidableEq, Repr

end Sys2Proof.Machine
end

