-- ==== Sys2Proof/Machine/StateChannel.lean ====
section
/-!
DEFINITION. The state of encode channels: configuration, pictures and rows in flight, rate control, timeline, release
(Channels, Pipes and Admission; Pre-analysis; Coding Core; Rate Control and Fixed Delay).
-/

namespace Sys2Proof.Machine

open Sys2Proof (Byte)

/-- Channel states (R72). -/
inductive ChState where
  | idle | starting | running | draining
deriving DecidableEq, Repr

def ChState.code : ChState → Nat
  | .idle => 0 | .starting => 1 | .running => 2 | .draining => 3

/-- Input conditions (R97, R95). -/
inductive Condition where
  | live | repeat_ | slate | hubFill
deriving DecidableEq, Repr

def Condition.code : Condition → Nat
  | .live => 0 | .repeat_ => 1 | .slate => 2 | .hubFill => 3

/-- The fields of a `CHANNEL.CREATE` payload. -/
structure ChCfg where
  source : Nat := 0
  width : Nat := 0
  height : Nat := 0
  rateNum : Nat := 1
  rateDen : Nat := 1
  /-- 0 HEVC, 1 VVC -/
  codec : Nat := 0
  /-- 0 4:2:0, 1 4:2:2 -/
  chroma : Nat := 0
  bitDepth : Nat := 8
  ctu : Nat := 64
  level : Nat := 0
  effort : Nat := 1
  dRows : Nat := 0
  sRows : Nat := 0
  lookahead : Nat := 0
  duRows : Nat := 1
  die : Nat := 0xFF
  pipe : Nat := 0xFF
  flags : Nat := 0
  standbyDie : Nat := 0xFF
  faultPolicy : Nat := 0
  priority : Nat := 0
  holdPics : Nat := 0
  slate : Nat := 0
  /-- a decode channel's limits: never on a mitre pair (R244) -/
  decoder : Bool := false
deriving DecidableEq, Repr

/-- Row states (R143). -/
inductive RowPhase where
  | waiting | speculative | committed | filled | released
deriving DecidableEq, Repr

/-- Rate-control stages (R196). -/
abbrev RcStage := Nat

/-- One CTU row of a picture in flight. -/
structure Row where
  phase : RowPhase := .waiting
  /-- source row arrived, analysis done, composed (R107, R269, R325) -/
  arrived : Bool := false
  analysed : Bool := false
  composed : Bool := false
  /-- the row QP and stage it began with (R194) -/
  qp : Nat := 0
  stage : RcStage := 0
  /-- coded size in bits once its entropy coding is complete; the odd die's part for a mitre channel -/
  size : Option Nat := none
  sizeOdd : Option Nat := none
  rewound : Bool := false
  /-- the generation of its tasks and of its speculative buffer side (R147, R153) -/
  generation : Nat := 0
  /-- the checkpoint is being restored after a rewind (R147) -/
  restoring : Bool := false
  /-- reference row ready (R152) -/
  ready : Bool := false
  /-- replaced by its fill coding; at the stitch deadline -/
  filled : Bool := false
  byDeadline : Bool := false
  /-- the partner's seam band and reference columns of this row have arrived, and the sums of its pre-analysis (R153): bit 0
  at the odd die, bit 1 at the even die; the odd die's size and L3 field at the even die -/
  seamBand : Nat := 0
  seamColumns : Nat := 0
  sums : Nat := 0
  sizeIn : Bool := false
  fieldIn : Bool := false
  /-- seam items of its present coding sent: a mask by half of bands, and of reference columns; the odd die's size -/
  bandSent : Nat := 0
  columnsSent : Nat := 0
  sizeSent : Bool := false
  /-- stages whose tasks have ended since the row began, by 2 × agent class + half -/
  ended : Nat := 0
  /-- its place in the order in which rows reach pre-analysis (R106) -/
  fed : Option Nat := none
  /-- halves whose pre-analysis is done, the source pyramid, and `ACT` and `CPLX` of its CTUs (R112, R113) -/
  measured : Nat := 0
  pyramid : Pyramid := {}
  acts : List Nat := []
  cplxs : List Nat := []
  /-- Σ `CPLX` and Σ `ACT` over the row's CTUs (R113) -/
  cplx : Nat := 0
  act : Nat := 0
  /-- halves whose search tasks have ended, and the results by half and reference (R126) -/
  msuDone : Nat := 0
  search : Tab (List SearchRow) := []
  /-- the current side of its speculative buffers, and the other (R147) -/
  buf : RowBuf := {}
  alt : RowBuf := {}
  /-- once it is a reference row: its blocks in memory and its reference pyramid (R112, R274) -/
  stored : WeltRow := {}
  refPyramid : Pyramid := {}
  /-- sum of the CTU QPs and the CTUs counted, of the present coding -/
  qpSum : Nat := 0
  qpCtus : Nat := 0
  /-- least and greatest QP of those CTUs -/
  qpMin : Nat := 0xFF
  qpMax : Nat := 0
deriving DecidableEq, Repr

/-- What a picture is coded from. -/
inductive PicKind where
  | live | repeat_ | slate | hubFill
  /-- a source picture that is not coded, which the renditions of its channel need (R129) -/
  | watched
deriving DecidableEq, Repr

/-- Picture types (R163 to R167). -/
inductive PicType where
  | inter | refreshStart | idr | cra | repeatPic
deriving DecidableEq, Repr

/-- The settings of a channel that have commands of their own, at their reset values. -/
structure ChSettings where
  /-- `CODING.TOOLS` -/
  toolOff : Nat := 0
  maxRefs : Nat := 0
  /-- `ANALYSIS.SET` -/
  scMode : Nat := 0
  scT : Nat := 32
  scP : Nat := 60
  gmMode : Nat := 0
  /-- `CODING.STRUCTURE` -/
  struct : Nat := 0
  miniGop : Nat := 0
  refreshMode : Nat := 0
  refreshPics : Nat := 8
  refreshPeriod : Nat := 0
  scIdr : Nat := 0
  psRepeat : Nat := 0
  hashSei : Nat := 0
  /-- `CODING.SEI`, as its payload -/
  sei : List Byte := []
  /-- `RC.SET` -/
  ql : Nat := 70
  qpMin : Nat := 4
  qpMax : Nat := 48
  aqStr : Nat := 12
  aqMax : Nat := 6
  initPct : Nat := 50
  cpbMs : Nat := 0
  rCapKbps : Nat := 0
  /-- `COMPOSE.SET`: colour system -/
  colour : Nat := 0
  /-- `RENDITION.SCALE` -/
  scaleTaps : Nat := 6
  scaleSet : Nat := 1
deriving DecidableEq, Repr

/-- One picture in flight, or the last ones whose records are still read. -/
structure Pic where
  kind : PicKind := .live
  type : PicType := .inter
  /-- cause of the scene change: 0 none, 1 to 5 as `EV_SCENE_CHANGE` -/
  scene : Nat := 0
  scenePct : Nat := 0
  /-- capture time of the last line of row 0 -/
  capture : Nat := 0
  /-- index within a refresh in progress (R163) -/
  refresh : Option Nat := none
  /-- a refresh that followed a fail-over -/
  refreshFail : Bool := false
  /-- rate control of the picture -/
  qpPic : Nat := 0
  rowQp : Nat := 0
  stage : RcStage := 0
  /-- Φ_0 and the fullness before the judged row, in units of 2^-16 bit (R181) -/
  phi0 : Int := 0
  omega : Int := 0
  /-- H: NAL units before the first slice data, in bits -/
  header : Nat := 0
  /-- C_k: bits committed or filled so far, H included -/
  spent : Nat := 0
  /-- the row count of R193 -/
  lowRun : Nat := 0
  highStage : RcStage := 0
  firstStage : List (Option Nat) := [none, none, none]
  rewinds : Nat := 0
  filled : Nat := 0
  dlFilled : Nat := 0
  dlFirst : Option Nat := none
  dlBits : Nat := 0
  hole : Bool := false
  /-- decoding units whose release task their stitch deadline cancelled -/
  holes : List Nat := []
  /-- `EV_RC_DEADLINE_FILL` has been raised; with bit 16 -/
  dlRaised : Bool := false
  holeRaised : Bool := false
  /-- rows committed or filled -/
  judged : Nat := 0
  qpSum : Nat := 0
  qpCount : Nat := 0
  qpMin : Nat := 0xFF
  qpMax : Nat := 0
  /-- analysis results (R113, R117) -/
  actPic : Nat := 0
  cpxPic : Nat := 0
  gm : List Int := [0, 0, 0, 0]
  gmKept : Nat := 0
  firstSearched : Bool := false
  /-- caption constructs carried, of 3 bytes each; they have been chosen (R170) -/
  captions : List (List Byte) := []
  captioned : Bool := false
  /-- samples as the source, or the submission, wrote them, with their chroma format (0 4:2:0, 1 4:2:2, 2 4:4:4) and bit depth,
  and as analysis and coding read them, so far as rows are there (R268) -/
  raw : Frame := {}
  sampling : Nat := 0
  depth : Nat := 8
  img : Frame := {}
  /-- invalid welt blocks read in its base (R277) -/
  badBlocks : Nat := 0
  /-- picture order count, temporal ID, the pictures of its reference lists, and the first picture of its coded video sequence
  (R161, R162) -/
  poc : Int := 0
  tid : Nat := 0
  list0 : List Nat := []
  list1 : List Nat := []
  seqStart : Nat := 0
  /-- its quantisation mode: dependent quantisation (R132) -/
  depQuant : Bool := false
  /-- the ALF APS fits its head (R184) -/
  alf : Bool := true
  /-- a slip's repeat picture; a picture whose rate control was recovered (R180, R203) -/
  slip : Bool := false
  recovered : Bool := false
  /-- L3 blocks found changed and tested on row 0 by half (R115); the scene-change flag has fallen (R116) -/
  changed : List Nat := [0, 0]
  tested : List Nat := [0, 0]
  countsIn : Bool := false
  flag : Bool := false
  /-- the fit is done, and its result is back at the odd die (R118) -/
  fitted : Bool := false
  motionIn : Bool := false
  /-- the preset that codes the picture -/
  effort : Nat := 1
  /-- decoding units released by the stitch unit, per half, and by the timer -/
  stitched : Nat := 0
  stitchedOdd : Nat := 0
  released : Nat := 0
  /-- bytes of the released access unit -/
  bytes : Nat := 0
  /-- a source picture has been assigned to the slot -/
  assigned : Bool := false
  /-- its rate control has begun (R186) -/
  rated : Bool := false
  /-- what the channel's structure was when it began: refresh in progress, pictures since the last one, whether that
  followed a fail-over, whether a coded video sequence was due and whether search history existed -/
  prevRefresh : Option Nat := none
  prevSince : Nat := 0
  prevFail : Bool := false
  newSeq : Bool := false
  prevSearch : Bool := false
  prevStart : Nat := 0
  /-- its jig pattern, and whether its parameter sets enable every tool (R258) -/
  jig : Option Nat := none
  allTools : Bool := false
  /-- of a source picture that its channel's renditions need: the picture that its L3 field is searched against where coding does
  not give it one, and that field's rows, by 2 × row + half (R129) -/
  fieldRef : Option Nat := none
  field : Tab SearchRow := []
  /-- the enabled layers and their states since its boundary (R289) -/
  layers : Tab (List Byte) := []
  /-- the settings in force since its boundary (R20) -/
  set : ChSettings := {}
  /-- no layer was enabled at its boundary and the channel is no rendition; its source has the channel's format (R268) -/
  through : Bool := true
  same : Bool := true
  /-- bits of its decoding units at the hub: those that have arrived, or of a hub-fill picture -/
  duBits : Tab Nat := []
deriving DecidableEq, Repr

/-- The order that core 0 has decided for the judged row (R146, R191). -/
inductive Order where
  | commit | rewind (qp : Nat) | fill
deriving DecidableEq, Repr

/-- A judgement: the row, the order and the row QP and stage that follow it. -/
structure Judgement where
  pic : Nat
  row : Nat
  order : Order
  nextQp : Nat
  nextStage : RcStage
  lowRun : Nat
deriving DecidableEq, Repr

/-- A decoding-unit record at the hub (R160). -/
structure DuRecord where
  pic : Nat
  du : Nat
  /-- 0 whole picture, 1 left, 2 right -/
  tile : Nat
  first : Bool := false
  last : Bool := false
  filledFrom : Option Nat := none
  hole : Bool := false
  repeatPic : Bool := false
  bytes : Nat := 0
  /-- a record of the link, not yet at the hub: the sending die's epoch token (R26) -/
  token : Nat := 0
  /-- its NAL units (each goes behind its 4-byte length) -/
  nals : List (List Byte) := []
deriving DecidableEq, Repr

/-- The last picture's rate results (`RC.QUERY`). -/
structure RcResult where
  pic : Nat := 0
  bits : Nat := 0
  phi0Next : Nat := 0
  qpPic : Nat := 0
  qpAvg : Nat := 0xFF
  stage : Nat := 0
  rewinds : Nat := 0
  filled : Nat := 0
  dlFilled : Nat := 0
deriving DecidableEq, Repr

/-- The fail-over state of a channel that the hub keeps per picture (R493). -/
structure FailoverState where
  /-- a picture's state has reached the hub -/
  valid : Bool := false
  phi0 : Int := 0
  qpPic : Nat := 0
  /-- the look-ahead history: b_last, `CPX_PIC`(last) -/
  lastBits : Nat := 0
  lastCpx : Nat := 0
  weights : List Nat := []
  picSeq : Nat := 0
  refresh : Option Nat := none
  slips : Nat := 0
  /-- the highest stage of the picture (R200) -/
  stage : Nat := 0
  /-- stream syntax: POC, reference lists, the `STRUCT` position and the settings of the parameter sets -/
  poc : Int := 0
  list0 : List Nat := []
  list1 : List Nat := []
  gopBase : Nat := 0
  set : ChSettings := {}
  /-- transport: continuity counters and the provenance chain of each egress stream -/
  transport : Tab (Tab Nat × List Byte) := []
  anchor : Int := 0
  anchorPic : Nat := 0
  cond : Condition := .live
  repeatRun : Nat := 0
deriving DecidableEq, Repr

/-- A fail-over in progress or done. -/
structure Failover where
  /-- the first standby slot n_s (R497), or none for hub-fill without a standby -/
  slot : Option Nat := none
  /-- the interrupted picture and its first filled decoding unit -/
  firstPic : Nat := 0
  firstDu : Option Nat := none
  hubPics : Nat := 0
  newDie : Nat := 0xFF
  reported : Bool := false
  /-- what the input gives while the condition reads `HUB_FILL` -/
  cond : Condition := .live
deriving DecidableEq, Repr

/-- A source picture that has a slot. -/
structure SourcePic where
  rows : Nat := 0
  /-- its rows so far, with their chroma format and bit depth, and invalid welt blocks of the submitted surface -/
  raw : Frame := {}
  sampling : Nat := 0
  depth : Nat := 8
  badBlocks : Nat := 0
  /-- capture time of row 0's last line -/
  capture : Nat := 0
  /-- it has the channel's chroma format and bit depth -/
  same : Bool := true
deriving DecidableEq, Repr

/-- What an ingress stream has written for a channel (R324, R325): the row that came last, the time of its picture (none: that of
arrival), and the rows of this picture and of the one before. -/
structure Feed where
  row : Nat := 0
  time : Option Int := none
  rows : Tab Frame := []
  before : Tab Frame := []
deriving DecidableEq, Repr

/-- One encode channel. -/
structure Channel where
  cfg : ChCfg := {}
  /-- the 64 bytes of the creating or setting payload in force -/
  payload : List Byte := []
  die : Nat := 0
  pipe : Nat := 0
  partnerPipe : Option Nat := none
  /-- dies whose charges a fail-over has left in place (R95), and whether the reservation is still held -/
  kept : List Nat := []
  reserving : Bool := true
  dRows : Nat := 6
  sRows : Nat := 4
  /-- the preset in use, after any lowering under R96 -/
  effort : Nat := 1
  set : ChSettings := {}
  state : ChState := .idle
  cond : Condition := .live
  /-- the next picture whose boundary has not begun -/
  nextPic : Nat := 0
  lastReleased : Option Nat := none
  /-- next decoding unit the release timer frees -/
  relPic : Nat := 0
  relDu : Nat := 0
  /-- last picture once a stop has been applied -/
  lastPic : Option Nat := none
  /-- the next source picture is the first of a run (R74) -/
  firstOfRun : Bool := true
  /-- timeline: anchor time in units of 1 / (`RATE_NUM` × R) ns, anchor picture (R174) -/
  anchor : Int := 0
  anchorPic : Nat := 0
  anchored : Bool := false
  /-- the retimes that pictures still to be released may precede: the first picture moved, and by how much (R101) -/
  moves : List (Nat × Int) := []
  /-- reference mode (R251) and its rings -/
  reference : Bool := false
  aligned : Bool := false
  inAlignment : Bool := false
  alignOffset : Nat := 0
  alignIndex : Nat := 0
  alignPic : Nat := 0
  /-- source pictures assigned to slots whose boundary has not begun, by slot -/
  source : Tab SourcePic := []
  /-- the source picture that is arriving: its slot (none: not coded), rows so far, capture time of row 0 -/
  cur : Option Nat := none
  curRows : Nat := 0
  curCapture : Nat := 0
  /-- a row of it has come after its deadline (R100) -/
  curLate : Bool := false
  feed : Feed := {}
  curSame : Bool := true
  repeatRun : Nat := 0
  lostPics : Nat := 0
  goodPics : Nat := 0
  /-- δ of a return that a picture boundary is to apply (R101) -/
  retimeBy : Option Nat := none
  returning : Bool := false
  repeats : Nat := 0
  slates : Nat := 0
  discarded : Nat := 0
  retimes : Nat := 0
  slips : Nat := 0
  recoveries : Nat := 0
  /-- slots known to get no source picture: a slip's repeat, or a missing picture of a pool channel that waits for its turn
  (R83, R98, R180) -/
  blank : List Nat := []
  pics : Tab Pic := []
  /-- rows of pictures in flight, by picture × R + row -/
  rows : Tab Row := []
  order : Option Judgement := none
  /-- the rate model: fullness before the next row, rows removed since its start, in R181's units -/
  omega : Int := 0
  modelRows : Nat := 0
  modelStarted : Bool := false
  history : Bool := false
  lastBits : Nat := 0
  lastCpx : Nat := 0
  weights : List Nat := []
  rcResult : RcResult := {}
  /-- the picture analysed last, and its results as `ANALYSIS.QUERY` gives them (R136): `ACT_PIC`, `CPX_PIC`, cause, share kept,
  first searched, G -/
  lastAnalysed : Option Nat := none
  analysed : List Nat := [0, 0, 0, 0, 0]
  analysedGm : List Int := [0, 0, 0, 0]
  /-- the first slot of the mini-groups of R162, and the first picture of the coded video sequence -/
  gopBase : Nat := 1
  seqStart : Nat := 0
  /-- source pictures that are not coded, for renditions (R129), newest last -/
  watched : List Pic := []
  /-- pictures since the last refresh start, the refresh in progress -/
  sinceRefresh : Nat := 0
  refresh : Option Nat := none
  refreshFail : Bool := false
  /-- a later picture must start a coded video sequence (R205) -/
  newSequence : Bool := false
  /-- search history exists (R130, R131) -/
  searchHistory : Bool := false
  /-- captions waiting: time-stamp, the picture they go with once that is known, and constructs (R170) -/
  captions : List (Nat × Option Nat × List (List Byte)) := []
  captionDrops : Nat := 0
  captionSent : Option Nat := none
  /-- decoding-unit records on their way to the hub, and at the hub -/
  inFlightDus : List DuRecord := []
  hubDus : List DuRecord := []
  /-- what is on its way over the partner link, in the order it was sent (R23, R153) -/
  crossing : List Crossing := []
  /-- the released part of the access unit in progress, and its decoding-unit record flags -/
  au : List (List Byte) := []
  auHub : Bool := false
  auFilled : Bool := false
  /-- fill sets at the hub: picture, tile, and the NAL units of each decoding unit -/
  fillSets : List (Nat × Nat × List (List (List Byte))) := []
  failState : FailoverState := {}
  /-- that of the picture before, which stands when the newer one is lost (R230, R415) -/
  failPrev : FailoverState := {}
  /-- who held the hub's lock of it when it was updated: agent and task -/
  failBy : Option (Nat × Nat) := none
  failover : Option Failover := none
  /-- `FAULT_POLICY` to apply at the next picture boundary (R96) -/
  policyDue : Bool := false
  /-- a halted reference-mode channel (R254) -/
  halted : Bool := false
deriving DecidableEq, Repr

/-- A slate surface (R102). -/
structure Slate where
  dieMask : Nat := 0
  chroma : Nat := 0
  bitDepth : Nat := 8
  format : Nat := 0
  width : Nat := 0
  height : Nat := 0
  /-- BAR2 offset of the copy on each die -/
  addr : Tab Nat := []
deriving DecidableEq, Repr

/-- A picture of a pool channel that waits for its turn: when it became eligible, and whether it is one that is missing, which
turns into a repeat picture or a slate in its turn (R83, R98). -/
structure Eligible where
  chan : Nat
  pic : Nat
  time : Nat
  missing : Bool := false
deriving DecidableEq, Repr

/-- What an encode die's pipe 3 runs (R83, R84). -/
structure Pipe3 where
  table : List Nat := []
  /-- pictures of pool channels that wait for their turn, in order -/
  eligible : List Eligible := []
  coding : Option (Nat × Nat) := none
  /-- channels named for the first time that have not had their first turn -/
  starting : List Nat := []
deriving DecidableEq, Repr

/-- Channels, slates and pipes. -/
structure Channels where
  chans : Tab Channel := []
  slates : Tab Slate := []
  pipe3 : Tab Pipe3 := []
  /-- orders discarded under R146, by die -/
  orderFaults : Tab Nat := []
  /-- rows that have reached pre-analysis so far -/
  feeds : Nat := 0
  /-- MSU sharing: (die × 16 + cluster) to the serving MSU (R108) -/
  msuServing : Tab Nat := []
deriving DecidableEq, Repr

end Sys2Proof.Machine
end

