-- ==== Sys2Proof/Machine/StateComp.lean ====
section
/-!
DEFINITION. The state of layers, layer commits, and scaler coefficients (Composition, Scaling and Welt
Surfaces).
-/

namespace Sys2Proof.Machine

open Sys2Proof (Byte)

/-- A layer (R278). -/
structure Layer where
  chan : Nat := 0
  maxW : Nat := 0
  maxH : Nat := 0
  maxFormat : Nat := 0
  buffers : Nat := 1
  /-- BAR2 offsets as `LAYER.CREATE` returned them -/
  addr : List Nat := []
  /-- the applied `LAYER.SET` payload; empty for a layer never set -/
  applied : List Byte := []
  /-- staged changes in order: fetch order of the command, and its payload, or none for the layer's removal -/
  staged : List (Nat × Option (List Byte)) := []
deriving DecidableEq, Repr

/-- A commit that has taken effect and that `EV_COMMIT_APPLIED` is still to report (R289). -/
structure CommitReport where
  chan : Nat
  pic : Option Nat
  enabled : Nat
  /-- BAR2 offsets of the buffers of removed layers, which the report frees -/
  freed : List Nat
deriving DecidableEq, Repr

/-- Composition. -/
structure Comp where
  layers : Tab Layer := []
  reports : List CommitReport := []
  /-- custom coefficient sets (set 3), by die × 16 + tap count, as payload bytes; all zeros before the first write -/
  coefs : Tab (List Byte) := []
deriving DecidableEq, Repr

end Sys2Proof.Machine
end

