-- ==== Sys2Proof/Machine/StateDec.lean ====
section
/-!
DEFINITION. The state of decode channels, statistics and access-unit rings, jig streams and check units (Decode,
Reference Mode and Verification).
-/

namespace Sys2Proof.Machine

open Sys2Proof (Byte StreamSps)

/-- A ring in hub DRAM: statistics (R260, R261) or access units (R257). Offsets are within the ring. -/
structure HubRing where
  /-- BAR2 offset -/
  base : Nat := 0
  log2 : Nat := 0
  write : Nat := 0
  read : Nat := 0
  /-- blocks or access units written and discarded -/
  written : Nat := 0
  discarded : Nat := 0
  /-- discarded since the last event, and when it was raised -/
  since : Nat := 0
  lastEvent : Option Nat := none
  /-- `POLICY` = 1: unread data is kept -/
  keep : Bool := true
  ctuEn : Bool := false
  /-- a block that a reference-mode channel holds until the ring has room -/
  waiting : List (List Byte) := []
deriving DecidableEq, Repr

/-- An access unit on its way to a decoder, and whether transport lost something of it (R249, R327). -/
structure FedAu where
  data : List Byte
  lost : Bool := false
deriving DecidableEq, Repr

/-- An access unit waiting in a decoder's coded buffer. -/
structure CodedAu where
  data : List Byte
  /-- device time at which its last byte reached the decoder -/
  arrival : Nat
  /-- the SPS of its coded video sequence -/
  sps : StreamSps := {}
  lost : Bool := false
deriving DecidableEq, Repr

/-- A picture in a decoder's picture buffer. -/
structure DpbPic where
  poc : Int
  /-- it carries `CONCEALED` or `CONCEALED_DEP` (R248) -/
  tainted : Bool
  reference : Bool
  /-- it waits for output -/
  toOutput : Bool
  /-- its number in decoding order, its samples, and their SPS -/
  seq : Nat := 0
  frame : Frame := {}
  sps : StreamSps := {}
deriving DecidableEq, Repr

/-- What a decode channel adds to its channel (R242 to R250). -/
structure Decoder where
  source : Nat := 0
  outCount : Nat := 0
  outFormat : Nat := 0
  /-- bit 0 `OUT_WRAP`, bit 1 `HRD_CHECK`, bit 2 `HASH_CHECK` -/
  flags : Nat := 0
  outAddr : Nat := 0
  outStride : Nat := 0
  decoded : Nat := 0
  concealed : Nat := 0
  discarded : Nat := 0
  output : Nat := 0
  /-- surfaces that hold an output picture not returned, as a mask -/
  held : Nat := 0
  nextSurface : Nat := 0
  /-- the coded buffer, oldest first (R246) -/
  coded : List CodedAu := []
  /-- access units that `DECODE.SUBMIT`, stream assembly or ingest passed and that have not reached the decoder, oldest first -/
  submitted : List FedAu := []
  /-- POCs of pictures that wait for an output surface, in output order -/
  outQueue : List Int := []
  dpb : List DpbPic := []
  /-- access units of an unsupported sequence are being discarded (R243) -/
  rejecting : Bool := false
  /-- the SPS of the coded video sequence that arrives -/
  sps : Option StreamSps := none
  /-- count of decoded pictures in decoding order since the start -/
  order : Nat := 0
  /-- POC that ends `CONCEALED_DEP` after a GDR picture or a recovery point SEI (R248) -/
  recoverAt : Option Int := none
  /-- flags seen since the last `EV_DEC_NONCONFORM`, and when it was raised -/
  seen : Nat := 0
  lastNonconform : Option Nat := none
deriving DecidableEq, Repr

/-- A check unit (R262 to R266). -/
structure CheckUnit where
  target : Nat := 0
  bound : Bool := false
  point : Nat := 0
  poly : Nat := 0
  tile : Nat := 0
  /-- first picture checked -/
  start : Option Nat := none
  /-- expected values: tag (none is "next") and value, oldest first -/
  queue : List (Option Nat × Nat) := []
  compared : Nat := 0
  mismatched : Nat := 0
  missed : Nat := 0
  unchecked : Nat := 0
  lastPic : Nat := 0
  lastValue : Nat := 0
  /-- values already computed, by picture -/
  ready : Tab Nat := []
  /-- after an unbind: the first picture no longer checked (R266) -/
  until_ : Option Nat := none
  emptyRaised : Bool := false
deriving DecidableEq, Repr

/-- Decode and verification. -/
structure Dec where
  decoders : Tab Decoder := []
  stats : Tab HubRing := []
  auRings : Tab HubRing := []
  /-- `JIG.SET` payloads in force, by channel -/
  jigs : Tab (List Byte) := []
  checks : Tab CheckUnit := []
deriving DecidableEq, Repr

end Sys2Proof.Machine
end

