-- ==== Sys2Proof/Machine/StateLane.lean ====
section
/-!
DEFINITION. The state of the serial lanes (Serial Lanes: Ethernet, SDI and PCIe).
-/

namespace Sys2Proof.Machine

open Sys2Proof (Byte)

/-- The format that an SDI input has detected (R398). -/
structure SdiFormat where
  /-- rate code, with bit 7 for 1/1.001 -/
  rate : Nat := 0
  width : Nat := 0
  height : Nat := 0
  rateNum : Nat := 0
  rateDen : Nat := 1
  sampling : Nat := 1
  depth : Nat := 10
  /-- interlaced, PsF, or a mapping that R397 does not list -/
  unsupported : Bool := false
deriving DecidableEq, Repr

/-- One lane. -/
structure Lane where
  mode : Nat := 0
  media : Nat := 0
  an : Bool := true
  train : Bool := true
  fec : Nat := 0
  eee : Nat := 0
  test : Nat := 0
  up : Bool := false
  /-- detectors asserted (R393), the causes of the last down transition, and since when all are clear -/
  causes : Nat := 0x10
  lastCause : Nat := 0
  clearSince : Option Nat := none
  /-- a negotiation, training or adaptation attempt is in progress -/
  attempt : Bool := false
  downCount : Nat := 0
  /-- times of the `EV_LANE_DOWN` of the last second, and transitions not reported -/
  downSent : List Nat := []
  suppressed : Nat := 0
  fecUsed : Nat := 0
  lpiTx : Bool := false
  lpiRx : Bool := false
  /-- the wake of a transmit LPI is in progress -/
  waking : Bool := false
  codeErr : Nat := 0
  fecCorr : Nat := 0
  fecUncorr : Nat := 0
  fecSince : Nat := 0
  lastFec : Option Nat := none
  crcErr : Nat := 0
  crcSince : Nat := 0
  lastCrc : Option Nat := none
  /-- c(-3) to c(1), and the answer to the partner's last request: 0 none, 1 updated, 2 minimum, 3 maximum (R390) -/
  taps : List Int := [0, 0, 0, 64, 0]
  answer : Nat := 0
  eye : Nat := 0
  /-- SDI input: the rate it has locked to, with bit 7 for 1/1.001; whether a format has been found since; the format in force, and
  the candidate of the last picture -/
  rate : Nat := 0
  found : Bool := false
  format : Option SdiFormat := none
  candidate : Option SdiFormat := none
  /-- rows are posted (R398, R401) -/
  posting : Bool := false
  goodPictures : Nat := 0
  /-- a quad link's skew has been reported and not ended (R401) -/
  skewed : Bool := false
  /-- SDI input: lines of a picture have come, and when the first of them came -/
  inPicture : Bool := false
  picTime : Nat := 0
  /-- quad link: link number of this receiver, and capture time of its last line -/
  link : Nat := 0xFF
deriving DecidableEq, Repr

/-- One SDI output (R402). -/
structure SdiOut where
  source : Nat := 0
  offset : Nat := 0
  /-- a decode source: its output pictures shown or passed over, and the alignment index of the last boundary -/
  shown : Nat := 0
  boundaries : Nat := 0
  /-- what the output carries: 0 rest, 1 loop-through, 2 black, 3 a decoded picture -/
  carrying : Nat := 0
  /-- a decode source: the picture that it shows, 4:2:2 at 10 bits, and the pictures output that wait -/
  frame : Frame := {}
  waiting : List Frame := []
deriving DecidableEq, Repr

/-- Lanes. -/
structure Lanes where
  lanes : Tab Lane := []
  outs : Tab SdiOut := []
deriving DecidableEq, Repr

end Sys2Proof.Machine
end

