-- ==== Sys2Proof/Machine/StateMem.lean ====
section
/-!
DEFINITION. The state of the memories and links (Memory, Arbitration and Interconnect).
-/

namespace Sys2Proof.Machine

open Sys2Proof (Byte)

/-- A buffer that a command created, mapped to consecutive BAR2 pages of 64 KiB (R436); its key is its first page. -/
structure Buffer where
  /-- the object it belongs to -/
  object : Nat := 0
  /-- the encode die that holds it, or 0xFF for the hub -/
  die : Nat := 0xFF
  bytes : Nat := 0
  pages : Nat := 0
deriving DecidableEq, Repr

/-- Per-die memory state: operating point, counters, settings. The key of the hub is 0xFF. -/
structure DieMem where
  point : Nat := 0
  /-- the point of a `MEM.FREQ` whose boundary has not come (R418) -/
  pending : Option Nat := none
  /-- the arbiters are stalled for a change to this point (R420), since when -/
  changing : Option (Nat × Nat) := none
  /-- the active timing set: 0 `TSET_A`, 1 `TSET_B`, and the point each holds (R418) -/
  tset : Nat := 0
  tsetA : Nat := 0
  tsetB : Nat := 0
  /-- neighbour-refresh exponent, its register and its count (R422) -/
  nrK : Nat := 11
  nrReg : Nat := 0
  nrCount : Nat := 0
  /-- `DRAM_GRANT` -/
  grant : Nat := 64
  corrected : Nat := 0
  correctedSince : Nat := 0
  lastEcc : Option Nat := none
  uncorrected : Nat := 0
  rawWaits : Nat := 0
  scrubs : Nat := 0
  cutoffs : Nat := 0
  /-- poisoned lines of host-visible buffers: BAR2 line numbers -/
  poisoned : List Nat := []
  /-- spare SRAM banks in use -/
  spares : Nat := 0
deriving DecidableEq, Repr

/-- One direction of a dowel link (R440). -/
structure Link where
  /-- first flit of the last replay, replays of it in a row, replays in all -/
  replayFrom : Nat := 0
  replays : Nat := 0
  totalReplays : Nat := 0
  /-- times of the replays of the last second -/
  recent : List Nat := []
  lastReplay : Option Nat := none
  retraining : Bool := false
  /-- retrainings that failed in a row -/
  failedRetrains : Nat := 0
  retrains : Nat := 0
  sparedLane : Option Nat := none
deriving DecidableEq, Repr

/-- A request waiting at an arbiter (R426): its beats, and of a DRAM its first line and whether it writes. -/
structure ArbRequest where
  requester : Nat
  age : Nat
  beats : Nat
  line : Nat := 0
  write : Bool := false
deriving DecidableEq, Repr

/-- An arbiter: waiting requests in order of arrival, the parked or granted owner, grants by requester. -/
structure Arbiter where
  waiting : List ArbRequest := []
  owner : Option Nat := none
  /-- beats left of the grant in progress, and the request decided on for the next cycle (R427, R429) -/
  left : Nat := 0
  next : Option ArbRequest := none
  /-- lines in the controller's write queue, oldest first (R423) -/
  writes : List Nat := []
  /-- requesters granted, most recent first -/
  history : List Nat := []
  /-- quarantined requesters, with the time of the cut-off -/
  quarantined : Tab Nat := []
deriving DecidableEq, Repr

/-- Memory and interconnect. -/
structure Mem where
  dies : Tab DieMem := []
  /-- buffers by first BAR2 page -/
  buffers : Tab Buffer := []
  /-- contents of the mapped buffers, by BAR2 offset -/
  data : Cells := []
  /-- links: 2 × die the hub link of a die, 2 × die + 1 its partner link -/
  links : Tab Link := []
  /-- arbiters: die number for an encode die's DRAM, 0xFF for the hub DRAM, 0x100 for the egress packet buffer -/
  arbiters : Tab Arbiter := []
  /-- host token buckets by die: bytes available and when last refilled (R438) -/
  buckets : Tab (Int × Nat) := []
  /-- the data that the last BAR2 read returned, and reads of poisoned lines signalled over AER (R415) -/
  bar2Read : List Byte := []
  poisonedReads : Nat := 0
deriving DecidableEq, Repr

end Sys2Proof.Machine
end

