-- ==== Sys2Proof/Machine/StateNet.lean ====
section
/-!
DEFINITION. The state of ingress and egress streams, ports, gates, shapers, policers and manifests (Ingest, Egress and
Traffic).
-/

namespace Sys2Proof.Machine

open Sys2Proof (Byte)

/-- One path of an ingress stream (R326). -/
structure Path where
  up : Bool := false
  last : Option Nat := none
  /-- when the present run of packets began, while the path is down -/
  runSince : Option Nat := none
deriving DecidableEq, Repr

/-- What received packets have given of an access unit: its whole NAL units, the fragments of one under way, and whether something
of it was lost (R327). -/
structure Depacket where
  nals : List (List Byte) := []
  frag : Option (List Byte) := none
  lost : Bool := false
deriving DecidableEq, Repr

/-- What received TS packets have given of the PES of a PID: the bytes since its start, the last continuity counter, and whether
counters skipped (R327). -/
structure PesRead where
  pes : Option (List Byte) := none
  cc : Option Nat := none
  lost : Bool := false
deriving DecidableEq, Repr

/-- An ingress stream (R323 to R327). -/
structure Ingress where
  payload : List Byte := []
  packets : Nat := 0
  bytes : Nat := 0
  lost : Nat := 0
  duplicates : Nat := 0
  policerDrops : Nat := 0
  checksumDrops : Nat := 0
  paths : List Path := [{}, {}]
  /-- the highest sequence number taken, extended; sequence numbers missing below it with the time each is declared
  lost -/
  high : Option Nat := none
  missing : List (Nat × Nat) := []
  lossSince : Nat := 0
  lastLoss : Option Nat := none
  lastTiming : Option Nat := none
  /-- RTP time of the picture in progress is far from arrival: capture times follow arrival -/
  fallback : Bool := false
  /-- kind 0: RTP timestamp of the picture that arrives, and its converted time t_p as device time (R324) -/
  rtpTime : Option Nat := none
  picTime : Int := 0
  /-- kinds 5 to 9: packets taken and not yet handed on, by extended sequence number, and the next to hand on (R326, R327) -/
  ready : Tab (List Byte) := []
  next : Option Nat := none
  unit : Depacket := {}
  pes : PesRead := {}
deriving DecidableEq, Repr

/-- A packet or frame of an egress stream, or of the time unit, waiting in a pacer or a class queue. -/
structure Packet where
  /-- egress handle, or 0 for the time unit -/
  stream : Nat := 0
  /-- sequence number and frame bytes from destination address to check sequence -/
  seq : Nat := 0
  bytes : Nat := 0
  /-- its UDP payload, and how many bytes of that are the RTP header with its extension -/
  data : List Byte := []
  head : Nat := 0
  /-- its UDP checksum, once it has left -/
  sum : Nat := 0
  cls : Nat := 0
  /-- the access unit it belongs to, and whether it ends it -/
  pic : Nat := 0
  last : Bool := false
  /-- the PTP message it carries, and the port's own -/
  ptp : Option (Sys2Proof.PtpSend × Int) := none
  /-- paths it is sent on: bit 0 path A, bit 1 path B -/
  paths : Nat := 1
  /-- `KEY_ID` and odd phase of the key it is encrypted under -/
  key : Option (Nat × Bool) := none
  /-- address and UDP port that it goes to, where those are not its stream's -/
  dest : Option (List Byte × Nat) := none
  /-- the manifest fragment it carries: low 16 bits of `SEGMENT`, index and count -/
  fragment : Option (Nat × Nat × Nat) := none
  /-- where in its payload a PCR is, and the offset that impairment gave it in ns -/
  pcr : Option (Nat × Int) := none
  /-- impairments that fired: a corrupted payload byte, with its offset and what it is XORed with, and a raised continuity
  counter -/
  corrupt : Option (Nat × Nat) := none
  continuity : Bool := false
deriving DecidableEq, Repr

/-- One TS packet of a multiplex that waits: its PID, whether it starts a PES or section, up to 184 bytes, how many of them stay in
clear, the material and phase of the key for the others, the access unit it belongs to, and whether it ends what it carries. -/
structure TsPart where
  pid : Nat
  start : Bool := false
  data : List Byte := []
  clear : Nat := 0
  key : Option (List Byte × Bool) := none
  pic : Nat := 0
  last : Bool := false
deriving DecidableEq, Repr

/-- A provenance segment that is closed and awaits its signature (R338). -/
structure Segment where
  number : Nat
  firstPic : Nat
  tFirst : Nat
  durationUs : Nat
  flags : Nat
  digest : List Byte
  hashes : List (List Byte)
  auFlags : List Nat
deriving DecidableEq, Repr

/-- A manifest on its way in band: its segment, its fragments, and those still to send. In a multiplex the fragments are its TS
packets, and those that wait ahead of it count as still to send. -/
structure InBand where
  segment : Nat
  total : Nat
  left : Nat
  /-- the manifest -/
  bytes : List Byte := []
deriving DecidableEq, Repr

/-- Provenance of a stream (R336 to R340). -/
structure Prov where
  on : Bool := false
  payload : List Byte := []
  segment : Nat := 0
  prevHash : List Byte := List.replicate 32 0
  /-- the open segment's units: first picture, PTP and device time of its first release, hashes and flags -/
  firstPic : Option Nat := none
  tFirst : Nat := 0
  releaseFirst : Nat := 0
  releaseLast : Nat := 0
  hashes : List (List Byte) := []
  auFlags : List Nat := []
  toSign : List Segment := []
  /-- the configuration digest at the open segment's first unit -/
  digest : List Byte := []
  /-- manifests waiting for in-band carriage, or under way, in order -/
  inBand : List InBand := []
  /-- the last manifest signed -/
  manifest : List Byte := []
deriving DecidableEq, Repr

/-- Impairment injection of a stream (R353). -/
structure Impair where
  payload : List Byte := []
  reg : Nat := 0
  /-- packets still to drop, and packets held with the packets still to pass them -/
  dropping : Nat := 0
  held : List (Packet × Nat) := []
deriving DecidableEq, Repr

/-- An egress stream. -/
structure Egress where
  payload : List Byte := []
  source : Nat := 0
  kind : Nat := 0
  paths : Nat := 1
  /-- next RTP sequence number, extended by its rollovers; TS packets sent -/
  seq : Nat := 0
  tsPackets : Nat := 0
  /-- pacer tokens in 2^-16 byte and the packets it holds, oldest first -/
  tokens : Int := 0
  queue : List Packet := []
  packets : Nat := 0
  bytes : Nat := 0
  impaired : Nat := 0
  signed : Nat := 0
  droppedInBand : Nat := 0
  /-- keys of the even and odd phase, the phase in use, and whether encryption is on -/
  keyEven : Nat := 0
  keyOdd : Nat := 0
  odd : Bool := false
  encrypting : Bool := false
  keyExt : Nat := 0
  /-- a wipe took its keys: payload packets are discarded until `EGRESS.KEY` takes effect (R466) -/
  wiped : Bool := false
  discarded : Nat := 0
  prov : Prov := {}
  impair : Impair := {}
  /-- the access unit after which the stream takes none (R358) -/
  ending : Bool := false
  /-- when `EV_PACE_QUEUE` was last raised -/
  lastPace : Option Nat := none
  /-- TS kinds: TS packets that wait for a datagram, continuity counters by PID, and when the tables and the PCR were last sent -/
  tsQueue : List TsPart := []
  counters : Tab Nat := []
  lastTables : Option Nat := none
  lastPcr : Option Nat := none
  started : Bool := false
  /-- the next access unit of the stream -/
  nextPic : Nat := 0
deriving DecidableEq, Repr

/-- A class shaper (R347, R348). -/
structure Shaper where
  mode : Nat := 0
  rate : Nat := 0
  burst : Nat := 0
  lo : Int := 0
  /-- count or credit in 2^-16 byte -/
  level : Int := 0
deriving DecidableEq, Repr

/-- A gate list (R349), as its payload with its start. -/
structure GateList where
  payload : List Byte := []
  /-- device time of its start -/
  start : Nat := 0
  /-- nanoseconds by which steps of the epoch have moved its cycle on since it started (R375) -/
  stepped : Int := 0
deriving DecidableEq, Repr

/-- One network or management port. -/
structure NetPort where
  addr : List Byte := []
  /-- class queues: class to frames, oldest first -/
  queues : Tab (List Packet) := []
  wire : Option Packet := none
  /-- when the frame on the wire, with its inter-frame gap, ends -/
  wireEnd : Nat := 0
  gates : Option GateList := none
  gatesNext : Option GateList := none
  /-- entry of the list in force -/
  entry : Nat := 0
  unmatched : Nat := 0
  fecDropped : Nat := 0
  oversize : Nat := 0
  badFcs : Nat := 0
  /-- frames that a cut-off ended with a bad frame check sequence (R429) -/
  txBad : Nat := 0
  downDropped : Nat := 0
  pbDropped : Nat := 0
  pbSince : Nat := 0
  lastPb : Option Nat := none
  /-- when a frame was last queued, for LPI (R392) -/
  lastQueued : Nat := 0
deriving DecidableEq, Repr

/-- A policer (R352). -/
structure Policer where
  target : Nat := 0
  rate : Nat := 0
  burst : Nat := 0
  action : Nat := 0
  tokens : Int := 0
  drops : Nat := 0
  since : Nat := 0
  lastEvent : Option Nat := none
deriving DecidableEq, Repr

/-- Network. -/
structure Net where
  ingress : Tab Ingress := []
  egress : Tab Egress := []
  ports : Tab NetPort := []
  /-- shapers by 8 × port + class -/
  shapers : Tab Shaper := []
  policers : Tab Policer := []
  /-- `ARBITER.MODE`: 1 is same-cycle -/
  arbMode : Nat := 0
  /-- the refill tick last taken, in units of 100 ns -/
  tick : Nat := 0
deriving DecidableEq, Repr

end Sys2Proof.Machine
end

