-- ==== Sys2Proof/Machine/StateSched.lean ====
section
/-!
DEFINITION. The state of the nine task schedulers and of the trace objects (Hardware Task Scheduling).
-/

namespace Sys2Proof.Machine

open Sys2Proof (Byte)

/-- A live task: its descriptor and where it stands (R210 to R213). -/
structure Task where
  gen : Nat := 0
  flow : Nat := 0
  seq : Nat := 0
  prio : Nat := 0
  cls : Nat := 0
  waitMask : Nat := 0
  flags : Nat := 0
  deadline : Nat := 0
  dlCancel : Bool := false
  affinity : Nat := 0
  lock : Option Nat := none
  donePost : Bool := false
  doneTarget : Nat := 0
  doneSeq : Nat := 0
  doneBits : Nat := 0
  entry : Nat := 0
  args : List Byte := []
  /-- the order in which it became ready -/
  ready : Option Nat := none
  /-- it holds its keeper lock, with the lock's `BROKEN` status -/
  holds : Bool := false
  /-- the agent that serves it, and since when -/
  agent : Option Nat := none
  started : Nat := 0
  /-- the generation of its row when it was dispatched (R147) -/
  rowGen : Nat := 0
deriving DecidableEq, Repr

/-- A slot whose task was cancelled in service: it returns to the free list when its agent reports (R212). -/
structure HeldSlot where
  agent : Nat
  /-- the generation of the cancelled task -/
  gen : Nat
  lock : Option Nat := none
  cls : Nat := 0
  started : Nat := 0
  flow : Nat := 0
  seq : Nat := 0
  prio : Nat := 0
  rowGen : Nat := 0
deriving DecidableEq, Repr

/-- What a consumer receives for a task (R221, R222, R225). -/
inductive Record7 where
  | done | cancelled | expired | aborted
  /-- one record for all squashed tasks -/
  | squash
deriving DecidableEq, Repr

/-- An open task flow (R220). -/
structure Flow where
  /-- 0 ordered, 1 atomic, 2 free -/
  kind : Nat := 0
  /-- the channel it serves and its role: 1 rows, 2 decoding units, 3 analysis, 4 rate control, 5 other -/
  chan : Nat := 0
  role : Nat := 5
  /-- H (R221) -/
  head : Nat := 0
  /-- sequence numbers for which a task with `SEQ_LAST` has been enqueued -/
  ends : List Nat := []
  /-- latched sequence posts (R215) -/
  latched : Tab Nat := []
  /-- completion records that wait for their turn, in completion order -/
  waiting : List (Nat × Record7) := []
  /-- of a row task flow, the descriptors of each sequence number not yet retired, as the coding core enqueued them (R147) -/
  remember : Tab (List (Task × Bool)) := []
  /-- records delivered to the consumer, oldest first -/
  delivered : List (Nat × Record7) := []
deriving DecidableEq, Repr

/-- A requester that waits for a keeper lock outside any task. -/
structure LockWaiter where
  agent : Nat
  order : Nat
deriving DecidableEq, Repr

/-- A former owner of a lock released as broken: agent, task ID, cause. -/
structure FormerOwner where
  agent : Nat
  task : Nat
  cause : Nat
deriving DecidableEq, Repr

/-- A keeper lock (R228, R229). -/
structure Lock where
  /-- owner: agent ID and task ID, 0 for a direct acquisition; a task not yet dispatched holds it with agent `0xFFF` -/
  owner : Option (Nat × Nat) := none
  /-- the holder received it with `BROKEN` set -/
  broken : Bool := false
  /-- the holder has still to run the recovery of R230 -/
  recover : Bool := false
  /-- free, and to be received with `BROKEN` set -/
  former : Option FormerOwner := none
  /-- the former owner from whom the holder received it `BROKEN` -/
  brokenBy : Option FormerOwner := none
  direct : List LockWaiter := []
deriving DecidableEq, Repr

/-- An enqueue or a sequence post that back-pressure holds: producer, bound (trace codes 1 to 3), and what it holds. -/
structure Stalled where
  producer : Nat
  bound : Nat
  /-- a task, with `SEQ_LAST`, or a sequence post: flow, sequence number, bits -/
  task : Option (Task × Bool) := none
  post : Nat × Nat × Nat := (0, 0, 0)
deriving DecidableEq, Repr

/-- One scheduler. -/
structure Sched where
  flows : Tab Flow := []
  /-- live tasks by descriptor index -/
  tasks : Tab Task := []
  held : Tab HeldSlot := []
  /-- generation of each slot that was ever allocated -/
  gens : Tab Nat := []
  nextIndex : Nat := 0
  freed : List Nat := []
  /-- when descriptors were freed in the last 100 µs (R235) -/
  frees : List Nat := []
  /-- counts events, to order readiness and waiting -/
  clock : Nat := 0
  locks : Tab Lock := []
  stalled : List Stalled := []
  fenced : List Nat := []
  /-- abort times of agents within the last second -/
  aborts : Tab (List Nat) := []
  /-- aborts since the last `EV_TASK_ABORTED`, the first of them, and when it was raised -/
  abortsSince : Nat := 0
  firstAbort : Nat × Nat := (0, 0)
  lastAbortEvent : Option Nat := none
  /-- highest occupancy since each function's last `SCHED.STATUS` -/
  peak : Tab Nat := []
  /-- an excursion above 1,920 is in progress (R236) -/
  full : Bool := false
  dispatched : Nat := 0
  cancelled : Nat := 0
  squashes : Nat := 0
  expired : Nat := 0
  aborted : Nat := 0
  holes : Nat := 0
  stale : Nat := 0
  bpEvents : Nat := 0
  broken : Nat := 0
  fullEvents : Nat := 0
  /-- bad descriptors that hardware producers counted as faults (R211) -/
  faults : Nat := 0
  /-- what firmware and host enqueues were answered: `E_BAD_PARAM`, or `E_BUSY` with its hint (R211, R235), oldest first -/
  answers : List (Status × Nat) := []
  /-- when the trace writer will have written the records it holds (R239) -/
  traceBusy : Nat := 0
deriving DecidableEq, Repr

/-- A trace object (R237 to R239). -/
structure Trace where
  /-- scheduler: 0 to 7, or 8 for the hub -/
  sched : Nat := 0
  log2 : Nat := 12
  base : Nat := 0
  typeMask : Nat := 0
  classMask : Nat := 0
  policy : Nat := 0
  flows : List Nat := []
  running : Bool := false
  wrapped : Bool := false
  write : Nat := 0
  records : Nat := 0
  lost : Nat := 0
  /-- lost since the last record written -/
  lostSince : Nat := 0
deriving DecidableEq, Repr

/-- Schedulers by number and trace objects. -/
structure Scheds where
  scheds : Tab Sched := []
  traces : Tab Trace := []
deriving DecidableEq, Repr

end Sys2Proof.Machine
end

