-- ==== Sys2Proof/Machine/StateTime.lean ====
section
/-!
DEFINITION. The state of device time, the servo, the PTP instance and the alignment domain (Device Time, PTP and the
Alignment Domain).
-/

namespace Sys2Proof.Machine

open Sys2Proof (Byte)

/-- Servo states (R372), with their codes in `EPOCH2.SERVO`. -/
inductive Servo where
  | free | acquiring | locked | holdover
deriving DecidableEq, Repr

def Servo.code : Servo → Nat
  | .free => 0 | .acquiring => 1 | .locked => 2 | .holdover => 3

/-- The settings of `SERVO.SET`, at their reset values. -/
structure ServoCfg where
  source : Nat := 1
  freq10m : Bool := false
  tcS : Nat := 8
  slewPpb : Nat := 10000
  lockNs : Nat := 100
deriving DecidableEq, Repr

/-- The settings of `PPS.SET`, at their reset values. -/
structure PpsCfg where
  widthUs : Nat := 100000
  offsetNs : Int := 0
  gate : Nat := 1
  ref10mOut : Bool := false
  inInv : Bool := false
deriving DecidableEq, Repr

/-- The PTP instance (`PTP.SET`), with every default of its profile resolved (R369). -/
structure PtpCfg where
  profile : Nat := 0
  domainNum : Nat := 127
  portMask : Nat := 0
  masterCapable : Bool := false
  peerToPeer : Bool := false
  twoStep : Bool := false
  unicastDelayReq : Bool := false
  logSync : Int := -3
  logAnnounce : Int := -2
  logDelayReq : Int := -3
  annTimeout : Nat := 3
  priority1 : Nat := 128
  priority2 : Nat := 128
  smTlv : List Byte := []
deriving DecidableEq, Repr

/-- A PTP message that a port has sent (R369, R371): its departure at the reference plane, the time that was inserted as it entered
the MAC (none in a two-step event message), the sub-nanosecond part for its correction field in units of 2^-32 ns, for an answer or
a follow-up the time that it tells, and an announced clockClass or the metadata body. -/
structure PtpSent where
  kind : Sys2Proof.PtpSend
  time : Int := 0
  inserted : Option Int := none
  frac : Nat := 0
  ref : Int := 0
  domain : Nat := 0
  clockClass : Nat := 0
  body : List Byte := []
deriving DecidableEq, Repr

/-- One network port's PTP state. -/
structure PtpPort where
  state : Sys2Proof.PtpPortState := .disabled
  txDelayPs : Int := 0
  rxDelayPs : Int := 0
  asymPs : Int := 0
  /-- the port has measured its MAC-to-ball latency at a link-up (R370) -/
  latencyMeasured : Bool := false
  /-- the best Announce data set heard and when -/
  best : Option Sys2Proof.Announce := none
  announceAt : Nat := 0
  /-- receive PTP time of the last Sync, with its origin time when known, for the offset and delay (R370) -/
  syncReceived : Int := 0
  syncOrigin : Int := 0
  syncPending : Option Int := none
  /-- send time of the last Delay_Req or Pdelay_Req -/
  reqSent : Int := 0
  /-- clockClass of the last Announce that it sent (R369) -/
  announced : Nat := 0
  /-- messages the port has sent, newest first -/
  sent : List PtpSent := []
  /-- answers and follow-ups that the port has still to send, each with the time that it tells -/
  due : List (Sys2Proof.PtpSend × Int) := []
  managementRefused : Nat := 0
  managementAnswered : Nat := 0
deriving DecidableEq, Repr

/-- Device time, epoch, servo and PTP state. -/
structure TimeState where
  /-- `TIME_NS`, 32 bits -/
  ns : Nat := 0
  /-- `TIME_FRAC`, 32 bits -/
  frac : Nat := 0
  /-- the servo's signed addend -/
  adj : Int := 0
  /-- an addend that first applies to the next cycle's increment (R367) -/
  adjNext : Option Int := none
  /-- wraps of `TIME_NS` since the hub left reset -/
  wraps : Nat := 0
  /-- the epoch: 48-bit seconds and nanoseconds (R362) -/
  epSec : Nat := 0
  epNs : Nat := 0
  /-- steps since reset -/
  steps : Nat := 0
  lastStep : Int := 0
  /-- firmware's wrap count w and the `WRAP` value journaled with it (R365) -/
  fwWraps : Nat := 0
  fwWrap8 : Nat := 0
  fwSteps : Nat := 0
  fwEpoch : Nat := 0
  fwSeconds : Nat := 0
  lastMaintenance : Nat := 0
  servo : Servo := .free
  servoCfg : ServoCfg := {}
  /-- consecutive measurements within `LOCK_NS`, and beyond 1 µs (R372) -/
  goodRun : Nat := 0
  badRun : Nat := 0
  /-- no offset has been measured since the servo entered `FREE` (R373) -/
  fresh : Bool := true
  lastMeasure : Nat := 0
  offsetNs : Int := 0
  pathDelayNs : Int := 0
  /-- times at which `ADJ` changed while `LOCKED`, newest first (R374) -/
  adjHistory : List (Nat × Int) := []
  ptp : PtpCfg := {}
  ports : Tab PtpPort := []
  slavePort : Option Nat := none
  gmId : Nat := 0
  pps : PpsCfg := {}
  /-- device time of the last rise of `PPS_OUT`, and the whole PTP second it marked -/
  lastPpsOut : Option Nat := none
  ppsSecond : Option Int := none
  lastPpsIn : Option Nat := none
  ppsLost : Bool := false
  /-- good edges since the loss -/
  ppsReturn : Nat := 0
  /-- seconds given for the next edge by `TIME.SET_TOD`, and the seconds of the last edge -/
  todNext : Option Nat := none
  tod : Option Nat := none
  ref10mPresent : Bool := true
  memberOf : Bool := false
  domainId : Nat := 0
  memberId : Nat := 0
deriving DecidableEq, Repr

/-- `DEVICE_TIME64` by the true wrap count (R361). -/
def TimeState.now (t : TimeState) : Nat := t.wraps * 2 ^ 32 + t.ns

end Sys2Proof.Machine
end

