-- ==== Sys2Proof/Machine/State.lean ====
section
/-!
DEFINITION. The state of the device, the reasons a command could stop, and the state after reset.
-/

namespace Sys2Proof.Machine

/-- Reasons for a fault. No meaning of this model raises one: a command that the manual turns away completes with an
error status, and an event that cannot occur in a state changes nothing. The one constructor names the condition under
which the manual itself makes no statement. -/
inductive Fault where
  /-- an obligation on the host is broken and the manual does not state what the device does (R6); raised by no
  meaning; safe -/
  | obligationBroken
deriving DecidableEq, Repr

/-- Reasons for a refusal. -/
inductive Refusal where
  /-- the row of the opcode table has no meaning in this model; raised by the dispatch alone; safe -/
  | notModelled (mnemonic : String)
deriving DecidableEq, Repr

/-- The state of the block: every register, ring, buffer, counter, mode and pin the manual gives it, and the commands
that wait. -/
structure State where
  /-- commands waiting, first in first out -/
  pending : List Sys2Proof.Instr := []
  /-- the model's own counter of open values used (`Config.freeNat`, `Config.trng`) -/
  free : Nat := 0
  /-- the command interface: functions, rings, mailbox, fetched and running commands, sessions, ownership -/
  eci : Eci := {}
  /-- start-up, fuses, keep-alive island, boot flash, security, processors, self-test, thermal state, pins -/
  boot : Boot := {}
  /-- device time, epoch, servo, PTP, alignment domain -/
  time : TimeState := {}
  /-- encode channels with their pictures, rows, rate control and timelines; slates; pipe 3 -/
  chan : Channels := {}
  /-- decode channels, statistics and access-unit rings, jig streams, check units -/
  dec : Dec := {}
  /-- layers, commits, coefficients -/
  comp : Comp := {}
  /-- audio ports, clocks, programs, ASRCs, DSPs -/
  audio : Audio := {}
  /-- ingress and egress streams, ports, gates, shapers, policers -/
  net : Net := {}
  /-- serial lanes and SDI outputs -/
  lane : Lanes := {}
  /-- DRAM operating points, buffers mapped in BAR2, arbiters, dowel links -/
  mem : Mem := {}
  /-- task schedulers and trace objects -/
  sched : Scheds := {}
deriving DecidableEq, Repr

/-- The state with its `eci` part changed. -/
def State.modEci (s : State) (f : Eci → Eci) : State := { s with eci := f s.eci }

/-- The state with its `boot` part changed. -/
def State.modBoot (s : State) (f : Boot → Boot) : State := { s with boot := f s.boot }

/-- The state with its `time` part changed. -/
def State.modTime (s : State) (f : TimeState → TimeState) : State := { s with time := f s.time }

/-- The state with its `chan` part changed. -/
def State.modChan (s : State) (f : Channels → Channels) : State := { s with chan := f s.chan }

/-- The state with its `dec` part changed. -/
def State.modDec (s : State) (f : Dec → Dec) : State := { s with dec := f s.dec }

/-- The state with its `comp` part changed. -/
def State.modComp (s : State) (f : Comp → Comp) : State := { s with comp := f s.comp }

/-- The state with its `audio` part changed. -/
def State.modAudio (s : State) (f : Audio → Audio) : State := { s with audio := f s.audio }

/-- The state with its `net` part changed. -/
def State.modNet (s : State) (f : Net → Net) : State := { s with net := f s.net }

/-- The state with its `lane` part changed. -/
def State.modLane (s : State) (f : Lanes → Lanes) : State := { s with lane := f s.lane }

/-- The state with its `mem` part changed. -/
def State.modMem (s : State) (f : Mem → Mem) : State := { s with mem := f s.mem }

/-- The state with its `sched` part changed. -/
def State.modSched (s : State) (f : Scheds → Scheds) : State := { s with sched := f s.sched }

/-- The state with one more open value used. -/
def State.useFree (s : State) : State := { s with free := s.free + 1 }

/-- The device held in reset at power-up, before its rails are good: every register at its reset value, no object, no
command waiting (R470). -/
def State.reset : State := {}

end Sys2Proof.Machine
end

