-- ==== Sys2Proof/Machine/Ops.lean ====
section
/-!
DEFINITION. The shared operations of the command interface: register instances, interrupts, the mailbox words, event
rings and completion rings, handles and ownership.
-/

namespace Sys2Proof.Machine

open Sys2Proof (Byte Word)

/-- The outcome of a command. -/
abbrev Out := Host.Outcome State Fault Refusal

/-- True device time: `TIME_NS` extended by the wraps since the hub left reset (R361). -/
def State.now (s : State) : Nat := s.time.now

/-- `DEVICE_TIME64` as firmware puts it into records: the captured `TIME_NS` extended by firmware's wrap count (R33,
R365). -/
def State.stamp (s : State) : Nat :=
  (s.time.fwWraps + (s.time.wraps % 256 + 256 - s.time.fwWrap8) % 256) * 2 ^ 32 + s.time.ns

/-- What the keep-alive oscillator counts in some device time, open within ±1 % (R487; log entry 217). -/
def kaElapsed (n : Nat) : Nat := max (n * 99 / 100) (min (n * 101 / 100) (Config.kaOscillator n))

/-- The keep-alive time in ns, and its seconds count of 48 bits; the island holds the count at the start of device time. -/
def State.kaNs (s : State) : Nat := s.boot.ka.seconds * 1000000000 + s.boot.ka.rest + kaElapsed s.now
def State.kaSeconds (s : State) : Nat := s.kaNs / 1000000000 % 2 ^ 48

/-- The epoch in nanoseconds, and PTP time (R364). -/
def TimeState.epochNs (t : TimeState) : Int := t.epSec * 1000000000 + t.epNs
def State.ptpNow (s : State) : Int := s.time.epochNs + s.time.ns

/-- t_ep: the device time at which PTP time was zero (R364). -/
def State.tEp (s : State) : Int := (s.now : Int) - s.ptpNow

/-- A function's register instance (R37). -/
def State.fn (s : State) (f : Nat) : FnState := s.eci.fns.look {} f

/-- Change one function's instance. -/
def State.modFn (s : State) (f : Nat) (g : FnState → FnState) : State :=
  s.modEci fun e => { e with fns := e.fns.modD {} f g }

/-- PF0, or a VF that the host has enabled. -/
def State.fnEnabled (s : State) (f : Nat) : Bool := f == 0 || (s.fn f).enabled

/-- The functions that exist now. -/
def State.functions (s : State) : List Nat := (List.range 33).filter s.fnEnabled

/-- Firmware serves commands: READY reached and no management fail-over in progress. -/
def State.firmwareRuns (s : State) : Bool := s.boot.stage == .ready && s.boot.fencedAt.isNone

/-! ### Interrupts (R42) -/

/-- The MSI-X vector of a cause bit. -/
def vectorOf (cause : Nat) : Nat := if cause = 18 then 17 else if 1 ≤ cause ∧ cause ≤ 16 then cause else 0

/-- A cause that holds its vector's condition: set, unmasked and due; causes from 18 on are due at once. -/
def FnState.active (f : FnState) (c : Nat) : Bool := bit f.intCause c && !bit f.intMask c && (decide (18 ≤ c) || bit f.due c)

/-- A vector's condition. -/
def FnState.vectorCond (f : FnState) (v : Nat) : Bool := (List.range 24).any fun c => vectorOf c == v && f.active c

/-- A word of the MSI-X table: software that has not written it reads a vector control word with its mask bit set and
zeros elsewhere (PCI Express Base 5.0; log entry 178). -/
def FnState.msixWord (f : FnState) (i : Nat) : Word := f.msix.look (if i % 4 = 3 then 1 else 0) i

/-- The entries of a cause after its vector is raised: none have been written since, and none is unsignalled but those of a
masked cause (R42). -/
def FnState.signalled (f : FnState) (v c : Nat) (k : Coalesce) : Coalesce :=
  if vectorOf c ≠ v then k else { entries := 0, first := if bit f.intMask c then k.first else none }

/-- A vector is raised: its coalesced causes' entries are signalled, but for those of masked causes; the message of a
vector that its table entry masks stays pending (R35, R42). -/
def FnState.raiseVector (f : FnState) (v : Nat) : FnState :=
  { f with raised := f.raised.modD 0 v (· + 1), coalesce := f.coalesce.mapV (f.signalled v)
           pba := if (f.msixWord (4 * v + 3)).getLsbD 0 then setBit f.pba v else f.pba }

/-- Raise every vector whose condition changes from false to true. -/
def FnState.settle (before after : FnState) : FnState :=
  (List.range 18).foldl
    (fun a v => if !before.vectorCond v && after.vectorCond v then a.raiseVector v else a) after

/-- Set a cause bit. -/
def FnState.setCause (f : FnState) (c : Nat) : FnState := f.settle { f with intCause := setBit f.intCause c }

/-- An entry of a coalesced cause is written: the cause is set, and due when `COUNT` entries wait or no delay is
allowed. -/
def FnState.noteEntry (f : FnState) (c now : Nat) : FnState :=
  let k := f.coalesce.look {} c
  let k' : Coalesce := { entries := k.entries + 1, first := some (k.first.getD now) }
  let due := decide (max 1 (f.intCoalesce.toNat % 256) ≤ k'.entries) || f.intCoalesce.toNat / 65536 == 0
  f.settle { f with
    intCause := setBit f.intCause c
    coalesce := f.coalesce.put c k'
    due := if due then setBit f.due c else f.due }

/-! ### Mailbox words (R43, R44) -/

/-- SRAM offset of PF0 line n. -/
def pf0Line (n : Nat) : Nat := n * 0x800 + 0x780

/-- SRAM offset of a queue's index words. -/
def indexBlock (f q : Nat) : Nat :=
  if f = 0 then pf0Line (q / 8) + 16 * (q % 8) else (f - 1) * 0x800 + 16 * q

/-- SRAM offset of a function's event ring words. -/
def eventBlock (f : Nat) : Nat := if f = 0 then pf0Line 2 + 16 else (f - 1) * 0x800 + 0x110

/-- Fast-path slots of a function (R52). -/
def fastSlots (f : Nat) : Nat := if f = 0 then 29 else 12

/-- SRAM offset of a fast-path slot. -/
def fastSlot (f slot : Nat) : Nat := if f = 0 then pf0Line (3 + slot) else (f - 1) * 0x800 + 0x180 + 128 * slot

/-- A mailbox word. -/
def State.mbxWord (s : State) (off : Nat) : Nat := ofLe (s.eci.mailbox.load off 4)

/-- Store bytes into the mailbox SRAM. -/
def State.mbxStore (s : State) (off : Nat) (bs : List Byte) : State :=
  s.modEci fun e => { e with mailbox := e.mailbox.store off bs }

/-- A host-written ring index: bits 15:0 of its word (R44). -/
def State.hostIndex (s : State) (off : Nat) : Nat := s.mbxWord off % 65536

def State.sqTail (s : State) (f q : Nat) : Nat := s.hostIndex (indexBlock f q)
def State.cqHead (s : State) (f q : Nat) : Nat := s.hostIndex (indexBlock f q + 12)
def State.eqHead (s : State) (f : Nat) : Nat := s.hostIndex (eventBlock f + 4)

/-! ### Events (R51) -/

/-- The DEVICE handle (R54). -/
def deviceHandle : Nat := 0x01FF0000

def handleType (h : Nat) : Nat := h / 0x1000000
def handleDie (h : Nat) : Nat := h / 0x10000 % 256
def handleIndex (h : Nat) : Nat := h % 0x10000
def mkHandle (type die idx : Nat) : Nat := type * 0x1000000 + die * 0x10000 + idx

/-- The DIE handle of an encode die. -/
def dieHandle (d : Nat) : Nat := mkHandle 2 d 0

/-- Free entries of an event ring. -/
def EventRing.space (r : EventRing) (head : Nat) : Nat := 2 ^ r.log2 - 1 - (r.tail + 2 ^ r.log2 - head) % 2 ^ r.log2

/-- Write one entry at the tail (R50). -/
def EventRing.write (r : EventRing) (e : Event) : EventRing :=
  let t := (r.tail + 1) % 2 ^ r.log2
  { r with slots := r.slots.put r.tail { e with phase := r.phase, afterLoss := r.afterLoss }
           tail := t, phase := if t = 0 then !r.phase else r.phase, afterLoss := false }

/-- Count an event that is lost or discarded. -/
def EventRing.lose (r : EventRing) (e : Event) : EventRing :=
  { r with lost := r.lost + 1, lostFirst := if r.lost = 0 then e.time else r.lostFirst, lostLast := e.time }

/-- Firmware can write to a function's rings: the link is up and no take-over runs. -/
def State.canWrite (s : State) : Bool := s.eci.linkUp && s.boot.fencedAt.isNone

/-- A write to host memory brings the link out of its low-power state (R405). -/
def State.wakeLink (s : State) : State := s.modEci fun e => { e with linkPower := 0 }

/-- Write an event entry to a function's ring, advance `EQ_TAIL` and set the `EVENT` cause. -/
def State.writeEvent (s : State) (f : Nat) (e : Event) : State :=
  let s := s.wakeLink.modFn f fun g => { g with ring := g.ring.write e }
  let s := s.mbxStore (eventBlock f) (le 4 (s.fn f).ring.tail)
  s.modFn f fun g => g.noteEntry 17 s.now

/-- Hold an event for a function: at most 256, the oldest lost beyond (R51). -/
def State.holdEvent (s : State) (f : Nat) (e : Event) : State :=
  s.modFn f fun g =>
    match g.ring.held with
    | o :: rest =>
      if 256 ≤ g.ring.held.length then
        ({ g with ring := { g.ring.lose o with held := rest ++ [e] } } : FnState).setCause 19
      else { g with ring := { g.ring with held := g.ring.held ++ [e] } }
    | [] => { g with ring := { g.ring with held := [e] } }

/-- Write held events while the ring has space, after `EV_EVENT_LOST` when events were lost, which no mask
holds back (log entry 186); `n` bounds the entries. -/
def State.flushHeld (s : State) (f : Nat) : Nat → State
  | 0 => s
  | n + 1 =>
    let g := s.fn f
    if !g.rdy || g.ring.error || !s.canWrite || g.ring.space (s.eqHead f) == 0 then s
    else if 0 < g.ring.lost then
      let e : Event := { code := 0x8001, severity := 1, handle := deviceHandle, time := g.ring.lostFirst
                         detail := g.ring.lost % 2 ^ 32 + (g.ring.lostLast % 2 ^ 32) * 2 ^ 32 }
      let s := s.writeEvent f e
      (s.modFn f fun g => { g with ring := { g.ring with lost := 0, afterLoss := true } }).flushHeld f n
    else match g.ring.held with
      | [] => s
      | e :: rest =>
        ((s.modFn f fun g => { g with ring := { g.ring with held := rest } }).writeEvent f e).flushHeld f n

/-- Firmware captures the device time group into its own holding set, from one `TCLK` cycle (R31 to R33). -/
def State.captureTime (s : State) : State :=
  s.modEci fun e => { e with fwHold := { e.fwHold with
    timeNs := s.time.ns, timeFrac := s.time.frac, epNs := s.time.epNs, epSec := s.time.epSec, wraps := s.time.wraps } }

/-- Firmware captures a group that only it reads (R29, R33). -/
def State.captureGroup (s : State) (g : Nat) (values : List Nat) : State :=
  s.modEci fun e => { e with fwHold := { e.fwHold with groups := e.fwHold.groups.put g values } }

/-- What firmware's holding set of a group holds, by place. -/
def State.heldOf (s : State) (g i : Nat) : Nat := (s.eci.fwHold.groups.look [] g).getD i 0

/-- Give a function's event ring what it can take. -/
def State.flushEvents (s : State) (f : Nat) : State := s.flushHeld f ((s.fn f).ring.held.length + 1)

/-- A function's mask lets an event through: severity 3 always (R66). -/
def FnState.wants (g : FnState) (e : Event) : Bool :=
  e.severity == 3 || (bit g.eventRanges (e.code / 256 % 128) && decide (g.eventMinSeverity ≤ e.severity))

/-- A record leaves in a frame of its own, and the frame counter of its direction rises; at 2^40 no frame leaves (R460). -/
def Session.send (c : Session) (r : Record) : Session :=
  if 2 ^ 40 ≤ c.txCount then c else { c with sent := c.sent ++ [r], txCount := c.txCount + 1 }

/-- `bytes` cut into pieces of at most 65,532 (R63); `n` bounds them. -/
def pieces : Nat → List Byte → List (List Byte)
  | 0, _ => []
  | n + 1, bs => if bs.isEmpty then [] else bs.take 65532 :: pieces n (bs.drop 65532)

/-- A completion leaves, and its response behind it in RESPONSE records (R63). -/
def Session.sendCompletion (c : Session) (k : Completion) : Session :=
  (pieces (k.response.length / 65532 + 1) k.response).foldl (fun c b => c.send (.response b)) (c.send (.complete k))

/-- The open sessions of a function receive an event (R64). -/
def State.sendSessions (s : State) (f : Nat) (e : Event) : State :=
  s.modEci fun x => { x with sessions := x.sessions.mapV fun _ c =>
    if c.opened && c.fn == f then c.send (.event e) else c }

/-- An event goes to one function (R41, R51, R64, R66). -/
def State.raiseTo (s : State) (f : Nat) (e : Event) : State :=
  let g := s.fn f
  if !g.wants e then s
  else
    let s := s.sendSessions f e
    if !g.rdy then s.modFn f fun g => { g with ring := g.ring.lose e }
    else if g.ring.error || !s.canWrite || !g.ring.held.isEmpty || 0 < g.ring.lost ||
        g.ring.space (s.eqHead f) == 0 then (s.holdEvent f e).flushEvents f
    else s.writeEvent f e

/-- The owner of an object, or its last owner once it is destroyed; hardware objects not listed belong to PF0. -/
def State.ownerOf (s : State) (h : Nat) : Nat :=
  match s.eci.owners.find h with
  | some f => f
  | none => s.eci.lastOwners.look 0 h

/-- An event of an object, with its kind, object, detail and picture, goes to the object's owner (R51). -/
def State.raise (s : State) (k : EventKind) (handle : Nat) (detail : Nat := 0) (pic : Option Nat := none) : State :=
  s.captureTime.raiseTo (if handle = deviceHandle then 0 else s.ownerOf handle)
    { code := k.1, severity := k.2, handle, time := s.stamp, pic, detail }

/-- An event of one function's own interface. -/
def State.raiseOwn (s : State) (f : Nat) (k : EventKind) (detail : Nat) : State :=
  s.captureTime.raiseTo f { code := k.1, severity := k.2, handle := deviceHandle, time := s.stamp, detail }

/-- An event that goes to every function. -/
def State.raiseAll (s : State) (k : EventKind) (detail time : Nat) : State :=
  s.functions.foldl
    (fun s f => s.raiseTo f { code := k.1, severity := k.2, handle := deviceHandle, time, detail }) s

/-- Set a cause in every function. -/
def State.causeAll (s : State) (c : Nat) : State := s.functions.foldl (fun s f => s.modFn f fun g => g.setCause c) s

/-- `BOOT_STAGE.STAGE` changes, and the `BOOT` cause is set in every function. -/
def State.setStage (s : State) (st : Stage) : State :=
  if s.boot.stage = st then s else (s.modBoot fun b => { b with stage := st }).causeAll 23

/-! ### Completions (R47, R50) -/

/-- The 32 bytes of a completion entry. -/
def Completion.encode (c : Completion) : List Byte :=
  le 2 c.status.code ++ le 2 c.cmdId ++ le 2 c.sqHead ++ le 1 c.queue ++
    le 1 (b2n c.phase + 2 * b2n c.boundary.isSome +
      4 * b2n (match c.boundary with | some (.time _) => true | _ => false) + 8 * b2n c.trunc) ++
    le 4 c.result ++ le 4 c.responseLen ++
    le 8 (match c.boundary with | some (.time t) => t | some (.pic n) => n | none => 0) ++ le 8 c.detail

/-- The completion a reply gives a command: the response is cut to `RESPONSE_LEN`, or to the 32 bytes of a fast-path
slot (R49, R52). -/
def Reply.toCompletion (r : Reply) (k : Cmd) : Completion :=
  let limit := match k.tok.via with | .fast .. => 32 | _ => k.sub.responseLen.toNat
  let wanted := match k.tok.via with | .ring .. => k.sub.responseAddr != 0 | _ => true
  { status := r.status, cmdId := k.tok.cmdId, sqHead := k.tok.sqHead
    queue := match k.tok.via with | .ring _ q => q | .fast .. => 0xFF | .session .. => 0
    trunc := decide (limit < r.response.length), result := r.result, responseLen := r.response.length
    boundary := r.boundary, detail := r.detail
    response := if wanted then r.response.take limit else [], copied := r.copied }

/-- Write a completion entry to a ring: entry, `CQ_TAIL`, claimed slot, cause (R50). -/
def State.writeCompletion (s : State) (f q : Nat) (c : Completion) : State :=
  match (s.fn f).queues.find q with
  | none => s
  | some u =>
    let t := (u.cqTail + 1) % 2 ^ u.cqLog2
    let u' : Queue := { u with cq := u.cq.put u.cqTail { c with phase := u.phase }, cqTail := t
                               phase := if t = 0 then !u.phase else u.phase, claimed := u.claimed - 1 }
    let s := s.wakeLink.modFn f fun g => { g with queues := g.queues.put q u' }
    let s := s.mbxStore (indexBlock f q + 8) (le 4 t)
    s.modFn f fun g => g.noteEntry q s.now

/-- A completion for a ring, held while it cannot be written (R406). -/
def State.postCompletion (s : State) (f q : Nat) (c : Completion) : State :=
  if s.canWrite then s.writeCompletion f q c
  else s.modEci fun e => { e with heldCompletions := e.heldCompletions ++ [(f, q, c)] }

/-- Opcodes whose payloads form the committed configuration of R457: the creating and setting commands. -/
def configOpcodes : List Nat :=
  [0x0101, 0x0103, 0x0108, 0x010A, 0x0201, 0x0203, 0x0206, 0x0207, 0x0301, 0x0404, 0x0501, 0x0505, 0x0508, 0x0509,
   0x050B, 0x0601, 0x0602, 0x0603, 0x0607, 0x0608, 0x0701, 0x0702, 0x0704, 0x0705, 0x0706, 0x070B, 0x0801, 0x0804,
   0x0805, 0x0808, 0x0809, 0x080A, 0x080B, 0x080C, 0x080E, 0x080F, 0x0811, 0x0813, 0x0902, 0x0904, 0x0905, 0x0906,
   0x0908, 0x0909, 0x0A01, 0x0A04, 0x0A05, 0x0B02, 0x0B03, 0x0C03, 0x0C0B, 0x0C0F]

/-- The bytes a command brings as its payload: `INLINE`, or the first `PAYLOAD_LEN` bytes at `PAYLOAD_ADDR` (R49). -/
def Cmd.payload (k : Cmd) : List Byte :=
  if k.sub.flags.getLsbD 0 then k.sub.extBytes.take k.sub.payloadLen.toNat else k.sub.inlineBytes.take 24

/-- A completion that changes the configuration records the payload under the object it set or created. -/
def State.noteConfig (s : State) (k : Cmd) (r : Reply) : State :=
  if !r.status.isError && configOpcodes.contains k.tok.opcode then
    let h := if k.tok.handle = deviceHandle ∧ r.result ≠ 0 then r.result else k.tok.handle
    s.modEci fun e =>
      { e with config := e.config.put h ((e.config.look [] h).put k.tok.opcode (payloadBytes k.tok.opcode k.payload)) }
  else s

/-- A queue has no fetched command left that is not complete, and no completion left that is still to be written (R67). -/
def State.drained (s : State) (f q : Nat) : Bool :=
  !(s.eci.fetched.any fun t => t.via == .ring f q && !t.mute) &&
  !(s.eci.running.any fun r => r.cmd.tok.via == .ring f q && !r.cmd.tok.mute) &&
  !(s.eci.heldCompletions.any fun h => h.1 == f && h.2.1 == q)

/-- A completion goes to a session that is still open (R63, R64). -/
def State.sessionCompletion (s : State) (n : Nat) (k : Cmd) (c : Completion) : State :=
  if k.tok.mute then s else s.modEci fun e => { e with sessions := e.sessions.upd n (·.sendCompletion c) }

/-- `QERR` falls when neither a queue nor the event ring of the function is in the error state. -/
def FnState.qerr (g : FnState) : Bool := g.ring.error || g.queues.any fun u => u.2.error

/-- A queue whose deletion waits is removed, and `QUEUE.DELETE` completes, once every fetched command of it has (R67). -/
def State.finishDeletes (s : State) : State :=
  (s.eci.running.filter fun r =>
      match r.await, r.cmd.tok.via with
      | .queueDelete q, .ring f _ => s.drained f q
      | .queueDelete q, .session _ f => s.drained f q
      | _, _ => false).foldl (fun s r =>
    match r.await with
    | .queueDelete q =>
      let s := s.modEci fun e => { e with running := e.running.filter (· != r) }
      let s := s.modFn r.cmd.tok.via.fn fun g => { g with queues := g.queues.del q }
      match r.cmd.tok.via with
      | .ring f p => if r.cmd.tok.mute then s else s.postCompletion f p (r.reply.toCompletion r.cmd)
      | .session n _ => s.sessionCompletion n r.cmd (r.reply.toCompletion r.cmd)
      | .fast .. => s
    | _ => s) s

/-- Complete a command: its completion goes to its ring, its slot or its session; a muted command writes none (R41,
R52, R63). -/
def State.complete (s : State) (k : Cmd) (r : Reply) : State :=
  let s := s.noteConfig k r
  let c := r.toCompletion k
  let s := match k.tok.via with
    | .ring f q => if k.tok.mute then s else s.postCompletion f q c
    | .fast f slot =>
      let off := fastSlot f slot
      if k.tok.mute then s.modFn f fun g => { g with fastRunning := g.fastRunning.filter (· != slot) }
      else
        let s := (s.mbxStore (off + 0x60) (r.response.take 32)).mbxStore (off + 0x40) c.encode
        s.modFn f fun g => ({ g with fastRunning := g.fastRunning.filter (· != slot) } : FnState).setCause 18
    | .session n _ => s.sessionCompletion n k c
  s.finishDeletes

/-- Write the held completions in order; a deletion that waited for them goes on (R67, R406). -/
def State.flushCompletions (s : State) : State :=
  if s.canWrite then
    (s.eci.heldCompletions.foldl (fun s h => s.writeCompletion h.1 h.2.1 h.2.2)
      (s.modEci fun e => { e with heldCompletions := [] })).finishDeletes
  else s

/-- Complete, with a reply of its own, each running command that waits for something `p` picks out. -/
def State.completeRunning (s : State) (p : Running → Bool) (f : Running → Reply) : State :=
  (s.eci.running.filter p).foldl (fun s r =>
    (s.modEci fun e => { e with running := e.running.filter (· != r) }).complete r.cmd (f r)) s

/-! ### Handles and ownership (R54 to R57) -/

/-- Object types (R54). -/
def tDevice : Nat := 0x01
def tDie : Nat := 0x02
def tChannel : Nat := 0x10
def tLayer : Nat := 0x11
def tSlate : Nat := 0x12
def tIngress : Nat := 0x20
def tEgress : Nat := 0x21
def tPort : Nat := 0x22
def tGateList : Nat := 0x23
def tShaper : Nat := 0x24
def tPolicer : Nat := 0x25
def tAudioPort : Nat := 0x30
def tAudioProgram : Nat := 0x31
def tAsrc : Nat := 0x32
def tTime : Nat := 0x40
def tDomain : Nat := 0x41
def tKey : Nat := 0x50
def tCheck : Nat := 0x60
def tTrace : Nat := 0x61
def tLane : Nat := 0x70

/-- Encode dies of this device. -/
def State.dies (s : State) : Nat := s.boot.fuses.variant.dies

/-- Hardware objects have fixed indices (R55, R385): the device, the dies and the hub, 50 lanes, 18 ports with their gate
lists and shapers, 8 audio ports, the time and domain objects, and 32 check units on the hub and on each die. -/
def State.isHardware (s : State) (h : Nat) : Bool :=
  let t := handleType h
  let d := handleDie h
  let i := handleIndex h
  if t = tDie then (decide (d < s.dies) || d == 0xFF) && i == 0
  else if t = tCheck then (decide (d < s.dies) || d == 0xFF) && decide (i < 32)
  else d == 0xFF && (
    if t = tDevice ∨ t = tTime ∨ t = tDomain then i == 0
    else if t = tLane then
      decide (i < 18 ∨ 32 ≤ i ∧ i < 40 ∨ 64 ≤ i ∧ i < 80 ∨ 96 ≤ i ∧ i < 104)
    else if t = tPort ∨ t = tGateList then decide (i < 18)
    else if t = tShaper then decide (i < 144) && i % 8 != 7
    else t == tAudioPort && decide (i < 8))

/-- A handle names an object that exists. -/
def State.hasObject (s : State) (h : Nat) : Bool :=
  decide (h < 2 ^ 32) && (s.isHardware h || s.eci.owners.has h)

/-- The owner that judges a command fetched as number `seq`: the former owner where a transfer came later (R57). -/
def State.ownerAt (s : State) (h seq : Nat) : Nat :=
  match s.eci.transfers.find? fun t => t.handle == h && decide (seq < t.seq) with
  | some t => t.former
  | none => s.ownerOf h

/-- A command uses an object other than its target: it must exist and suit, and a VF may use its own objects and
PF0's (R56). -/
def State.useObject (s : State) (k : Cmd) (h : Nat) (types : List Nat) : Option Reply :=
  if !s.hasObject h || !types.contains (handleType h) then some { status := .eBadHandle }
  else
    let f := k.tok.via.fn
    let o := s.ownerAt h k.tok.seq
    if f == 0 || o == f || o == 0 then none else some { status := .eDenied }

/-- Move an object to another owner (R57). -/
def State.transfer (s : State) (h toFn : Nat) : State :=
  s.modEci fun e =>
    { e with transfers := e.transfers ++ [{ handle := h, former := s.ownerOf h, seq := e.nextSeq }]
             owners := e.owners.put h toFn }

/-- Take an index from a type's free list: indices never used come first, then freed ones in the order freed (R55). -/
def FreeList.take (l : FreeList) (limit : Nat) : Option (Nat × FreeList) :=
  if l.next < limit then some (l.next, { l with next := l.next + 1 })
  else match l.freed with
    | [] => none
    | i :: r => some (i, { l with freed := r })

/-- Create an object of a type on a die (0xFF: none) for a function; none when the type's free list is empty. -/
def State.newObject (s : State) (type die limit owner : Nat) : Option (Nat × State) :=
  match (s.eci.freeLists.look {} type).take limit with
  | none => none
  | some (i, l) =>
    let h := mkHandle type die i
    some (h, s.modEci fun e => { e with freeLists := e.freeLists.put type l, owners := e.owners.put h owner })

/-- Destroy an object: its index goes to the back of the free list, its last owner is kept for its events (R51, R55). -/
def State.freeObject (s : State) (h : Nat) : State :=
  s.modEci fun e => { e with
    owners := e.owners.del h
    lastOwners := e.lastOwners.put h (e.owners.look 0 h)
    transfers := e.transfers.filter fun t => t.handle != h
    config := e.config.del h
    freeLists := e.freeLists.modD {} (handleType h) fun l => { l with freed := l.freed ++ [handleIndex h] } }

/-- Objects of a type, created ones. -/
def State.objects (s : State) (type : Nat) : List Nat := s.eci.owners.keys.filter fun h => handleType h == type

/-- Objects of a type that a function owns. -/
def State.owned (s : State) (type f : Nat) : Nat :=
  (s.eci.owners.filter fun e => handleType e.1 == type && e.2 == f).length

/-- A check list: the first check that fails answers (R540). -/
def firstFail : List (Bool × Reply) → Option Reply
  | [] => none
  | (bad, r) :: rest => if bad then some r else firstFail rest

/-- The lowest payload offset whose field is bad, as `E_BAD_PARAM` (R540 step 6). -/
def formFail : List (Nat × Bool) → Option Reply
  | [] => none
  | (off, ok) :: rest => if ok then formFail rest else some { status := .eBadParam, detail := off }

/-- The bound-19 error of R55 for a type. -/
def noIndex (type : Nat) : Reply := { status := .eNoCapacity, detail := 19 + type * 256 + 1 * 2 ^ 32 }

/-- Use an open value: the value and the state after it. -/
def State.fresh (s : State) : Nat × State := (Config.freeNat s.free, s.useFree)

/-- SHA3-256 of bytes, 32 bytes long. -/
def sha3 (bs : List Byte) : List Byte := slice (Config.sha3 bs) 0 32

/-- ASCII text as bytes. -/
def ascii (t : List Nat) : List Byte := t.map (BitVec.ofNat 8)

/-- A hub unit has been reset: its port on the hub DRAM's arbiter leaves quarantine (R429). -/
def State.unitReset (s : State) (requester : Nat) : State :=
  s.modMem fun m => { m with arbiters := m.arbiters.upd 0xFF fun g => { g with quarantined := g.quarantined.del requester } }

end Sys2Proof.Machine
end

