-- ==== Sys2Proof/Machine/Command.lean ====
section
/-!
DEFINITION. How firmware runs one ECI command: the order of the checks (R540), the hand-over of staged sets (R19) and
the completion. Every ECI row is one call of `runEci` with its command's own description.
-/

namespace Sys2Proof.Machine

open Sys2Proof (Byte Port Submission)

/-- What a command's target may be (R54, R56). -/
inductive Target where
  /-- the DEVICE handle, with whether any function may name it -/
  | device (anyFn : Bool)
  /-- an object of one of these types -/
  | object (types : List Nat)
  /-- the command names no object: handle 0, or the DEVICE handle (log entry 9) -/
  | noObject
deriving DecidableEq, Repr

/-- What running a command answers: it completes now, or it waits. -/
inductive Answer where
  | done (r : Reply) (s : State)
  | wait (w : Await) (r : Reply) (s : State)

/-- The description of one ECI command. -/
structure EciSpec where
  opcode : Nat
  target : Target
  /-- PF0 only (R65 and the command tables) -/
  pf0Only : Bool := false
  /-- the response can fit a fast-path slot and R53 does not exclude the command -/
  fast : Bool := true
  /-- payloads with which a fast-path command may not use the fast path (R53) -/
  slow : List Byte → Bool := fun _ => false
  /-- only the admin queue takes it (R60) -/
  adminOnly : Bool := false
  /-- valid only inside a network session (R71) -/
  sessionOnly : Bool := false
  /-- `PAYLOAD_LEN` limit (R49) -/
  maxPayload : Nat := 1048576
  /-- life cycle of the target: `E_DENIED` or `E_LOCKED` (R540 step 5) -/
  locked : Cmd → State → Option Reply := fun _ _ => none
  /-- the fields of the payload, by rising offset, with whether each is in range (R540 step 6) -/
  form : List Byte → State → List (Nat × Bool) := fun _ _ => []
  /-- fields whose range depends on the target, by rising offset (R540 step 6) -/
  formIn : Cmd → State → List (Nat × Bool) := fun _ _ => []
  /-- steps 7 to 11 and the effect -/
  run : Cmd → State → Answer

/-- Step 2: opcode and path, then the session (R53, R58, R60, R71, R461). -/
def EciSpec.pathCheck (e : EciSpec) (k : Cmd) (s : State) : Option Reply :=
  let bad : Option Reply := some { status := .eBadOpcode }
  match k.tok.via with
  | .fast .. =>
    if e.fast && !k.sub.flags.getLsbD 0 && !e.sessionOnly && !e.slow k.payload &&
      decide (payloadSize e.opcode k.payload ≤ 24) then none else bad
  | .ring _ q => if e.sessionOnly || (e.adminOnly && q != 0) then bad else none
  | .session n _ =>
    if e.opcode != 0x0010 && !k.tok.mute && !((s.eci.sessions.look {} n).opened) then some { status := .eSession } else none

/-- Step 3: the submission entry (R8, R49); in a session the address fields must be 0 (R63). -/
def EciSpec.entryCheck (e : EciSpec) (k : Cmd) : Option Reply :=
  let sessioned := match k.tok.via with | .session .. => true | _ => false
  let at_ (off : Nat) : Reply := { status := .eBadParam, detail := 2 ^ 63 + off }
  firstFail [
    (k.sub.flags.toNat / 4 != 0, at_ 0x02),
    (k.sub.reserved03 != 0, at_ 0x03),
    (k.sub.reserved06 != 0, at_ 0x06),
    (decide (e.maxPayload < k.sub.payloadLen.toNat), at_ 0x0C),
    (sessioned && k.sub.payloadAddr != 0, at_ 0x10),
    (sessioned && k.sub.responseAddr != 0, at_ 0x18),
    (k.sub.reserved24 != 0, at_ 0x24)]

/-- Step 4: the target handle (R54). -/
def EciSpec.handleCheck (e : EciSpec) (k : Cmd) (s : State) : Option Reply :=
  let h := k.tok.handle
  let ok := match e.target with
    | .device _ => h == deviceHandle
    | .object types => s.hasObject h && types.contains (handleType h)
    | .noObject => h == 0 || h == deviceHandle
  if ok then none else some { status := .eBadHandle }

/-- Step 5: ownership and life cycle of the target (R56, R57, R65). -/
def EciSpec.ownerCheck (e : EciSpec) (k : Cmd) (s : State) : Option Reply :=
  let f := k.tok.via.fn
  let denied := match e.target with
    | .device anyFn => f != 0 && (!anyFn || e.pf0Only)
    | .object _ => f != 0 && (e.pf0Only || s.ownerAt k.tok.handle k.tok.seq != f)
    | .noObject => f != 0 && e.pf0Only
  if denied then some { status := .eDenied } else e.locked k s

/-- Steps 2 to 6 of R540, in order. -/
def EciSpec.judge (e : EciSpec) (k : Cmd) (s : State) : Option Reply :=
  (e.pathCheck k s).or ((e.entryCheck k).or ((e.handleCheck k s).or ((e.ownerCheck k s).or
    (formFail (e.form k.payload s ++ e.formIn k s)))))

/-- A fast-path command whose response does not fit the slot's 32 bytes may not use the fast path (R53). -/
def Answer.fits (k : Cmd) (s : State) (a : Answer) : Answer :=
  match a, k.tok.via with
  | .done r t, .fast .. => if 32 < r.response.length then .done { status := .eBadOpcode } s else .done r t
  | a, _ => a

/-- Judge a command and, if no check refuses it, run it. -/
def EciSpec.serve (e : EciSpec) (k : Cmd) (s : State) : Answer :=
  match e.judge k s with
  | some r => .done r s
  | none => (e.run k s).fits k s

/-- `E_BUSY` carries a retry hint in µs, whose value no rule gives (R59; log entry 147). -/
def State.hint (s : State) (r : Reply) : State × Reply :=
  if r.status = .eBusy then (s.useFree, { r with detail := Config.freeNat s.free % 2 ^ 64 }) else (s, r)

/-- The state after a command has been served: its completion, or its place among the commands that wait. -/
def Answer.settle (k : Cmd) : Answer → State
  | .done r s => (s.hint r).1.complete k (s.hint r).2
  | .wait w r s =>
    let s := s.modEci fun e => { e with running := e.running ++ [{ cmd := k, await := w, reply := r }] }
    match k.tok.via with
    | .fast f slot => s.modFn f fun g => { g with fastRunning := g.fastRunning ++ [slot] }
    | _ => s.finishDeletes

/-- A way in belongs to a submission port. -/
def Via.from (v : Via) (p : Port) : Bool :=
  match p, v with
  | .ring f q, .ring g r => f.val == g && q.val == r
  | .session n, .session m _ => n.val == m
  | _, _ => false

/-- A session's submission has its payload: as many bytes have followed in PAYLOAD records as `PAYLOAD_LEN` says, but for a
length above every limit (R49, R63; log entry 179). -/
def Token.hasPayload (t : Token) : Bool :=
  match t.entry with
  | none => true
  | some e => !e.flags.getLsbD 0 || decide (e.payloadLen.toNat ≤ e.extBytes.length) || decide (67108864 < e.payloadLen.toNat)

/-- A fetched entry may start: firmware runs; a session has brought its payload; no earlier fetched command on the same
object has yet to start (R62); and a fenced entry has every earlier command of its queue complete (`FENCE`). -/
def State.mayStart (s : State) (t : Token) : Bool :=
  s.firmwareRuns && t.hasPayload &&
  !(s.eci.fetched.any fun u => decide (u.seq < t.seq) && t.handle != 0 && u.handle == t.handle) &&
  (!t.fence ||
    !(s.eci.fetched.any fun u => decide (u.seq < t.seq) && u.via == t.via) &&
    !(s.eci.running.any fun r => decide (r.cmd.tok.seq < t.seq) && r.cmd.tok.via == t.via))

/-- The fetched entry that a submission is: same way in, opcode, tag, target and fence flag. -/
def State.tokenOf (s : State) (op : Nat) (c : Submission) : Option Token :=
  s.eci.fetched.find? fun t => t.via.from c.port && t.opcode == op && t.cmdId == c.cmdId.toNat &&
    t.handle == c.handle.toNat && t.fence == c.flags.getLsbD 1

/-- The fetched entry of a submission, when it may start. -/
def State.ready (s : State) (op : Nat) (c : Submission) : Option Token :=
  match s.tokenOf op c with
  | some t => if s.mayStart t then some t else none
  | none => none

/-- The submission that a fetched entry is: a session's entry as its records brought it, with what host memory would hold
at further addresses left as given; a ring's entry as host memory gives it. -/
def Token.submission (t : Token) (c : Submission) : Submission :=
  match t.entry with
  | none => c
  | some e => { e with port := c.port, hostData := c.hostData }

/-- The state with a fetched entry taken up. -/
def State.takeUp (s : State) (t : Token) : State :=
  s.modEci fun e => { e with fetched := e.fetched.filter (· != t) }

/-- Firmware takes up one fetched submission and serves it. A submission that is not among the fetched entries that
may start has no effect: firmware runs only what it has fetched. -/
def runEci (e : EciSpec) (c : Submission) (s : State) : Out :=
  match s.ready e.opcode c with
  | none => .next s
  | some t =>
    let k : Cmd := { tok := t, sub := t.submission c }
    .next (Answer.settle k (e.serve k (s.takeUp t)))

/-- Complete at once with a state and a reply. -/
def ok (s : State) (r : Reply := {}) : Answer := .done r s

/-- Refuse without any change. -/
def refuse (s : State) (r : Reply) : Answer := .done r s

/-- Answer the first failing check, or go on. -/
def checked (s : State) (checks : List (Bool × Reply)) (k : Unit → Answer) : Answer :=
  match firstFail checks with
  | some r => .done r s
  | none => k ()

/-- A command that names an encode die not yet ready, or one held in reset since the start (R477). -/
def State.dieGate (s : State) (h : Nat) : Option Reply :=
  let d := handleDie h
  let b := s.boot
  if handleType h != tDie || d == 0xFF || bit b.diesReady d || bit b.diesFaulted d then none
  else if bit b.diesFenced d then some { status := .eHwFault }
  else some { status := .eBusy }

/-- A command on a die, behind every other check of its own (R477, R540). -/
def State.gated (s : State) (h : Nat) (a : Answer) : Answer :=
  match a, s.dieGate h with
  | .done r t, some g => if r.status.isError then .done r t else refuse s g
  | .wait .., some g => refuse s g
  | a, none => a

/-- Send a staged set to a unit; the completion follows its arrival (R19). -/
def stage (s : State) (kind : BoundaryKind) (c : Change) (r : Reply := {}) : Answer := .wait (.arrival kind c) r s

end Sys2Proof.Machine
end

