-- ==== Sys2Proof/Machine/Limits.lean ====
section
/-!
DEFINITION. The level and tier limits of the two codecs that R103, R141 and R183 name. PRESUMED (log entry 12): the
manual refers to the standards (H.265, H.266) for the figures and does not print them.
-/

namespace Sys2Proof.Machine

/-- Limits of one level. Rates and sizes of the High tier are 0 where the level has none. -/
structure LevelLimit where
  level : Nat
  maxLumaPs : Nat
  maxLumaSr : Nat
  brMain : Nat
  brHigh : Nat
  cpbMain : Nat
  cpbHigh : Nat
  /-- minimum compression ratio base, Main and High tier -/
  crMain : Nat
  crHigh : Nat
  maxSlices : Nat
  /-- tile rows for HEVC; tiles per picture for VVC -/
  maxTiles : Nat
  maxTileCols : Nat
deriving DecidableEq, Repr

/-- H.265 levels: rates in kb/s and sizes in kbit before the profile's factor. -/
def hevcLevels : List LevelLimit :=
  [⟨10, 36864, 552960, 128, 0, 350, 0, 2, 2, 16, 1, 1⟩, ⟨20, 122880, 3686400, 1500, 0, 1500, 0, 2, 2, 16, 1, 1⟩,
   ⟨21, 245760, 7372800, 3000, 0, 3000, 0, 2, 2, 20, 1, 1⟩, ⟨30, 552960, 16588800, 6000, 0, 6000, 0, 2, 2, 30, 2, 2⟩,
   ⟨31, 983040, 33177600, 10000, 0, 10000, 0, 2, 2, 40, 3, 3⟩,
   ⟨40, 2228224, 66846720, 12000, 30000, 12000, 30000, 4, 4, 75, 5, 5⟩,
   ⟨41, 2228224, 133693440, 20000, 50000, 20000, 50000, 4, 4, 75, 5, 5⟩,
   ⟨50, 8912896, 267386880, 25000, 100000, 25000, 100000, 6, 4, 200, 11, 10⟩,
   ⟨51, 8912896, 534773760, 40000, 160000, 40000, 160000, 8, 4, 200, 11, 10⟩,
   ⟨52, 8912896, 1069547520, 60000, 240000, 60000, 240000, 8, 4, 200, 11, 10⟩,
   ⟨60, 35651584, 1069547520, 60000, 240000, 60000, 240000, 8, 4, 600, 22, 20⟩,
   ⟨61, 35651584, 2139095040, 120000, 480000, 120000, 480000, 8, 4, 600, 22, 20⟩,
   ⟨62, 35651584, 4278190080, 240000, 800000, 240000, 800000, 6, 4, 600, 22, 20⟩]

/-- H.266 levels. -/
def vvcLevels : List LevelLimit :=
  [⟨10, 36864, 552960, 128, 0, 350, 0, 2, 2, 16, 1, 1⟩, ⟨20, 122880, 3686400, 1500, 0, 1500, 0, 2, 2, 16, 1, 1⟩,
   ⟨21, 245760, 7372800, 3000, 0, 3000, 0, 2, 2, 20, 1, 1⟩, ⟨30, 552960, 16588800, 6000, 0, 6000, 0, 2, 2, 30, 4, 2⟩,
   ⟨31, 983040, 33177600, 10000, 0, 10000, 0, 2, 2, 40, 9, 3⟩,
   ⟨40, 2228224, 66846720, 12000, 30000, 12000, 30000, 4, 4, 75, 25, 5⟩,
   ⟨41, 2228224, 133693440, 20000, 50000, 20000, 50000, 4, 4, 75, 25, 5⟩,
   ⟨50, 8912896, 267386880, 25000, 100000, 25000, 100000, 6, 4, 200, 110, 10⟩,
   ⟨51, 8912896, 534773760, 40000, 160000, 40000, 160000, 8, 4, 200, 110, 10⟩,
   ⟨52, 8912896, 1069547520, 60000, 240000, 60000, 240000, 8, 4, 200, 110, 10⟩,
   ⟨60, 35651584, 1069547520, 80000, 320000, 80000, 320000, 8, 4, 600, 440, 20⟩,
   ⟨61, 35651584, 2139095040, 120000, 480000, 120000, 480000, 8, 4, 600, 440, 20⟩,
   ⟨62, 35651584, 4278190080, 180000, 800000, 180000, 800000, 8, 4, 600, 440, 20⟩,
   ⟨63, 80216064, 4812963840, 320000, 1600000, 320000, 1600000, 8, 4, 1000, 990, 30⟩]

/-- The limit row of a channel's `LEVEL` field: bits 6:0 the level, bit 7 High tier. -/
def ChCfg.limit (c : ChCfg) : Option LevelLimit :=
  (if c.codec = 0 then hevcLevels else vvcLevels).find? fun l =>
    l.level == c.level % 128 && (c.level < 128 || 0 < l.brHigh)

def ChCfg.highTier (c : ChCfg) : Bool := decide (128 ≤ c.level)

/-- CpbNalFactor of the channel's profile: Main and Main 10, Main 4:2:2 10 (HEVC); Main 10, Main 10 4:4:4 (VVC). -/
def ChCfg.nalFactor (c : ChCfg) : Nat :=
  if c.chroma = 0 then 1100 else if c.codec = 0 then 1833 else 2750

/-- FormatCapabilityFactor in thousandths. -/
def ChCfg.formatFactor (c : ChCfg) : Nat :=
  if c.codec = 0 then (if c.chroma = 1 then 2500 else if c.bitDepth = 8 then 1500 else 1875)
  else if c.chroma = 0 then 1875 else 3750

/-- MinCr of the level and tier in hundredths (the 4:4:4 profile of VVC scales it by 3/4). -/
def ChCfg.minCr (c : ChCfg) (l : LevelLimit) : Nat :=
  (if c.highTier then l.crHigh else l.crMain) * (if c.codec = 1 ∧ c.chroma = 1 then 75 else 100)

/-- Maximum bit rate in b/s and maximum CPB size in bits, with the profile's NAL factor (R183). -/
def ChCfg.maxRate (c : ChCfg) (l : LevelLimit) : Nat := (if c.highTier then l.brHigh else l.brMain) * c.nalFactor
def ChCfg.maxCpb (c : ChCfg) (l : LevelLimit) : Nat := (if c.highTier then l.cpbHigh else l.cpbMain) * c.nalFactor

/-- The largest size in bits that the minimum compression ratio allows the first access unit of a sequence, or a later one. -/
def ChCfg.auMaxOf (c : ChCfg) (l : LevelLimit) (first : Bool) : Nat :=
  let luma := if first then max (c.width * c.height) (l.maxLumaSr / 300) else l.maxLumaSr * c.rateDen / c.rateNum
  8 * (c.formatFactor * luma * 100 / (1000 * c.minCr l))

/-- The smallest of them (R183). -/
def ChCfg.auMax (c : ChCfg) (l : LevelLimit) : Nat := min (c.auMaxOf l true) (c.auMaxOf l false)

/-- Decoded-picture-buffer size of the level for the picture's size. -/
def ChCfg.dpbMax (c : ChCfg) (l : LevelLimit) : Nat :=
  let n := c.width * c.height
  let b := if c.codec = 0 then 6 else 8
  if 4 * n ≤ l.maxLumaPs then min (4 * b) 16
  else if 2 * n ≤ l.maxLumaPs then min (2 * b) 16
  else if c.codec = 1 ∧ 3 * n ≤ 2 * l.maxLumaPs then min (3 * b / 2) 16
  else if 4 * n ≤ 3 * l.maxLumaPs then min (4 * b / 3) 16
  else b

end Sys2Proof.Machine
end

