-- ==== Sys2Proof/Machine/Admission.lean ====
section
/-!
DEFINITION. Charges and admission: die loads, reservations, DRAM pools, pipes, entropy rates, BAR2 pages and the checks of
R78 (Channels, Pipes and Admission).
-/

namespace Sys2Proof.Machine

open Sys2Proof (Byte)

/-- `E_NO_CAPACITY` of a check (R78): code, die or port, shortfall. -/
def noCapacity (code where_ short : Nat) : Reply :=
  { status := .eNoCapacity, detail := code + where_ * 256 + short % 2 ^ 32 * 2 ^ 32 }

/-! ### What a configuration fixes -/

/-- CTU rows and CTU columns of a picture. -/
def ChCfg.rows (c : ChCfg) : Nat := cdiv c.height c.ctu
def ChCfg.cols (c : ChCfg) : Nat := cdiv c.width c.ctu

/-- Capacity C of one die at a preset, in luma pixels per second (R76). -/
def presetCapacity (e : Nat) : Nat := if e = 1 then 3000000000 else if e = 2 then 2000000000 else 1200000000

/-- References that a preset searches (R132). -/
def presetRefs (e : Nat) : Nat := if e = 1 then 1 else if e = 2 then 2 else 4

/-- The channel needs or asks for a mitre pair (R87). -/
def ChCfg.mitre (c : ChCfg) : Bool :=
  !c.decoder && (bit c.flags 0 || decide (presetCapacity c.effort * c.rateDen < c.width * c.height * c.rateNum))

/-- Slices of one decoding unit, over the tiles of the picture (R140). -/
def ChCfg.tiles (c : ChCfg) : Nat := if c.mitre then 2 else 1

/-- Entropy coding sync is on, but for HEVC Main and Main 10 mitre channels (R140). -/
def ChCfg.wavefront (c : ChCfg) : Bool := !(c.codec == 0 && c.chroma == 0 && c.mitre)

/-- Skip-fill bounds per CTU (R199): merge-skip, zero-vector, intra. -/
def ChCfg.fillBounds (c : ChCfg) : Nat × Nat × Nat :=
  if c.codec = 0 then (64, 152, 96) else if c.ctu = 128 then (80, 176, 240) else (72, 168, 96)

/-- The largest skip-fill bound of the codec and CTU size. -/
def ChCfg.fillMax (c : ChCfg) : Nat := max c.fillBounds.1 (max c.fillBounds.2.1 c.fillBounds.2.2)

/-- Row `k` is the first of a decoding unit. -/
def ChCfg.duStart (c : ChCfg) (k : Nat) : Bool := k % c.duRows == 0

/-- The overheads of row `k`'s fill bound (R189). -/
def ChCfg.fillOverhead (c : ChCfg) (hashSei k : Nat) : Nat :=
  (if c.wavefront || c.duStart k then 64 * c.tiles else 0) +
    (if c.duStart k then 96 + 320 * c.tiles else 0) +
    (if hashSei ≠ 0 ∧ k + 1 = c.rows then 512 else 0)

/-- A fill bound of row `k` at a bound per CTU (R189). -/
def ChCfg.fillRow (c : ChCfg) (hashSei perCtu k : Nat) : Nat := c.cols * perCtu + c.fillOverhead hashSei k

/-- H_MAX (R183). -/
def hMax : Nat := 16384

/-- Z_pic, the fill cost of a picture (R183). -/
def ChCfg.zPic (c : ChCfg) (hashSei : Nat) : Nat :=
  ((List.range c.rows).map (c.fillRow hashSei c.fillMax)).sum + hMax

/-- B in bits of a rate cap in kb/s and a `CPB_MS` (R182). -/
def ChCfg.cpbBits (c : ChCfg) (kbps cpbMs : Nat) : Nat :=
  if cpbMs = 0 then 2 * (kbps * 1000) * c.rateDen / c.rateNum else kbps * cpbMs

/-- The reset value of `R_CAP_KBPS`. -/
def ChCfg.defaultCap (c : ChCfg) : Nat :=
  match c.limit with
  | some l => min 800000 (c.maxRate l / 1000)
  | none => 800000

/-- The lowest rate cap that R183 allows, in kb/s. -/
def ChCfg.lowestCap (c : ChCfg) (hashSei : Nat) : Nat := cdiv (c.zPic hashSei * c.rateNum) (c.rateDen * 1000)

/-- B as the syntax can express it: the least multiple of 16 bits not below it. -/
def signalledCpb (b : Nat) : Nat := 16 * cdiv b 16

/-- The checks of R183, in their order. -/
def ChCfg.rateChecks (c : ChCfg) (hashSei kbps cpbMs : Nat) : List (Bool × Reply) :=
  let z := c.zPic hashSei
  let b := c.cpbBits kbps cpbMs
  let lim (f : LevelLimit → Nat) : Nat := match c.limit with | some l => f l | none => 0
  [(decide (kbps * 1000 * c.rateDen < z * c.rateNum), { status := eRcRateLow, detail := c.lowestCap hashSei }),
   (decide (b < 2 * z), { status := eRcCpb, detail := cdiv (2 * z) 1000 }),
   (decide (lim c.maxCpb < signalledCpb b), { status := eRcCpb, detail := lim c.maxCpb / 1000 }),
   (decide (lim c.maxRate < kbps * 1000), { status := eLevel }),
   (decide (lim c.auMax < z), { status := eLevel })]

/-- Decoded pictures that a structure needs: the references searched and the current picture, and under `STRUCT` = 1 the
pictures that the reordering holds (R103). -/
def dpbNeed (struct miniGop refs : Nat) : Nat :=
  refs + 1 + (if struct = 0 then 0 else if miniGop = 2 then 1 else if miniGop = 4 then 2 else 3)

/-- The level limits that the format, the layout and the structure must keep (R103, R141). -/
def ChCfg.levelOk (c : ChCfg) (struct miniGop refs : Nat) : Bool :=
  match c.limit with
  | none => false
  | some l =>
    let tileRows := cdiv c.rows c.duRows
    decide (c.width * c.height ≤ l.maxLumaPs) && decide (c.width * c.width ≤ 8 * l.maxLumaPs) &&
    decide (c.height * c.height ≤ 8 * l.maxLumaPs) &&
    decide (c.width * c.height * c.rateNum ≤ l.maxLumaSr * c.rateDen) &&
    (if c.codec = 0 then
      (if c.mitre then decide (tileRows ≤ l.maxTiles) && decide (2 ≤ l.maxTileCols) else true) &&
        decide (tileRows * c.tiles ≤ l.maxSlices)
     else decide (tileRows * c.tiles ≤ l.maxTiles) && decide (c.tiles ≤ l.maxTileCols) &&
        decide (tileRows * c.tiles ≤ l.maxSlices)) &&
    decide (dpbNeed struct miniGop refs ≤ c.dpbMax l)

/-- References searched: `MAX_REFS`, or the preset's count. -/
def refsOf (effort maxRefs : Nat) : Nat := if maxRefs = 0 then presetRefs effort else min maxRefs (presetRefs effort)

/-! ### Charges -/

/-- What one channel takes, or would take (R77, R79, R93). -/
structure Charge where
  /-- the channel, 0 for a candidate -/
  chan : Nat := 0
  /-- dies that bear the charge -/
  dies : List Nat
  /-- pipes in use: die and pipe -/
  pipes : List (Nat × Nat)
  /-- load per die, and the pool slot of a pool channel -/
  ppm : Nat
  slot : Nat := 0
  pool : Bool := false
  rateNum : Nat
  rateDen : Nat
  dram : Nat
  /-- R_cap in kb/s -/
  kbps : Nat
  /-- standby dies, the reservation's kind and the dies it protects -/
  standby : List Nat := []
  shared : Bool := false
  primaries : List Nat := []
  /-- the parent of a rendition, and the pixel rate as a fraction -/
  parent : Nat := 0
  pix : Nat
deriving DecidableEq, Repr

/-- B of R79 for a format. -/
def surfaceCharge (w h chroma : Nat) : Nat := w * h * (if chroma = 0 then 3 else 4)

/-- A caption of a rate cap: the `RC.SET` payload's value, or none where it keeps. -/
def capOf (p : List Byte) : List Nat := if u32 p 8 = 0 then [] else [u32 p 8]

/-- Rate caps that staged sets of a channel will bring (admission charges the larger). -/
def State.pendingCaps (s : State) (ch : Nat) : List Nat :=
  (s.eci.staged.map (·.change) ++ s.eci.running.filterMap fun r =>
      match r.await with | .arrival _ c => some c | _ => none).flatMap fun c =>
    match c with | .rc h p => if h = ch then capOf p else [] | _ => []

/-- The rate cap in force, in kb/s. -/
def Channel.capKbps (c : Channel) : Nat := if c.set.rCapKbps = 0 then c.cfg.defaultCap else c.set.rCapKbps

/-- B of a channel in bits. -/
def Channel.cpb (c : Channel) : Nat := c.cfg.cpbBits c.capKbps c.set.cpbMs

/-- Dies on which a channel runs. -/
def Channel.dies (c : Channel) : List Nat := if c.partnerPipe.isSome then [c.die, c.die + 1] else [c.die]

/-- Load of a format on one die in ppm: h × p over a capacity, rounded up. -/
def loadPpm (pix num den cap halves : Nat) : Nat := cdiv (1000000 * pix * num) (den * cap * halves)

/-- The pool slot of R77: ⌈10^6 × f × 40 µs⌉. -/
def slotPpm (num den : Nat) : Nat := cdiv (40 * num) den

/-- The charge of a configuration on dies and pipes. -/
def ChCfg.charge (c : ChCfg) (chan effort kbps : Nat) (dies : List Nat) (pipes : List (Nat × Nat)) : Charge :=
  let halves := if c.mitre then 2 else 1
  let sb : List Nat := if c.standbyDie = 0xFF then [] else if c.mitre then [c.standbyDie, c.standbyDie + 1] else [c.standbyDie]
  { chan, dies, pipes
    ppm := loadPpm (c.width * c.height) c.rateNum c.rateDen (presetCapacity effort) halves
    pool := pipes.any fun p => p.2 == 3
    slot := if pipes.any fun p => p.2 == 3 then slotPpm c.rateNum c.rateDen else 0
    rateNum := c.rateNum, rateDen := c.rateDen
    dram := surfaceCharge c.width c.height c.chroma * (10 + c.lookahead) / halves
    kbps, standby := sb, shared := bit c.flags 1, primaries := dies
    parent := if handleType c.source = tChannel then c.source else 0
    pix := c.width * c.height }

/-- Capacity charged to a decode channel (R244). -/
def decodeCapacity : Nat := 4000000000

/-- The charge of a decode channel (R244). -/
def decodeCharge (c : ChCfg) (outCount chan die pipe : Nat) : Charge :=
  { chan, dies := [die], pipes := [(die, pipe)]
    ppm := loadPpm (c.width * c.height) c.rateNum c.rateDen decodeCapacity 1
    rateNum := c.rateNum, rateDen := c.rateDen
    dram := surfaceCharge c.width c.height c.chroma * (17 + outCount)
    kbps := match c.limit with | some l => c.maxRate l / 1000 | none => 0
    pix := c.width * c.height }

/-- The charges of the channels that exist; those on a faulted die are kept (R95). -/
def State.charges (s : State) : List Charge :=
  s.chan.chans.map fun e =>
    let h := e.1
    let c := e.2
    match s.dec.decoders.find h with
    | some d => decodeCharge c.cfg d.outCount h c.die c.pipe
    | none =>
      let pipes := (c.die, c.pipe) :: (match c.partnerPipe with | some p => [(c.die + 1, p)] | none => [])
      let g := c.cfg.charge h c.effort ((c.capKbps :: s.pendingCaps h).foldl max 0) (c.dies ++ c.kept) pipes
      if c.reserving then { g with primaries := c.dies } else { g with standby := [], primaries := c.dies }

/-- The largest sum over the groups of shared reservations, by primary die (R94). -/
def groupMax (cs : List Charge) (s : Nat) (f : Charge → Nat) : Nat :=
  let shared := cs.filter fun c => c.shared && c.standby.contains s
  (List.range 8).foldl (fun m g => max m ((shared.filter fun c => c.primaries.contains g).map f).sum) 0

/-- What reservations hold on die `s` of a quantity: the dedicated sum and the largest group (R94). -/
def reserved (cs : List Charge) (s : Nat) (f : Charge → Nat) : Nat :=
  ((cs.filter fun c => !c.shared && c.standby.contains s).map f).sum + groupMax cs s f

def onDie (cs : List Charge) (d : Nat) : List Charge := cs.filter fun c => c.dies.contains d

/-- Elements fenced on a die; an MSU or a bank that nothing can stand in for makes the share 1,000,000 (R77, R108, R434). -/
def State.fencedShare (s : State) (d : Nat) : Nat :=
  let h := s.boot.health.look {} d
  let served := (s.chan.msuServing.filter fun e => e.1 / 16 == d).length
  if served < h.msusFenced.length ∨ 2 < h.banksFenced.length then 1000000 else cdiv (1000000 * h.enginesFenced.length) 252

/-- Pool load, standby reserve and whole load of a die (R77, R94). -/
def poolLoad (cs : List Charge) (d : Nat) : Nat :=
  (((onDie cs d).filter (·.pool)).map fun c => c.ppm + c.slot).sum
def reserveLoad (cs : List Charge) (d : Nat) : Nat := reserved cs d fun c => c.ppm + c.slot
def State.dieLoad (s : State) (cs : List Charge) (d : Nat) : Nat :=
  ((onDie cs d).map fun c => c.ppm + c.slot).sum + reserveLoad cs d + s.fencedShare d

/-- Bytes of the channel pool in use on a die: charges, reservations, slates and layer buffers (R79, R278, R416). -/
def State.dramUsed (s : State) (cs : List Charge) (d : Nat) : Nat :=
  ((onDie cs d).map (·.dram)).sum + reserved cs d (·.dram) +
    ((s.chan.slates.filter fun e => bit e.2.dieMask d).map fun e => surfaceCharge e.2.width e.2.height e.2.chroma).sum +
    ((s.mem.buffers.filter fun e => e.2.die == d && handleType e.2.object == tLayer).map fun e => e.2.bytes).sum

/-- The 6 GiB pool of a die. -/
def dramPool : Nat := 6442450944

/-- Pipes 0 to 2 of a die in use, and pipes reserved there. -/
def pipesUsed (cs : List Charge) (d : Nat) : List Nat :=
  cs.flatMap fun c => (c.pipes.filter fun p => p.1 == d && p.2 != 3).map (·.2)
def pipesReserved (cs : List Charge) (d : Nat) : Nat := reserved cs d fun c => if c.pool then 0 else 1

/-- Pool places of a die in use and reserved there (R94). -/
def poolPlaces (cs : List Charge) (d : Nat) : Nat :=
  ((onDie cs d).filter (·.pool)).length + reserved cs d fun c => if c.pool then 1 else 0

/-- The lowest free pipe among 0 to 2 of a die, leaving the reserved ones. -/
def freePipe (cs : List Charge) (d : Nat) : Option Nat :=
  if 3 ≤ (pipesUsed cs d).length + pipesReserved cs d then none
  else (List.range 3).find? fun p => !(pipesUsed cs d).contains p

/-- The pool's picture rate on a die, if a pool exists. -/
def poolRate (cs : List Charge) (d : Nat) : Option (Nat × Nat) :=
  ((cs.filter fun c => c.pool && (c.dies.contains d || c.standby.contains d)).head?).map fun c => (c.rateNum, c.rateDen)

/-- ℓ_max of a die's operating point, the lower one while a change is pending (R417, R418). -/
def pointLimit (p : Nat) : Nat := if p = 0 then 1000000 else if p = 1 then 861600 else 400800
def State.loadLimit (s : State) (d : Nat) : Nat :=
  let m := s.mem.dies.look {} d
  let base := min (pointLimit m.point) (match m.pending with | some p => pointLimit p | none => 1000000)
  min base (match m.changing with | some c => pointLimit c.1 | none => 1000000)

/-- A check that fails when `used` exceeds `limit`: code, place, shortfall rounded up in `unit`s. -/
def bound (code place used limit unit : Nat) : Bool × Reply :=
  (decide (limit < used), noCapacity code place (cdiv (used - limit) unit))

/-- Mb/s of each pipe of a candidate beyond R139's 2,400. -/
def pipeRate (cs : List Charge) (p : Nat × Nat) : Nat := ((cs.filter fun c => c.pipes.contains p).map (·.kbps)).sum

/-- Output of the rendition scaler of a die, in pixels per second times `unit` (R90). -/
def scalerLoad (cs : List Charge) (d : Nat) : Nat :=
  ((cs.filter fun c => c.parent != 0 && (cs.any fun q => q.chan == c.parent && q.dies.contains d)).map fun c =>
    cdiv (c.pix * c.rateNum) c.rateDen).sum

/-- The checks of R78 that apply to a candidate charge among the other charges, in code order: 1 to 8, then 15. A pipe is
`none` where no pipe of the kind asked for is free. The scaler's check (R90) applies to renditions and to parents. The
shortfall of check 7 is in the unit of what falls short (log entry 193). -/
def State.admission (s : State) (others : List Charge) (c : Charge) (pipes : List (Nat × Option Nat)) : List (Bool × Reply) :=
  let cs := others ++ [c]
  let scales := c.parent != 0 || (c.chan != 0 && others.any fun g => g.parent == c.chan)
  let per (f : Nat → List (Bool × Reply)) : List (Bool × Reply) := c.dies.flatMap f
  let sb (f : Nat → List (Bool × Reply)) : List (Bool × Reply) := c.standby.flatMap f
  per (fun d => [bound 1 d (s.dieLoad cs d) 1000000 1]) ++
  pipes.map (fun p => (p.2.isNone, noCapacity 2 p.1 1)) ++
  per (fun d => [bound 3 d (if c.pool then poolPlaces cs d else 0) 32 1]) ++
  [bound 4 0xFF cs.length s.boot.fuses.variant.channels 1] ++
  per (fun d => [bound 4 d (onDie cs d).length 35 1]) ++
  per (fun d => [bound 5 d (s.dramUsed cs d) dramPool 1024]) ++
  (List.range 8).map (fun d => bound 6 d (if scales then scalerLoad cs d else 0) 4000000000 1000000) ++
  sb (fun d =>
    [bound 7 d (s.dieLoad cs d) 1000000 1, bound 7 d ((pipesUsed cs d).length + pipesReserved cs d) 3 1,
     bound 7 d (poolPlaces cs d) 32 1,
     bound 7 d (s.dramUsed cs d) dramPool 1024]) ++
  c.pipes.map (fun p => bound 8 p.1 (pipeRate cs p) 2400000 1000) ++
  (c.dies ++ c.standby).map (fun d => bound 15 d (s.dieLoad cs d) (s.loadLimit d) 1)

/-! ### BAR2 pages (R436) -/

/-- Pages of a buffer. -/
def pagesOf (bytes : Nat) : Nat := max 1 (cdiv bytes 65536)

/-- The lowest run of `n` free pages at or above `pos`. -/
def findPages (n : Nat) : Nat → List (Nat × Buffer) → Option Nat
  | pos, [] => if pos + n ≤ 65536 then some pos else none
  | pos, (first, b) :: r => if pos + n ≤ first then some pos else findPages n (first + b.pages) r

/-- Map a new buffer: its BAR2 offset and the state, or none where no run of pages is free. -/
def State.mapBuffer (s : State) (object die bytes : Nat) : Option (Nat × State) :=
  let n := pagesOf bytes
  match findPages n 0 s.mem.buffers with
  | none => none
  | some p => some (p * 65536, s.modMem fun m => { m with buffers := m.buffers.put p { object, die, bytes, pages := n } })

/-- Map several buffers, in order. -/
def State.mapBuffers (s : State) (object : Nat) : List (Nat × Nat) → Option (List Nat × State)
  | [] => some ([], s)
  | (die, bytes) :: r =>
    match s.mapBuffer object die bytes with
    | none => none
    | some (a, t) =>
      match t.mapBuffers object r with
      | none => none
      | some (as, u) => some (a :: as, u)

/-- The refusal of check 17. -/
def noPages (bytes : List Nat) : Reply := noCapacity 17 0xFF (bytes.map pagesOf).sum

/-- Unmap the buffer that starts at a BAR2 offset, with its contents and its poisoned lines. -/
def State.unmapAt (s : State) (off : Nat) : State :=
  s.modMem fun m =>
    match m.buffers.find (off / 65536) with
    | none => m
    | some b =>
      let stays (a : Nat) : Bool := decide (a < off) || decide (off + b.pages * 65536 ≤ a)
      { m with buffers := m.buffers.del (off / 65536)
               data := m.data.filter fun c => stays c.1
               dies := m.dies.mapV fun _ d => { d with poisoned := d.poisoned.filter fun l => stays (64 * l) } }

/-- Unmap every buffer of an object. -/
def State.unmapObject (s : State) (h : Nat) : State :=
  (s.mem.buffers.sel fun _ b => b.object == h).keys.foldl (fun s p => s.unmapAt (p * 65536)) s

/-- Store bytes in a mapped buffer. -/
def State.bufStore (s : State) (off : Nat) (bs : List Byte) : State :=
  s.modMem fun m => { m with data := m.data.store off bs }

/-- Bytes of the hub ring pool in use (R416), and the pool's 5.75 GiB. -/
def State.ringPoolUsed (s : State) : Nat :=
  ((s.dec.stats.vals ++ s.dec.auRings.vals).map fun r => 2 ^ r.log2).sum
def ringPool : Nat := 6174015488

end Sys2Proof.Machine
end

