-- ==== Sys2Proof/Machine/Objects.lean ====
section
/-!
DEFINITION. What names what: the uses that keep an object from being destroyed, quotas, port rates and stream rates that
several chapters share.
-/

namespace Sys2Proof.Machine

open Sys2Proof (Byte)

/-- Quotas bound a VF's new creations (R68). -/
def State.quota (s : State) (k : Cmd) (type : Nat) (limit : Quota → Nat) : Bool × Reply :=
  let f := k.tok.via.fn
  (f != 0 && decide (limit (s.fn f).quota ≤ s.owned type f), { status := .eQuota })

/-- Staged and hand-over changes that are under way. -/
def State.changes (s : State) : List Change :=
  s.eci.staged.map (·.change) ++ s.eci.running.filterMap fun r =>
    match r.await with | .arrival _ c => some c | .pipe3Boundary _ c => some c | _ => none

/-- A channel, as its state or the default. -/
def State.ch (s : State) (h : Nat) : Channel := s.chan.chans.look {} h

/-- Change a channel that exists. -/
def State.modCh (s : State) (h : Nat) (f : Channel → Channel) : State :=
  s.modChan fun x => { x with chans := x.chans.upd h f }

def State.isDecoder (s : State) (h : Nat) : Bool := s.dec.decoders.has h
def State.isEncoder (s : State) (h : Nat) : Bool := s.chan.chans.has h && !s.isDecoder h

/-- The `CODING.SEI` caption source in force for a channel. -/
def Channel.ccSource (c : Channel) : Nat := u32 c.set.sei 4

/-- The source whose ancillary data gives a channel its captions: the one named, else its own; a rendition's is its parent's
(R170; log entry 202). -/
def State.captionSource (s : State) (c : Channel) : Nat :=
  if c.ccSource ≠ 0 then c.ccSource
  else if handleType c.cfg.source = tChannel then (s.ch c.cfg.source).cfg.source else c.cfg.source

/-- Caption constructs of a packet wait in each channel that takes them from its source, with the packet's time-stamp (R170). -/
def State.captionPacket (s : State) (src time : Nat) (l : List Sys2Proof.Caption) : State :=
  let add (h : Nat) (c : Channel) : Channel :=
    if !l.isEmpty && bit (u8 c.set.sei 0) 2 && c.state != .idle && s.captionSource c == src && s.isEncoder h then
      { c with captions := c.captions ++ [(time, none, l.map fun x => [x.1, x.2.1, x.2.2])] }
    else c
  s.modChan fun x => { x with chans := x.chans.mapV add }

/-- Program handles that an egress payload's `AUDIO` field names. -/
def audioOf (p : List Byte) : List Nat := ((List.range 8).map fun i => u32 p (0x50 + 4 * i)).filter (· != 0)

def Egress.programs (e : Egress) : List Nat :=
  if e.kind = 7 ∨ e.kind = 8 then audioOf e.payload else if e.kind = 2 ∨ e.kind = 3 then [e.source] else []

/-- A check unit is bound, or is being bound, to a target. -/
def State.checkBound (s : State) (h : Nat) (point : Option Nat) : Option Nat :=
  match s.dec.checks.find? fun e => e.2.bound && e.2.target == h && (point.isNone || point == some e.2.point) with
  | some e => some e.1
  | none => s.changes.findSome? fun c => match c with
    | .checkBind u p => if u32 p 0 = h ∧ (point.isNone ∨ point = some (u8 p 4)) then some u else none
    | _ => none

/-- A consumer names an ingress stream (R323). -/
def State.ingressUsed (s : State) (h : Nat) : Bool :=
  (s.chan.chans.any fun e => e.2.cfg.source == h || (bit (u8 e.2.set.sei 0) 2 && e.2.ccSource == h)) ||
  (s.dec.decoders.any fun e => e.2.source == h) || (s.audio.programs.any fun e => e.2.source == h) ||
  (s.net.policers.any fun e => e.2.target == h) || (s.checkBound h none).isSome ||
  (s.changes.any fun c => match c with | .sei _ p => u32 p 4 == h | _ => false)

/-- An SDI lane is named by a channel, a program, an embedding, an egress stream or a loop-through source (R400, R408). -/
def State.sdiUsed (s : State) (h : Nat) : Bool :=
  (s.chan.chans.any fun e => e.2.cfg.source == h) || (s.audio.programs.any fun e => e.2.source == h) ||
  (s.net.egress.any fun e => e.2.source == h) || (s.lane.outs.any fun e => e.2.source == h) ||
  (s.audio.embeds.any fun e => e.1 == h && u8 e.2 0 != 0) ||
  s.changes.any fun c => match c with
    | .embed l p => l == h && u8 p 0 != 0
    | .sdiOut l p => u32 p 0 == h || l == h && u32 p 0 != 0
    | _ => false

/-- A program is named by a port map, an embedding or an egress stream (R318). -/
def State.programUsed (s : State) (h : Nat) : Bool :=
  let i := handleIndex h
  let mapHas (mask : Nat) (words : List Nat) : Bool :=
    (List.range 32).any fun k => bit mask k && words.getD k 0 % 65536 == i
  let embedHas (p : List Byte) : Bool := (List.range 8).any fun g => bit (u8 p 0) g && u32 p (8 + 8 * g) == h
  (s.audio.ports.any fun e => mapHas e.2.outMask e.2.map) ||
  (s.audio.embeds.any fun e => embedHas e.2) ||
  (s.net.egress.any fun e => e.2.programs.contains h) ||
  s.changes.any fun c => match c with
    | .embed _ p => embedHas p
    | .audioSlots _ p => mapHas (u32 p 4) ((List.range 32).map fun k => u32 p (8 + 4 * k))
    | _ => false

/-- Ethernet lane-mode rates in kb/s (R386, R387). -/
def modeKbps (m : Nat) : Nat :=
  [0, 10000000, 25000000, 50000000, 100000000, 200000000, 400000000, 10000000, 1000000].getD m 0

/-- The LANE handle of an index (R385). -/
def laneHandle (i : Nat) : Nat := mkHandle tLane 0xFF i

/-- The lane of a port: a member of a multi-lane port carries no port of its own (R387). -/
def State.portMember (s : State) (i : Nat) : Bool :=
  ((s.lane.lanes.look {} (i - i % 2)).mode == 5 && i % 2 != 0) ||
    ((s.lane.lanes.look {} (i - i % 4)).mode == 6 && i % 4 != 0)

/-- The rate of port `i` in kb/s: 0 where no port is formed. -/
def State.portKbps (s : State) (i : Nat) : Nat :=
  if i < 16 ∧ s.portMember i then 0 else modeKbps (s.lane.lanes.look {} i).mode

/-- Sampling rate in Hz of a rate code. -/
def rateHz (code : Nat) : Nat := [32000, 44100, 48000, 88200, 96000, 192000].getD code 48000

/-- Wire rate in kb/s of a payload rate in b/s, in frames of an MTU with `head` bytes of headers in it, with Ethernet
header, check sequence, preamble and gap (DESIGN CHOICE, log entry 20). -/
def wireKbps (bps mtu head : Nat) : Nat := cdiv (bps * (mtu + 38)) ((mtu - head) * 1000)

/-- Clocks of the device (R301): 0 device time, 1 and 2 the frame clocks fed from `AMCLK_IN`, and otherwise the handle of
the slave port, SDI input or ST 2022-6 stream. -/
def State.portClock (s : State) (i : Nat) : Nat :=
  let q := s.audio.ports.look {} i
  if q.role = 1 then mkHandle tAudioPort 0xFF i
  else if (s.audio.clocks.look {} q.clock).source = 0 then 0 else 1 + q.clock

def State.sourceClock (s : State) (h : Nat) : Nat :=
  if handleType h = tAudioPort then s.portClock (handleIndex h)
  else if handleType h = tLane then h
  else if u8 (s.net.ingress.look {} h).payload 0 = 1 then h else 0

/-- The clock of a program's output: device time behind an ASRC or for a source with a clock of its own
declared `LOCKED`, and otherwise its
source's clock. -/
def State.programClock (s : State) (h : Nat) : Nat :=
  let g := s.audio.programs.look {} h
  let c := s.sourceClock g.source
  if bit g.flags 0 || (bit g.flags 1 && c == g.source) then 0 else c

/-- Rates of audio in TS: `AAC_KBPS`, or 2,688 kb/s per channel pair (R331). -/
def Program.tsKbps (g : Program) : Nat := if g.kind = 1 then g.kbps else 2688 * cdiv g.channels 2

/-- The largest end-to-end delay of a channel in ns times its rate numerator and R (R176), without T0: L × P + D × r. -/
def Channel.delayNs (c : Channel) : Nat :=
  1000000000 * c.cfg.rateDen * (c.cfg.lookahead * c.cfg.rows + c.dRows) / (c.cfg.rateNum * c.cfg.rows) + 180000

end Sys2Proof.Machine
end

