-- ==== Sys2Proof/Machine/Channels.lean ====
section
/-!
DEFINITION. The channel commands: creation, placement, admission, start and stop, slot tables, slates and die loads
(Channels, Pipes and Admission).
-/

namespace Sys2Proof.Machine

open Sys2Proof (Byte Submission)

/-! ### Surfaces (R272 to R274) -/

/-- Bytes of a welt plane: header region and payload region, each rounded up to 4 KiB (R274). -/
def weltPlane (w h comps depth : Nat) : Nat :=
  let n := cdiv w 128 * cdiv h 8
  4096 * cdiv (8 * n) 4096 + 4096 * cdiv (128 * comps * depth * n) 4096

/-- Bytes of a surface in a format; a linear surface has the smallest pitch that is a multiple of 64 bytes (R272). -/
def surfaceBytes (fmt w h : Nat) : Nat :=
  let lin (bytes : Nat) : Nat := 64 * cdiv (w * bytes) 64
  if fmt = 1 then lin 1 * h + lin 1 * (h / 2)
  else if fmt = 2 then lin 2 * h + lin 2 * (h / 2)
  else if fmt = 3 then 2 * lin 1 * h
  else if fmt = 4 then 2 * lin 2 * h
  else if fmt = 5 ∨ fmt = 6 then 3 * lin 2 * h
  else if fmt = 0x10 ∨ fmt = 0x11 then lin 4 * h
  else if fmt = 0x20 then weltPlane w h 1 8 + weltPlane (w / 2) (h / 2) 2 8
  else if fmt = 0x21 then weltPlane w h 1 10 + weltPlane (w / 2) (h / 2) 2 10
  else if fmt = 0x22 then weltPlane w h 1 8 + weltPlane (w / 2) h 2 8
  else if fmt = 0x23 then weltPlane w h 1 10 + weltPlane (w / 2) h 2 10
  else weltPlane w h 4 8

/-- Chroma format and bit depth of a picture format code: 4:2:0 and 4:2:2 at 8 and 10 bits, linear or welt. -/
def pictureFormat (fmt : Nat) : Option (Nat × Nat) :=
  let c (n : Nat) : Nat × Nat := (n / 2, if n % 2 = 0 then 8 else 10)
  if 1 ≤ fmt ∧ fmt ≤ 4 then some (c (fmt - 1)) else if 0x20 ≤ fmt ∧ fmt ≤ 0x23 then some (c (fmt - 0x20)) else none

/-! ### The creating payload -/

def parseCh (p : List Byte) : ChCfg :=
  { source := u32 p 0, width := u16 p 4, height := u16 p 6, rateNum := u32 p 8, rateDen := u32 p 0xC, codec := u8 p 0x10
    chroma := u8 p 0x11, bitDepth := u8 p 0x12, ctu := u8 p 0x13, level := u8 p 0x14, effort := u8 p 0x15
    dRows := u8 p 0x16, sRows := u8 p 0x17, lookahead := u8 p 0x18, duRows := u8 p 0x19, die := u8 p 0x1A
    pipe := u8 p 0x1B, flags := u8 p 0x1C, standbyDie := u8 p 0x1D, faultPolicy := u8 p 0x1E, priority := u8 p 0x1F
    holdPics := u16 p 0x20, slate := u32 p 0x24 }

/-- A picture rate from 23.976 to 120 with denominator 1 or 1,001. -/
def rateOk (num den : Nat) : Bool := decide (24000 * den ≤ 1001 * num) && decide (num ≤ 120 * den)

/-- A die that heads no mitre pair of the variant (R13). -/
def State.badPair (s : State) (d : Nat) : Bool := d % 2 != 0 || decide (s.dies ≤ d + 1)

/-- Fields of a creating payload, by offset; offset 0 holds `SOURCE`. -/
def chForm (p : List Byte) (s : State) : List (Nat × Bool) :=
  let c := parseCh p
  let den := c.rateDen == 1 || c.rateDen == 1001
  [(4, decide (64 ≤ c.width ∧ c.width ≤ 7680) && c.width % 8 == 0),
   (6, decide (64 ≤ c.height ∧ c.height ≤ 4320) && c.height % 8 == 0),
   (8, !den || rateOk c.rateNum c.rateDen), (0xC, den), (0x10, decide (c.codec ≤ 1)), (0x11, decide (c.chroma ≤ 1)),
   (0x12, c.bitDepth == 8 || c.bitDepth == 10), (0x13, c.ctu == 64 || c.codec == 1 && c.ctu == 128),
   (0x15, decide (1 ≤ c.effort ∧ c.effort ≤ 3)), (0x18, decide (c.lookahead ≤ 32)),
   (0x19, decide (1 ≤ c.duRows ∧ c.duRows ≤ 4)), (0x1A, decide (c.die < s.dies) || c.die == 0xFF),
   (0x1B, decide (c.pipe ≤ 3) || c.pipe == 0xFF), (0x1C, decide (c.flags < 4)),
   (0x1D, c.standbyDie == 0xFF || c.mitre && s.badPair c.standbyDie ||
     decide (c.standbyDie < s.dies) && (c.die == 0xFF || c.standbyDie != c.die)),
   (0x1E, decide (c.faultPolicy ≤ 2)), (0x1F, decide (c.priority ≤ 7)), (0x20, decide (c.holdPics ≤ 600)),
   (0x22, zeros p 0x22 2), (0x28, zeros p 0x28 24)]

/-- D and S in effect (R103). -/
def ChCfg.d (c : ChCfg) : Nat := if c.dRows ≠ 0 then c.dRows else if c.pipe = 3 then 2 * c.rows else 6
def ChCfg.s (c : ChCfg) : Nat := if c.sRows ≠ 0 then c.sRows else min 4 (c.d - 2)

/-! ### Rules of step 8, in the order of R540 -/

/-- The renditions of a channel. -/
def State.renditions (s : State) (h : Nat) : Tab Channel := s.chan.chans.sel fun _ c => c.cfg.source == h

/-- A handle can be a channel's source: a video stream, an SDI input that heads its group, or a channel. -/
def State.sourceExists (s : State) (h : Nat) : Bool :=
  let i := handleIndex h
  h == 0 || (s.hasObject h &&
    ((handleType h == tIngress && decide (u8 (s.net.ingress.look {} h).payload 0 ≤ 1)) ||
     (handleType h == tLane && decide (64 ≤ i ∧ i < 80) && (i % 4 == 0 || (s.lane.lanes.look {} (i - i % 4)).mode != 2)) ||
     handleType h == tChannel))

/-- `E_SOURCE`, and `E_DENIED` for the source of another VF. -/
def State.sourceRules (s : State) (k : Cmd) (h : Nat) : List (Bool × Reply) :=
  let use := s.useObject k h [tIngress, tLane, tChannel]
  [(!s.sourceExists h, { status := eSource }), (h != 0 && use.isSome, use.getD {}),
   (h != 0 && handleType h != tChannel && s.chan.chans.any fun e => e.2.cfg.source == h, { status := eSource })]

/-- Pipe-3 rate of a die among charges differs from a configuration's. -/
def p3RateBad (cs : List Charge) (c : ChCfg) (d : Nat) : Bool :=
  match poolRate cs d with
  | some r => r.1 != c.rateNum || r.2 != c.rateDen
  | none => false

/-- `E_MITRE` and `E_P3_RATE` (R82, R87, R88, R93). -/
def State.mitreRules (s : State) (others : List Charge) (c : ChCfg) : List (Bool × Reply) :=
  let m := c.mitre
  [(m && (c.pipe == 3 || (c.die != 0xFF && s.badPair c.die) || decide (c.width < 3840) || c.width % c.ctu != 0 ||
      (c.standbyDie != 0xFF && s.badPair c.standbyDie)), { status := eMitre }),
   (c.pipe == 3 && ((c.die != 0xFF && p3RateBad others c c.die) ||
      (c.standbyDie != 0xFF && p3RateBad others c c.standbyDie)), { status := eP3Rate })]

/-- `E_DELAY` (R82, R103). -/
def ChCfg.delayBad (c : ChCfg) : Bool :=
  decide (c.d < 6 ∨ 2 * c.rows < c.d) || (c.pipe == 3 && c.d != 2 * c.rows) ||
    decide (c.s < 1 ∨ 8 < c.s ∨ c.d - 2 < c.s)

/-- `E_SLATE_FORMAT` (R102). -/
def State.slateRules (s : State) (k : Cmd) (c : ChCfg) : List (Bool × Reply) :=
  let use := s.useObject k c.slate [tSlate]
  let g := s.chan.slates.look {} c.slate
  [(c.slate != 0 && use.isSome, use.getD {}),
   (c.slate != 0 && (g.width != c.width || g.height != c.height || g.chroma != c.chroma || g.bitDepth != c.bitDepth),
     { status := eSlateFormat })]

/-- A rendition suits a parent: rate, size, chroma format and bit depth (R89, R287). -/
def ladderFits (parent c : ChCfg) : Bool :=
  c.rateNum == parent.rateNum && c.rateDen == parent.rateDen && decide (c.width ≤ parent.width) &&
    decide (c.height ≤ parent.height) && c.chroma == parent.chroma && c.bitDepth == parent.bitDepth

/-- `E_LADDER` for a rendition, and for a parent that keeps its renditions. -/
def State.ladderBad (s : State) (self : Nat) (c : ChCfg) : Bool :=
  (handleType c.source == tChannel &&
    (let q := (s.ch c.source).cfg
     !s.isEncoder c.source || handleType q.source == tChannel || !ladderFits q c ||
       (self == 0 && decide (8 ≤ (s.renditions c.source).length)))) ||
  (self != 0 && (s.renditions self).any fun e => !ladderFits c e.2.cfg)

/-- A 4:2:0 source feeds a 4:2:2 channel (R270). -/
def State.compFormatBad (s : State) (c : ChCfg) : Bool :=
  handleType c.source == tIngress && c.chroma == 1 &&
    (let p := (s.net.ingress.look {} c.source).payload
     u8 p 0 == 0 && u8 p 0x5C == 0)

/-- Taps that a parent's renditions need: the largest `V_TAPS` among them, 0 with no rendition. -/
def State.parentTaps (s : State) (h : Nat) : Nat := ((s.renditions h).map fun e => e.2.set.scaleTaps).foldl max 0

/-- Line memory that the other parents of a die take (R287). -/
def State.lineUse (s : State) (d but : Nat) : Nat :=
  ((s.chan.chans.filter fun e => e.2.die == d && e.1 != but).map fun e => e.2.cfg.width * s.parentTaps e.1).sum

/-- `E_LINEBUF` of a parent at a width with at least `taps` taps, or none. -/
def State.lineBuf (s : State) (parent width taps : Nat) : Bool × Reply :=
  let others := s.lineUse (s.ch parent).die parent
  let v := max taps (s.parentTaps parent)
  (v != 0 && decide (61440 < others + width * v), { status := .eLinebuf, detail := (61440 - others) / v })

/-- Every rule of step 8 for a configuration; `self` is the channel that `CHANNEL.SET` changes, or 0. -/
def State.chRules (s : State) (k : Cmd) (self : Nat) (others : List Charge) (c : ChCfg) (t : ChSettings) :
    List (Bool × Reply) :=
  (if self = 0 then s.sourceRules k c.source else []) ++ s.mitreRules others c ++
  [(!c.levelOk t.struct t.miniGop (refsOf c.effort t.maxRefs), { status := eLevel }), (c.delayBad, { status := eDelay })] ++
  s.slateRules k c ++
  [(s.ladderBad self c, { status := eLadder }), (s.compFormatBad c, { status := eCompFormat }),
   (if handleType c.source = tChannel then s.lineBuf c.source (s.ch c.source).cfg.width (if self = 0 then 6 else 0)
    else (false, {})),
   (if self = 0 then (false, {}) else s.lineBuf self c.width 0)] ++
  c.rateChecks t.hashSei (if t.rCapKbps = 0 then c.defaultCap else t.rCapKbps) t.cpbMs

/-! ### Placement (R81) -/

/-- Where a candidate die puts a configuration. -/
structure Place where
  die : Nat
  pipes : List (Nat × Option Nat)
  charge : Charge

/-- The place of a configuration on a candidate die among other charges. -/
def ChCfg.placeOn (c : ChCfg) (others : List Charge) (kbps d : Nat) : Place :=
  let named (p : Nat) : Option Nat :=
    if (pipesUsed others d).contains p ∨ 3 ≤ (pipesUsed others d).length + pipesReserved others d then none else some p
  let pipes : List (Nat × Option Nat) :=
    if c.mitre then [(d, freePipe others d), (d + 1, freePipe others (d + 1))]
    else if c.pipe = 3 then [(d, some 3)]
    else if c.pipe = 0xFF then [(d, freePipe others d)] else [(d, named c.pipe)]
  { die := d, pipes
    charge := c.charge 0 c.effort kbps (if c.mitre then [d, d + 1] else [d])
      (pipes.filterMap fun p => p.2.map fun q => (p.1, q)) }

/-- A die, or a die of its pair, in a mask. -/
def ChCfg.touches (c : ChCfg) (mask d : Nat) : Bool := bit mask d || (c.mitre && bit mask (d + 1))

/-- The candidates of R81, in order; the named die alone where the payload names one. -/
def State.candidates (s : State) (f : Nat) (others : List Charge) (c : ChCfg) : List Nat :=
  if c.die ≠ 0xFF then [c.die]
  else (List.range s.dies).filter fun d =>
    (!c.mitre || (d % 2 == 0 && decide (d + 1 < s.dies))) && !c.touches s.boot.diesFenced d && d != c.standbyDie &&
    (f == 0 || (bit (s.fn f).quota.dieMask d && (!c.mitre || bit (s.fn f).quota.dieMask (d + 1)))) &&
    !(c.pipe == 3 && p3RateBad others c d)

/-- The first place that passes every check, or the refusal with the place tried. -/
def State.choosePlace (s : State) (f : Nat) (others : List Charge) (c : ChCfg) (kbps : Nat) : Except (Option Place × Reply) Place :=
  let first := if c.die = 0xFF then 0 else c.die
  let at_ := c.placeOn others kbps
  if 2 * presetCapacity c.effort * c.rateDen < c.width * c.height * c.rateNum then
    .error (some (at_ first), (bound 1 first (s.dieLoad (others ++ [(at_ first).charge]) first) 1000000 1).2)
  else
    let tried := (s.candidates f others c).map fun d =>
      let p := at_ d
      (p, firstFail (s.admission others p.charge p.pipes))
    match tried.find? fun e => e.2.isNone with
    | some e => .ok e.1
    | none => match tried with
      | [] => .error (none, noCapacity 21 0xFF 1)
      | e :: _ => .error (some e.1, e.2.getD {})

/-- A named die outside a VF's mask, or the channel quota (R68, R540 step 9). -/
def State.chQuota (s : State) (k : Cmd) (new : Bool) (c : ChCfg) : List (Bool × Reply) :=
  let f := k.tok.via.fn
  let m := (s.fn f).quota.dieMask
  [(f != 0 && c.die != 0xFF && (!bit m c.die || (c.mitre && !bit m (c.die + 1))), { status := .eQuota })] ++
    (if new then [s.quota k tChannel (·.maxChannels)] else [])

/-- A named die that is held in reset or fenced, or not yet ready (R477); the standby counts as named. -/
def State.dieService (s : State) (c : ChCfg) : List (Bool × Reply) :=
  let named := (if c.die = 0xFF then [] else [c.die]) ++ (if c.standbyDie = 0xFF then [] else [c.standbyDie])
  [(named.any fun d => !c.touches s.boot.diesFenced d && c.touches (255 - s.boot.diesReady % 256) d,
     { status := .eBusy }),
   (named.any fun d => c.touches s.boot.diesFenced d, { status := .eHwFault })]

/-- The admission response (R104), with no place chosen as log entry 191 says. -/
def State.admissionResponse (s : State) (others : List Charge) (c : ChCfg) (p : Option Place) : List Byte :=
  match p with
  | none => le 1 0xFF ++ le 1 0xFF ++ le 1 0xFF ++ le 1 c.d ++ List.replicate 16 0
  | some p =>
    let cs := others ++ [p.charge]
    let pipe (i : Nat) : Nat := ((p.pipes[i]?).bind (·.2)).getD 0xFF
    le 1 p.die ++ le 1 (pipe 0) ++ le 1 (pipe 1) ++ le 1 c.d ++ le 4 (s.dieLoad cs p.die) ++
      le 4 (if c.mitre then s.dieLoad cs (p.die + 1) else 0) ++
      le 4 ((p.charge.standby.map (s.dieLoad cs)).foldl max 0) ++ le 4 (cdiv p.charge.dram 1024)

/-- The channel that a configuration makes at a place. -/
def ChCfg.toChannel (c : ChCfg) (payload : List Byte) (p : Place) (old : Channel) : Channel :=
  let pipe (i : Nat) : Option Nat := (p.pipes[i]?).bind (·.2)
  { old with cfg := c, payload := slice payload 0 64, die := p.die, pipe := (pipe 0).getD 0, partnerPipe := pipe 1
             kept := [], reserving := true, dRows := c.d, sRows := c.s, effort := c.effort }

/-! ### Commands -/

/-- The state code that `EV_CHANNEL_STATE` gives where there is no channel, which no rule states (R73; log entry 149). -/
def State.noChannelState (s : State) : Nat := Config.freeNat s.free % 256

def specChannelCreate : EciSpec where
  opcode := 0x0101
  target := .device true
  fast := false
  form := chForm
  run k s :=
    let c := parseCh k.payload
    let cs := s.charges
    checked s (s.chRules k 0 cs c {} ++ s.chQuota k true c) fun _ =>
      match s.choosePlace k.tok.via.fn cs c c.defaultCap with
      | .error e => refuse s e.2
      | .ok p =>
        checked s (s.dieService c) fun _ =>
          match s.newObject tChannel p.die s.boot.fuses.variant.channels k.tok.via.fn with
          | none => refuse s (noIndex tChannel)
          | some (h, t) =>
            let t := t.modChan fun x => { x with chans := x.chans.put h (c.toChannel k.payload p {}) }
            ok ((t.raise evChannelState h t.noChannelState (some 0)).useFree)
              { result := h, response := s.admissionResponse cs c (some p) }

def execChannelCreate (c : Submission) (s : State) : Out := runEci specChannelCreate c s

/-- `CHANNEL.ADMIT_CHECK` (R80, R104): it reports and changes nothing. -/
def specChannelAdmitCheck : EciSpec where
  opcode := 0x0102
  target := .device true
  fast := false
  form := chForm
  run k s :=
    let c := parseCh k.payload
    let cs := s.charges
    checked s (s.chRules k 0 cs c {} ++ s.chQuota k true c) fun _ =>
      match s.choosePlace k.tok.via.fn cs c c.defaultCap with
      | .error e => refuse s { e.2 with response := s.admissionResponse cs c e.1 }
      | .ok p => checked s (s.dieService c) fun _ => ok s { response := s.admissionResponse cs c (some p) }

def execChannelAdmitCheck (c : Submission) (s : State) : Out := runEci specChannelAdmitCheck c s

/-- The pending shadow slot table of a die, if any: the last `SLOT_TABLE.SET` not yet applied (R85). -/
def State.shadowSlots (s : State) (d : Nat) : Option (List Nat) :=
  (s.changes.filterMap fun c => match c with
    | .slotTable e t => if e = d then some t else none
    | _ => none).getLast?

/-- An applied or pending slot table of its die names a channel (R84). -/
def State.inSlotTable (s : State) (h : Nat) : Bool :=
  let c := s.ch h
  c.pipe == 3 && ((s.chan.pipe3.look {} c.die).table.contains h || ((s.shadowSlots c.die).getD []).contains h)

/-- `CHANNEL.SET` (R105): the source stays; the new configuration is admitted in place of the old. A change of preset
clears `MAX_REFS`. A channel that a slot table names stays in its die's pool, as the table names none but its channels (R84;
log entry 150). It answers as `CHANNEL.CREATE` does (log entry 190). -/
def specChannelSet : EciSpec where
  opcode := 0x0103
  target := .object [tChannel]
  fast := false
  form := chForm
  run k s :=
    let h := k.tok.handle
    let old := s.ch h
    let c := { parseCh k.payload with source := old.cfg.source }
    let set := if c.effort = old.cfg.effort then old.set else { old.set with maxRefs := 0 }
    let cs := s.charges.filter fun g => g.chan != h
    let kbps := ((if set.rCapKbps = 0 then c.defaultCap else set.rCapKbps) :: s.pendingCaps h).foldl max 0
    let slotted := s.inSlotTable h
    checked s ([(s.isDecoder h || old.state != .idle || (slotted && c.pipe != 3), { status := .eState })] ++
        s.chRules k h cs c set ++ s.chQuota k false c) fun _ =>
        match s.choosePlace k.tok.via.fn cs c kbps with
        | .error e => refuse s e.2
        | .ok p =>
          checked s ((slotted && p.die != old.die, { status := .eState }) :: s.dieService c) fun _ =>
            ok (s.modCh h fun x => { c.toChannel k.payload p x with set }) { response := s.admissionResponse cs c (some p) }

def execChannelSet (c : Submission) (s : State) : Out := runEci specChannelSet c s

/-- `CHANNEL.START` (R73, R75, R84): of an IDLE channel on pipe 0 to 2; a channel whose die is not yet ready, or out of
service, cannot start (R477; log entry 148). -/
def specChannelStart : EciSpec where
  opcode := 0x0104
  target := .object [tChannel]
  run k s :=
    let h := k.tok.handle
    let c := s.ch h
    checked s [(c.state != .idle || c.pipe == 3, { status := .eState }),
        (c.aligned && s.time.servo != .locked, { status := eTimeUnlocked }),
        (!c.cfg.touches s.boot.diesFenced c.die && c.cfg.touches (255 - s.boot.diesReady % 256) c.die, { status := .eBusy }),
        (c.cfg.touches s.boot.diesFenced c.die, { status := .eHwFault })] fun _ =>
      stage s (.source h) (.start h)

def execChannelStart (c : Submission) (s : State) : Out := runEci specChannelStart c s

def specChannelStop : EciSpec where
  opcode := 0x0105
  target := .object [tChannel]
  run k s :=
    let h := k.tok.handle
    let c := s.ch h
    checked s [(!(c.state == .starting || c.state == .running) || c.pipe == 3, { status := .eState })] fun _ =>
      stage s (.picture h) (.stop h)

def execChannelStop (c : Submission) (s : State) : Out := runEci specChannelStop c s

/-- The first object that names a channel and keeps it from being destroyed (R92). -/
def State.channelNamedBy (s : State) (h : Nat) : Option Nat :=
  let c := s.ch h
  (if s.inSlotTable h then some (dieHandle c.die) else none).or <|
  ((s.renditions h).head?.map (·.1)).or <|
  ((s.net.egress.find? fun e => e.2.source == h).map (·.1)).or <|
  (s.checkBound h none).or <|
  (((s.lane.outs.find? fun e => e.2.source == h).map (·.1)).or
    (s.changes.findSome? fun x => match x with | .sdiOut l p => if u32 p 0 = h then some l else none | _ => none))

/-- Free a channel with everything that belongs to it: decode state, rings, layers, buffers, staged sets. -/
def State.dropChannel (s : State) (h : Nat) : State :=
  let s := (s.raise evChannelState h (s.noChannelState * 256) (some (s.ch h).nextPic)).useFree
  let s := s.modEci fun e => { e with staged := e.staged.filter fun t => !(t.kind == .picture h || t.kind == .source h) }
  let layers := (s.comp.layers.filter fun e => e.2.chan == h).map (·.1)
  let s := layers.foldl (fun s l =>
    ((s.modComp fun c => { c with layers := c.layers.del l }).unmapObject l).freeObject l) s
  let s := s.modChan fun x => { x with chans := x.chans.del h }
  let s := s.modDec fun d =>
    { d with decoders := d.decoders.del h, stats := d.stats.del h, auRings := d.auRings.del h, jigs := d.jigs.del h }
  let s := s.modComp fun c => { c with reports := c.reports.filter fun r => r.chan != h }
  (s.unmapObject h).freeObject h

def specChannelDestroy : EciSpec where
  opcode := 0x0106
  target := .object [tChannel]
  run k s :=
    let h := k.tok.handle
    let named := s.channelNamedBy h
    checked s [((s.ch h).state != .idle, { status := .eState }),
        (named.isSome, { status := .eState, detail := named.getD 0 })] fun _ => ok (s.dropChannel h)

def execChannelDestroy (c : Submission) (s : State) : Out := runEci specChannelDestroy c s

/-- A picture number or none, as 8 bytes; none is all ones. -/
def picBytes (p : Option Nat) : List Byte := le 8 (p.getD (2 ^ 64 - 1))

def specChannelQuery : EciSpec where
  opcode := 0x0107
  target := .object [tChannel]
  run k s :=
    let c := s.ch k.tok.handle
    let r := le 1 c.state.code ++ le 1 c.cond.code ++ le 1 c.die ++ le 1 c.pipe ++ le 4 0 ++ picBytes c.lastReleased ++
      le 4 c.repeats ++ le 4 c.slates ++ le 4 c.discarded ++ le 4 c.retimes
    ok s { response := r }

def execChannelQuery (c : Submission) (s : State) : Out := runEci specChannelQuery c s

/-- The slots of a `SLOT_TABLE.SET` payload. -/
def slotsOf (p : List Byte) : List Nat := (List.range (min 32 (u8 p 0))).map fun i => u32 p (4 + 4 * i)

/-- The first bad slot: not a pool channel of the die, or named before (R84). -/
def State.badSlot (s : State) (d : Nat) (slots : List Nat) : Option Nat :=
  (List.range slots.length).find? fun i =>
    let h := slots.getD i 0
    !(s.isEncoder h && (s.ch h).pipe == 3 && (s.ch h).die == d) || (slots.take i).contains h

def specSlotTableSet : EciSpec where
  opcode := 0x0108
  target := .object [tDie]
  fast := false
  form p _ :=
    [(0, decide (u8 p 0 ≤ 32)), (1, zeros p 1 3)] ++
      (List.range 32).map fun i => (4 + 4 * i, decide (i < u8 p 0) || u32 p (4 + 4 * i) == 0)
  run k s := s.gated k.tok.handle <|
    let d := handleDie k.tok.handle
    let slots := slotsOf k.payload
    let bad := s.badSlot d slots
    let use := slots.findSome? fun h => s.useObject k h [tChannel]
    checked s [(d == 0xFF, { status := .eBadHandle }), (bad.isSome, { status := eSlotTable, detail := bad.getD 0 }),
        (use.isSome, use.getD {})] fun _ => stage s (.pipe3 d) (.slotTable d slots)

def execSlotTableSet (c : Submission) (s : State) : Out := runEci specSlotTableSet c s

def specSlotTableGet : EciSpec where
  opcode := 0x0109
  target := .object [tDie]
  fast := false
  run k s := s.gated k.tok.handle <|
    let d := handleDie k.tok.handle
    let slotBytes (t : List Nat) : List Byte := slice (t.flatMap (le 4)) 0 128
    let t := (s.chan.pipe3.look {} d).table
    let sh := s.shadowSlots d
    if d = 0xFF then refuse s { status := .eBadHandle }
    else
      let r := le 1 t.length ++ le 3 0 ++ slotBytes t ++ le 1 ((sh.map List.length).getD 0xFF) ++ le 3 0 ++
        slotBytes (sh.getD [])
      ok s { response := r }

def execSlotTableGet (c : Submission) (s : State) : Out := runEci specSlotTableGet c s

def specSlateCreate : EciSpec where
  opcode := 0x010A
  target := .device true
  fast := false
  form p s :=
    [(0, decide (u8 p 0 < 2 ^ s.dies)), (1, decide (u8 p 1 ≤ 1)), (2, u8 p 2 == 8 || u8 p 2 == 10),
     (4, decide (64 ≤ u16 p 4 ∧ u16 p 4 ≤ 7680) && u16 p 4 % 8 == 0),
     (6, decide (64 ≤ u16 p 6 ∧ u16 p 6 ≤ 4320) && u16 p 6 % 8 == 0)]
  run k s :=
    let p := k.payload
    let g : Slate := { dieMask := u8 p 0, chroma := u8 p 1, bitDepth := u8 p 2, format := u8 p 3, width := u16 p 4, height := u16 p 6 }
    let dies := (List.range 8).filter (bit g.dieMask)
    let charge := surfaceCharge g.width g.height g.chroma
    let bytes := surfaceBytes g.format g.width g.height
    checked s ([(pictureFormat g.format != some (g.chroma, g.bitDepth), { status := eCompFormat })] ++
        dies.map fun d => bound 5 d (s.dramUsed s.charges d + charge) dramPool 1024) fun _ =>
      match s.newObject tSlate 0xFF 65536 k.tok.via.fn with
      | none => refuse s (noIndex tSlate)
      | some (h, t) =>
        match t.mapBuffers h (dies.map fun d => (d, bytes)) with
        | none => refuse s (noPages (dies.map fun _ => bytes))
        | some (as, t) =>
          checked s [(dies.any (bit s.boot.diesFenced), { status := .eHwFault })] fun _ =>
            let addr : Tab Nat := dies.zip as
            ok (t.modChan fun x => { x with slates := x.slates.put h { g with addr } })
              { result := h, response := (List.range 8).flatMap fun d => le 8 (addr.look 0 d) }

def execSlateCreate (c : Submission) (s : State) : Out := runEci specSlateCreate c s

def specSlateDestroy : EciSpec where
  opcode := 0x010B
  target := .object [tSlate]
  run k s :=
    let h := k.tok.handle
    checked s [(s.chan.chans.any fun e => e.2.cfg.slate == h, { status := .eState })] fun _ =>
      ok (((s.modChan fun x => { x with slates := x.slates.del h }).unmapObject h).freeObject h)

def execSlateDestroy (c : Submission) (s : State) : Out := runEci specSlateDestroy c s

def specDieLoad : EciSpec where
  opcode := 0x010C
  target := .object [tDie]
  run k s := s.gated k.tok.handle <|
    let d := handleDie k.tok.handle
    let cs := s.charges
    if d = 0xFF then refuse s { status := .eBadHandle }
    else
      let r := le 4 (s.dieLoad cs d) ++ le 4 (poolLoad cs d) ++ le 4 (reserveLoad cs d) ++ le 4 (s.fencedShare d) ++
        le 4 (cdiv (s.dramUsed cs d) 1024)
      ok s { response := r }

def execDieLoad (c : Submission) (s : State) : Out := runEci specDieLoad c s

end Sys2Proof.Machine
end

