-- ==== Sys2Proof/Machine/Timeline.lean ====
section
/-!
DEFINITION. The timeline and the release schedule of a channel (Rate Control and Fixed Delay, R174 to R177). Times are
exact: the anchor counts units of 1 / (`RATE_NUM` × R) ns, and a time is rounded down when it is used.
-/

namespace Sys2Proof.Machine

/-- Units in one nanosecond. -/
def ChCfg.unit (c : ChCfg) : Nat := max 1 (c.rateNum * c.rows)

/-- The row period r and the picture period P in units. -/
def ChCfg.rUnits (c : ChCfg) : Nat := 1000000000 * c.rateDen
def ChCfg.pUnits (c : ChCfg) : Nat := c.rUnits * c.rows

/-- P rounded down to whole nanoseconds. -/
def ChCfg.pNs (c : ChCfg) : Nat := c.pUnits / c.unit

/-- T(n) in units (R174); pictures before a retime keep the schedule they had (R101). -/
def Channel.slotUnits (c : Channel) (n : Nat) : Int :=
  c.anchor + ((n : Int) - c.anchorPic) * c.cfg.pUnits - ((c.moves.filter fun m => decide (n < m.1)).map (·.2)).sum

/-- A time in units as whole nanoseconds, rounded down, never negative. -/
def ChCfg.ns (c : ChCfg) (u : Int) : Nat := (u / (c.unit : Int)).toNat

/-- Scheduled capture time of row `k` of slot `n`. -/
def Channel.captureNs (c : Channel) (n k : Nat) : Nat := c.cfg.ns (c.slotUnits n + ((k + 1) * c.cfg.rUnits : Nat))

/-- T0 in nanoseconds. -/
def t0 : Nat := 180000

/-- Decoding units of a picture, and the last row of one. -/
def ChCfg.dus (c : ChCfg) : Nat := cdiv c.rows c.duRows
def ChCfg.lastRowOf (c : ChCfg) (j : Nat) : Nat := min ((j + 1) * c.duRows) c.rows - 1
def ChCfg.duOf (c : ChCfg) (row : Nat) : Nat := row / c.duRows

/-- The stitch deadline t_dl of decoding unit `j` of slot `n` (R177). -/
def Channel.deadlineNs (c : Channel) (n j : Nat) : Nat :=
  c.cfg.ns (c.slotUnits n + ((c.cfg.lookahead * c.cfg.pUnits + (c.cfg.lastRowOf j + 1 + c.dRows) * c.cfg.rUnits : Nat) : Int))

/-- The release time t_rel of decoding unit `j` of slot `n` (R176). -/
def Channel.releaseNs (c : Channel) (n j : Nat) : Nat := c.deadlineNs n j + t0

/-- The fixed delay L × P + D × r + T0, rounded down. -/
def Channel.fixedDelayNs (c : Channel) : Nat :=
  (c.cfg.lookahead * c.cfg.pUnits + c.dRows * c.cfg.rUnits) / c.cfg.unit + t0

/-- The deadline of row `k` of a source picture whose row 0 was captured at `m`: the stitch deadline of its decoding unit
(R100, R177; log entry 151). -/
def Channel.rowDeadlineNs (c : Channel) (m k : Nat) : Nat :=
  m + (c.cfg.lookahead * c.cfg.pUnits + (c.cfg.lastRowOf (c.cfg.duOf k) + c.dRows) * c.cfg.rUnits) / c.cfg.unit

/-- r in units of 2^-16 ns. -/
def ChCfg.rowFx (c : ChCfg) : Nat := c.rUnits * 65536 / c.unit

end Sys2Proof.Machine
end

