-- ==== Sys2Proof/Machine/Coding.lean ====
section
/-!
DEFINITION. The commands of analysis, coding tools, picture structure, SEI, rate control and delay (Pre-analysis and
Hierarchical Motion Search; Coding Core; Rate Control and Fixed Delay).
-/

namespace Sys2Proof.Machine

open Sys2Proof (Byte Submission)

/-- A command of encode channels names a decode channel (log entry 30). -/
def State.notEncoder (s : State) (h : Nat) : Bool × Reply := (s.isDecoder h, { status := .eState })

/-- An encode channel that must be IDLE. -/
def State.notIdle (s : State) (h : Nat) : Bool × Reply :=
  (s.isDecoder h || (s.ch h).state != .idle, { status := .eState })

/-! ### Tools (R132 to R135) -/

/-- Tool bits that a preset uses. -/
def toolBits (codec effort : Nat) : List Nat :=
  if codec = 0 then (if effort = 1 then [24, 25, 27] else if effort = 2 then [24, 25, 26, 27] else [24, 25, 26, 27, 32])
  else if effort = 1 then [4, 20, 22, 24, 25, 27]
  else if effort = 2 then [0, 3, 4, 5, 7, 10, 11, 13, 14, 15, 17, 19, 20, 21, 22, 23, 24, 25, 26]
  else List.range 27

/-- `TOOL_ON`: the preset's tools, less those turned off; bits 13 and 14 need a structure with references on both sides,
and bit 21 a PQ or HLG source (R132, R135). -/
def Channel.toolOn (c : Channel) : Nat :=
  ((toolBits c.cfg.codec c.effort).filter fun b =>
    !bit c.set.toolOff b && (c.set.struct == 1 || (b != 13 && b != 14)) && (decide (2 ≤ c.set.colour) || b != 21)).foldl
      setBit 0

def specCodingTools : EciSpec where
  opcode := 0x0201
  target := .object [tChannel]
  formIn k s := [(8, decide (u8 k.payload 8 ≤ presetRefs (s.ch k.tok.handle).cfg.effort)), (9, zeros k.payload 9 7)]
  run k s :=
    let p := k.payload
    let h := k.tok.handle
    let c := s.ch h
    checked s [s.notIdle h,
        (!c.cfg.levelOk c.set.struct c.set.miniGop (refsOf c.cfg.effort (u8 p 8)), { status := eLevel })] fun _ =>
      ok (s.modCh h fun c => { c with set := { c.set with toolOff := u64 p 0, maxRefs := u8 p 8 } })

def execCodingTools (c : Submission) (s : State) : Out := runEci specCodingTools c s

def specCodingToolsGet : EciSpec where
  opcode := 0x0202
  target := .object [tChannel]
  run k s :=
    let h := k.tok.handle
    let c := s.ch h
    checked s [s.notEncoder h] fun _ =>
      ok s { response := le 8 c.toolOn ++ le 1 (refsOf c.effort c.set.maxRefs) ++ le 1 c.cfg.effort ++ le 1 c.effort }

def execCodingToolsGet (c : Submission) (s : State) : Out := runEci specCodingToolsGet c s

def specAnalysisSet : EciSpec where
  opcode := 0x0203
  target := .object [tChannel]
  form p _ :=
    [(0, decide (u8 p 0 ≤ 1)), (1, u8 p 1 == 0 || decide (8 ≤ u8 p 1)), (2, decide (u8 p 2 ≤ 100)),
     (3, decide (u8 p 3 ≤ 1)), (4, zeros p 4 4)]
  run k s :=
    let h := k.tok.handle
    checked s [s.notEncoder h] fun _ => stage s (.picture h) (.analysis h (slice k.payload 0 8))

def execAnalysisSet (c : Submission) (s : State) : Out := runEci specAnalysisSet c s

def specAnalysisQuery : EciSpec where
  opcode := 0x0204
  target := .object [tChannel]
  run k s :=
    let h := k.tok.handle
    let c := s.ch h
    let v (i : Nat) : Nat := c.analysed.getD i 0
    let g (i : Nat) : Int := c.analysedGm.getD i 0
    let r := le 8 (c.lastAnalysed.getD 0) ++ le 2 (v 0) ++ le 2 (v 1) ++ le 1 (v 2) ++ le 1 (v 3) ++ le 1 (v 4) ++ le 1 0 ++
      (List.range 4).flatMap fun i => le 2 (twos 16 (g i))
    checked s [s.notEncoder h] fun _ => ok s { response := r }

def execAnalysisQuery (c : Submission) (s : State) : Out := runEci specAnalysisQuery c s

/-- `RECIPE.INFO`: the digest is that of the running recipe image's manifest (R109). -/
def specRecipeInfo : EciSpec where
  opcode := 0x0205
  target := .device true
  fast := false
  run _ s := ok s { response := le 4 s.boot.recipeVersion ++ le 4 0 ++ slice s.boot.rcpDigest 0 32 }

def execRecipeInfo (c : Submission) (s : State) : Out := runEci specRecipeInfo c s

/-! ### Structure and SEI (R171 to R173) -/

def specCodingStructure : EciSpec where
  opcode := 0x0206
  target := .object [tChannel]
  form p _ :=
    [(0, decide (u8 p 0 ≤ 1)), (1, u8 p 0 == 1 || u8 p 1 == 0), (2, decide (u8 p 2 ≤ 1)),
     (3, decide (4 ≤ u8 p 3 ∧ u8 p 3 ≤ 64)), (6, decide (u8 p 6 ≤ 1)), (7, decide (u8 p 7 ≤ 1)), (8, decide (u8 p 8 ≤ 3)),
     (9, zeros p 9 7)]
  run k s :=
    let p := k.payload
    let h := k.tok.handle
    let c := s.ch h
    let on := u8 p 0 == 1
    let bad (off : Nat) : Reply := { status := eStructure, detail := off }
    checked s [s.notIdle h,
        (on && (!([2, 4, 8].contains (u8 p 1)) || decide (c.cfg.lookahead < u8 p 1)), bad 1),
        (on && u8 p 2 == 0, bad 2), (u16 p 4 != 0 && decide (u16 p 4 < u8 p 3), bad 4),
        (!c.cfg.levelOk (u8 p 0) (u8 p 1) (refsOf c.cfg.effort c.set.maxRefs), { status := eLevel })] fun _ =>
      let set (t : ChSettings) : ChSettings :=
        { t with struct := u8 p 0, miniGop := u8 p 1, refreshMode := u8 p 2, refreshPics := u8 p 3, refreshPeriod := u16 p 4
                 scIdr := u8 p 6, psRepeat := u8 p 7, hashSei := u8 p 8 }
      ok (s.modCh h fun c => { c with set := set c.set })

def execCodingStructure (c : Submission) (s : State) : Out := runEci specCodingStructure c s

def specCodingSei : EciSpec where
  opcode := 0x0207
  target := .object [tChannel]
  fast := false
  form p _ := [(0, decide (u8 p 0 < 8)), (1, zeros p 1 3), (0x24, zeros p 0x24 4)]
  run k s :=
    let p := k.payload
    let h := k.tok.handle
    let src := u32 p 4
    let ok40 := handleType src == tIngress && s.hasObject src && u8 (s.net.ingress.look {} src).payload 0 == 4
    let use := s.useObject k src [tIngress]
    checked s [s.notEncoder h, (src != 0 && !ok40, { status := eSource }), (src != 0 && use.isSome, use.getD {})] fun _ =>
      stage s (.picture h) (.sei h (slice p 0 40))

def execCodingSei (c : Submission) (s : State) : Out := runEci specCodingSei c s

/-- The `CODING.STRUCTURE` payload in force. -/
def ChSettings.structBytes (t : ChSettings) : List Byte :=
  le 1 t.struct ++ le 1 t.miniGop ++ le 1 t.refreshMode ++ le 1 t.refreshPics ++ le 2 t.refreshPeriod ++ le 1 t.scIdr ++
    le 1 t.psRepeat ++ le 1 t.hashSei ++ List.replicate 7 0

def specCodingStructureGet : EciSpec where
  opcode := 0x0208
  target := .object [tChannel]
  fast := false
  run k s :=
    let h := k.tok.handle
    let t := (s.ch h).set
    checked s [s.notEncoder h] fun _ => ok s { response := t.structBytes ++ slice t.sei 0 40 }

def execCodingStructureGet (c : Submission) (s : State) : Out := runEci specCodingStructureGet c s

/-! ### Rate control (R183, R205, R206) -/

/-- Settings after an `RC.SET` payload, with its keep values. -/
def ChSettings.withRc (t : ChSettings) (p : List Byte) : ChSettings :=
  let keep (off old : Nat) : Nat := if u8 p off = 0xFF then old else u8 p off
  { t with ql := keep 0 t.ql, qpMin := keep 1 t.qpMin, qpMax := keep 2 t.qpMax, aqStr := keep 3 t.aqStr, aqMax := keep 4 t.aqMax
           initPct := keep 5 t.initPct, cpbMs := if u16 p 6 = 0xFFFF then t.cpbMs else u16 p 6
           rCapKbps := if u32 p 8 = 0 then t.rCapKbps else u32 p 8 }

/-- The greatest QP of the codec. -/
def ChCfg.qpTop (c : ChCfg) : Nat := if c.codec = 0 then 51 else 63

def specRcSet : EciSpec where
  opcode := 0x0301
  target := .object [tChannel]
  form p _ :=
    let inR (off lo hi : Nat) : Bool := u8 p off == 0xFF || decide (lo ≤ u8 p off ∧ u8 p off ≤ hi)
    [(0, inR 0 1 100), (3, inR 3 0 32), (4, inR 4 0 12), (5, inR 5 10 100), (6, u16 p 6 == 0xFFFF || decide (u16 p 6 ≤ 2000)),
     (8, u32 p 8 == 0 || decide (1000 ≤ u32 p 8 ∧ u32 p 8 ≤ 800000)), (0xC, zeros p 0xC 4)]
  run k s :=
    let p := k.payload
    let h := k.tok.handle
    let c := s.ch h
    let t := c.set.withRc p
    let cap := if t.rCapKbps = 0 then c.cfg.defaultCap else t.rCapKbps
    let cs := s.charges.map fun g => if g.chan = h then { g with kbps := max g.kbps cap } else g
    let pipes := (cs.filter fun g => g.chan == h).flatMap (·.pipes)
    checked s ([s.notEncoder h, (decide (t.qpMax < t.qpMin ∨ c.cfg.qpTop < t.qpMax), { status := eRcQp })] ++
        c.cfg.rateChecks t.hashSei cap t.cpbMs ++ pipes.map fun q => bound 8 q.1 (pipeRate cs q) 2400000 1000) fun _ =>
      stage s (.picture h) (.rc h (slice p 0 16))

def execRcSet (c : Submission) (s : State) : Out := runEci specRcSet c s

def specRcGet : EciSpec where
  opcode := 0x0302
  target := .object [tChannel]
  run k s :=
    let h := k.tok.handle
    let c := s.ch h
    let t := c.set
    let r := le 1 t.ql ++ le 1 t.qpMin ++ le 1 t.qpMax ++ le 1 t.aqStr ++ le 1 t.aqMax ++ le 1 t.initPct ++ le 2 t.cpbMs ++
      le 4 c.capKbps ++ le 4 0 ++ le 4 c.cpb ++ le 4 (c.cfg.zPic t.hashSei) ++ le 4 (c.cfg.lowestCap t.hashSei) ++ le 4 0
    checked s [s.notEncoder h] fun _ => ok s { response := r }

def execRcGet (c : Submission) (s : State) : Out := runEci specRcGet c s

def specRcQuery : EciSpec where
  opcode := 0x0303
  target := .object [tChannel]
  run k s :=
    let h := k.tok.handle
    let c := s.ch h
    let g := c.rcResult
    let r := le 8 g.pic ++ le 4 g.bits ++ le 4 g.phi0Next ++ le 1 g.qpPic ++ le 1 g.qpAvg ++ le 1 g.stage ++ le 1 g.rewinds ++
      le 1 g.filled ++ le 1 g.dlFilled ++ le 2 0 ++ le 4 c.slips ++ le 4 c.recoveries
    checked s [s.notEncoder h] fun _ => ok s { response := r }

def execRcQuery (c : Submission) (s : State) : Out := runEci specRcQuery c s

def specDelayQuery : EciSpec where
  opcode := 0x0304
  target := .object [tChannel]
  fast := false
  run k s :=
    let h := k.tok.handle
    let c := s.ch h
    let next := if c.state = .idle ∨ !c.anchored then 0 else c.releaseNs c.relPic c.relDu
    let r := le 8 (c.cfg.ns c.anchor) ++ le 8 c.anchorPic ++ le 8 c.cfg.rowFx ++ le 4 c.fixedDelayNs ++ le 1 c.dRows ++
      le 1 c.cfg.lookahead ++ le 1 c.cfg.rows ++ le 1 0 ++ le 8 next
    checked s [s.notEncoder h] fun _ => ok s { response := r }

def execDelayQuery (c : Submission) (s : State) : Out := runEci specDelayQuery c s

end Sys2Proof.Machine
end

