-- ==== Sys2Proof/Machine/Compose.lean ====
section
/-!
DEFINITION. The composition commands: colour, layers and commits, rendition scaling, coefficients (Composition, Scaling
and Welt Surfaces).
-/

namespace Sys2Proof.Machine

open Sys2Proof (Byte Submission)

def specComposeSet : EciSpec where
  opcode := 0x0601
  target := .object [tChannel]
  form p _ := [(0, decide (u8 p 0 ≤ 3)), (1, zeros p 1 7)]
  run k s :=
    let h := k.tok.handle
    checked s [s.notIdle h] fun _ => ok (s.modCh h fun c => { c with set := { c.set with colour := u8 k.payload 0 } })

def execComposeSet (c : Submission) (s : State) : Out := runEci specComposeSet c s

/-- A format code that a layer may use (R272). -/
def layerFormat (fmt : Nat) : Bool := (pictureFormat fmt).isSome || fmt == 0x10 || fmt == 0x11 || fmt == 0x24

/-- The layers of a channel. -/
def State.layersOf (s : State) (h : Nat) : Tab Layer := s.comp.layers.filter fun e => e.2.chan == h

/-- Layers on a die: those of the channels that compose there. -/
def State.layersOn (s : State) (d : Nat) : Nat :=
  (s.comp.layers.filter fun e => (s.ch e.2.chan).dies.contains d).length

/-- `LAYER.CREATE` (R278): its buffers on each die that composes the channel. -/
def specLayerCreate : EciSpec where
  opcode := 0x0602
  target := .object [tChannel]
  form p _ :=
    [(0, decide (16 ≤ u16 p 0 ∧ u16 p 0 ≤ 24576)), (2, decide (16 ≤ u16 p 2 ∧ u16 p 2 ≤ 4320)),
     (5, u8 p 5 == 1 || u8 p 5 == 2), (6, zeros p 6 2)]
  run k s :=
    let p := k.payload
    let h := k.tok.handle
    let c := s.ch h
    let bytes := surfaceBytes (u8 p 4) (u16 p 0) (u16 p 2)
    let spots := c.dies.flatMap fun d => (List.range (u8 p 5)).map fun _ => (d, bytes)
    checked s ([s.notEncoder h, (!layerFormat (u8 p 4), { status := eCompFormat }),
        (decide (8 ≤ (s.layersOf h).length) || c.dies.any (fun d => decide (16 ≤ s.layersOn d)),
          { status := eLayerLimit })] ++
        c.dies.map fun d => bound 5 d (s.dramUsed s.charges d + u8 p 5 * bytes) dramPool 1024) fun _ =>
      match s.newObject tLayer c.die (16 * s.dies) k.tok.via.fn with
      | none => refuse s (noIndex tLayer)
      | some (l, t) =>
        match t.mapBuffers l spots with
        | none => refuse s (noPages (spots.map (·.2)))
        | some (as, t) =>
          let g : Layer := { chan := h, maxW := u16 p 0, maxH := u16 p 2, maxFormat := u8 p 4, buffers := u8 p 5, addr := as }
          let two (i : Nat) : List Byte := le 8 (as.getD i 0) ++ le 8 (if u8 p 5 = 2 then as.getD (i + 1) 0 else 0)
          ok (t.modComp fun x => { x with layers := x.layers.put l g })
            { result := l, response := two 0 ++ (if 1 < c.dies.length then two (u8 p 5) else List.replicate 16 0) }

def execLayerCreate (c : Submission) (s : State) : Out := runEci specLayerCreate c s

def State.lyr (s : State) (l : Nat) : Layer := s.comp.layers.look {} l
def State.modLayer (s : State) (l : Nat) (f : Layer → Layer) : State :=
  s.modComp fun c => { c with layers := c.layers.upd l f }

/-- `LAYER.SET` stages a state (R288). -/
def specLayerSet : EciSpec where
  opcode := 0x0603
  target := .object [tLayer]
  fast := false
  form p _ :=
    let welt := decide (0x20 ≤ u8 p 2)
    [(0, decide (u8 p 0 ≤ 1)), (1, decide (u8 p 1 ≤ 7)), (3, decide (u8 p 3 ≤ 1)), (0x14, decide (u16 p 0x14 ≤ 1024)),
     (0x16, decide (u8 p 0x16 ≤ 2)), (0x17, [0, 1, 15].contains (u8 p 0x17)), (0x18, [2, 3, 4, 6].contains (u8 p 0x18)),
     (0x19, decide (u8 p 0x19 ≤ 3)), (0x1A, zeros p 0x1A 2), (0x1C, if welt then u32 p 0x1C == 0 else u32 p 0x1C % 64 == 0),
     (0x38, zeros p 0x38 8)]
  run k s :=
    let p := k.payload
    let l := k.tok.handle
    let g := s.lyr l
    let fits := decide (surfaceBytes (u8 p 2) g.maxW g.maxH ≤ surfaceBytes g.maxFormat g.maxW g.maxH)
    checked s [(decide (g.buffers ≤ u8 p 3), { status := .eBadParam, detail := 3 }),
        (!layerFormat (u8 p 2) || !fits, { status := eCompFormat })] fun _ =>
      ok (s.modLayer l fun g => { g with staged := g.staged ++ [(k.tok.seq, some (slice p 0 64))] })

def execLayerSet (c : Submission) (s : State) : Out := runEci specLayerSet c s

/-! ### Commits -/

/-- The state a layer will have once every commit under way has been applied: none when it is to be removed. -/
def State.layerNext (s : State) (l : Nat) : Option (List Byte) :=
  s.changes.foldl (fun a c => match c with
    | .layers _ sets removed =>
      if removed.contains l then none else match Tab.find sets l with | some p => some p | none => a
    | _ => a) (some (s.lyr l).applied)

/-- What the staged changes fetched before `seq` make of a layer: nothing staged, a payload, or its removal. -/
def Layer.takes (g : Layer) (seq : Nat) : Option (Option (List Byte)) :=
  let due := (g.staged.filter fun e => decide (e.1 < seq)).map (·.2)
  if due.contains none then some none else due.getLast?

/-- A layer's geometry is invalid (R279). -/
def layerGeomBad (g : Layer) (p : List Byte) : Bool :=
  let ratioBad (sz d : Nat) : Bool := (u8 p 0 == 1 && (sz == 0 || d == 0)) || decide (8 * d < sz) || decide (16 * sz < d)
  decide (g.maxW < u16 p 4 + u16 p 8) || decide (g.maxH < u16 p 6 + u16 p 0xA) ||
    ratioBad (u16 p 8) (u16 p 0x10) || ratioBad (u16 p 0xA) (u16 p 0x12)

/-- Columns of a die in a channel's picture. -/
def Channel.columns (c : Channel) (d : Nat) : Int × Int :=
  let seam : Nat := cdiv c.cfg.cols 2 * c.cfg.ctu
  if c.partnerPipe.isNone then (0, c.cfg.width) else if d = c.die then (0, seam) else (seam, c.cfg.width)

/-- Overlap of two intervals. -/
def overlap (a b x y : Int) : Nat := (min b y - max a x).toNat

/-- Pixels that a layer costs on a die: the larger of its source pixels and its destination pixels there (R288). -/
def Channel.layerPixels (c : Channel) (d : Nat) (p : List Byte) : Nat :=
  let cols := c.columns d
  let x := s16 p 0xC
  let y := s16 p 0xE
  max (u16 p 8 * u16 p 0xA)
    (overlap x (x + u16 p 0x10) cols.1 cols.2 * overlap y (y + u16 p 0x12) 0 c.cfg.height)

/-- The composition load of a die in units of 1 / 2002 pixel per second, which make it whole, with the layers of channel `h` in the states given. -/
def State.compLoad (s : State) (d h : Nat) (states : Tab (List Byte)) : Nat :=
  ((s.chan.chans.filter fun e => e.2.dies.contains d && !s.isDecoder e.1).map fun e =>
    let c := e.2
    let mine : List (List Byte) := if e.1 = h then states.map (·.2)
      else (s.comp.layers.filter fun x => x.2.chan == e.1).filterMap fun x => s.layerNext x.1
    let px := ((mine.filter fun p => u8 p 0 == 1).map (c.layerPixels d)).sum
    c.cfg.width * c.cfg.height * c.cfg.rateNum * 2002 / (c.cfg.rateDen * c.dies.length) + px * c.cfg.rateNum * 2002 / c.cfg.rateDen).sum

/-- The states that a commit fetched as number `seq` applies. -/
def State.commitSets (s : State) (h seq : Nat) : Tab (List Byte) :=
  (s.layersOf h).filterMap fun e => match e.2.takes seq with
    | some (some p) => some (e.1, p)
    | _ => none

/-- The layers that it removes. -/
def State.commitRemoved (s : State) (h seq : Nat) : List Nat :=
  (s.layersOf h).filterMap fun e => if e.2.takes seq = some none then some e.1 else none

/-- The states of the channel's layers once it and every earlier commit have been applied. -/
def State.commitNext (s : State) (h seq : Nat) : Tab (List Byte) :=
  ((s.layersOf h).filter fun e => !(s.commitRemoved h seq).contains e.1).filterMap fun e =>
    match (Tab.find (s.commitSets h seq) e.1).or (s.layerNext e.1) with
    | some [] => none
    | some p => some (e.1, p)
    | none => none

/-- The first layer with invalid geometry, or with the Z order of another enabled layer (R279). -/
def State.commitGeom (s : State) (next : Tab (List Byte)) : Option Nat :=
  let on := next.filter fun e => u8 e.2 0 == 1
  (next.find? fun e => layerGeomBad (s.lyr e.1) e.2 ||
    (u8 e.2 0 == 1 && on.any fun x => decide (x.1 < e.1) && u8 x.2 1 == u8 e.2 1)).map (·.1)

/-- The first layer whose lines do not fit the line memory: the width that would. -/
def commitLine (next : Tab (List Byte)) : Option Nat :=
  (next.find? fun e => decide (49152 < u16 e.2 8 * u8 e.2 0x18)).map fun e => 49152 / max 1 (u8 e.2 0x18)

/-- The staged states fetched before `seq` are taken from the channel's layers. -/
def State.takeStaged (s : State) (h seq : Nat) : State :=
  (s.layersOf h).foldl (fun t e => t.modLayer e.1 fun g =>
    { g with staged := g.staged.filter fun x => decide (seq ≤ x.1) }) s

/-- `LAYER.COMMIT` (R288, R289). -/
def specLayerCommit : EciSpec where
  opcode := 0x0604
  target := .object [tChannel]
  run k s :=
    let h := k.tok.handle
    let next := s.commitNext h k.tok.seq
    let geom := s.commitGeom next
    let line := commitLine next
    checked s ([s.notEncoder h, (geom.isSome, { status := eLayerGeom, detail := geom.getD 0 }),
        (line.isSome, { status := .eLinebuf, detail := line.getD 0 })] ++
        (s.ch h).dies.map fun d => bound 9 d (s.compLoad d h next) (2002 * 8000000000) (2002 * 1000000)) fun _ =>
      stage (s.takeStaged h k.tok.seq) (.picture h) (.layers h (s.commitSets h k.tok.seq) (s.commitRemoved h k.tok.seq))

def execLayerCommit (c : Submission) (s : State) : Out := runEci specLayerCommit c s

def specLayerDestroy : EciSpec where
  opcode := 0x0605
  target := .object [tLayer]
  run k s := ok (s.modLayer k.tok.handle fun g => { g with staged := g.staged ++ [(k.tok.seq, none)] })

def execLayerDestroy (c : Submission) (s : State) : Out := runEci specLayerDestroy c s

def specLayerQuery : EciSpec where
  opcode := 0x0606
  target := .object [tLayer]
  fast := false
  run k s :=
    let g := s.lyr k.tok.handle
    let st := ((g.staged.map (·.2)).getLast?.getD none).getD []
    ok s { response := slice g.applied 0 64 ++ slice st 0 64 }

def execLayerQuery (c : Submission) (s : State) : Out := runEci specLayerQuery c s

/-! ### Scaling -/

/-- `RENDITION.SCALE` (R287, R290). -/
def specRenditionScale : EciSpec where
  opcode := 0x0607
  target := .object [tChannel]
  form p _ := [(0, [2, 3, 4, 6].contains (u8 p 0)), (1, decide (u8 p 1 ≤ 3)), (2, zeros p 2 6)]
  run k s :=
    let p := k.payload
    let h := k.tok.handle
    let parent := (s.ch h).cfg.source
    let t := s.modCh h fun c => { c with set := { c.set with scaleTaps := u8 p 0, scaleSet := u8 p 1 } }
    checked s [s.notIdle h, (handleType parent != tChannel, { status := eLadder }),
        t.lineBuf parent (s.ch parent).cfg.width (u8 p 0)] fun _ => ok t

def execRenditionScale (c : Submission) (s : State) : Out := runEci specRenditionScale c s

/-- A coefficient of a fixed set; each phase sums to 256 (R284, R285). -/
def fixedCoef (set taps phase i : Nat) : Int :=
  if i + 1 = taps then 256 - ((List.range i).map (Config.scalerCoef set taps phase)).sum else Config.scalerCoef set taps phase i

def tapCounts : List Nat := [2, 3, 4, 6, 8]

/-- A custom set is in use on a die at a tap count: by an enabled layer (6 horizontal taps) or a running rendition (8). -/
def State.coefUsed (s : State) (d taps : Nat) : Bool :=
  (s.comp.layers.any fun e =>
    (s.ch e.2.chan).dies.contains d && u8 e.2.applied 0 == 1 && u8 e.2.applied 0x19 == 3 &&
      (u8 e.2.applied 0x18 == taps || taps == 6)) ||
  s.chan.chans.any fun e =>
    handleType e.2.cfg.source == tChannel && (s.ch e.2.cfg.source).die == d && e.2.state != .idle &&
      e.2.set.scaleSet == 3 && (e.2.set.scaleTaps == taps || taps == 8)

/-- `SCALER.COEF_SET` (R285, R290): each phase sums to 256. Bytes 0x01 to 0x03 are taken as reserved (log entry 184). -/
def specScalerCoefSet : EciSpec where
  opcode := 0x0608
  target := .object [tDie]
  fast := false
  form p _ :=
    let t := u8 p 0
    [(0, tapCounts.contains t), (1, zeros p 1 3)] ++
      (List.range 64).map fun ph =>
        (4 + 2 * t * ph, ((List.range t).map fun i => s16 p (4 + 2 * (t * ph + i))).sum == 256)
  run k s := s.gated k.tok.handle <|
    let p := k.payload
    let d := handleDie k.tok.handle
    let t := u8 p 0
    checked s [(d == 0xFF, { status := .eBadHandle }), (s.coefUsed d t, { status := .eState })] fun _ =>
      ok (s.modComp fun c => { c with coefs := c.coefs.put (d * 16 + t) (slice p 4 (128 * t)) })

def execScalerCoefSet (c : Submission) (s : State) : Out := runEci specScalerCoefSet c s

def specScalerCoefGet : EciSpec where
  opcode := 0x0609
  target := .object [tDie]
  fast := false
  form p _ := [(0, decide (1 ≤ u8 p 0 ∧ u8 p 0 ≤ 3)), (1, tapCounts.contains (u8 p 1))]
  run k s := s.gated k.tok.handle <|
    let p := k.payload
    let d := handleDie k.tok.handle
    let n := u8 p 0
    let t := u8 p 1
    let fixed : List Byte := (List.range 64).flatMap fun ph => (List.range t).flatMap fun i =>
      le 2 (twos 16 (fixedCoef n t ph i))
    if d = 0xFF then refuse s { status := .eBadHandle }
    else ok s { response := le 1 t ++ le 3 0 ++ (if n = 3 then slice (s.comp.coefs.look [] (d * 16 + t)) 0 (128 * t) else fixed) }

def execScalerCoefGet (c : Submission) (s : State) : Out := runEci specScalerCoefGet c s

end Sys2Proof.Machine
end

