-- ==== Sys2Proof/Machine/Registers.lean ====
section
/-!
DEFINITION. BAR0: reads, snapshot captures, register writes, enabling and disabling ECI, interrupt registers, and the
function-level resets and the SR-IOV changes (The Etdun Command Interface; Architecture and Data Flow, R27 to R32).
-/

namespace Sys2Proof.Machine

open Sys2Proof (Byte Word Fn)

/-- A host access to a function's BARs reaches the device: the link is up, the function exists and the device is out of
reset. -/
def State.hostReads (s : State) (f : Nat) : Bool := s.eci.linkUp && s.fnEnabled f && !s.boot.held

/-- A host write, or a read of another register than identity and boot status, has effect: in the safe state every such
access is discarded (R484). -/
def State.hostWrites (s : State) (f : Nat) : Bool := s.hostReads f && s.boot.stage != .safe

def word (n : Nat) : Word := BitVec.ofNat 32 n

/-- The PCI identifiers of a function: Vendor ID and Device ID (R34). -/
def vendorId : Nat := 0x1F3C
def vfDeviceId : Nat := 0x880F
def State.pciIds (s : State) (f : Nat) : Nat × Nat := (vendorId, if f = 0 then s.boot.fuses.variant.deviceId else vfDeviceId)

/-- `DEV_ID`. -/
def State.devId (s : State) (f : Nat) : Nat :=
  s.boot.fuses.variant.deviceId * 2 ^ 16 + s.dies * 2 ^ 12 + s.boot.fuses.grade * 2 ^ 8 + f

/-- `DEV_REV`. -/
def State.devRev (s : State) : Nat := s.boot.fuses.hubStep * 2 ^ 24 + s.boot.fuses.encStep * 2 ^ 16

/-- `LC_STATE`: one more than the index of the highest pair set, or 0 (R444). -/
def Fuses.lcState (u : Fuses) : Nat :=
  if bits u.lc 6 2 ≠ 0 then 4 else if bits u.lc 4 2 ≠ 0 then 3 else if bits u.lc 2 2 ≠ 0 then 2
  else if bits u.lc 0 2 ≠ 0 then 1 else 0

/-- `BOOT_STATUS`. -/
def Boot.statusWord (b : Boot) : Nat :=
  b.mpActive * 2 ^ 23 + b2n b.degraded * 2 ^ 22 + b2n b.recovery * 2 ^ 21 + b.fuses.lcState * 2 ^ 18 +
    b.diesFenced % 256 * 2 ^ 8 + b.diesReady % 256

/-- `EPOCH2` but for its seconds. -/
def TimeState.epoch2 (t : TimeState) : Nat :=
  t.wraps % 256 * 2 ^ 24 + t.steps % 16 * 2 ^ 20 + t.servo.code * 2 ^ 18 + t.epSec / 2 ^ 32 % 2 ^ 16

/-- `REC_STATE` and `REC_REASONS` (R480). -/
def Boot.recStateWord (b : Boot) : Nat := b.recStatus * 2 ^ 16 + b.recCmd * 2 ^ 8 + b.recState
def Boot.recReasonsWord (b : Boot) : Nat :=
  let r (i : Nat) := match b.ka.reasons[i]? with | some e => e.reason | none => 0
  r 2 * 2 ^ 16 + r 1 * 2 ^ 8 + r 0

/-- `ECI_STATUS`. -/
def State.eciStatus (s : State) (f : Nat) : Nat :=
  let g := s.fn f
  b2n g.rdy + 2 * b2n g.qerr + 4 * b2n s.boot.fencedAt.isSome + 8 * b2n g.cfgErr

/-- The MSI-X table and the pending-bit array at their offsets (R35). -/
def FnState.msixWords (g : FnState) (table pba : Nat) : List (Nat × Word) :=
  ((List.range 72).map fun i => (table + 4 * i, g.msixWord i)) ++ [(pba, word g.pba), (pba + 4, 0)]

/-- A word that a read of PF0's BAR4 returns (R35, R36). -/
def State.readBar4 (s : State) (off width : Nat) : Word :=
  if width ≠ 4 ∨ off % 4 ≠ 0 ∨ s.boot.stage = .safe then 0 else (((s.fn 0).msixWords 0 0x1000).lookup off).getD 0

/-- A write of a word of the MSI-X table: a vector whose mask bit falls is pending no more (PCI Express Base 5.0; log entry
178). -/
def FnState.writeMsix (g : FnState) (i : Nat) (v : Word) : FnState :=
  { g with msix := g.msix.put i v
           pba := if i % 4 = 3 ∧ !v.getLsbD 0 then clearBit g.pba (i / 4) else g.pba }

/-- The registers of a function's BAR0 with the values they read (R30, R37, R480). -/
def State.bar0 (s : State) (f : Nat) : List (Nat × Word) :=
  let g := s.fn f
  let h := g.hold
  [(0x000, word (s.devId f)), (0x004, word s.devRev), (0x008, word s.boot.fuses.serial),
   (0x00C, word (s.boot.fuses.serial / 2 ^ 32)), (0x010, word s.boot.eciVersion), (0x014, word s.boot.fwVersion),
   (0x020, h.bootStage), (0x024, h.bootStatus), (0x028, h.bootCount),
   (0x040, h.timeNs), (0x044, h.timeFrac), (0x048, h.epoch0), (0x04C, h.epoch1), (0x050, h.epoch2),
   (0x100, word (b2n g.en)), (0x104, word (s.eciStatus f)),
   (0x108, g.asqBase.setWidth 32), (0x10C, (g.asqBase >>> 32).setWidth 32),
   (0x110, g.acqBase.setWidth 32), (0x114, (g.acqBase >>> 32).setWidth 32),
   (0x118, g.eqBase.setWidth 32), (0x11C, (g.eqBase >>> 32).setWidth 32), (0x120, g.ringSizes),
   (0x2000, word g.intCause), (0x2004, word g.intMask), (0x2008, g.intCoalesce),
   (0x2010, word (b2n g.collide + 2 * b2n g.fastBusy)), (0x2014, h.mbxCollideCnt)] ++
  (if f = 0 then
    [(0x3000, h.recState), (0x3004, h.recReason0), (0x3008, h.recReason1),
     (0x300C, word s.boot.recArg), (0x3010, word s.boot.recLen)]
   else g.msixWords 0x3000 0x3400)

/-- SRAM offset of a BAR0 offset of a function, where its mailbox window has one (R43). -/
def mailboxOffset (f off : Nat) : Option Nat :=
  if f = 0 then (if 0x10000 ≤ off ∧ off < 0x20000 then some (off - 0x10000) else none)
  else if 0x3800 ≤ off ∧ off < 0x4000 then some ((f - 1) * 0x800 + (off - 0x3800)) else none

/-- A word that a BAR0 read returns: unassigned, misaligned or wrong-width reads give zero (R36); a VF reads its slice's
PF0 line as zero (R43); a write-only register reads zero (R10). -/
def State.readBar0 (s : State) (f off width : Nat) : Word :=
  if width ≠ 4 ∨ off % 4 ≠ 0 ∨ (s.boot.stage = .safe ∧ 0x40 ≤ off) then 0
  else match mailboxOffset f off with
    | some x => if f ≠ 0 ∧ 0x780 ≤ x % 0x800 then 0 else word (s.mbxWord x)
    | none => ((s.bar0 f).lookup off).getD 0

/-- A write to a register that has no row of its own, under its access code (R8, R10, R38). -/
def FnState.writeReg (g : FnState) (f off : Nat) (v : Word) : FnState :=
  let lo (b : BitVec 64) : BitVec 64 := (b >>> 32 <<< 32) ||| (v.setWidth 64 >>> 12 <<< 12)
  let hi (b : BitVec 64) : BitVec 64 := (b.setWidth 32).setWidth 64 ||| (v.setWidth 64 <<< 32)
  if off = 0x108 then { g with asqBase := lo g.asqBase }
  else if off = 0x10C then { g with asqBase := hi g.asqBase }
  else if off = 0x110 then { g with acqBase := lo g.acqBase }
  else if off = 0x114 then { g with acqBase := hi g.acqBase }
  else if off = 0x118 then { g with eqBase := lo g.eqBase }
  else if off = 0x11C then { g with eqBase := hi g.eqBase }
  else if off = 0x120 then { g with ringSizes := v &&& 0xFFF }
  else if off = 0x2008 then { g with intCoalesce := v &&& 0xFFFF00FF }
  else if off = 0x2010 then { g with collide := g.collide && !v.getLsbD 0, fastBusy := g.fastBusy && !v.getLsbD 1 }
  else if f ≠ 0 ∧ 0x3000 ≤ off ∧ off < 0x3120 then g.writeMsix ((off - 0x3000) / 4) v
  else g

/-- A write to `REC_CMD` starts a command (R480). -/
def State.recIdle (s : State) : Bool := s.hostWrites 0 && s.boot.stage == .recovery && (s.boot.recState == 1 || s.boot.recState == 3)

/-- A recovery command is done: `STATE`, code, status and response. -/
def State.recDone (s : State) (cmd : Nat) (st : Status) (resp : List Byte) : State :=
  let s := if resp.isEmpty then s else s.mbxStore 0 resp
  s.modBoot fun b => { b with recState := 3, recCmd := cmd, recStatus := st.code, recResp := resp.length }

/-- A write to `REC_CMD` of a code that names no recovery command: in RETIRED it is locked, and else completes with
`E_BAD_OPCODE` (R480, R482; log entry 145). -/
def State.recUnknown (s : State) (cmd : Nat) : State :=
  if !s.recIdle || decide (1 ≤ cmd ∧ cmd ≤ 6) then s
  else s.recDone cmd (if s.boot.fuses.lcState = 4 then .eLocked else .eBadOpcode) []

/-- Host write to a BAR0 register without a row of its own (R10, R36). A misaligned or wrong-width write, and a write to
an unassigned offset or to a read-only register, is discarded; a write to a register that has its own row is that row's
command, not this one. `bar4`: the write goes to PF0's BAR4, which holds the MSI-X table (R35). -/
def execRegisterWrite (f : Fn) (bar4 : Bool) (offset : BitVec 18) (width : Fin 9) (value : BitVec 32) (s : State) :
    Out :=
  let off := offset.toNat
  if s.hostWrites f.val && width.val == 4 && off % 4 == 0 then
    if bar4 then
      if f.val = 0 ∧ off < 0x120 then .next (s.modFn 0 fun g => g.writeMsix (off / 4) value) else .next s
    else if f.val = 0 ∧ off = 0x300C then .next (s.modBoot fun b => { b with recArg := value.toNat % 256 })
    else if f.val = 0 ∧ off = 0x3010 then .next (s.modBoot fun b => { b with recLen := value.toNat })
    else if f.val = 0 ∧ off = 0x3014 then .next (s.recUnknown (value.toNat % 256))
    else .next (s.modFn f.val fun g => g.writeReg f.val off value)
  else .next s

/-- A `RING_SIZES` value with every field within 4 to 12 (R40). -/
def ringSizesOk (v : Word) : Bool :=
  let n := v.toNat
  let good (k : Nat) : Bool := decide (4 ≤ k) && decide (k ≤ 12)
  good (bits n 0 4) && good (bits n 4 4) && good (bits n 8 4)

/-- Host writes `ECI_CTRL.EN` = 1 (R40). Firmware answers a bad ring size with `CFG_ERR` at once when it runs, and
otherwise when it comes to set `RDY`; later changes of a base or size are ignored until `EN` is next set. -/
def execEciEnable (f : Fn) (s : State) : Out :=
  if s.hostWrites f.val && !(s.fn f.val).en then
    .next (s.modFn f.val fun g => { g with
      en := true, cfgErr := s.firmwareRuns && !ringSizesOk g.ringSizes
      setAsq := g.asqBase, setAcq := g.acqBase, setEq := g.eqBase, setSizes := g.ringSizes })
  else .next s

/-- Firmware disables ECI for a function (R41): no more fetching, its queues deleted, fetched commands muted, `RDY`
cleared; events held or in an error ring count as lost. -/
def State.disableEci (s : State) (f : Nat) : State :=
  let s := s.modFn f fun g =>
    { g with rdy := false, cfgErr := false, queues := []
             ring := { g.ring.held.foldl EventRing.lose g.ring with held := [], error := false } }
  let mine (t : Token) : Token := match t.via with
    | .ring h _ => if h = f then { t with mute := true } else t
    | .fast h _ => if h = f then { t with mute := true } else t
    | _ => t
  s.modEci fun e => { e with
    fetched := e.fetched.map mine
    running := e.running.map fun r => { r with cmd := { r.cmd with tok := mine r.cmd.tok } }
    heldCompletions := e.heldCompletions.filter fun h => h.1 != f }

/-- Host clears `ECI_CTRL.EN` (R40, R41). -/
def execEciDisable (f : Fn) (s : State) : Out :=
  if s.hostWrites f.val && (s.fn f.val).en then
    .next ((s.modFn f.val fun g => { g with en := false }).disableEci f.val)
  else .next s

/-- Host writes 1s to `INT_CAUSE` (R10, R42). -/
def execIntCauseClear (f : Fn) (value : BitVec 32) (s : State) : Out :=
  if s.hostWrites f.val then
    .next (s.modFn f.val fun g =>
      let keep (n : Nat) : Nat := ((List.range 24).filter fun c => bit n c && !value.getLsbD c).foldl setBit 0
      g.settle { g with intCause := keep g.intCause, due := keep g.due })
  else .next s

/-- Host writes `INT_MASK`; unmasking a set, due cause raises its vector (R42). Bits 31:24 are reserved (R8). -/
def execIntMaskWrite (f : Fn) (value : BitVec 32) (s : State) : Out :=
  if s.hostWrites f.val then
    .next (s.modFn f.val fun g => g.settle { g with intMask := value.toNat % 2 ^ 24 })
  else .next s

/-- The longest coalescing delay in nanoseconds: `TIME_US`, values above 1,000 acting as 1,000. -/
def FnState.coalesceNs (g : FnState) : Nat := min 1000 (g.intCoalesce.toNat / 65536) * 1000

/-- `TIME_US` has passed since the first unsignalled entry of a coalesced cause: it becomes due (R42). -/
def execCoalesceTimeout (f : Fn) (cause : Fin 18) (s : State) : Out :=
  let g := s.fn f.val
  match (g.coalesce.look {} cause.val).first with
  | some t =>
    if decide (t + g.coalesceNs ≤ s.now) && bit g.intCause cause.val then
      .next (s.modFn f.val fun g => g.settle { g with due := setBit g.due cause.val })
    else .next s
  | none => .next s

/-! ### Snapshot captures (R30 to R32) -/

/-- A read of `BOOT_STAGE` captures the boot status group for the reading function. -/
def execBootStageCapture (f : Fn) (s : State) : Out :=
  if s.hostReads f.val then
    .next (s.modFn f.val fun g => { g with hold := { g.hold with
      bootStage := word s.boot.stage.code, bootStatus := word s.boot.statusWord, bootCount := word s.boot.ka.bootCount } })
  else .next s

/-- A read of `TIME_NS` captures time, fraction and epoch from one `TCLK` cycle (R31, R362). -/
def execTimeNsCapture (f : Fn) (s : State) : Out :=
  if s.hostWrites f.val then
    .next (s.modFn f.val fun g => { g with hold := { g.hold with
      timeNs := word s.time.ns, timeFrac := word s.time.frac, epoch0 := word s.time.epNs
      epoch1 := word s.time.epSec, epoch2 := word s.time.epoch2 } })
  else .next s

/-- A read of `REC_STATE` captures the recovery window group (R480); it exists in PF0 only. -/
def execRecStateCapture (s : State) : Out :=
  if s.hostWrites 0 then
    .next (s.modFn 0 fun g => { g with hold := { g.hold with
      recState := word s.boot.recStateWord, recReason0 := word s.boot.recReasonsWord, recReason1 := word s.boot.recResp } })
  else .next s

/-- A read of `MBX_COLLIDE_CNT` captures the count and clears it in the same cycle (R30). -/
def execMbxCollideCntRead (f : Fn) (s : State) : Out :=
  if s.hostWrites f.val then
    .next (s.modFn f.val fun g => { g with hold := { g.hold with mbxCollideCnt := word g.collideCnt }, collideCnt := 0 })
  else .next s

/-! ### Function-level resets and SR-IOV (R34, R41, R57) -/

/-- A session closes: its connection goes, its unfetched state with it; its fetched commands take effect, and no other
session gets their completions (R64). A session is what the handshake has established (R460). -/
def State.closeSession (s : State) (n cause : Nat) : State :=
  match s.eci.sessions.find n with
  | none => s
  | some c =>
    let mine (t : Token) : Token := match t.via with
      | .session m _ => if m = n then { t with mute := true } else t
      | _ => t
    let s := s.modEci fun e => { e with
      sessions := e.sessions.del n
      fetched := (e.fetched.map mine).filter fun t => !(t.mute && !t.hasPayload)
      running := e.running.map fun r => { r with cmd := { r.cmd with tok := mine r.cmd.tok } } }
    if c.phase == .established then s.raiseOwn 0 evSessionClosed (n + cause * 256) else s

/-- A VF's objects pass to PF0, with `EV_OWNER_CHANGED` for each (R57). -/
def State.objectsToPf0 (s : State) (f : Nat) : State :=
  (s.eci.owners.sel fun _ o => o == f).keys.foldl
    (fun s h => (s.transfer h 0).raise evOwnerChanged h f) s

/-- A function-level reset (R41): ECI is disabled, `EN` returns to its reset value, and a VF's objects pass to PF0. -/
def State.resetFunction (s : State) (f : Nat) : State :=
  let s := (s.modFn f fun g => { g with en := false }).disableEci f
  if f = 0 then s else s.objectsToPf0 f

def execFunctionLevelReset (f : Fn) (s : State) : Out :=
  if s.hostWrites f.val then .next (s.resetFunction f.val) else .next s

/-- A VF that exists no more: reset as above, its network sessions closed with cause 0; its quota is kept (R41). -/
def State.removeVf (s : State) (v : Nat) : State :=
  let s := s.resetFunction v
  let s := (s.eci.sessions.sel fun _ c => c.fn == v).keys.foldl (fun s n => s.closeSession n 0) s
  s.modFn v fun g => { g with enabled := false }

/-- NumVFs is lowered to `n`, or VF Enable cleared (`n` = 0): the VFs above `n` are removed (R41). -/
def execVfRemoval (n : Fn) (s : State) : Out :=
  if s.hostWrites 0 && decide (n.val < s.eci.numVfs) then
    let gone := (List.range 33).filter fun v => decide (n.val < v) && (s.fn v).enabled
    let s := gone.foldl State.removeVf s
    .next (s.modEci fun e => { e with numVfs := n.val })
  else .next s

/-- Host enables VFs 1 to `n` (R34); in recovery mode TotalVFs reads 0, so none exists (R479). -/
def execVfEnable (n : Fn) (s : State) : Out :=
  if s.hostWrites 0 && s.boot.stage != .recovery && decide (s.eci.numVfs ≤ n.val) then
    let s := ((List.range 33).filter fun v => decide (1 ≤ v ∧ v ≤ n.val)).foldl
      (fun s v => s.modFn v fun g => { g with enabled := true }) s
    .next (s.modEci fun e => { e with numVfs := n.val })
  else .next s

end Sys2Proof.Machine
end

