-- ==== Sys2Proof/Machine/Rings.lean ====
section
/-!
DEFINITION. Doorbells, fetching, the fast-path doorbell queue and host writes to the mailbox SRAM (R43 to R53, R60 to
R62).
-/

namespace Sys2Proof.Machine

open Sys2Proof (Byte Word Fn QId Fetch)

/-- A queue enters the error state: `QERR`, the `QUEUE_ERROR` cause and `EV_QUEUE_ERROR` (R48). -/
def State.queueError (s : State) (f q kind : Nat) : State :=
  let s := s.modFn f fun g => ({ g with queues := g.queues.upd q fun u => { u with error := true } } : FnState).setCause 22
  s.raiseOwn f evQueueError (q + kind * 256)

/-- The event ring enters the error state: its events are held, and the open sessions are told (R48). -/
def State.eventRingError (s : State) (f : Nat) : State :=
  let s := s.modFn f fun g => ({ g with ring := { g.ring with error := true } } : FnState).setCause 22
  let e : Event := { code := evQueueError.1, severity := evQueueError.2, handle := deviceHandle, time := s.stamp
                     detail := 0xFE + 2 * 256 }
  if (s.fn f).wants e then s.sendSessions f e else s

/-- Completion slots that no fetched command has claimed (R47). -/
def State.cqFree (s : State) (f q : Nat) (u : Queue) : Nat :=
  2 ^ u.cqLog2 - 1 - (u.cqTail + 2 ^ u.cqLog2 - s.cqHead f q % 2 ^ u.cqLog2) % 2 ^ u.cqLog2 - u.claimed

/-- Fetch one entry: claim a completion slot, advance `SQ_HEAD`, and take the command in, or complete an unknown opcode
(R47, R58). -/
def State.fetchOne (s : State) (f q : Nat) (u : Queue) (e : Fetch) : State :=
  let h := (u.sqHead + 1) % 2 ^ u.sqLog2
  let s := s.modFn f fun g => { g with queues := g.queues.put q { u with sqHead := h, claimed := u.claimed + 1 } }
  let s := s.mbxStore (indexBlock f q + 4) (le 4 h)
  let t : Token := { via := .ring f q, seq := s.eci.nextSeq, opcode := e.opcode.toNat, cmdId := e.cmdId.toNat
                     handle := e.handle.toNat, fence := e.flags.getLsbD 1, sqHead := h }
  let s := s.modEci fun x => { x with nextSeq := x.nextSeq + 1 }
  if knownOpcodes.contains t.opcode then s.modEci fun x => { x with fetched := x.fetched ++ [t] }
  else s.complete { tok := t, sub := { port := .session 0 } } { status := .eBadOpcode }

/-- One visit to a queue: at most `n` entries (8 per visit, R62) while the queue is not empty, not in error and has a
free completion slot; `es` are the entries in host memory from `SQ_HEAD` on. -/
def State.visit (s : State) (f q : Nat) (es : List Fetch) : Nat → State
  | 0 => s
  | n + 1 =>
    match (s.fn f).queues.find q with
    | none => s
    | some u =>
      if u.error || u.deleting then s
      else if 2 ^ u.sqLog2 ≤ s.sqTail f q then s.queueError f q 1
      else if s.sqTail f q = u.sqHead ∨ s.cqFree f q u = 0 then s
      else (s.fetchOne f q u (es.headD {})).visit f q es.tail n

/-- Firmware can fetch from a queue: it knows of entries there, the queue serves, and a completion slot is free (R47). -/
def State.canFetch (s : State) (f q : Nat) : Bool :=
  match (s.fn f).queues.find q with
  | none => false
  | some u => u.rung && !u.error && !u.deleting && s.sqTail f q != u.sqHead && s.cqFree f q u != 0

/-- The place of a queue in the round, counted from where the round goes on: the functions in turn, the queues of each from
the admin queue on (R62; log entry 180). -/
def Eci.turnsTo (e : Eci) (f q : Nat) : Nat := (17 * f + q + 17 * 33 - (17 * e.turn.1 + e.turn.2) % (17 * 33)) % (17 * 33)

/-- No queue that can be fetched from comes before this one in the round. -/
def State.itsTurn (s : State) (f q : Nat) : Bool :=
  s.functions.all fun g => (s.fn g).queues.all fun u =>
    !(s.canFetch g u.1 && decide (s.eci.turnsTo g u.1 < s.eci.turnsTo f q))

/-- Firmware reads a queue's `SQ_TAIL`; when the round has come to the queue it visits it, and the round goes on behind it
(R47, R62). A bad tail is judged at once (R48). -/
def State.serveQueue (s : State) (f q : Nat) (es : List Fetch) : State :=
  let mark (b : Bool) (s : State) : State := s.modFn f fun g => { g with queues := g.queues.upd q fun u => { u with rung := b } }
  let s := mark true s
  let bad := (s.fn f).queues.find q |>.any fun u => decide (2 ^ u.sqLog2 ≤ s.sqTail f q)
  if bad then s.visit f q es 1
  else if s.itsTurn f q then
    let s := s.visit f q es 8
    mark (((s.fn f).queues.find q).any fun u => s.sqTail f q != u.sqHead)
      (s.modEci fun e => { e with turn := if q = 16 then ((f + 1) % 33, 0) else (f, q + 1) })
  else s

/-- Host writes a submission doorbell (R47). Zero has no effect; a queue that does not exist raises `EV_QUEUE_ERROR` kind
3 (R48); otherwise firmware reads `SQ_TAIL` and fetches, unless a take-over runs (R61). The admin queue of a function whose
`RDY` is 0 exists and serves nothing, and a doorbell rung during a take-over is not judged afterwards (log entry 181). -/
def execDbSqWrite (f : Fn) (q : QId) (value : BitVec 32) (entries : List Fetch) (s : State) : Out :=
  if s.hostWrites f.val && value.toNat % 65536 != 0 && s.firmwareRuns then
    if (s.fn f.val).queues.has q.val then .next (s.serveQueue f.val q.val entries)
    else if q.val = 0 then .next s
    else .next (((s.modFn f.val fun g => g.setCause 22)).raiseOwn f.val evQueueError (q.val + 3 * 256))
  else .next s

/-- Firmware re-reads `SQ_TAIL` of a queue (R47). -/
def execSqPoll (f : Fn) (q : QId) (entries : List Fetch) (s : State) : Out :=
  if s.firmwareRuns && (s.fn f.val).queues.has q.val then .next (s.serveQueue f.val q.val entries) else .next s

/-- Host writes `DB_FAST` (R52): the write waits in the function's fast-path queue; a slot that waits or runs is busy; a
value above the slot count names no slot. -/
def execDbFastWrite (f : Fn) (value : BitVec 32) (s : State) : Out :=
  let k := value.toNat % 65536
  let g := s.fn f.val
  if !s.hostWrites f.val || k == 0 || !g.rdy then .next s
  else if fastSlots f.val < k then .next (s.raiseOwn f.val evQueueError (0xFF + 4 * 256))
  else if g.fastQueue.contains (k - 1) || g.fastRunning.contains (k - 1) then
    .next (s.modFn f.val fun g => { g with fastBusy := true })
  else .next (s.modFn f.val fun g => { g with fastQueue := g.fastQueue ++ [k - 1] })

/-- A function's host may write a mailbox word at an SRAM offset (R43): a VF its slice but for PF0's line, PF0 its
lines, and in recovery mode PF0 the whole SRAM. -/
def State.mbxWritable (s : State) (f x : Nat) : Bool :=
  if f = 0 then s.boot.stage == .recovery || decide (0x780 ≤ x % 0x800) else decide (x % 0x800 < 0x780)

/-- A word that the device writes: `SQ_HEAD`, `CQ_TAIL`, `EQ_TAIL` of the function, or the completion and response area
of one of its fast-path slots (R44, R45). -/
def deviceWord (f x : Nat) : Bool :=
  ((List.range 17).any fun q => x == indexBlock f q + 4 || x == indexBlock f q + 8) || x == eventBlock f ||
    ((List.range (fastSlots f)).any fun k => decide (fastSlot f k + 0x40 ≤ x) && decide (x < fastSlot f k + 0x80))

/-- The queue whose `SQ_TAIL` (kind 1) or `CQ_HEAD` (kind 2) word lies at an SRAM offset. -/
def hostIndexAt (f x : Nat) : Option (Nat × Nat) :=
  match (List.range 17).find? fun q => x == indexBlock f q || x == indexBlock f q + 12 with
  | some q => some (q, if x = indexBlock f q then 1 else 2)
  | none => none

/-- A collision is counted, and reported at most once per 1 ms (R45). -/
def State.collide (s : State) (f x : Nat) : State :=
  let s := s.modFn f fun g =>
    ({ g with collide := true, collideCnt := min 0xFFFFFFFF (g.collideCnt + 1) } : FnState).setCause 20
  let due := match (s.fn f).collideSent with
    | some t => decide (t + 1000000 ≤ s.now)
    | none => true
  if due then (s.modFn f fun g => { g with collideSent := some s.now }).raiseOwn f evMbxCollide (x / 4) else s

/-- What a host-written index word changes at once (R44, R48, R51). -/
def State.judgeIndex (s : State) (f x : Nat) : State :=
  if x = eventBlock f + 4 then
    let g := s.fn f
    if !g.rdy then s
    else if 2 ^ g.ring.log2 ≤ s.eqHead f then (if g.ring.error then s else s.eventRingError f)
    else s.flushEvents f
  else match hostIndexAt f x with
    | none => s
    | some (q, kind) =>
      match (s.fn f).queues.find q with
      | none => s
      | some u =>
        let log2 := if kind = 1 then u.sqLog2 else u.cqLog2
        if 2 ^ log2 ≤ s.hostIndex x ∧ !u.error then s.queueError f q kind else s

/-- Firmware puts a function's admin queue and event ring in service (R40), or answers `CFG_ERR`; the first entry of the
event ring is `EV_EVENT_LOST` when events were discarded (R41). The host-written words are taken as found, and judged (R48;
log entry 146). -/
def execEciRdySet (f : Fn) (s : State) : Out :=
  let g := s.fn f.val
  if s.firmwareRuns && s.fnEnabled f.val && g.en && !g.rdy && !g.cfgErr then
    let n := g.setSizes.toNat
    if !ringSizesOk g.setSizes then .next (s.modFn f.val fun g => { g with cfgErr := true })
    else
      let q : Queue := { sqBase := g.setAsq.toNat, cqBase := g.setAcq.toNat, sqLog2 := bits n 0 4, cqLog2 := bits n 4 4 }
      let s := ((s.mbxStore (indexBlock f.val 0 + 4) (le 4 0)).mbxStore (indexBlock f.val 0 + 8) (le 4 0)).mbxStore
        (eventBlock f.val) (le 4 0)
      let s := s.modFn f.val fun g =>
        { g with rdy := true, queues := g.queues.put 0 q
                 ring := { g.ring with base := g.setEq.toNat, log2 := bits n 8 4, tail := 0, phase := true
                                       error := false, slots := [] } }
      let s := [indexBlock f.val 0, indexBlock f.val 0 + 12, eventBlock f.val + 4].foldl (fun s x => s.judgeIndex f.val x) s
      .next (s.flushEvents f.val)
  else .next s

/-- Host writes a mailbox word (R43 to R45, R48). `collides`: the management port writes the same word in the same
cycle, which can only be a word that the device writes. -/
def execMailboxHostWrite (f : Fn) (offset : BitVec 18) (width : Fin 9) (value : BitVec 32) (collides : Bool) (s : State) :
    Out :=
  match mailboxOffset f.val offset.toNat with
  | none => .next s
  | some x =>
    if !s.hostWrites f.val || width.val != 4 || x % 4 != 0 || !s.mbxWritable f.val x then .next s
    else if collides && deviceWord f.val x && s.boot.stage != .recovery then .next (s.collide f.val x)
    else .next ((s.mbxStore x (le 4 value.toNat)).judgeIndex f.val x)

end Sys2Proof.Machine
end

