-- ==== Sys2Proof/Machine/DecodeCh.lean ====
section
/-!
DEFINITION. The commands of decode channels, reference mode, jig streams, statistics and check units, and the rings they
write (Decode, Reference Mode and Verification).
-/

namespace Sys2Proof.Machine

open Sys2Proof (Byte Submission)

/-! ### Rings in hub DRAM (R257, R260, R261) -/

/-- Where a block of `n` bytes goes: bytes left unused at the end of the ring, and its offset. -/
def HubRing.spot (r : HubRing) (n : Nat) : Nat × Nat :=
  if r.write + n ≤ 2 ^ r.log2 then (0, r.write) else (2 ^ r.log2 - r.write, 0)

/-- The block fits: the write offset would not reach the read offset after it; under overwrite, it fits the ring. -/
def HubRing.fits (r : HubRing) (n : Nat) : Bool :=
  let used := (r.write + 2 ^ r.log2 - r.read) % 2 ^ r.log2
  if r.keep then decide (used + (r.spot n).1 + n < 2 ^ r.log2) else decide (n ≤ 2 ^ r.log2)

/-- The filler at the end of a ring: a pad record, or in an AU ring a header with length all ones. -/
def ringFiller (au : Bool) (pad : Nat) : List Byte :=
  if au then le 4 0xFFFFFFFF ++ List.replicate 12 0 else le 2 2 ++ le 2 (pad / 16) ++ List.replicate 12 0

def State.ringOf (s : State) (au : Bool) (h : Nat) : Option HubRing := if au then s.dec.auRings.find h else s.dec.stats.find h
def State.putRing (s : State) (au : Bool) (h : Nat) (r : HubRing) : State :=
  s.modDec fun d => if au then { d with auRings := d.auRings.put h r } else { d with stats := d.stats.put h r }

/-- Write a block that fits. -/
def State.ringStore (s : State) (au : Bool) (h : Nat) (r : HubRing) (b : List Byte) : State :=
  let p := r.spot b.length
  let s := if p.1 = 0 then s else s.bufStore (r.base + r.write) (ringFiller au p.1)
  let s := s.bufStore (r.base + p.2) b
  s.putRing au h { r with write := (p.2 + b.length) % 2 ^ r.log2, written := r.written + 1 }

/-- A statistics block is discarded: it is counted, and reported at most once per second (R261). -/
def State.statsOverrun (s : State) (h : Nat) (r : HubRing) : State :=
  let n := r.since + 1
  let due := match r.lastEvent with | some t => decide (t + 1000000000 ≤ s.now) | none => true
  let r := { r with discarded := r.discarded + 1 }
  if due then (s.putRing false h { r with since := 0, lastEvent := some s.now }).raise evStatsOverrun h n
  else s.putRing false h { r with since := n }

/-- Offer a block to a channel's ring: written if it fits; otherwise a reference-mode channel waits, and a live channel
discards it. -/
def State.offerRing (s : State) (au : Bool) (h : Nat) (b : List Byte) : State :=
  match s.ringOf au h with
  | none => s
  | some r =>
    if r.waiting.isEmpty && r.fits b.length then s.ringStore au h r b
    else if (s.ch h).reference then s.putRing au h { r with waiting := r.waiting ++ [b] }
    else if au then s.putRing au h { r with discarded := r.discarded + 1 }
    else s.statsOverrun h r

/-- Write waiting blocks while they fit; `n` bounds them. -/
def State.drainRing (s : State) (au : Bool) (h : Nat) : Nat → State
  | 0 => s
  | n + 1 =>
    match s.ringOf au h with
    | none => s
    | some r => match r.waiting with
      | [] => s
      | b :: rest =>
        if r.fits b.length then (s.ringStore au h { r with waiting := rest } b).drainRing au h n else s

/-- The host reports a read offset of a ring. -/
def State.readRing (s : State) (au : Bool) (h : Nat) (r : HubRing) (off : Nat) : State :=
  (s.putRing au h { r with read := off }).drainRing au h (r.waiting.length + 1)

/-- Rings that staged `STATS.SET` commands have allocated and that are not in force yet. -/
def State.pendingRings (s : State) : Nat :=
  (s.changes.map fun c => match c with
    | .stats h p => if u8 p 0 = 0 ∨ ((s.dec.stats.find h).map (·.base)) = some (u64 p 8) then 0 else 2 ^ u8 p 0
    | _ => 0).sum

/-! ### Decode channels -/

def parseDec (p : List Byte) : ChCfg :=
  { source := u32 p 0, width := u16 p 4, height := u16 p 6, rateNum := u32 p 8, rateDen := u32 p 0xC, codec := u8 p 0x10
    chroma := u8 p 0x11, bitDepth := u8 p 0x12, level := u8 p 0x13, die := u8 p 0x14, pipe := u8 p 0x15
    decoder := true }

/-- A handle can feed a decode channel: a compressed ingress stream or an egress stream of coded pictures (R245). -/
def State.decSource (s : State) (h : Nat) : Bool :=
  h == 0 || (s.hasObject h &&
    ((handleType h == tIngress && decide (5 ≤ u8 (s.net.ingress.look {} h).payload 0)) ||
     (handleType h == tEgress && decide (5 ≤ (s.net.egress.look {} h).kind))))

/-- The bytes of one output surface, on a 4 KiB boundary. -/
def outStride (p : List Byte) : Nat := 4096 * cdiv (surfaceBytes (u8 p 0x17) (u16 p 4) (u16 p 6)) 4096

/-- The place of a decode payload on a candidate die. -/
def State.decodePlace (s : State) (p : List Byte) (d : Nat) : Place :=
  let q := (parseDec p).placeOn s.charges 0 d
  { q with charge := decodeCharge (parseDec p) (u8 p 0x16) 0 d (((q.pipes[0]?).bind (·.2)).getD 0) }

/-- The places tried for a decode payload, in order, each with the admission check it fails, if any. -/
def State.decodeTried (s : State) (f : Nat) (p : List Byte) : List (Place × Option Reply) :=
  (s.candidates f s.charges (parseDec p)).map fun d =>
    (s.decodePlace p d, firstFail (s.admission s.charges (s.decodePlace p d).charge (s.decodePlace p d).pipes))

/-- The first place that admission takes. -/
def State.decodeChosen (s : State) (f : Nat) (p : List Byte) : Option Place :=
  ((s.decodeTried f p).find? fun e => e.2.isNone).map (·.1)

/-- The output surfaces of a decode payload, if any, mapped for a channel. -/
def State.decodeSurfaces (s : State) (h die : Nat) (p : List Byte) : Option (Nat × State) :=
  if u8 p 0x16 = 0 then some (0, s) else s.mapBuffer h die (u8 p 0x16 * outStride p)

/-- The decoder that a payload makes, with its surfaces at an address. -/
def decoderOf (p : List Byte) (a : Nat) : Decoder :=
  { source := u32 p 0, outCount := u8 p 0x16, outFormat := u8 p 0x17, flags := u8 p 0x18, outAddr := a
    outStride := if u8 p 0x16 = 0 then 0 else outStride p }

/-- The rules of `DECODE.CREATE` before placement. -/
def State.decodeRules (s : State) (k : Cmd) : List (Bool × Reply) :=
  let c := parseDec k.payload
  let use := s.useObject k c.source [tIngress, tEgress]
  [(!s.decSource c.source, { status := eSource }), (c.source != 0 && use.isSome, use.getD {}),
   (c.source != 0 && s.dec.decoders.any fun e => e.2.source == c.source, { status := eSource }),
   (c.limit.isNone || decide (62 < c.level % 128), { status := eDecFormat }),
   (u8 k.payload 0x16 != 0 && (pictureFormat (u8 k.payload 0x17)).isNone, { status := eCompFormat })] ++ s.chQuota k true c

def specDecodeCreate : EciSpec where
  opcode := 0x0501
  target := .device true
  fast := false
  form p s :=
    let den := u32 p 0xC == 1 || u32 p 0xC == 1001
    [(4, decide (64 ≤ u16 p 4 ∧ u16 p 4 ≤ 7680)), (6, decide (64 ≤ u16 p 6 ∧ u16 p 6 ≤ 4320)),
     (8, !den || rateOk (u32 p 8) (u32 p 0xC)), (0xC, den), (0x10, decide (u8 p 0x10 ≤ 1)), (0x11, decide (u8 p 0x11 ≤ 1)),
     (0x12, u8 p 0x12 == 8 || u8 p 0x12 == 10), (0x14, decide (u8 p 0x14 < s.dies) || u8 p 0x14 == 0xFF),
     (0x15, decide (u8 p 0x15 ≤ 2) || u8 p 0x15 == 0xFF), (0x16, u8 p 0x16 == 0 || decide (4 ≤ u8 p 0x16 ∧ u8 p 0x16 ≤ 32)),
     (0x18, decide (u8 p 0x18 < 8)), (0x19, zeros p 0x19 7)]
  run k s :=
    let p := k.payload
    let c := parseDec p
    let refusal := match s.decodeTried k.tok.via.fn p with | [] => noCapacity 21 0xFF 1 | e :: _ => e.2.getD {}
    checked s (s.decodeRules k) fun _ =>
      match s.decodeChosen k.tok.via.fn p with
      | none => refuse s refusal
      | some q =>
        match s.newObject tChannel q.die s.boot.fuses.variant.channels k.tok.via.fn with
        | none => refuse s (noIndex tChannel)
        | some (h, t) =>
          match t.decodeSurfaces h q.die p with
          | none => refuse s (noPages [u8 p 0x16 * outStride p])
          | some (a, t) =>
            checked s (s.dieService c) fun _ =>
              let pipe := ((q.pipes[0]?).bind (·.2)).getD 0
              let ch : Channel := { cfg := c, payload := slice p 0 32, die := q.die, pipe }
              let t := (t.modChan fun x => { x with chans := x.chans.put h ch }).modDec fun d =>
                { d with decoders := d.decoders.put h (decoderOf p a) }
              let r := le 1 q.die ++ le 1 pipe ++ le 2 0 ++ le 4 (s.dieLoad (s.charges ++ [q.charge]) q.die) ++
                le 4 (cdiv q.charge.dram 1024) ++ le 4 0 ++ le 8 a ++ le 4 (decoderOf p a).outStride
              ok ((t.raise evChannelState h t.noChannelState (some 0)).useFree) { result := h, response := r }

def execDecodeCreate (c : Submission) (s : State) : Out := runEci specDecodeCreate c s

def State.modDecoder (s : State) (h : Nat) (f : Decoder → Decoder) : State :=
  s.modDec fun d => { d with decoders := d.decoders.upd h f }

/-- Bytes of a decoder's coded buffer: twice the level's maximum CPB size (R246). -/
def ChCfg.codedBuffer (c : ChCfg) : Nat := match c.limit with | some l => 2 * c.maxCpb l / 8 | none => 0

/-- Bytes that wait in a decoder's coded buffer or on their way to it. -/
def Decoder.waitingBytes (d : Decoder) : Nat := (d.coded.map (·.data.length)).sum + (d.submitted.map (·.data.length)).sum

/-- `DECODE.SUBMIT` (R246): one access unit from host memory. -/
def specDecodeSubmit : EciSpec where
  opcode := 0x0502
  target := .object [tChannel]
  fast := false
  run k s :=
    let h := k.tok.handle
    let c := s.ch h
    let d := s.dec.decoders.look {} h
    let n := k.sub.payloadLen.toNat
    checked s [(!s.isDecoder h || d.source != 0 || !(c.state == .starting || c.state == .running), { status := .eState }),
        (decide (c.cfg.codedBuffer < d.waitingBytes + n), { status := .eBusy })] fun _ =>
      ok (s.modDecoder h fun d => { d with submitted := d.submitted ++ [{ data := slice k.payload 0 n }] })

def execDecodeSubmit (c : Submission) (s : State) : Out := runEci specDecodeSubmit c s

/-- The surface that the next output picture takes, if one is free. -/
def Decoder.freeSurface (d : Decoder) : Option Nat :=
  if bit d.flags 0 then some (d.nextSurface % max 1 d.outCount)
  else ((List.range d.outCount).map fun i => (d.nextSurface + i) % d.outCount).find? fun i => !bit d.held i

/-- A picture that is output, and the surface that takes it, if the channel has surfaces. -/
structure Shown where
  pic : DpbPic
  surface : Option Nat
deriving DecidableEq, Repr

/-- Output waiting pictures while a surface is free (R246), in order; without surfaces they are output and discarded. -/
def Decoder.outputs (d : Decoder) : Nat → Decoder × List Shown
  | 0 => (d, [])
  | n + 1 =>
    match d.outQueue with
    | [] => (d, [])
    | poc :: rest =>
      let gone : Decoder := { d with
        outQueue := rest, output := d.output + 1
        dpb := (d.dpb.map fun p => if p.poc = poc then { p with toOutput := false } else p).filter fun p =>
          p.reference || p.toOutput }
      let next (i : Option Nat) (e : Decoder) : Decoder × List Shown :=
        let r := e.outputs n
        (r.1, ((d.dpb.find? fun p => p.poc == poc).toList.map fun p => { pic := p, surface := i }) ++ r.2)
      if d.outCount = 0 then next none gone
      else match d.freeSurface with
        | none => (d, [])
        | some i =>
          next (some i) { gone with
            held := if bit d.flags 0 then d.held else setBit d.held i, nextSurface := (i + 1) % d.outCount }

def specDecodeQuery : EciSpec where
  opcode := 0x0504
  target := .object [tChannel]
  run k s :=
    let h := k.tok.handle
    let d := s.dec.decoders.look {} h
    checked s [(!s.isDecoder h, { status := .eState })] fun _ =>
      ok s { response := le 8 d.decoded ++ le 8 d.concealed ++ le 8 d.discarded ++ le 8 d.output }

def execDecodeQuery (c : Submission) (s : State) : Out := runEci specDecodeQuery c s

/-! ### Reference mode and submitted pictures -/

/-- The state with a channel's ring of a kind replaced: the old one unmapped, a new one mapped. -/
def State.newRing (s : State) (h log2 : Nat) : Option (Nat × State) :=
  if log2 = 0 then some (0, s) else s.mapBuffer h 0xFF (2 ^ log2)

/-- The state with a channel's access-unit ring freed. -/
def State.freeAuRing (s : State) (h : Nat) : State :=
  match s.dec.auRings.find h with
  | some r => (s.unmapAt r.base).modDec fun d => { d with auRings := d.auRings.del h }
  | none => s

/-- `CHANNEL.MODE` (R251, R257). -/
def specChannelMode : EciSpec where
  opcode := 0x0505
  target := .object [tChannel]
  form p _ :=
    [(0, decide (u8 p 0 ≤ 1)), (1, u8 p 1 == 0 || decide (20 ≤ u8 p 1 ∧ u8 p 1 ≤ 30)), (2, zeros p 2 6)]
  run k s :=
    let p := k.payload
    let h := k.tok.handle
    let c := s.ch h
    let old := s.dec.auRings.find h
    let base := (old.map (·.base)).getD 0
    let freed := s.freeAuRing h
    let same := (old.map (·.log2)) == some (u8 p 1)
    let need := if u8 p 1 = 0 then 0 else 2 ^ u8 p 1
    checked s [s.notIdle h, (u8 p 0 == 1 && c.cfg.source != 0, { status := eRefSource }),
        bound 16 0xFF (if same then 0 else freed.ringPoolUsed + s.pendingRings + need) ringPool 1024] fun _ =>
      let set (s : State) : State := s.modCh h fun c => { c with reference := u8 p 0 == 1 }
      if same then ok (set s) { response := le 8 base }
      else match freed.newRing h (u8 p 1) with
        | none => refuse s (noPages [need])
        | some (a, t) =>
          let t := if u8 p 1 = 0 then t else t.putRing true h { base := a, log2 := u8 p 1 }
          ok (set t) { response := le 8 a }

def execChannelMode (c : Submission) (s : State) : Out := runEci specChannelMode c s

/-- Submissions of pictures that a channel has outstanding. -/
def State.copying (s : State) (h : Nat) : Nat :=
  (s.eci.running.filter fun r => match r.await with | .pictureCopy c _ => c == h | _ => false).length

/-- A run of bytes lies in one mapped buffer: the buffer's first page and the buffer. -/
def State.bufferAt (s : State) (off n : Nat) : Option (Nat × Buffer) :=
  s.mem.buffers.find? fun e => decide (e.1 * 65536 ≤ off) && decide (off + n ≤ e.1 * 65536 + e.2.bytes)

/-- `PIC.SUBMIT` (R256, R272, R273): it completes when the picture has been copied. -/
def specPicSubmit : EciSpec where
  opcode := 0x0506
  target := .object [tChannel]
  fast := false
  form p _ :=
    let linear := decide (u8 p 1 < 0x20)
    [(0, decide (u8 p 0 ≤ 1)), (2, zeros p 2 2), (4, !linear || u32 p 4 % 64 == 0), (8, u64 p 8 % 4096 == 0),
     (0x10, if linear then u64 p 0x10 % 4096 == 0 else u64 p 0x10 == 0),
     (0x28, u16 p 0x28 % 3 == 0 && decide (u16 p 0x28 ≤ 93)), (0x2A, zeros p 0x2A 6)]
  run k s :=
    let p := k.payload
    let h := k.tok.handle
    let c := s.ch h
    let gen := u8 (s.dec.jigs.look [] h) 1 == 1
    let fmt := u8 p 1
    let fmtOk := (fmt == 5 || fmt == 6) || (match pictureFormat fmt with
      | some f => decide (c.cfg.chroma ≤ f.1)
      | none => false)
    let waiting := (c.pics.filter fun e => e.2.kind == .live && !e.2.assigned).length
    let pic := c.nextPic - waiting + c.source.length + s.copying h
    checked s [((s.isDecoder h && c.cfg.source == 0) || gen, { status := .eState }), (c.cfg.source != 0, { status := eRefSource }),
        (!fmtOk, { status := eCompFormat }),
        (u8 p 0 == 1 && (s.bufferAt (u64 p 8) 1).isNone, { status := .eBadParam, detail := 8 }),
        (decide (16 ≤ s.copying h), { status := .eBusy })] fun _ =>
      .wait (.pictureCopy h pic) { result := pic % 2 ^ 32 } s

def execPicSubmit (c : Submission) (s : State) : Out := runEci specPicSubmit c s

def specRefRing : EciSpec where
  opcode := 0x0507
  target := .object [tChannel]
  run k s :=
    let h := k.tok.handle
    let off := u64 k.payload 0
    match s.dec.auRings.find h with
    | none => refuse s { status := .eState }
    | some r =>
      if 2 ^ r.log2 ≤ off then refuse s { status := .eBadParam, detail := 0 }
      else
        let s := s.readRing true h r off
        let r := (s.ringOf true h).getD {}
        ok s { response := le 8 r.write ++ le 8 r.written }

def execRefRing (c : Submission) (s : State) : Out := runEci specRefRing c s

def specJigSet : EciSpec where
  opcode := 0x0508
  target := .object [tChannel]
  form p _ := [(0, decide (u8 p 0 < 16)), (1, decide (u8 p 1 ≤ 1)), (8, zeros p 8 8)]
  run k s :=
    let p := k.payload
    let h := k.tok.handle
    let c := s.ch h
    checked s [s.notIdle h,
        (u32 p 4 == 0 || decide (u16 p 2 = 0 ∨ 600 < u16 p 2) || c.cfg.effort != 3 || (u8 p 1 == 1 && c.cfg.source != 0),
          { status := eJig })] fun _ =>
      ok (s.modDec fun d => { d with jigs := d.jigs.put h (slice p 0 16) })

def execJigSet (c : Submission) (s : State) : Out := runEci specJigSet c s

/-! ### Statistics -/

/-- `STATS.SET` (R260, R261): a ring of the same size is kept; a new one is allocated and mapped by the command. The
staged payload carries the ring's BAR2 offset at 8. -/
def specStatsSet : EciSpec where
  opcode := 0x0509
  target := .object [tChannel]
  form p _ := [(1, decide (u8 p 1 ≤ 1)), (2, decide (u8 p 2 ≤ 1)), (3, zeros p 3 5)]
  run k s :=
    let p := k.payload
    let h := k.tok.handle
    let n := u8 p 0
    let cur := s.dec.stats.find h
    let mine := match cur with | some r => 2 ^ r.log2 | none => 0
    let same := (cur.map (·.log2)) == some n
    let all := ((s.dec.stats.map fun e => 2 ^ e.2.log2).sum) + s.pendingRings
    let need := if n = 0 ∨ same then 0 else 2 ^ n
    checked s [(n != 0 && decide (n < 20 ∨ 30 < n), { status := eStatsSize }),
        (decide (4294967296 < all - mine + (if same then mine else need)), { status := eStatsSize }),
        bound 16 0xFF (if need = 0 then 0 else s.ringPoolUsed + s.pendingRings + need - mine) ringPool 1024] fun _ =>
      let go (a : Nat) (t : State) : Answer :=
        stage t (.picture h) (.stats h (slice p 0 8 ++ le 8 a)) { response := le 8 a }
      if same then go ((cur.map (·.base)).getD 0) s
      else match s.newRing h n with
        | none => refuse s (noPages [need])
        | some (a, t) => go a t

def execStatsSet (c : Submission) (s : State) : Out := runEci specStatsSet c s

def specStatsRead : EciSpec where
  opcode := 0x050A
  target := .object [tChannel]
  run k s :=
    let h := k.tok.handle
    let off := u64 k.payload 0
    match s.dec.stats.find h with
    | none => refuse s { status := .eState }
    | some r =>
      if 2 ^ r.log2 ≤ off then refuse s { status := .eBadParam, detail := 0 }
      else
        let s := s.readRing false h r off
        let r := (s.ringOf false h).getD {}
        ok s { response := le 8 r.write ++ le 8 r.written ++ le 8 r.discarded }

def execStatsRead (c : Submission) (s : State) : Out := runEci specStatsRead c s

/-! ### Check units (R262 to R266) -/

/-- The key of a check unit among the units of the device. -/
def State.checkUnit (s : State) (h : Nat) : CheckUnit := s.dec.checks.look {} h

/-- The point and the target suit the unit's die (R262): a half of a mitre channel is on the die that codes it (DEDUCED, log entry
210). -/
def State.checkSuits (s : State) (d target point tile : Nat) : Bool :=
  let c := s.ch target
  let t := handleType target
  let onDie := c.die == d || (c.partnerPipe.isSome && c.die + 1 == d)
  (if point ≤ 2 then s.isEncoder target && onDie
   else if point = 3 then s.isDecoder target && onDie
   else d == 0xFF && (if point = 4 then s.isEncoder target else if point = 5 then t == tEgress else t == tIngress)) &&
  (tile == 0 || (decide (point ≤ 2) && c.partnerPipe.isSome && d == c.die + b2n (tile == 2)))

/-- The boundary that a check unit's binding waits for. -/
def checkBoundary (target : Nat) : BoundaryKind :=
  if handleType target = tChannel then .picture target else if handleType target = tEgress then .accessUnit target else .now

def specCheckBind : EciSpec where
  opcode := 0x050B
  target := .object [tCheck]
  form p _ := [(4, decide (u8 p 4 ≤ 6)), (5, decide (u8 p 5 ≤ 3)), (6, decide (u8 p 6 ≤ 2)), (7, zeros p 7 1)]
  run k s :=
    let p := k.payload
    let h := k.tok.handle
    let target := u32 p 0
    let use := s.useObject k target [handleType target]
    checked s [(use.isSome, use.getD {}), (!s.checkSuits (handleDie h) target (u8 p 4) (u8 p 6), { status := eCheckBind })]
      fun _ => stage s (checkBoundary target) (.checkBind h (slice p 0 16))

def execCheckBind (c : Submission) (s : State) : Out := runEci specCheckBind c s

def specCheckUnbind : EciSpec where
  opcode := 0x050C
  target := .object [tCheck]
  run k s :=
    let h := k.tok.handle
    let u := s.checkUnit h
    checked s [(!u.bound, { status := .eState })] fun _ => stage s (checkBoundary u.target) (.checkUnbind h)

def execCheckUnbind (c : Submission) (s : State) : Out := runEci specCheckUnbind c s

/-- Width of a polynomial's value. -/
def polyBits (poly : Nat) : Nat := if poly = 0 then 16 else if poly = 3 then 64 else 32

def specCheckExpect : EciSpec where
  opcode := 0x050D
  target := .object [tCheck]
  form p _ := [(0, decide (1 ≤ u16 p 0 ∧ u16 p 0 ≤ 256)), (2, zeros p 2 6)]
  run k s :=
    let p := k.payload
    let h := k.tok.handle
    let u := s.checkUnit h
    let entries := (List.range (u16 p 0)).map fun i => (u64 p (8 + 16 * i), u64 p (16 + 16 * i))
    let wide := entries.findIdx? fun e => decide (2 ^ polyBits u.poly ≤ e.2)
    checked s [(!u.bound, { status := .eState }),
        (wide.isSome, { status := .eBadParam, detail := 16 + 16 * wide.getD 0 }),
        (decide (256 < u.queue.length + entries.length), { status := .eBusy })] fun _ =>
      let q := entries.map fun e => (if e.1 = 2 ^ 64 - 1 then none else some e.1, e.2)
      let u' : CheckUnit := { u with queue := u.queue ++ q, emptyRaised := false }
      ok (s.modDec fun d => { d with checks := d.checks.put h u' })

def execCheckExpect (c : Submission) (s : State) : Out := runEci specCheckExpect c s

def specCheckQuery : EciSpec where
  opcode := 0x050E
  target := .object [tCheck]
  fast := false
  run k s :=
    let u := s.checkUnit k.tok.handle
    let r := le 8 u.lastPic ++ le 8 u.lastValue ++ le 4 u.compared ++ le 4 u.mismatched ++ le 4 u.missed ++
      le 4 u.unchecked ++ le 2 u.queue.length
    ok s { response := r }

def execCheckQuery (c : Submission) (s : State) : Out := runEci specCheckQuery c s

end Sys2Proof.Machine
end

