-- ==== Sys2Proof/Machine/SchedOps.lean ====
section
/-!
DEFINITION. The operations of a task scheduler: trace capture, readiness and lock grants, enqueue, post, cancel, squash,
dispatch, completion and abort (Hardware Task Scheduling).
-/

namespace Sys2Proof.Machine

open Sys2Proof (Byte Descriptor)

def State.sd (s : State) (k : Nat) : Sched := s.sched.scheds.look {} k
def State.modSd (s : State) (k : Nat) (f : Sched → Sched) : State :=
  s.modSched fun x => { x with scheds := x.scheds.modD {} k f }

/-- The DIE handle of a scheduler (R240). -/
def schedHandle (k : Nat) : Nat := if k = 8 then 0x02FF0000 else dieHandle k
def schedCode (k : Nat) : Nat := if k = 8 then 0xFF else k

/-- The scheduler that a DIE handle names. -/
def schedOf (h : Nat) : Nat := if handleDie h = 0xFF then 8 else handleDie h

/-- The scheduler exists: its die runs. -/
def State.schedRuns (s : State) (k : Nat) : Bool :=
  !s.boot.held && (k == 8 || (decide (k < s.dies) && !bit s.boot.diesFenced k))

/-- Descriptors held: live tasks and the slots held by R212. -/
def Sched.occupancy (d : Sched) : Nat := d.tasks.length + d.held.length
def taskIdOf (i gen : Nat) : Nat := gen * 2048 + i

/-- `s` is at or after `h`, modulo 2^24 (R221). -/
def seqAfter (h s : Nat) : Bool := decide ((s + 2 ^ 24 - h) % 2 ^ 24 < 2 ^ 23)
def seqDist (h s : Nat) : Nat := (s + 2 ^ 24 - h) % 2 ^ 24

/-- Watchdog time of a class in ns (R207). -/
def watchdogNs (cls : Nat) : Nat := if cls < 4 then 20000 else 200000

/-- An agent of a class exists on a scheduler (R207). -/
def agentExists (k a : Nat) : Bool :=
  let n := a % 512
  let cls := a / 512
  if k = 8 then
    if cls = 4 then decide (n < 16) else if cls = 5 then decide (n < 8) else cls == 6 && decide (n < 3)
  else
    if cls = 0 then decide (n < 256) else if cls = 1 ∨ cls = 4 then decide (n < 16)
    else if cls = 2 ∨ cls = 3 then decide (n < 4) else cls == 5 && decide (n < 2)

/-! ### Trace (R237 to R239) -/

/-- One event to trace. -/
structure TraceEvent where
  type : Nat
  agent : Nat := 0xFFF
  prio : Nat := 0
  task : Nat := 0
  flow : Nat := 0
  seq : Nat := 0
  detail : Nat := 0
  /-- class of the task, where no agent is concerned -/
  cls : Option Nat := none
  /-- a lock taken or lost by a direct acquisition -/
  direct : Bool := false
deriving DecidableEq, Repr

/-- The 16 bytes of a trace record. -/
def TraceEvent.encode (e : TraceEvent) (k time : Nat) : List Byte :=
  le 1 e.type ++ le 1 (schedCode k) ++ le 2 (e.agent + e.prio * 4096) ++ le 2 e.task ++ le 2 e.flow ++ le 3 e.seq ++
    le 1 e.detail ++ le 4 time

/-- An event passes every filter (R238). -/
def Trace.wants (t : Trace) (e : TraceEvent) : Bool :=
  let cls := if e.agent = 0xFFF then e.cls else some (e.agent / 512)
  (t.typeMask == 0 || bit t.typeMask e.type) &&
  (t.classMask == 0 || (match cls with | some c => bit t.classMask c | none => true)) &&
  (t.flows.isEmpty || t.flows.contains e.flow || e.direct)

/-- Write one record: at a full buffer the trace stops, or goes on at the start (R239). -/
def State.traceStore (s : State) (h : Nat) (bs : List Byte) : State :=
  match s.sched.traces.find h with
  | none => s
  | some t =>
    if !t.running then s
    else
      let s := s.bufStore (t.base + t.write) bs
      let w := t.write + 16
      let full := decide (2 ^ t.log2 ≤ w)
      let stop := full && t.policy == 0
      let t : Trace := { t with
        write := if full && t.policy == 1 then 0 else w
        wrapped := t.wrapped || decide (2 ^ t.log2 ≤ 16 * t.records)
        records := t.records + 1
        lostSince := 0
        running := !stop }
      let s := s.modSched fun x => { x with traces := x.traces.put h t }
      if stop then s.raise evTraceDone h (t.records % 2 ^ 32) else s

/-- The `LOSS` record of a trace that has lost records is written (R239). -/
def State.traceLoss (s : State) (k h : Nat) : State :=
  let t := s.sched.traces.look {} h
  let loss : TraceEvent := { type := 10, detail := min 255 t.lostSince }
  if t.lostSince = 0 || decide (s.now + 1024 < (s.sd k).traceBusy) then s else s.traceStore h (loss.encode k s.time.ns)

/-- Trace an event of scheduler `k`: the writer takes one record per 16 ns and holds 64 (log entry 33). -/
def State.trace (s : State) (k : Nat) (e : TraceEvent) : State :=
  (s.sched.traces.sel fun _ t => t.sched == k && t.running && t.wants e).foldl (fun s x =>
    let busy := (s.sd k).traceBusy
    if s.now + 1024 < busy then
      s.modSched fun y => { y with traces := y.traces.upd x.1 fun t =>
        { t with lost := t.lost + 1, lostSince := t.lostSince + 1 } }
    else
      let s := s.modSd k fun d => { d with traceBusy := max busy s.now + 16 }
      (s.traceLoss k x.1).traceStore x.1 (e.encode k s.time.ns)) s

/-- What is traced of a task. -/
def Task.event (t : Task) (i type detail : Nat) : TraceEvent :=
  { type, agent := t.agent.getD 0xFFF, prio := t.prio, task := taskIdOf i t.gen, flow := t.flow, seq := t.seq, detail
    cls := some t.cls }

/-! ### Readiness and locks (R213, R223, R228, R229) -/

/-- A flow lets one more of its tasks into service. -/
def Sched.flowAllows (d : Sched) (f : Nat) : Bool :=
  !((d.flows.look {} f).kind == 1 && d.tasks.any fun t => t.2.flow == f && t.2.agent.isSome)

/-- A task's events have all been posted. -/
def Task.satisfied (t : Task) : Bool := t.flags &&& t.waitMask == t.waitMask

/-- Tasks that have become ready get their place in the ready order, in index order. -/
def Sched.markReady (d : Sched) : Sched :=
  let d := { d with clock := d.clock + 1 }
  { d with tasks := d.tasks.mapV fun _ t =>
      if t.ready.isNone && t.agent.isNone && t.satisfied then { t with ready := some d.clock } else t }

/-- A requester of a lock: priority, order, agent, task index or none for a direct request. -/
abbrev Waiter := Nat × Nat × Nat × Option Nat

def Waiter.before (a b : Waiter) : Bool :=
  decide (a.1 < b.1) || (a.1 == b.1 && (decide (a.2.1 < b.2.1) || (a.2.1 == b.2.1 && decide (a.2.2.1 < b.2.2.1))))

/-- The requesters that wait for a lock. -/
def Sched.waiters (d : Sched) (l : Nat) : List Waiter :=
  ((d.locks.look {} l).direct.map fun w => (0, w.order, w.agent, none)) ++
  (d.tasks.filterMap fun (i, t) =>
    match t.ready with
    | some o => if t.lock == some l && !t.holds && t.agent.isNone && d.flowAllows t.flow
        then some (t.prio, o, 0xFFF, some i) else none
    | none => none)

/-- The requester that is served first (R228). -/
def firstWaiter : List Waiter → Option Waiter
  | [] => none
  | w :: r => match firstWaiter r with
    | some v => if v.before w then some v else some w
    | none => some w

/-- Grant one free lock; a lock that was released as broken is received with `BROKEN` set (R229). -/
def State.grant (s : State) (k l : Nat) : State :=
  let d := s.sd k
  let g := d.locks.look {} l
  if g.owner.isSome then s
  else match firstWaiter (d.waiters l) with
    | none => s
    | some (_, _, a, ti) =>
      let id := match ti with | some i => taskIdOf i (d.tasks.look {} i).gen | none => 0
      let isBroken := g.former.isSome
      let s := s.modSd k fun d => { d with
        locks := d.locks.put l { owner := some (a, id), broken := isBroken, recover := isBroken, former := none, brokenBy := g.former
                                 direct := if ti.isNone then g.direct.filter (·.agent != a) else g.direct }
        tasks := match ti with | some i => d.tasks.upd i fun t => { t with holds := true } | none => d.tasks }
      let t : Task := match ti with | some i => d.tasks.look {} i | none => {}
      let ev : TraceEvent := { type := 5, agent := a, task := id, flow := t.flow, seq := t.seq, detail := l
                               cls := ti.map fun _ => t.cls, direct := ti.isNone }
      let s := s.trace k ev
      match g.former with
      | some f => s.raise evLockBroken (schedHandle k) (l + f.agent * 256 + f.cause * 2 ^ 20 + f.task * 2 ^ 32)
      | none => s

/-- Readiness and lock grants follow a change. -/
def State.settleSd (s : State) (k : Nat) : State :=
  let s := s.modSd k Sched.markReady
  let ls := ((s.sd k).tasks.filterMap fun x => x.2.lock) ++ ((s.sd k).locks.sel fun _ g => !g.direct.isEmpty).keys
  ls.eraseDups.foldl (fun s l => s.grant k l) s

/-- A lock is released normally by its holder. -/
def State.releaseLock (s : State) (k l : Nat) (ev : TraceEvent) : State :=
  let s := s.modSd k fun d => { d with locks := d.locks.modD {} l fun g =>
    { g with owner := none, broken := false, recover := false, former := none } }
  s.trace k { ev with type := 6, detail := l }

/-- A lock is released as broken: cause 1 reset, 2 fault, 3 watchdog, 4 fenced; `ev` is what is traced of the owning task. -/
def State.breakLock (s : State) (k l cause : Nat) (ev : TraceEvent := { type := 7 }) : State :=
  match ((s.sd k).locks.look {} l).owner with
  | none => s
  | some (a, id) =>
    let s := s.modSd k fun d => { d with broken := d.broken + 1, locks := d.locks.modD {} l fun g =>
      { g with owner := none, broken := false, recover := false, former := some { agent := a, task := id, cause } } }
    s.trace k { ev with type := 7, agent := a, task := id, detail := l, direct := id == 0 }

/-- Every lock of a scheduler that an agent owns is released as broken: its reset, its fault or its fence is signalled (R229). -/
def State.breakLocksOf (s : State) (k agent cause : Nat) : State :=
  ((s.sd k).locks.sel fun _ g => g.owner.any fun o => o.1 == agent).keys.foldl (fun s l => s.breakLock k l cause) s

/-! ### Records, holes and retirement (R221, R222) -/

def Record7.hole : Record7 → Bool
  | .cancelled | .expired | .aborted => true
  | _ => false

/-- A flow whose head sequence number's records have been delivered and which may retire it; `n` bounds the steps. -/
def Flow.retire (f : Flow) (live : List Nat) : Nat → Flow
  | 0 => f
  | n + 1 =>
    let now := f.waiting.filter (·.1 == f.head)
    let f := { f with waiting := f.waiting.filter (·.1 != f.head), delivered := f.delivered ++ now }
    if f.ends.contains f.head && !live.contains f.head then
      Flow.retire { f with head := (f.head + 1) % 2 ^ 24, ends := f.ends.filter (· != f.head)
                           latched := f.latched.del f.head, remember := f.remember.del f.head } live n
    else f

/-- A task's record goes to its flow: in sequence order for an ordered flow, at once otherwise. -/
def State.deliver (s : State) (k fl seq : Nat) (r : Record7) : State :=
  let d := s.sd k
  match d.flows.find fl with
  | none => s
  | some f =>
    if f.kind = 0 then
      let live := (d.tasks.filter fun t => t.2.flow == fl).map (·.2.seq)
      let g := Flow.retire { f with waiting := f.waiting ++ [(seq, r)] } live (f.ends.length + 1)
      let holes := (g.delivered.drop f.delivered.length).filter (·.2.hole)
      let s := s.modSd k fun d => { d with flows := d.flows.put fl g, holes := d.holes + holes.length }
      holes.foldl (fun s x => s.trace k { type := 2, flow := fl, seq := x.1, detail := 4 }) s
    else s.modSd k fun d => { d with flows := d.flows.put fl { f with delivered := f.delivered ++ [(seq, r)] } }

/-- Retire what a flow can retire, after tasks or marks of it have changed. -/
def State.retireFlow (s : State) (k fl : Nat) : State :=
  let d := s.sd k
  match d.flows.find fl with
  | none => s
  | some f =>
    if f.kind = 0 then
      let live := (d.tasks.filter fun t => t.2.flow == fl).map (·.2.seq)
      s.modSd k fun d => { d with flows := d.flows.put fl (f.retire live (f.ends.length + 1)) }
    else s

def Record7.code : Record7 → Nat
  | .done => 0 | .cancelled => 1 | .expired => 2 | .aborted => 3 | .squash => 0

/-! ### Posts (R212, R214, R215) -/

def State.stale (s : State) (k : Nat) : State := s.modSd k fun d => { d with stale := d.stale + 1 }

/-- Bits reach the flags of the tasks a test picks. -/
def State.orFlags (s : State) (k : Nat) (p : Nat → Task → Bool) (bits : Nat) : State :=
  (s.modSd k fun d => { d with tasks := d.tasks.mapV fun i t => if p i t then { t with flags := t.flags ||| bits } else t })

def State.taskPost (s : State) (k id bits : Nat) : State :=
  let live := match (s.sd k).tasks.find (id % 2048) with | some t => t.gen == id / 2048 | none => false
  if live then s.orFlags k (fun i _ => i == id % 2048) bits else s.stale k

/-- A sequence post that lies in the window, is stale, or must wait (none). -/
def State.seqPost (s : State) (k fl seq bits : Nat) : Option State :=
  match (s.sd k).flows.find fl with
  | none => some (s.stale k)
  | some f =>
    if f.kind != 0 || !seqAfter f.head seq then some (s.stale k)
    else if 255 < seqDist f.head seq then none
    else
      let s := s.modSd k fun d => { d with flows := d.flows.upd fl fun f =>
        { f with latched := f.latched.put seq (f.latched.look 0 seq ||| bits) } }
      some (s.orFlags k (fun _ t => t.flow == fl && t.seq == seq) bits)

def State.flowPost (s : State) (k fl bits : Nat) : State :=
  if (s.sd k).flows.has fl then s.orFlags k (fun _ t => t.flow == fl) bits else s.stale k

/-- What is traced of a back-pressured enqueue or sequence post. -/
def Stalled.event (x : Stalled) (type : Nat) : TraceEvent :=
  match x.task with
  | some (t, _) => { type, agent := x.producer, prio := t.prio, flow := t.flow, seq := t.seq, detail := x.bound, cls := some t.cls }
  | none => { type, agent := x.producer, flow := x.post.1, seq := x.post.2.1, detail := x.bound }

/-- A producer is held back until the bound clears. -/
def State.stall (s : State) (k : Nat) (x : Stalled) : State := s.modSd k fun d => { d with stalled := d.stalled ++ [x] }

/-- Back-pressure starts: it is counted and traced (R235). -/
def State.noteBp (s : State) (k : Nat) (x : Stalled) : State :=
  (s.modSd k fun d => { d with bpEvents := d.bpEvents + 1 }).trace k (x.event 8)

/-- The post a task makes at its normal completion (`DONE_POST`). -/
def State.donePost (s : State) (k : Nat) (t : Task) : State :=
  if !t.donePost then s
  else
    let kind := t.doneTarget / 2 ^ 30
    if kind = 0 then s.taskPost k (t.doneTarget % 65536) t.doneBits
    else if kind = 1 then
      match s.seqPost k (t.doneTarget % 4096) t.doneSeq t.doneBits with
      | some s => s
      | none =>
        let x : Stalled := { producer := t.agent.getD 0xFFF, bound := 3, post := (t.doneTarget % 4096, t.doneSeq, t.doneBits) }
        (s.noteBp k x).stall k x
    else s.flowPost k (t.doneTarget % 4096) t.doneBits

/-! ### Slots and occupancy (R211, R234, R236) -/

/-- A slot's descriptor index returns to the free list. -/
def Sched.freeIndex (d : Sched) (i now : Nat) : Sched :=
  { d with freed := d.freed ++ [i], frees := (d.frees.filter fun t => decide (now < t + 100000)) ++ [now] }

/-- The retry hint of R235 in µs: the time in which 128 descriptors are freed at the rate of the last 100 µs, from 1 to
1,000. -/
def Sched.retryHint (d : Sched) (now : Nat) : Nat :=
  let n := (d.frees.filter fun t => decide (now < t + 100000)).length
  if n = 0 then 1000 else max 1 (min 1000 (12800 / n))

/-- The class with the most ready tasks, the lowest of several. -/
def Sched.busiestClass (d : Sched) : Nat :=
  let n (c : Nat) := (d.tasks.filter fun t => t.2.cls == c && t.2.ready.isSome && t.2.agent.isNone).length
  (List.range 6).foldl (fun b c => if n b < n c then c else b) 0

/-- The occupancy has changed: peaks of the functions, and the excursion of R236. -/
def State.noteOccupancy (s : State) (k : Nat) : State :=
  let d := s.sd k
  let occ := d.occupancy
  let s := s.modSd k fun d => { d with peak := (List.range 33).foldl (fun p f => p.modD 0 f (max occ)) d.peak }
  if 1920 < occ && !d.full then
    (s.modSd k fun d => { d with full := true, fullEvents := d.fullEvents + 1 }).raise evSchedFull (schedHandle k)
      (occ + d.busiestClass * 65536)
  else if occ ≤ 1536 && d.full then s.modSd k fun d => { d with full := false }
  else s

/-! ### Enqueue (R210, R211, R219 to R221, R234) -/

/-- A descriptor's reserved bits are zero and its class exists. -/
def descriptorOk (d : Descriptor) : Bool :=
  let ctl := d.ctl.toNat
  let t := d.doneTarget.toNat
  decide (ctl / 8 % 8 < 6) && !bit ctl 7 && decide (d.flow.toNat < 4096) && decide (d.opts.toNat < 8) &&
  d.reserved1F == 0 &&
  (if t / 2 ^ 30 = 0 then bits t 16 14 == 0 else t / 2 ^ 30 != 3 && bits t 12 18 == 0)

/-- The task that a descriptor describes, and whether it is the last of its sequence number. -/
def taskOf (d : Descriptor) : Task × Bool :=
  let ctl := d.ctl.toNat
  ({ flow := d.flow.toNat, seq := d.seq.toNat, prio := ctl % 8, cls := ctl / 8 % 8, waitMask := d.waitMask.toNat
     flags := d.flags.toNat, deadline := d.deadline.toNat, dlCancel := d.opts.getLsbD 1, affinity := d.affinity.toNat
     lock := if d.opts.getLsbD 0 then some d.lock.toNat else none, donePost := d.opts.getLsbD 2
     doneTarget := d.doneTarget.toNat, doneSeq := d.doneSeq.toNat, doneBits := d.doneBits.toNat
     entry := d.entry.toNat, args := d.args.take 24 }, bit ctl 6)

/-- Device time has reached a deadline (R219). -/
def State.reached (s : State) (deadline : Nat) : Bool := decide ((s.time.ns + 2 ^ 32 - deadline) % 2 ^ 32 < 2 ^ 31)

/-- The bound that back-pressures a task: 1 descriptors, 2 the priority-0 reserve, 3 the reorder window (R234). -/
def Sched.bpBound (d : Sched) (t : Task) : Option Nat :=
  if 2048 ≤ d.occupancy then some 1
  else if 1984 ≤ d.occupancy && t.prio != 0 then some 2
  else match d.flows.find t.flow with
    | some f => if f.kind = 0 && seqAfter f.head t.seq && decide (255 < seqDist f.head t.seq) then some 3 else none
    | none => none

/-- The task needs no slot: its flow is not open, or its sequence number has passed (R220, R221). -/
def Sched.passed (d : Sched) (t : Task) : Bool :=
  match d.flows.find t.flow with
  | none => true
  | some f => f.kind == 0 && !seqAfter f.head t.seq

/-- Mark the last task of a sequence number. -/
def State.markLast (s : State) (k : Nat) (t : Task) (last : Bool) : State :=
  if last then s.modSd k fun d => { d with flows := d.flows.upd t.flow fun f =>
    if f.kind = 0 then { f with ends := if f.ends.contains t.seq then f.ends else f.ends ++ [t.seq] } else f }
  else s

/-- Enqueue a task that no bound holds back. -/
def State.enqueue (s : State) (k : Nat) (t : Task) (last : Bool) : State :=
  let d := s.sd k
  if d.passed t then
    let s := (s.stale k).trace k { type := 2, flow := t.flow, seq := t.seq, detail := 1, cls := some t.cls }
    s.modSd k fun d => { d with flows := d.flows.upd t.flow fun f =>
      { f with delivered := f.delivered ++ [(t.seq, .cancelled)] } }
  else if t.dlCancel && s.reached t.deadline then
    let s := s.markLast k t last
    let s := s.modSd k fun d => { d with expired := d.expired + 1 }
    (s.trace k { type := 2, flow := t.flow, seq := t.seq, detail := 2, cls := some t.cls }).deliver k t.flow t.seq .expired
  else
    let (i, nextIndex, freed) := if d.nextIndex < 2048 then (d.nextIndex, d.nextIndex + 1, d.freed)
      else match d.freed with
        | [] => (0, d.nextIndex, [])
        | i :: r => (i, d.nextIndex, r)
    let gen := (d.gens.look 0 i + 1) % 32
    let kept (f : Flow) : Flow :=
      if f.role = 1 then { f with remember := f.remember.modD [] t.seq (· ++ [(t, last)]) } else f
    let u := { t with gen, flags := t.flags ||| ((d.flows.look {} t.flow).latched.look 0 t.seq) }
    let s := s.modSd k fun d => { d with
      nextIndex, freed, gens := d.gens.put i gen, tasks := d.tasks.put i u, flows := d.flows.upd t.flow kept }
    ((s.markLast k t last).noteOccupancy k).settleSd k

/-! ### Cancel, squash and expiry (R222, R224 to R227) -/

/-- A live task leaves its slot: its agent, if any, runs on, and the slot is held until it reports. -/
def State.dropTask (s : State) (k i : Nat) (t : Task) : State :=
  let gen := (t.gen + 1) % 32
  match t.agent with
  | some a =>
    s.modSd k fun d => { d with
      tasks := d.tasks.del i, gens := d.gens.put i gen
      held := d.held.put i { agent := a, gen := t.gen, lock := if t.holds then t.lock else none, cls := t.cls
                             started := t.started, flow := t.flow, seq := t.seq, prio := t.prio, rowGen := t.rowGen } }
  | none => s.modSd k fun d => ({ d with tasks := d.tasks.del i, gens := d.gens.put i gen } : Sched).freeIndex i s.now

/-- The lock of a task that left before it was dispatched is released. -/
def State.dropLock (s : State) (k i : Nat) (t : Task) : State :=
  match t.agent, t.holds, t.lock with
  | none, true, some l => s.releaseLock k l (t.event i 6 l)
  | _, _, _ => s

/-- Cancel the live task in a slot. No record is delivered here. -/
def State.withdraw (s : State) (k i : Nat) : State :=
  match (s.sd k).tasks.find i with
  | none => s
  | some t => (s.dropTask k i t).dropLock k i t

/-- Cancel or expire one task; `why` is what its trace record says. -/
def State.cancelTask (s : State) (k i : Nat) (expired : Bool) (why : Nat := b2n expired) : State :=
  match (s.sd k).tasks.find i with
  | none => s
  | some t =>
    let r : Record7 := if expired then .expired else .cancelled
    let s := (s.trace k (t.event i 2 r.code)).dropTask k i t
    let s := ((s.deliver k t.flow t.seq r).trace k (t.event i 3 why)).dropLock k i t
    let s := s.modSd k fun d => if expired then { d with expired := d.expired + 1 } else { d with cancelled := d.cancelled + 1 }
    (s.noteOccupancy k).settleSd k

/-- Squash a flow from a sequence number (R225). -/
def State.squash (s : State) (k fl seq : Nat) : State :=
  match (s.sd k).flows.find fl with
  | none => s
  | some _ =>
    let hit := ((s.sd k).tasks.sel fun _ t => t.flow == fl && seqAfter seq t.seq).map (·.1)
    let s := s.trace k { type := 4, flow := fl, seq, detail := min 255 hit.length }
    let s := hit.foldl (fun s i => s.withdraw k i) s
    let s := s.modSd k fun d => { d with
      cancelled := d.cancelled + hit.length, squashes := d.squashes + 1
      flows := d.flows.upd fl fun f =>
        { f with ends := f.ends.filter (fun e => !seqAfter seq e), remember := f.remember.sel (fun e _ => !seqAfter seq e), delivered := f.delivered ++ [(seq, .squash)] } }
    (s.noteOccupancy k).settleSd k

/-- Tasks are enqueued again at a new generation; a bound holds them back (R147, R233, R235). -/
def State.requeue (s : State) (k : Nat) (l : List (Task × Bool)) : State :=
  l.foldl (fun s e => match (s.sd k).bpBound e.1 with
    | some b =>
      let x : Stalled := { producer := 0xFFF, bound := b, task := some e }
      (s.noteBp k x).stall k x
    | none => s.enqueue k e.1 e.2) s

/-- A flow is squashed at a sequence number, and that number's own tasks are enqueued again (R147, R233). -/
def State.squashAgain (s : State) (k fl seq : Nat) : State :=
  let l := ((s.sd k).flows.look {} fl).remember.look [] seq
  (s.squash k fl seq).requeue k l

/-! ### Dispatch (R216, R217) -/

/-- Clusters, or agents, that a task's `AFFINITY` allows. -/
def Task.allows (t : Task) (a : Nat) : Bool :=
  let n := a % 512
  t.affinity == 0 || bit t.affinity (if a / 512 = 0 then n / 16 else n)

/-- Agents of a class on a scheduler. -/
def agentsOf (k cls : Nat) : List Nat := ((List.range 256).map (cls * 512 + ·)).filter (agentExists k)

/-- The MSU that in-service self-test is testing: it takes no task in its slice (R501). -/
def State.msuUnderTest (s : State) (k : Nat) : Option Nat :=
  let g := s.boot.health.look {} k
  if k ≠ 8 ∧ g.sliceStart.isSome ∧ 256 ≤ g.slice ∧ g.slice < 272 then some (g.slice - 256) else none

/-- The unit that serves the cluster of the MSU under test: the lowest-numbered working one that serves no other cluster than
its own (R108, R501). -/
def State.msuStandIn (s : State) (k m : Nat) : Option Nat :=
  (List.range 16).find? fun c => c != m && !(s.boot.health.look {} k).msusFenced.contains c &&
    !(s.chan.msuServing.any fun e => e.1 / 16 == k && e.2 == c)

/-- Agents of a scheduler that take no task: fenced after aborts or by self-test, or an MSU under test (R217, R232, R501). -/
def State.fencedAgents (s : State) (k : Nat) : List Nat :=
  let g := s.boot.health.look {} k
  (s.sd k).fenced ++ (if k = 8 then [] else g.enginesFenced ++ g.msusFenced.map (512 + ·)) ++
    (s.msuUnderTest k).toList.map (512 + ·)

/-- The task may go to the agent: by its affinity, or because every agent it allows is fenced; then an MSU task goes to the
unit that serves a cluster it allows (R108, R217). -/
def State.suits (s : State) (k : Nat) (t : Task) (a : Nat) : Bool :=
  let fenced := s.fencedAgents k
  t.allows a || ((agentsOf k t.cls).all (fun b => !t.allows b || fenced.contains b) &&
    (t.cls == 0 || (t.cls == 1 &&
      ((s.chan.msuServing.any fun e => e.1 / 16 == k && bit t.affinity (e.1 % 16) && e.2 == a % 512) ||
        (s.msuUnderTest k).any fun m => bit t.affinity m && s.msuStandIn k m == some (a % 512)))))

/-- Engines that in-service self-test holds: the engine under test and the next three (R500). -/
def State.selfTestHeld (s : State) (k a : Nat) : Bool :=
  k != 8 && decide (a < 256) &&
  (let g := s.boot.health.look {} k
   let e := if g.slice < 256 then g.slice else 0
   (List.range 4).any fun j => (e + j) % 256 == a)

/-- The agent is busy with a live task or a cancelled one. -/
def Sched.busy (d : Sched) (a : Nat) : Bool :=
  d.tasks.any (fun t => t.2.agent == some a) || d.held.any fun h => h.2.agent == a

/-- The ready tasks that an agent may take: none whose deadline device time has reached (R219). -/
def State.eligible (s : State) (k a : Nat) : List (Nat × Task) :=
  let d := s.sd k
  d.tasks.sel fun _ t => t.cls == a / 512 && t.ready.isSome && t.agent.isNone && (t.lock.isNone || t.holds) &&
    d.flowAllows t.flow && s.suits k t a && !(t.dlCancel && s.reached t.deadline)

/-- The order of R216: priority, then ready time, then index. -/
def taskBefore (x y : Nat × Task) : Bool :=
  let rx := x.2.ready.getD 0
  let ry := y.2.ready.getD 0
  decide (x.2.prio < y.2.prio) ||
  (x.2.prio == y.2.prio && (decide (rx < ry) || (rx == ry && decide (x.1 < y.1))))

def bestTask : List (Nat × Task) → Option (Nat × Task)
  | [] => none
  | x :: r => match bestTask r with
    | some y => if taskBefore y x then some y else some x
    | none => some x

/-- The row of its channel that a task of a row flow, or of a channel's analysis, serves. -/
def State.taskRow (s : State) (k flow seq : Nat) : Option (Nat × Nat × Nat) :=
  match (s.sd k).flows.find flow with
  | some f => ((s.ch f.chan).rows.find? fun e => e.1 % 2 ^ 24 == seq).map fun e => (f.chan, f.role, e.1)
  | none => none

/-- The generation of that row. -/
def State.rowGeneration (s : State) (k : Nat) (t : Task) : Nat :=
  match s.taskRow k t.flow t.seq with
  | some (h, _, key) => ((s.ch h).rows.look {} key).generation
  | none => 0

def State.dispatch (s : State) (k a : Nat) : State :=
  let d := s.sd k
  if !agentExists k a || 6 ≤ a / 512 || (s.fencedAgents k).contains a || s.selfTestHeld k a || d.busy a then s
  else match bestTask (s.eligible k a) with
    | none => s
    | some (i, t) =>
      let t' := { t with agent := some a, started := s.now, rowGen := s.rowGeneration k t }
      let s := s.modSd k fun d => { d with
        tasks := d.tasks.put i t', dispatched := d.dispatched + 1
        locks := match t.lock with
          | some l => d.locks.upd l fun g => { g with owner := some (a, taskIdOf i t.gen) }
          | none => d.locks }
      s.trace k (t'.event i 1 0)

/-! ### Completion and abort (R212, R221, R227, R231) -/

/-- A cancelled task's agent reports: the slot returns to the free list and its lock is released. -/
def State.reportHeld (s : State) (k i : Nat) (h : HeldSlot) : State :=
  let s := s.modSd k fun d => ({ d with held := d.held.del i, stale := d.stale + 1 } : Sched).freeIndex i s.now
  let ev : TraceEvent := { type := 2, agent := h.agent, prio := h.prio, task := taskIdOf i h.gen, flow := h.flow, seq := h.seq, detail := 6 }
  let s := s.trace k ev
  match h.lock with
  | some l => s.releaseLock k l ev
  | none => s

/-- A live task ends on its agent; `r` is done or aborted. -/
def State.finishTask (s : State) (k i : Nat) (t : Task) (r : Record7) : State :=
  let s := s.trace k (t.event i 2 r.code)
  let s := (s.modSd k fun d => ({ d with tasks := d.tasks.del i } : Sched).freeIndex i s.now).deliver k t.flow t.seq r
  let s := match t.holds, t.lock, r with
    | true, some l, .done => s.releaseLock k l (t.event i 6 l)
    | true, some l, _ => s.breakLock k l 3 (t.event i 7 l)
    | _, _, _ => s
  if r = .done then s.donePost k t else s

/-- A completion that names no live task is discarded (R212). -/
def State.staleReport (s : State) (k a id : Nat) : State :=
  (s.stale k).trace k { type := 2, agent := a, task := id, detail := 6 }

/-- An agent reports the completion of a task. -/
def State.completeTask (s : State) (k a id : Nat) : State :=
  let i := id % 2048
  let d := s.sd k
  let s := match d.tasks.find i, d.held.find i with
    | some t, _ =>
      if t.gen = id / 2048 then (if t.agent = some a then s.finishTask k i t .done else s) else s.staleReport k a id
    | none, some h => if h.agent = a ∧ h.gen = id / 2048 then s.reportHeld k i h else s.staleReport k a id
    | none, none => s.staleReport k a id
  (s.noteOccupancy k).settleSd k

/-! ### Flows of a channel (R220, R240) -/

/-- The lowest flow ID that is not open. -/
def Sched.freeFlow (d : Sched) : Nat := ((List.range 4096).find? fun f => !d.flows.has f).getD 4095

/-- Firmware opens a flow for a channel. -/
def State.openFlow (s : State) (k kind chan role head : Nat) : State :=
  s.modSd k fun d => { d with flows := d.flows.put d.freeFlow { kind, chan, role, head } }

/-- The flow of a channel in a role. -/
def Sched.flowOf (d : Sched) (chan role : Nat) : Option Nat :=
  ((d.flows.sel fun _ f => f.chan == chan && f.role == role).map (·.1)).head?

/-- Firmware closes a channel's flows; tasks left in them are withdrawn. -/
def State.closeFlows (s : State) (chan : Nat) : State :=
  (List.range 9).foldl (fun s k =>
    let fs := ((s.sd k).flows.sel fun _ f => f.chan == chan).map (·.1)
    if fs.isEmpty then s
    else
      let hit := ((s.sd k).tasks.sel fun _ t => fs.contains t.flow).map (·.1)
      let s := hit.foldl (fun s i => s.withdraw k i) s
      (s.modSd k fun d => { d with flows := d.flows.filter fun e => !fs.contains e.1 }).settleSd k) s

/-- The flows that serve a channel: on each die that runs it, rows and decoding units in order, analysis free, rate
control atomic; on the hub one ordered flow (log entry 34). They go on from a row and a decoding unit. -/
def State.openFlows (s : State) (chan : Nat) (dies : List Nat) (row du : Nat) : State :=
  let s := dies.foldl (fun s d =>
    (((s.openFlow d 0 chan 1 (row % 2 ^ 24)).openFlow d 0 chan 2 (du % 2 ^ 24)).openFlow d 2 chan 3 0).openFlow d 1 chan 4 0) s
  s.openFlow 8 0 chan 5 0

/-- What a lock guards (R230): 1 rate control, 2 the journal, 3 a slot table, 4 hub fail-over state. -/
def State.lockUser (s : State) (k l : Nat) : Nat :=
  let chan := s.chan.chans.any fun c => handleIndex c.1 + 1 == l && (k == 8 || c.2.die == k)
  if l = 0 then (if k = 8 then 2 else 3) else if chan then (if k = 8 then 4 else 1) else 0

end Sys2Proof.Machine
end

