-- ==== Sys2Proof/Machine/SchedCmds.lean ====
section
/-!
DEFINITION. The commands of the task schedulers and of trace objects (Hardware Task Scheduling).
-/

namespace Sys2Proof.Machine

open Sys2Proof (Byte Submission)

/-- Ready tasks of a class. -/
def Sched.readyOf (d : Sched) (c : Nat) : Nat :=
  (d.tasks.filter fun t => t.2.cls == c && t.2.ready.isSome && t.2.agent.isNone).length

/-- Firmware captures a scheduler's state: occupancy, then the ready-list depths (R29). -/
def State.captureSched (s : State) (n : Nat) : State :=
  s.captureGroup 2 ((s.sd n).occupancy :: (List.range 6).map (s.sd n).readyOf)

/-- The `SCHED.STATUS` response (R240), from a capture of the group. -/
def Sched.statusBytes (d : Sched) (f : Nat) (held : Nat → Nat) : List Byte :=
  le 2 (held 0) ++ le 2 (max (held 0) (d.peak.look 0 f)) ++ (List.range 6).flatMap (fun c => le 2 (held (c + 1))) ++
    sat 8 d.dispatched ++ sat 4 d.cancelled ++ sat 4 d.squashes ++ sat 4 d.expired ++ sat 4 d.aborted ++
    sat 4 d.holes ++ sat 4 d.stale ++ sat 4 d.bpEvents ++ sat 4 d.broken ++ sat 2 d.fullEvents ++
    sat 2 d.fenced.length ++ le 4 0

def specSchedStatus : EciSpec where
  opcode := 0x0401
  target := .object [tDie]
  fast := false
  run k s := s.gated k.tok.handle <|
    let n := schedOf k.tok.handle
    let f := k.tok.via.fn
    let s := s.captureSched n
    let r : Reply := { response := (s.sd n).statusBytes f (s.heldOf 2) }
    ok (s.modSd n fun d => { d with peak := d.peak.put f d.occupancy }) r

def execSchedStatus (c : Submission) (s : State) : Out := runEci specSchedStatus c s

/-- One entry of the `SCHED.LOCKS` response. -/
def State.lockEntry (s : State) (n l : Nat) : List Byte :=
  let d := s.sd n
  let g := d.locks.look {} l
  let held := g.owner.getD (0, 0)
  let st := if g.owner.isSome then 1 else if g.former.isSome then 2 else 0
  le 1 st ++ le 1 (s.lockUser n l) ++ le 2 (held.1 + 32768 * b2n g.broken) ++ le 2 held.2 ++ le 2 (d.waiters l).length

def specSchedLocks : EciSpec where
  opcode := 0x0402
  target := .object [tDie]
  fast := false
  run k s := s.gated k.tok.handle <|
    let n := schedOf k.tok.handle
    ok s { response := (List.range 256).flatMap (s.lockEntry n) }

def execSchedLocks (c : Submission) (s : State) : Out := runEci specSchedLocks c s

/-- The entries of `SCHED.FLOWS`: every open flow that serves the channel, by scheduler. -/
def State.flowEntries (s : State) (h : Nat) : List Nat :=
  ((List.range 9).flatMap fun k =>
    ((s.sd k).flows.sel fun _ f => f.chan == h).map fun (i, f) =>
      schedCode k + i * 256 + f.kind * 2 ^ 20 + f.role * 2 ^ 24).take 16

def specSchedFlows : EciSpec where
  opcode := 0x0403
  target := .object [tChannel]
  run k s :=
    let es := s.flowEntries k.tok.handle
    ok s { response := le 1 es.length ++ le 3 0 ++ es.flatMap (le 4) }

def execSchedFlows (c : Submission) (s : State) : Out := runEci specSchedFlows c s

/-- `TRACE.CREATE` (R239, R241). -/
def specTraceCreate : EciSpec where
  opcode := 0x0404
  target := .object [tDie]
  form p _ :=
    [(0, decide (12 ≤ u32 p 0 ∧ u32 p 0 ≤ 26)), (7, decide (u8 p 7 ≤ 1)), (8, decide (u8 p 8 ≤ 4)), (9, u8 p 9 == 0)] ++
      (List.range 4).map (fun i => (0x0A + 2 * i, decide (u16 p (0x0A + 2 * i) < 4096))) ++ [(0x12, zeros p 0x12 6)]
  run k s := s.gated k.tok.handle <|
    let p := k.payload
    let n := schedOf k.tok.handle
    let mine := (s.sched.traces.filter (·.2.sched == n)).map (·.2)
    let size := 2 ^ u32 p 0
    checked s [(decide (4 ≤ mine.length) || decide (67108864 < (mine.map (2 ^ ·.log2)).sum + size),
        { status := eTraceLimit })] fun _ =>
      match s.newObject tTrace (handleDie k.tok.handle) 36 k.tok.via.fn with
      | none => refuse s (noIndex tTrace)
      | some (h, s1) =>
        match s1.mapBuffer h (handleDie k.tok.handle) size with
        | none => refuse s (noPages [size])
        | some (a, s2) =>
          let t : Trace := { sched := n, log2 := u32 p 0, base := a, typeMask := u16 p 4, classMask := u8 p 6
                             policy := u8 p 7
                             flows := (List.range (u8 p 8)).map fun i => u16 p (0x0A + 2 * i) }
          let r : Reply := { result := h, response := le 8 a }
          ok (s2.modSched fun x => { x with traces := x.traces.put h t }) r

def execTraceCreate (c : Submission) (s : State) : Out := runEci specTraceCreate c s

def State.modTrace (s : State) (h : Nat) (f : Trace → Trace) : State :=
  s.modSched fun x => { x with traces := x.traces.upd h f }
def State.tr (s : State) (h : Nat) : Trace := s.sched.traces.look {} h

/-- `TRACE.START`: counts cleared, capture from the first record (R241). -/
def specTraceStart : EciSpec where
  opcode := 0x0405
  target := .object [tTrace]
  run k s :=
    let h := k.tok.handle
    checked s [((s.tr h).running, { status := .eState })] fun _ =>
      ok (s.modTrace h fun t =>
        { t with running := true, wrapped := false, write := 0, records := 0, lost := 0, lostSince := 0 })
        { boundary := some (.time s.stamp) }

def execTraceStart (c : Submission) (s : State) : Out := runEci specTraceStart c s

def specTraceStop : EciSpec where
  opcode := 0x0406
  target := .object [tTrace]
  run k s :=
    let h := k.tok.handle
    checked s [(!(s.tr h).running, { status := .eState })] fun _ =>
      ok ((s.traceLoss (s.tr h).sched h).modTrace h fun t => { t with running := false }) { boundary := some (.time s.stamp) }

def execTraceStop (c : Submission) (s : State) : Out := runEci specTraceStop c s

def specTraceStatus : EciSpec where
  opcode := 0x0407
  target := .object [tTrace]
  run k s :=
    let s := s.traceLoss (s.tr k.tok.handle).sched k.tok.handle
    let t := s.tr k.tok.handle
    let s := s.captureGroup 2 [0, 0, 0, 0, 0, 0, 0, t.write]
    ok s { response := le 1 (b2n t.running) ++ le 1 (b2n t.wrapped) ++ le 2 0 ++ le 4 (s.heldOf 2 7) ++ le 8 t.records ++ le 8 t.lost }

def execTraceStatus (c : Submission) (s : State) : Out := runEci specTraceStatus c s

/-- `TRACE.DESTROY` stops a running trace first (R241). -/
def specTraceDestroy : EciSpec where
  opcode := 0x0408
  target := .object [tTrace]
  run k s :=
    let h := k.tok.handle
    let s := s.unmapObject h
    ok ((s.modSched fun x => { x with traces := x.traces.del h }).freeObject h)

def execTraceDestroy (c : Submission) (s : State) : Out := runEci specTraceDestroy c s

end Sys2Proof.Machine
end

