-- ==== Sys2Proof/Machine/MemCmds.lean ====
section
/-!
DEFINITION. Memory commands, BAR2 accesses, scrubbing, operating-point changes, arbiters and dowel links (Memory,
Arbitration and Interconnect).
-/

namespace Sys2Proof.Machine

open Sys2Proof (Byte Submission DieNo DramNo ArbiterId)

def State.dm (s : State) (d : Nat) : DieMem := s.mem.dies.look {} d
def State.modDie (s : State) (d : Nat) (f : DieMem → DieMem) : State :=
  s.modMem fun m => { m with dies := m.dies.modD {} d f }

/-- The DIE handle of a memory key: an encode die, or 0xFF for the hub. -/
def memHandle (d : Nat) : Nat := mkHandle tDie d 0

/-- B_op in bytes per second (R417). -/
def pointRate (p : Nat) : Nat := if p = 0 then 68300000000 else if p = 1 then 51200000000 else 25600000000

/-- H_d in MB/s (R438). -/
def State.hostRate (s : State) (d : Nat) : Nat :=
  if d = 0xFF then 8000
  else
    let need := 50000 * s.dieLoad s.charges d / 1000000 + 2000
    max 1000 (pointRate (s.dm d).point / 1000000 * 9 / 10 - need)

/-- Links of a die, by key; the hub's are the eight hub ends (R443). -/
def linkKeys (d : Nat) : List Nat := if d = 0xFF then (List.range 8).map (2 * ·) else [2 * d, 2 * d + 1]

/-- Neighbour-refresh draws of `n` activates at exponent `k` (R422): the register, and the refreshes counted. -/
def nrDraws (k : Nat) : Nat → Nat × Nat → Nat × Nat
  | 0, x => x
  | n + 1, (r, c) => let v := lfsrNext r; nrDraws k n (v, if v % 2 ^ k = 0 then c + 1 else c)

/-- What the traffic of a memory has done to it since its counts were last looked at (R422, R423): a number of activates,
which is open, have drawn from the register, whose seed is a non-zero draw of the TRNG, and an open number of reads waited. -/
def DieMem.traffic (m : DieMem) (seed activates waits : Nat) : DieMem :=
  let r := if m.nrReg = 0 then 1 + seed % (2 ^ 32 - 1) else m.nrReg
  let x := nrDraws m.nrK activates (r, m.nrCount)
  { m with nrReg := x.1, nrCount := x.2, rawWaits := m.rawWaits + waits }

def State.traffic (s : State) (d : Nat) : State :=
  let (seed, s) := s.fresh
  let (activates, s) := s.fresh
  let (waits, s) := s.fresh
  s.modDie d (·.traffic seed activates waits)

def specMemQuery : EciSpec where
  opcode := 0x0B01
  target := .object [tDie]
  fast := false
  run k s := s.gated k.tok.handle <|
    let d := handleDie k.tok.handle
    let s := s.traffic d
    let m := s.dm d
    let ls := (linkKeys d).map (s.mem.links.look {} ·)
    let spared := if d = 0xFF then b2n (ls.any (·.sparedLane.isSome))
      else b2n (s.mem.links.look {} (2 * d)).sparedLane.isSome + 2 * b2n (s.mem.links.look {} (2 * d + 1)).sparedLane.isSome
    let q := (s.mem.arbiters.look {} d).quarantined.keys.foldl (fun a r => setBit a r) 0
    let s := s.captureGroup 4 [m.corrected, m.uncorrected, m.nrCount, m.cutoffs, q]
    let r := le 1 m.point ++ le 1 m.tset ++ le 1 m.nrK ++ le 1 (m.pending.getD 0xFF) ++ le 2 m.grant ++ le 1 m.spares ++
      le 1 spared ++ sat 8 (s.heldOf 4 0) ++ sat 4 (s.heldOf 4 1) ++ le 4 (s.hostRate d) ++
      sat 8 (s.heldOf 4 2) ++ sat 8 m.rawWaits ++ le 8 (s.heldOf 4 4) ++ sat 4 (s.heldOf 4 3) ++ sat 4 m.scrubs ++
      sat 4 (ls.map (·.totalReplays)).sum ++ sat 4 (ls.map (·.retrains)).sum
    ok s { response := r }

def execMemQuery (c : Submission) (s : State) : Out := runEci specMemQuery c s

/-- `MEM.SET` (R443): 0 keeps a value. -/
def specMemSet : EciSpec where
  opcode := 0x0B02
  target := .object [tDie]
  form p _ :=
    [(0, u8 p 0 == 0 || decide (8 ≤ u8 p 0 ∧ u8 p 0 ≤ 16)), (1, u8 p 1 == 0),
     (2, u16 p 2 == 0 || decide (8 ≤ u16 p 2 ∧ u16 p 2 ≤ 256)), (4, zeros p 4 4)]
  run k s := s.gated k.tok.handle <|
    let p := k.payload
    ok ((s.traffic (handleDie k.tok.handle)).modDie (handleDie k.tok.handle) fun m =>
      { m with nrK := if u8 p 0 = 0 then m.nrK else u8 p 0, grant := if u16 p 2 = 0 then m.grant else u16 p 2 })

def execMemSet (c : Submission) (s : State) : Out := runEci specMemSet c s

/-! ### Operating points (R417 to R421) -/

/-- A live encode channel of a die that codes (R419, R420). -/
def State.liveOn (s : State) (d h : Nat) (c : Channel) : Bool :=
  c.dies.contains d && !s.isDecoder h && !c.reference && c.state != .idle

/-- The refusals of R419, but for a command that names the hub. -/
def State.freqRefused (s : State) (d p : Nat) : Option Nat :=
  let load := s.dieLoad s.charges d
  let tight := s.chan.chans.find? fun (h, c) =>
    s.liveOn d h c && decide ((c.dRows - c.sRows - 1) * c.cfg.rUnits < 24000 * c.cfg.unit)
  if pointLimit p < load then some (1 + (load - pointLimit p) * 2 ^ 32)
  else match tight with
    | some (h, _) => some (2 + h * 2 ^ 32)
    | none => if bit s.boot.diesFenced d then some 3 else none

/-- The pacing channel of a die: the highest picture rate, then the lowest handle index (R420). -/
def State.pacing (s : State) (d : Nat) : Option Nat :=
  (s.chan.chans.filter fun (h, c) => s.liveOn d h c).foldl (fun b (h, c) =>
    match b with
    | none => some h
    | some g =>
      let e := s.ch g
      if e.cfg.rateNum * c.cfg.rateDen < c.cfg.rateNum * e.cfg.rateDen ||
          (e.cfg.rateNum * c.cfg.rateDen == c.cfg.rateNum * e.cfg.rateDen && decide (handleIndex h < handleIndex g))
      then some h else b) none

def specMemFreq : EciSpec where
  opcode := 0x0B03
  target := .object [tDie]
  form p _ := [(0, decide (u8 p 0 ≤ 2)), (1, zeros p 1 7)]
  run k s := s.gated k.tok.handle <|
    let d := handleDie k.tok.handle
    let p := u8 k.payload 0
    if d = 0xFF then refuse s { status := eMemFreq, detail := 4 }
    else match s.freqRefused d p with
      | some why => refuse s { status := eMemFreq, detail := why }
      | none => stage s (match s.pacing d with | some h => .picture h | none => .now) (.memFreq d p)

def execMemFreq (c : Submission) (s : State) : Out := runEci specMemFreq c s

/-- No change of a die's operating point waits for its boundary any more. -/
def State.dropFreq (s : State) (d : Nat) : State :=
  (s.modEci fun e => { e with staged := e.staged.filter fun t => match t.change with | .memFreq g _ => g != d | _ => true }).modDie d
    fun m => { m with pending := none }

/-- A change begins: checked again, abandoned with result 1, or nothing for the point in force (R419, R420). It takes the place
of one that waits (R421). During a change it waits for that one's end (log entry 129). -/
def State.beginFreq (s : State) (d p : Nat) : State :=
  let s := s.dropFreq d
  if (s.dm d).changing.isSome then s.modDie d fun m => { m with pending := some p }
  else if (s.dm d).point = p then s
  else if (s.freqRefused d p).isSome then s.raise evMemFreq (memHandle d) (p + 256)
  else s.modDie d fun m => { m with changing := some (p, s.now) }

/-- The oldest waiting request: the highest age, then the requester granted least recently, then the lower number. -/
def olderRequest (g : Arbiter) (x y : ArbRequest) : Bool :=
  let rank (r : Nat) : Nat := (g.history.findIdx? (· == r)).getD 1000
  decide (y.age < x.age) || (x.age == y.age && (decide (rank y.requester < rank x.requester) ||
    (rank x.requester == rank y.requester && decide (x.requester < y.requester))))

def Arbiter.oldest (g : Arbiter) : List ArbRequest → Option ArbRequest
  | [] => none
  | x :: r => match g.oldest r with
    | some y => if olderRequest g y x then some y else some x
    | none => some x

/-- Lines of a burst, in address order. -/
def ArbRequest.lines (x : ArbRequest) : List Nat := (List.range x.beats).map (x.line + ·)

/-- Lines of a read that match a write which has not drained (R423). -/
def Arbiter.matches (g : Arbiter) (x : ArbRequest) : List Nat := if x.write then [] else x.lines.filter g.writes.contains

/-- The write queue after a grant: a write's lines join it; a read waits until every matching write has drained (R423). -/
def Arbiter.queued (g : Arbiter) (x : ArbRequest) : List Nat :=
  if x.write then g.writes ++ x.lines
  else match (g.writes.reverse.findIdx? fun l => x.lines.contains l) with
    | some i => g.writes.drop (g.writes.length - i)
    | none => g.writes

/-- Grant a request; its first beat goes in the same cycle. -/
def Arbiter.give (g : Arbiter) (x : ArbRequest) : Arbiter :=
  { g with waiting := g.waiting.filter (· != x), owner := some x.requester, left := x.beats - 1, next := none
           writes := g.queued x, history := x.requester :: g.history.filter (· != x.requester) }

/-- With a full write queue no further write is granted. -/
def Arbiter.mayGrant (g : Arbiter) : List ArbRequest := g.waiting.filter fun x => !x.write || decide (g.writes.length < 64)

/-- One decision of the cycle that it is made in. -/
def Arbiter.decision (g : Arbiter) : Arbiter :=
  match g.oldest g.mayGrant with | some x => g.give x | none => g

/-- One cycle (R426, R427, R431): those that wait age, a grant goes on by a beat, and where none is in progress the decision of the
cycle before takes effect; in the cycle in which a grant ends the next decision is made from the requests then waiting. In same-cycle
mode that decision is of the cycle itself. While granting is stalled nothing begins (R420). -/
def Arbiter.cycle (same stalled : Bool) (g : Arbiter) : Arbiter :=
  let g : Arbiter := { g with waiting := g.waiting.map fun w => { w with age := min 4095 (w.age + 1) } }
  if 0 < g.left then
    let g : Arbiter := { g with left := g.left - 1 }
    if g.left = 0 ∧ !same ∧ !stalled then { g with next := g.oldest g.mayGrant } else g
  else if stalled then { g with next := none }
  else if same then g.decision
  else match g.next with
    | some n =>
      let g := match g.waiting.find? fun w => w.requester == n.requester with | some x => g.give x | none => { g with next := none }
      if g.left = 0 then { g with next := g.oldest g.mayGrant } else g
    | none => { g with next := g.oldest g.mayGrant }

def Arbiter.cycles (same stalled : Bool) : Nat → Arbiter → Arbiter
  | 0, g => g
  | n + 1, g => (g.cycle same stalled).cycles same stalled n

/-- The cycle in which a request arrives: it joins those that wait behind that cycle's decision; a grant that is parked on its
requester is given at once, and in same-cycle mode the request takes part in the decision (R427, R428, R431). -/
def Arbiter.arrive (same stalled : Bool) (g : Arbiter) (x : ArbRequest) : Arbiter :=
  let parked := g.left == 0 && g.next.isNone && g.waiting.isEmpty && g.owner == some x.requester && !stalled &&
    (!x.write || decide (g.writes.length < 64))
  if parked then { g with waiting := [x] }.give x
  else if same && g.left == 0 && !stalled then ({ g with waiting := g.waiting ++ [x] } : Arbiter).cycle same stalled
  else
    let g := g.cycle same stalled
    { g with waiting := g.waiting ++ [x] }

/-- The task watchdogs of a die paused for some time (R420). -/
def Sched.pause (g : Sched) (ns : Nat) : Sched :=
  { g with tasks := g.tasks.mapV fun _ t => { t with started := t.started + ns }
           held := g.held.mapV fun _ x => { x with started := x.started + ns } }

/-- A change of a die's operating point waits at its unit for a boundary. -/
def State.freqWaits (s : State) (d : Nat) : Bool :=
  s.eci.staged.any fun t => match t.change with | .memFreq g _ => g == d | _ => false

/-- The stall ends: the other timing set holds the new point and becomes active (R418, R420), watchdogs resume, and a
change that came meanwhile begins. -/
def execFreqChangeDone (d : DieNo) (stallNs : BitVec 16) (s : State) : Out :=
  let i := d.val
  match (s.dm i).changing with
  | none => .next s
  | some (p, since) =>
    let s := s.modDie i fun m => { m with
      point := p, changing := none, tset := 1 - m.tset
      tsetA := if m.tset = 1 then p else m.tsetA, tsetB := if m.tset = 0 then p else m.tsetB }
    let s := s.modSched fun x => { x with scheds := x.scheds.upd i fun g => g.pause (s.now - since) }
    let s := s.modMem fun m => { m with arbiters := m.arbiters.upd i Arbiter.decision }
    let s := s.raise evMemFreq (memHandle i) (p + stallNs.toNat * 65536)
    .next (match (s.dm i).pending with
      | some q => if s.freqWaits i then s else s.beginFreq i q
      | none => s)

/-! ### Copies and BAR2 (R415, R436 to R439) -/

/-- Traffic of host passes the token bucket of a die (R438). -/
def State.takeTokens (s : State) (d n : Nat) : State :=
  let (tokens, last) := s.mem.buckets.look (65536, s.now) d
  let gained : Int := (s.hostRate d * (s.now - last) / 1000 : Nat)
  s.modMem fun m => { m with buckets := m.buckets.put d (min 65536 (tokens + gained) - n, s.now) }

/-- A line of a buffer is poisoned. -/
def State.poisonedAt (s : State) (d off : Nat) : Bool := (s.dm d).poisoned.contains (off / 64)

/-- Bytes of a buffer as a device reads them: poisoned lines read as zeros (R415). -/
def State.readBytes (s : State) (d off n : Nat) : List Byte :=
  (List.range n).map fun i => if s.poisonedAt d (off + i) then 0 else s.mem.data.get (off + i)

/-- Bytes written to a buffer; a write of a whole line clears its poison (R415). -/
def State.writeBytes (s : State) (d off : Nat) (bs : List Byte) : State :=
  (s.bufStore off bs).modDie d fun m => { m with
    poisoned := m.poisoned.filter fun l => !(decide (off ≤ 64 * l) && decide (64 * l + 64 ≤ off + bs.length)) }

/-- `MEM.COPY` (R439): the data that host memory holds come with the submission; those written to it go out with the
completion. -/
def specMemCopy : EciSpec where
  opcode := 0x0B04
  target := .device true
  fast := false
  form p _ :=
    let n := u32 p 4
    [(0, decide (u8 p 0 ≤ 1)), (1, zeros p 1 3), (4, n % 64 == 0 && decide (64 ≤ n ∧ n ≤ 268435456)),
     (8, u64 p 8 % 64 == 0), (0x10, u64 p 0x10 % 64 == 0)]
  run k s :=
    let p := k.payload
    let n := u32 p 4
    let off := u64 p 8
    match s.bufferAt off n with
    | none => refuse s { status := eCopyRange }
    | some (_, b) =>
      let f := k.tok.via.fn
      if f != 0 && s.ownerAt b.object k.tok.seq != f then refuse s { status := .eDenied }
      else
        let s := s.takeTokens b.die n
        if u8 p 0 = 0 then ok (s.writeBytes b.die off (slice k.sub.hostData 0 n))
        else ok s { copied := s.readBytes b.die off n }

def execMemCopy (c : Submission) (s : State) : Out := runEci specMemCopy c s

/-- The buffer that is mapped at a BAR2 offset's page. -/
def State.pageBuffer (s : State) (off : Nat) : Option Buffer :=
  (s.mem.buffers.find? fun e => decide (e.1 ≤ off / 65536 ∧ off / 65536 < e.1 + e.2.pages)).map (·.2)

/-- The parts of an access by page. -/
def pagePieces (off n : Nat) : List (Nat × Nat) :=
  (List.range (cdiv (off % 65536 + n) 65536)).map fun j =>
    let a := max off ((off / 65536 + j) * 65536)
    (a, min (off + n) ((off / 65536 + j + 1) * 65536) - a)

/-- A write within a page. -/
def State.bar2Write (s : State) (off : Nat) (data : List Byte) : State :=
  match s.pageBuffer off with
  | none => s
  | some b => (s.takeTokens b.die data.length).writeBytes b.die off data

/-- A read within a page. -/
def State.bar2Load (s : State) (off n : Nat) : State :=
  match s.pageBuffer off with
  | none => s.modMem fun m => { m with bar2Read := m.bar2Read ++ List.replicate n 0 }
  | some b =>
    let s := s.takeTokens b.die n
    let bad := (List.range n).any fun i => s.poisonedAt b.die (off + i)
    let bytes := (List.range n).map fun i => if s.poisonedAt b.die (off + i) then 0xFF else s.mem.data.get (off + i)
    s.modMem fun m => { m with
      bar2Read := m.bar2Read ++ bytes, poisonedReads := if bad then m.poisonedReads + 1 else m.poisonedReads }

/-- A PF0 access of BAR2: unmapped pages read zeros and discard writes; a poisoned line reads all ones, in a poisoned TLP
that AER reports (R415, R437). -/
def execBar2Access (write : Bool) (offset : BitVec 32) (data : List (BitVec 8)) (s : State) : Out :=
  let off := offset.toNat
  let n := data.length
  let staging := decide (off + n ≤ 0x4000000)
  if !s.eci.linkUp || s.boot.held || s.boot.stage == .safe then .next s
  else if s.boot.stage == .recovery then
    -- the image staging area of recovery mode (R479)
    if write then .next (if staging then s.bufStore off data else s)
    else .next (s.modMem fun m => { m with
      bar2Read := if staging then m.data.load off n else List.replicate n 0 })
  else
    let pieces := pagePieces off n
    let s := if write then s else s.modMem fun m => { m with bar2Read := [] }
    .next (pieces.foldl (fun (s : State) e =>
      if write then s.bar2Write e.1 ((data.drop (e.1 - off)).take e.2) else s.bar2Load e.1 e.2) s)

/-! ### Scrub and corrected errors (R413, R414) -/

def dramKey (d : DramNo) : Nat := if d.val = 8 then 0xFF else d.val

/-- A DRAM exists and runs. -/
def State.dramRuns (s : State) (d : Nat) : Bool :=
  !s.boot.held && (d == 0xFF || (decide (d < s.dies) && !bit s.boot.diesFenced d))

/-- Corrected errors are counted, and reported at most once per second per die. -/
def State.noteCorrected (s : State) (d n : Nat) : State :=
  if n = 0 then s
  else
    let m := s.dm d
    let total := m.correctedSince + n
    let due := match m.lastEcc with | some t => decide (t + 1000000000 ≤ s.now) | none => true
    let s := s.modDie d fun m => { m with
      corrected := m.corrected + n, correctedSince := if due then 0 else total
      lastEcc := if due then some s.now else m.lastEcc }
    if due then s.raise evMemEcc (memHandle d) (total % 2 ^ 32) else s

/-- A scrub of the whole stack ends; the corrected lines were written back. -/
def execScrubPass (die : DramNo) (corrected : BitVec 32) (s : State) : Out :=
  let d := dramKey die
  if !s.dramRuns d then .next s
  else .next ((s.modDie d fun m => { m with scrubs := m.scrubs + 1 }).noteCorrected d corrected.toNat)

/-! ### Arbiters (R425 to R431) -/

def arbiterKey : ArbiterId → Nat
  | .dram d => d.val
  | .hubDram => 0xFF
  | .egress => 0x100

/-- Requesters of an arbiter (R425). -/
def arbiterPorts (a : Nat) : Nat := if a = 0xFF then 31 else if a = 0x100 then 18 else 64

/-- Units that reset themselves within 1 µs of a cut-off (R429). -/
def selfReset (a r : Nat) : Bool :=
  if a = 0x100 then true
  else if a = 0xFF then r == 30
  else r == 40 || r == 41 || r == 42 || r == 62 || r == 63

/-- A request arrives, some cycles after the last, in which a number of writes have drained to DRAM (R423, R426 to R428, R431). The
read side of the packet buffer has no writes. A requester whose request waits, or whose grant is in progress, has no other. -/
def execArbiterRequest (arbiter : ArbiterId) (requester : BitVec 6) (beats : BitVec 9) (line : BitVec 27) (write : Bool)
    (cycles : BitVec 12) (drained : BitVec 7) (s : State) : Out :=
  let a := arbiterKey arbiter
  let r := requester.toNat
  let g := s.mem.arbiters.look {} a
  let same := a == 0x100 && s.net.arbMode == 1
  let stalled := (s.dm a).changing.isSome
  let g : Arbiter := { g with
    quarantined := g.quarantined.filter fun e => !(selfReset a e.1 && decide (e.2 + 1000 ≤ s.now))
    writes := g.writes.drop drained.toNat }
  let g := g.cycles same stalled cycles.toNat
  let taken := g.waiting.any (·.requester == r) || g.next.any (·.requester == r) || (g.owner == some r && decide (0 < g.left))
  let set (g : Arbiter) : State := s.modMem fun m => { m with arbiters := m.arbiters.put a g }
  if s.boot.held || decide (arbiterPorts a ≤ r) then .next s
  else if g.quarantined.has r || taken then .next (set g)
  else
    let x : ArbRequest := { requester := r, age := 0, beats := max 1 beats.toNat, line := line.toNat, write := write && a != 0x100 }
    let s := set (g.arrive same stalled x)
    .next (if a = 0x100 then s else s.modDie a fun m => { m with rawWaits := m.rawWaits + (g.matches x).length })

/-- The largest grant of an arbiter in beats. -/
def State.maxGrant (s : State) (a : Nat) : Nat := if a = 0x100 then 8 else (s.dm a).grant

/-- The owner of a grant asks for a beat beyond the maximum: cut off and quarantined; a dowel link retrains, a transmit
engine's frame ends as a bad one (R429). -/
def execArbiterCutoff (arbiter : ArbiterId) (requester : BitVec 6) (beat : BitVec 16) (s : State) : Out :=
  let a := arbiterKey arbiter
  let r := requester.toNat
  let g := s.mem.arbiters.look {} a
  if g.owner != some r || g.quarantined.has r || beat.toNat < s.maxGrant a then .next s
  else
    let d := if a = 0x100 then 0xFF else a
    let cut : Arbiter := { g with
      owner := none, left := 0, waiting := g.waiting.filter (·.requester != r), quarantined := g.quarantined.put r s.now }
    let s := s.modMem fun m => { m with arbiters := m.arbiters.put a cut }
    let s := s.modDie d fun m => { m with cutoffs := m.cutoffs + 1 }
    let s := s.raise evArbCutoff (memHandle d) (b2n (a == 0x100) + r * 256 + beat.toNat * 65536)
    let link := if a = 0xFF then (if 5 ≤ r ∧ r ≤ 12 then some (2 * (r - 5)) else none)
      else if a = 0x100 then none else if r = 60 then some (2 * a) else if r = 61 then some (2 * a + 1) else none
    .next <| match link with
      | some l => s.modMem fun m => { m with links := m.links.modD {} l fun x => { x with retraining := true } }
      | none =>
        if a = 0x100 then s.modNet fun n => { n with ports := n.ports.upd r fun p =>
          if p.wire.isSome then { p with wire := none, txBad := p.txBad + 1 } else p }
        else s

/-- The port of a scheduler's agent on its die's arbiter (R425). -/
def agentPort (agent : Nat) : Option Nat :=
  let n := agent % 512
  match agent / 512 with
  | 0 => some (n / 16) | 1 => some (16 + n) | 2 => some (32 + n) | 3 => some (36 + n) | 4 => some (44 + n) | _ => none

/-- The reset of an agent frees its quarantined port (R429). -/
def State.freePort (s : State) (k agent : Nat) : State :=
  let key := if k = 8 then 0xFF else k
  match agentPort agent with
  | some p =>
    let p := if k = 8 then p - 30 else p
    s.modMem fun m => { m with arbiters := m.arbiters.upd key fun g => { g with quarantined := g.quarantined.del p } }
  | none => s

/-! ### Dowel links (R440 to R442) -/

def linkDie (l : Nat) : Nat := l / 2

/-- A flit is found bad or missing: the sender replays from it. Eight replays of the same flit in a row retrain the
link. -/
def execDowelFlitError (link : Fin 16) (first : BitVec 16) (s : State) : Out :=
  let l := link.val
  if !s.dramRuns (linkDie l) || (s.mem.links.look {} l).retraining then .next s
  else
    let x := s.mem.links.look {} l
    let same := x.replayFrom == first.toNat && decide (0 < x.replays)
    let n := if same then x.replays + 1 else 1
    let due := match x.lastReplay with | some t => decide (t + 1000000000 ≤ s.now) | none => true
    let recent := (x.recent.filter fun t => decide (s.now < t + 1000000000)) ++ [s.now]
    let y : Link := { x with
      replayFrom := first.toNat, replays := n, totalReplays := x.totalReplays + 1
      recent, lastReplay := if due then some s.now else x.lastReplay
      retraining := decide (8 ≤ n) }
    let s := s.modMem fun m => { m with links := m.links.put l y }
    .next (if due then s.raise evDowelReplay (memHandle (linkDie l)) (l % 2 + recent.length * 2 ^ 32) else s)

/-- Retraining ends: a failed lane's traffic has moved to the spare, and replay resumes. With the spare in use already,
or without success, the direction makes no progress and the retraining counts as failed (R442). -/
def execDowelRetrainDone (link : Fin 16) (failedLane : Option (Fin 17)) (s : State) : Out :=
  let l := link.val
  let x := s.mem.links.look {} l
  if !x.retraining then .next s
  else
    let second := failedLane.isSome && x.sparedLane.isSome && x.sparedLane != failedLane.map (·.val)
    let moved := failedLane.isSome && x.sparedLane.isNone
    let y : Link := if second then { x with failedRetrains := x.failedRetrains + 1, retrains := x.retrains + 1 }
      else { x with retraining := false, replays := 0, failedRetrains := 0, retrains := x.retrains + 1
                    sparedLane := if moved then failedLane.map (·.val) else x.sparedLane }
    let s := s.modMem fun m => { m with
      links := m.links.put l y
      arbiters := (m.arbiters.upd (linkDie l) fun g => { g with quarantined := g.quarantined.del (60 + l % 2) }).upd 0xFF
        fun g => if l % 2 = 0 then { g with quarantined := g.quarantined.del (5 + linkDie l) } else g }
    .next (s.raise evDowelRetrain (memHandle (linkDie l))
      (l % 2 + 256 * b2n moved + (match failedLane with | some f => f.val | none => 0) * 65536))

end Sys2Proof.Machine
end

