-- ==== Sys2Proof/Machine/Audio.lean ====
section
/-!
DEFINITION. The commands of audio ports, frame clocks, programs and embedding (Audio Ports, Sample Clocks and Alignment).
-/

namespace Sys2Proof.Machine

open Sys2Proof (Byte Submission)

/-! ### Curves -/

/-- N of a program: its fade time in output samples, rounded (R305). -/
def Program.fadeN (g : Program) : Nat := max 1 ((g.fadeUs * rateHz g.rate + 500000) / 1000000)

/-- The first index of a curve of length `n` that replaces the opposite curve of length `m` whose next index is `i`: the
index whose gain is the present gain. -/
def crossIndex (i m n : Nat) : Nat := n - (i * n + m / 2) / m - 1

/-- A fade-out starts: a fade in progress goes on, a ramp is replaced at its present gain (R305). -/
def Gain.fadeOut (n : Nat) : Gain → Gain
  | .full => .fading 0 n
  | .silent => .silent
  | .fading i m => .fading i m
  | .ramping i m => if i = 0 then .silent else .fading (crossIndex i m n) n

/-- Channels of an AES3 pass-through program are never faded (R313). -/
def Program.nonPcm (g : Program) : Bool := bit g.flags 2

/-- A channel fades out and waits for R309. -/
def Program.dropChan (g : Program) (c : AudioChan) : AudioChan :=
  { c with
    gain := if g.nonPcm then .silent else c.gain.fadeOut g.fadeN, under := true, fresh := false, good := 0
    missing := if c.under then c.missing else 0 }

/-- Every channel fades out and waits for R309. -/
def Program.dropAll (g : Program) : Program := { g with chans := g.chans.map g.dropChan }

/-- The channels fed by the slots of a mask fade out. -/
def Program.dropSlots (g : Program) (mask : Nat) : Program :=
  { g with chans := g.chans.mapIdx fun i c => if bit mask (g.map.getD i 0xFF).toNat then g.dropChan c else c }

/-! ### Ports and clocks -/

/-- Every channel of a program fed by captured slots of a port loses them. -/
def State.silenceSlots (s : State) (i : Nat) : State :=
  let h := mkHandle tAudioPort 0xFF i
  let mask := (s.audio.ports.look {} i).inMask
  s.modAudio fun a => { a with programs := a.programs.mapV fun _ g => if g.source = h then g.dropSlots mask else g }


/-- Family of a rate code: 0 for 48 kHz, 1 for 44.1 kHz (R293). -/
def rateFamily (code : Nat) : Nat := if code = 1 ∨ code = 3 then 1 else 0

/-- The frame count that a port finds its clock at when it is enabled: whole sample periods since `FRAME_CLOCK.SET` took
effect (R293; log entry 143). -/
def State.frameCount (s : State) (clock rate : Nat) : Nat :=
  let c := s.audio.clocks.look {} clock
  (s.now - c.since) * rateHz rate / 1000000000

def specAudioPortSet : EciSpec where
  opcode := 0x0701
  target := .object [tAudioPort]
  form p _ :=
    let on := u8 p 0 != 0
    [(0, decide (u8 p 0 ≤ 2)), (1, !on || decide (u8 p 1 ≤ 1)), (2, !on || decide (u8 p 2 ≤ 1)), (3, !on || decide (u8 p 3 ≤ 5)),
     (4, !on || (if u8 p 0 = 1 then u8 p 4 == 2 else decide (2 ≤ u8 p 4 ∧ u8 p 4 ≤ 32))),
     (5, !on || [16, 24, 32].contains (u8 p 5)), (6, !on || [16, 20, 24, 32].contains (u8 p 6) && decide (u8 p 6 ≤ u8 p 5)),
     (7, decide (u8 p 7 < 32))]
  run k s :=
    let p := k.payload
    let i := handleIndex k.tok.handle
    let q := s.audio.ports.look {} i
    let on := u8 p 0 != 0
    checked s [(on && q.mode != 0, { status := .eState }),
        (on && decide (49152000 < u8 p 4 * u8 p 5 * rateHz (u8 p 3)), { status := eAudioBclk }),
        (on && u8 p 1 == 0 && (s.audio.clocks.look {} (u8 p 2)).family != rateFamily (u8 p 3), { status := eAudioClock })]
      fun _ =>
        let q' : AudioPort :=
          if on then { q with mode := u8 p 0, role := u8 p 1, clock := u8 p 2, rate := u8 p 3, slots := u8 p 4, slotBits := u8 p 5
                              sampleBits := u8 p 6, timing := u8 p 7, ending := false, clockLost := false, lastFsync := none
                              frames := s.frameCount (u8 p 2) (u8 p 3), inMask := 0, outMask := 0, map := List.replicate 32 0, outGains := [] }
          else { q with mode := 0, ending := q.ending || q.mode != 0 }
        let s := if on && q.ending then s.silenceSlots i else s
        ok (s.modAudio fun a => { a with ports := a.ports.put i q' })

def execAudioPortSet (c : Submission) (s : State) : Out := runEci specAudioPortSet c s

/-- The map words of an `AUDIO_PORT.SLOTS` payload. -/
def mapWords (p : List Byte) : List Nat := (List.range 32).map fun k => u32 p (8 + 4 * k)

/-- The AUDIO_PROGRAM handle of an index. -/
def programHandle (i : Nat) : Nat := mkHandle tAudioProgram 0xFF i

/-- A map word names a channel of a PCM program that runs on the port's clock (R296). -/
def State.mapEntryOk (s : State) (port w : Nat) : Bool :=
  let h := programHandle (w % 65536)
  match s.audio.programs.find h with
  | none => false
  | some g => g.kind == 0 && s.programClock h == s.portClock port && decide (bits w 16 4 < g.channels)

def specAudioPortSlots : EciSpec where
  opcode := 0x0702
  target := .object [tAudioPort]
  fast := false
  form p _ := (mapWords p).zipIdx.map fun e => (8 + 4 * e.2, bits e.1 20 12 == 0 && (bit (u32 p 4) e.2 || e.1 == 0))
  run k s :=
    let p := k.payload
    let i := handleIndex k.tok.handle
    let q := s.audio.ports.look {} i
    let used := (mapWords p).zipIdx.filter fun e => bit (u32 p 4) e.2
    let use := used.findSome? fun e => match s.useObject k (programHandle (e.1 % 65536)) [tAudioProgram] with
      | some r => if r.status == .eDenied then some r else none
      | none => none
    checked s [(q.mode == 0, { status := .eState }),
        (decide (2 ^ q.slots ≤ u32 p 0) || decide (2 ^ q.slots ≤ u32 p 4), { status := eAudioRoute }),
        (used.any fun e => !s.mapEntryOk i e.1, { status := eAudioRoute }), (use.isSome, use.getD {})] fun _ =>
      stage s (.tdm i) (.audioSlots i (slice p 0 0x88))

def execAudioPortSlots (c : Submission) (s : State) : Out := runEci specAudioPortSlots c s

/-- `AUDIO_PORT.QUERY`: settings, masks, map, clock state, framing errors; the layout is the model's (log entry 22). -/
def specAudioPortQuery : EciSpec where
  opcode := 0x0703
  target := .object [tAudioPort]
  fast := false
  run k s :=
    let q := s.audio.ports.look {} (handleIndex k.tok.handle)
    ok s { response := ([q.mode, q.role, q.clock, q.rate, q.slots, q.slotBits, q.sampleBits, q.timing].flatMap (le 1)) ++
             le 4 q.inMask ++ le 4 q.outMask ++ q.map.flatMap (le 4) ++ le 4 (b2n q.clockLost) ++ le 4 q.framingErrors }

def execAudioPortQuery (c : Submission) (s : State) : Out := runEci specAudioPortQuery c s

def specFrameClockSet : EciSpec where
  opcode := 0x0704
  target := .device false
  form p _ := [(0, decide (u8 p 0 ≤ 1)), (1, decide (u8 p 1 ≤ 2)), (2, decide (u8 p 2 ≤ 1)), (3, decide (u8 p 3 ≤ 2))]
  run k s :=
    let p := k.payload
    let base := if u8 p 2 = 0 then 12288000 else 11289600
    checked s [(s.audio.ports.any fun e => e.2.mode != 0 && e.2.role == 0 && e.2.clock == u8 p 0, { status := .eState }),
        (u8 p 1 != 0 && !([base, 2 * base, 4 * base].contains (u32 p 4)), { status := eAudioClock })] fun _ =>
      let c : FrameClock := { source := u8 p 1, family := u8 p 2, out := u8 p 3, hz := u32 p 4, since := s.now }
      ok (s.modAudio fun a => { a with clocks := a.clocks.put (u8 p 0) c })

def execFrameClockSet (c : Submission) (s : State) : Out := runEci specFrameClockSet c s

/-! ### Programs -/

/-- Channels that a program source carries (R299). -/
def State.sourceChannels (s : State) (h : Nat) : Nat :=
  if handleType h = tAudioPort then
    (let q := s.audio.ports.look {} (handleIndex h)
     if q.mode = 0 then 32 else q.slots)
  else if handleType h = tLane then
    (match (s.lane.lanes.look {} (handleIndex h)).format with
     | some f => if f.rate % 128 ≤ 2 then 16 else 32
     | none => 32)
  else
    let p := (s.net.ingress.look {} h).payload
    if u8 p 0 = 1 then 16 else u8 p 0x60

/-- The nominal rate of a program source in Hz: configured, or measured, or 48 kHz. -/
def State.sourceHz (s : State) (h : Nat) : Nat :=
  if handleType h = tAudioPort then rateHz (s.audio.ports.look {} (handleIndex h)).rate
  else
    let p := (s.net.ingress.look {} h).payload
    if handleType h = tIngress ∧ u8 p 0 ≠ 1 then rateHz (u8 p 0x61)
    else rateHz (((s.audio.rates.look {} h).cls).getD 2)

/-- A handle can be a program source: a port, an SDI input, or an ingress stream of kind 1, 2 or 3. -/
def State.programSource (s : State) (h : Nat) : Bool :=
  let kind := u8 (s.net.ingress.look {} h).payload 0
  handleType h == tAudioPort || (handleType h == tLane && decide (64 ≤ handleIndex h ∧ handleIndex h < 80)) ||
    (handleType h == tIngress && decide (1 ≤ kind ∧ kind ≤ 3))

/-- W_min in output samples (R302). The block of a port is one of its samples; that of any other source 1 ms (log entry
22). -/
def State.wMin (s : State) (p : List Byte) : Nat :=
  let fs := rateHz (u8 p 5)
  let src := u32 p 0
  let us := 250 + (if bit (u8 p 7) 0 then 1000 else 0) + (if u8 p 6 = 1 then 5000 else 0)
  let samples := if u8 p 6 = 1 then 2048 else 0
  if handleType src = tAudioPort then
    (let fin := s.sourceHz src
     cdiv (fs * (us * fin + 1000000)) (1000000 * fin) + samples)
  else cdiv (fs * (us + 1000)) 1000000 + samples

/-- Map entries in use. -/
def mapUsed (channels : Nat) (m : List Byte) : List Nat := ((m.take channels).map (·.toNat)).filter (· != 0xFF)

/-- ASRC throughput in use, in samples per second (R304). -/
def State.asrcLoad (s : State) : Nat :=
  ((s.audio.programs.filter fun e => e.2.asrc.isSome).map fun e =>
    e.2.channels * max (s.sourceHz e.2.source) (rateHz e.2.rate)).sum

/-- Samples per second on each DSP (R314). -/
def State.dspLoad (s : State) (d : Nat) : Nat :=
  ((s.audio.programs.filter fun e => e.2.dsp == some d).map fun e => e.2.channels * rateHz e.2.rate).sum

def dspLimit : Nat := 1536000

/-- The rules of a program payload, in the chapter's order, and the admission checks 10 and 11. -/
def State.programRules (s : State) (k : Cmd) : List (Bool × Reply) :=
  let p := k.payload
  let src := u32 p 0
  let n := u8 p 4
  let fs := rateHz (u8 p 5)
  let flags := u8 p 7
  let aac := u8 p 6 == 1
  let used := mapUsed n (slice p 0x10 16)
  let use := s.useObject k src [tAudioPort, tLane, tIngress]
  let overlap := s.audio.programs.any fun e =>
    e.2.kind == 1 && e.2.source == src && (mapUsed e.2.channels e.2.map).any used.contains
  let own := s.sourceClock src == src
  let port := handleType src == tAudioPort
  let clockBad := !(bit flags 0) && !(bit flags 1) && own && !port
  let rateBad := !(bit flags 0) && (port || !own) && s.sourceHz src != fs
  let wmin := s.wMin p
  let asrcUse := s.asrcLoad + n * max (s.sourceHz src) fs
  let dspShort := ((List.range 4).map fun d => s.dspLoad d + n * fs - dspLimit).min?.getD 0
  let kbps := u16 p 0x0E
  [(use.isSome, use.getD {}),
   (!s.programSource src || used.any (fun i => decide (s.sourceChannels src ≤ i)) || overlap, { status := eAudioRoute }),
   (clockBad || rateBad, { status := eAudioClock }),
   (decide (u32 p 8 < wmin) || decide (fs / 2 < u32 p 8), { status := eAudioPlayout, detail := wmin }),
   (bit flags 2 && (bit flags 0 || aac), { status := eAudioClock }),
   (bit flags 2 && !(handleType src == tLane || u8 (s.net.ingress.look {} src).payload 0 == 3), { status := eAudioRoute }),
   (aac && !([1, 2, 6, 8].contains n && decide (u8 p 5 ≤ 2) && decide (24 * n ≤ kbps ∧ kbps ≤ 160 * n)), { status := eAac }),
   bound 10 0xFF (if bit flags 0 then asrcUse else 0) 24576000 1000,
   (aac && decide (0 < dspShort), noCapacity 11 0xFF (cdiv dspShort 1000))]

/-- The ASRC of a new program, where it needs one. -/
def State.takeAsrc (s : State) (need : Bool) (owner : Nat) : Option (Option Nat × State) :=
  if need then (s.newObject tAsrc 0xFF 64 owner).map fun e => (some e.1, e.2) else some (none, s)

/-- A source whose positions are frame counts: a master port on a frame clock fed from `AMCLK_IN` (R300). -/
def State.portAudio (s : State) (h : Nat) : Bool :=
  let q := s.audio.ports.look {} (handleIndex h)
  handleType h == tAudioPort && q.role == 0 && (s.audio.clocks.look {} q.clock).source != 0

/-- A program as its payload creates it. -/
def State.makeProgram (s : State) (p : List Byte) (asrc : Option Nat) : Program :=
  let fs := rateHz (u8 p 5)
  let lag := u32 p 8 - (if u8 p 6 = 1 then 2048 + cdiv (5 * fs) 1000 else 0)
  let next :=
    if s.portAudio (u32 p 0) then (s.audio.ports.look {} (handleIndex (u32 p 0))).frames - lag + 1
    else (s.ptpNow.toNat * fs) / 1000000000 - lag + 1
  { source := u32 p 0, channels := u8 p 4, rate := u8 p 5, kind := u8 p 6, flags := u8 p 7, playout := u32 p 8
    fadeUs := if u16 p 0x0C = 0 then 1000 else u16 p 0x0C
    kbps := u16 p 0x0E, map := slice p 0x10 16, asrc
    dsp := if u8 p 6 = 1 then (List.range 4).find? fun d => decide (s.dspLoad d + u8 p 4 * fs ≤ dspLimit) else none
    chans := List.replicate (u8 p 4) { fresh := true }
    next, aus := cdiv next 1024 }

def specAudioProgramCreate : EciSpec where
  opcode := 0x0705
  target := .device true
  fast := false
  form p _ :=
    [(4, decide (1 ≤ u8 p 4 ∧ u8 p 4 ≤ 16)), (5, decide (u8 p 5 ≤ 5)), (6, decide (u8 p 6 ≤ 1)), (7, decide (u8 p 7 < 8)),
     (0x0C, u16 p 0x0C == 0 || decide (250 ≤ u16 p 0x0C ∧ u16 p 0x0C ≤ 20000)), (0x0E, u8 p 6 == 1 || u16 p 0x0E == 0)]
  run k s :=
    checked s (s.programRules k) fun _ =>
      match s.newObject tAudioProgram 0xFF 256 k.tok.via.fn with
      | none => refuse s (noIndex tAudioProgram)
      | some (h, t) =>
        match t.takeAsrc (bit (u8 k.payload 7) 0) k.tok.via.fn with
        | none => refuse s (noIndex tAsrc)
        | some (a, u) =>
          let g := u.makeProgram k.payload a
          let u := u.modAudio fun x =>
            { x with programs := x.programs.put h g
                     asrcs := match a with | some i => x.asrcs.put i { program := h } | none => x.asrcs
                     dsps := match g.dsp with | some d => x.dsps.modD {} d fun y => { y with lastAu := u.now } | none => x.dsps }
          ok u { result := h, response := le 4 (a.getD 0) ++ le 1 (g.dsp.getD 0xFF) ++ le 3 0 ++ le 4 (s.wMin k.payload) }

def execAudioProgramCreate (c : Submission) (s : State) : Out := runEci specAudioProgramCreate c s

def specAudioProgramSet : EciSpec where
  opcode := 0x0706
  target := .object [tAudioProgram]
  form p _ := [(2, u16 p 2 == 0 || decide (250 ≤ u16 p 2 ∧ u16 p 2 ≤ 20000)), (4, zeros p 4 4)]
  run k s := stage s (.position k.tok.handle) (.audioProgram k.tok.handle (slice k.payload 0 8))

def execAudioProgramSet (c : Submission) (s : State) : Out := runEci specAudioProgramSet c s

def specAudioProgramDestroy : EciSpec where
  opcode := 0x0707
  target := .object [tAudioProgram]
  run k s :=
    let h := k.tok.handle
    checked s [(s.programUsed h, { status := .eState })] fun _ =>
      let g := s.audio.programs.look {} h
      let s := s.modAudio fun a => { a with programs := a.programs.del h
                                            asrcs := match g.asrc with | some i => a.asrcs.del i | none => a.asrcs }
      let s := s.freeObject h
      ok (match g.asrc with | some i => s.freeObject i | none => s)

def execAudioProgramDestroy (c : Submission) (s : State) : Out := runEci specAudioProgramDestroy c s

/-- The gain of a channel in units of 2^-23: the curves of R305 are opaque cosine values that end at gain 0 and gain 1. -/
def Gain.value : Gain → Nat
  | .full => 2 ^ 23
  | .silent => 0
  | .fading i n => if n ≤ i + 1 then 0 else Config.fadeGain i n
  | .ramping i n => if n ≤ i + 1 then 2 ^ 23 else 2 ^ 23 - Config.fadeGain i n

/-- A sample at a gain. -/
def Gain.times (g : Gain) (v : Int) : Int :=
  if g.value = 2 ^ 23 then v else if g.value = 0 then 0 else Config.gainProduct v g.value

/-- `AUDIO_PROGRAM.QUERY`: 16 gains, then late, overrun and silent counts; the layout is the model's (log entry 22). -/
def specAudioProgramQuery : EciSpec where
  opcode := 0x0708
  target := .object [tAudioProgram]
  fast := false
  run k s :=
    let g := s.audio.programs.look {} k.tok.handle
    ok s { response := slice (g.chans.flatMap fun c => le 4 c.gain.value) 0 64 ++ le 8 g.late ++ le 8 g.overrun ++ le 8 g.silent }

def execAudioProgramQuery (c : Submission) (s : State) : Out := runEci specAudioProgramQuery c s

/-- `ASRC.QUERY`: ratio, lock state, lock count; the layout is the model's (log entry 22). -/
def specAsrcQuery : EciSpec where
  opcode := 0x0709
  target := .object [tAsrc]
  run k s :=
    let a := s.audio.asrcs.look {} k.tok.handle
    let s := s.captureGroup 3 [a.ratio, b2n a.locked, (s.audio.rates.look {} k.tok.handle).samples]
    ok s { response := le 8 (s.heldOf 3 0) ++ le 4 (s.heldOf 3 1) ++ le 4 a.locks }

def execAsrcQuery (c : Submission) (s : State) : Out := runEci specAsrcQuery c s

def specAudioRateQuery : EciSpec where
  opcode := 0x070A
  target := .object [tAudioPort, tLane, tIngress]
  run k s :=
    let r := s.audio.rates.look {} k.tok.handle
    let s := s.captureGroup 3 [0, 0, r.samples]
    ok s { response := le 1 (r.cls.getD 0xFF) ++ le 3 0 ++ le 4 (twos 32 r.offset) ++ le 8 (s.heldOf 3 2) }

def execAudioRateQuery (c : Submission) (s : State) : Out := runEci specAudioRateQuery c s

/-- Audio groups that an SDI output can carry at its rate (R312). -/
def State.embedGroups (s : State) (lane : Nat) : Nat :=
  let o := s.lane.outs.look {} lane
  if handleType o.source = tLane then
    match (s.lane.lanes.look {} (handleIndex o.source)).format with
    | some f => if f.rate % 128 ≤ 2 then 4 else 8
    | none => 8
  else
    let c := (s.ch o.source).cfg
    if s.isDecoder o.source ∧ c.width * c.height * c.rateNum ≤ 2073600 * 60 * c.rateDen then 4 else 8

def specAudioEmbedSet : EciSpec where
  opcode := 0x070B
  target := .object [tLane]
  fast := false
  form p _ := (1, zeros p 1 7) :: (List.range 8).map fun g => (0x0D + 8 * g, zeros p (0x0D + 8 * g) 3)
  run k s :=
    let p := k.payload
    let h := k.tok.handle
    let used := (List.range 8).filter fun g => bit (u8 p 0) g
    let use := used.findSome? fun g => s.useObject k (u32 p (8 + 8 * g)) [tAudioProgram]
    let bad := used.any fun g =>
      let q := s.audio.programs.look {} (u32 p (8 + 8 * g))
      decide (s.embedGroups h ≤ g) || q.kind != 0 || q.rate != 2 || decide (q.channels < u8 p (0x0C + 8 * g) + 4)
    checked s [(!(decide (96 ≤ handleIndex h)), { status := eLaneKind }), (use.isSome, use.getD {}),
        (bad, { status := eAudioRoute }),
        (used.any fun g => s.programClock (u32 p (8 + 8 * g)) != 0, { status := eAudioClock })] fun _ =>
      stage s (.sdiOut h) (.embed h (slice p 0 0x48))

def execAudioEmbedSet (c : Submission) (s : State) : Out := runEci specAudioEmbedSet c s

end Sys2Proof.Machine
end

