-- ==== Sys2Proof/Machine/AudioOps.lean ====
section
/-!
DEFINITION. The curves of audio channels and the positions of programs (Audio Ports, Sample Clocks and Alignment, R300 to
R309).
-/

namespace Sys2Proof.Machine

/-- A ramp-in starts (R305). -/
def Gain.rampIn (n : Nat) : Gain → Gain
  | .full => .full
  | .silent => .ramping 0 n
  | .fading i m => if i = 0 then .full else .ramping (crossIndex i m n) n
  | .ramping i m => .ramping i m

/-- One position has been delivered: a fade ends at gain 0 and a ramp at gain 1. -/
def Gain.next : Gain → Gain
  | .full => .full
  | .silent => .silent
  | .fading i n => if n ≤ i + 1 then .silent else .fading (i + 1) n
  | .ramping i n => if n ≤ i + 1 then .full else .ramping (i + 1) n

/-- Change one program. -/
def State.modProg (s : State) (h : Nat) (f : Program → Program) : State :=
  s.modAudio fun a => { a with programs := a.programs.upd h f }

/-- Output samples after τ_k at which position k's PCM is taken: W, less what an AAC-LC encoder needs to have its access unit
ready by τ + W (R302, R315). -/
def Program.lag (g : Program) : Nat := g.playout - (if g.kind = 1 then 2048 + cdiv (5 * rateHz g.rate) 1000 else 0)

/-- τ_k + W has come, by PTP time or by the port's frame count (R300). -/
def State.positionDue (s : State) (g : Program) (k : Nat) : Bool :=
  if s.portAudio g.source then decide (k + g.lag ≤ (s.audio.ports.look {} (handleIndex g.source)).frames)
  else decide (((k + g.lag) * 1000000000 : Nat) ≤ s.ptpNow * rateHz g.rate)

/-- τ_k + W in device time, rounded down. -/
def State.positionTime (s : State) (g : Program) (k : Nat) : Nat :=
  (s.tEp + ((k + g.playout) * 1000000000 / rateHz g.rate : Nat)).toNat

/-- A step of the epoch re-phases the grids of stream audio and frame clocks fed from device time: channels fade out and
return under R309 (R375). -/
def State.rephaseAudio (s : State) : State :=
  let phase (g : Program) : Program :=
    if s.portAudio g.source then g
    else
      let next := (s.ptpNow * rateHz g.rate / 1000000000 - g.lag + 1).toNat
      { g.dropAll with next, aus := cdiv next 1024, buffer := [] }
  s.modAudio fun a => { a with programs := a.programs.mapV fun _ g => phase g }

end Sys2Proof.Machine
end

