-- ==== Sys2Proof/Machine/Time.lean ====
section
/-!
DEFINITION. Device time, the epoch, the servo, PTP, PPS and the alignment domain (Device Time, PTP and the Alignment
Domain).
-/

namespace Sys2Proof.Machine

open Sys2Proof (Byte Submission PtpMessage PtpSend PtpPortState)

/-- The TIME and DOMAIN handles (R384). -/
def timeHandle : Nat := 0x40FF0000
def domainHandle : Nat := 0x41FF0000
def portHandle (i : Nat) : Nat := mkHandle tPort 0xFF i

/-! ### The counter and the epoch (R360 to R367) -/

/-- A 48-bit seconds and nanoseconds value of a number of nanoseconds. -/
def TimeState.setEpoch (t : TimeState) (ns : Int) : TimeState :=
  { t with epSec := (ns / 1000000000 % (2 ^ 48 : Nat)).toNat, epNs := (ns % 1000000000).toNat }

/-- `n` `TCLK` cycles that carry `TIME_NS` at most once: counter and fraction advance, a carry adds 2^32 ns to the epoch
and increments `WRAP`, and a new addend applies from the second cycle on. -/
def TimeState.advance (t : TimeState) (n : Nat) : TimeState :=
  let per (a : Int) : Nat := (2 * 2 ^ 32 + a).toNat
  let adj' := t.adjNext.getD t.adj
  let total := t.ns * 2 ^ 32 + t.frac + (if n = 0 then 0 else per t.adj + (n - 1) * per adj')
  let t := if n = 0 then t else { t with adj := adj', adjNext := none }
  let t := { t with ns := total / 2 ^ 32 % 2 ^ 32, frac := total % 2 ^ 32 }
  if total < 2 ^ 64 then t
  else { t.setEpoch (t.epochNs + 2 ^ 32) with wraps := t.wraps + 1 }

/-- Cycles up to and with the one in which `TIME_NS` wraps. -/
def TimeState.toWrap (t : TimeState) : Nat :=
  let per (a : Int) : Nat := (2 * 2 ^ 32 + a).toNat
  let left := 2 ^ 64 - (t.ns * 2 ^ 32 + t.frac)
  let first := per t.adj
  if left ≤ first then 1 else 1 + cdiv (left - first) (per (t.adjNext.getD t.adj))

/-- One `TCLK` cycle of the hub; in reset the counter stands. -/
def State.tick (s : State) : State := if s.boot.held then s else s.modTime fun t => t.advance 1

/-- Time passes to the next wrap of `TIME_NS` (log entry 35). -/
def execTimeWrap (s : State) : Out :=
  if s.boot.held then .next s else .next (s.modTime fun t => t.advance t.toWrap)

/-- An event of the TIME object. -/
def State.timeEvent (s : State) (k : EventKind) (detail : Nat) : State := s.raise k timeHandle detail

/-- A gate list that waits starts at the same PTP time under the new epoch, or, where that has passed, at the next start of
its cycle (R351, R375). -/
def GateList.restart (l : GateList) (now : Nat) (d : Int) : GateList :=
  let t := l.start - d
  let cycle := max 1 (u32 l.payload 8)
  let n := if (now : Int) ≤ t then 0 else cdiv (now - t).toNat cycle
  { l with start := (t + (n * cycle : Nat)).toNat }

/-- The gate lists of every port follow the new mapping (R375). -/
def NetPort.stepGates (p : NetPort) (now : Nat) (d : Int) : NetPort :=
  { p with gates := p.gates.map fun l => { l with stepped := l.stepped + d }, gatesNext := p.gatesNext.map (·.restart now d) }

/-- The whole PTP second, less `PPS_OFFSET_NS`, that began last. -/
def TimeState.ppsSecondAt (t : TimeState) : Int := (t.epochNs + t.ns - t.pps.offsetNs) / 1000000000

/-- The epoch steps by a signed whole number of nanoseconds (R363, R373, R375). -/
def State.stepEpoch (s : State) (d : Int) : State :=
  let s := s.modTime fun t => { t.setEpoch (t.epochNs + d) with steps := t.steps + 1, lastStep := d }
  let s := s.modNet fun n => { n with ports := n.ports.mapV fun _ p => p.stepGates s.now d }
  -- the next edge of `PPS_OUT` is that of the next whole second of the new time
  let s := s.modTime fun t => { t with ppsSecond := some (t.ppsSecondAt) }
  (s.timeEvent evTimeStep (twos 64 d)).rephaseAudio

/-- The tuple of a maintenance pass is journaled (R365). -/
def State.journalTuple (s : State) : State :=
  s.modTime fun t => { t with fwWrap8 := t.wraps % 256, fwSteps := t.steps % 16, fwEpoch := t.epochNs.toNat
                              fwSeconds := s.kaSeconds, lastMaintenance := s.now }

/-- A maintenance pass (R365). -/
def execMaintenancePass (s : State) : Out :=
  if s.firmwareRuns then
    .next (s.modTime fun t => { t with fwWraps := t.fwWraps + (t.wraps % 256 + 256 - t.fwWrap8) % 256 }).journalTuple
  else .next s

/-- Firmware resumes after a gap: w from the last journaled tuple (R366). -/
def State.resolveWraps (s : State) : State :=
  let t := s.time
  let d8 : Int := ((t.wraps % 256 + 256 - t.fwWrap8) % 256 : Nat)
  let gap : Int := t.epochNs - t.fwEpoch
  let one := (t.steps % 16 + 16 - t.fwSteps) % 16
  let est : Int := (s.kaSeconds - t.fwSeconds : Nat) * 1000000000
  let byKa := !(one == 0 || one == 1)
  let dw : Int :=
    if one = 0 then gap / (2 ^ 32 : Nat)
    else if one = 1 then (gap - t.lastStep) / (2 ^ 32 : Nat)
    else d8 + 256 * roundHalfUp (est - d8 * (2 ^ 32 : Nat)) (256 * 2 ^ 32)
  let uncertain := byKa && decide (15 * 3600 < s.kaSeconds - t.fwSeconds)
  let s := s.modTime fun t => { t with fwWraps := (t.fwWraps + dw).toNat }
  let s := s.journalTuple
  if 255 < dw then s.timeEvent evEpochResolved (twos 32 dw + b2n byKa * 2 ^ 32 + b2n uncertain * 2 ^ 33) else s

/-! ### The servo (R372 to R376) -/

/-- The servo enters a state. -/
def State.setServo (s : State) (v : Servo) : State :=
  if s.time.servo = v then s
  else
    let old := s.time.servo
    let s := s.modTime fun t => { t with
      servo := v, goodRun := 0, badRun := 0, fresh := t.fresh || v == .free
      adjHistory := if v = .locked then [(t.now, t.adjNext.getD t.adj)] else t.adjHistory }
    s.timeEvent evTimeState (old.code + v.code * 256)

/-- The largest addend, and the addend of a frequency in ppb. -/
def adjMax : Int := 4294967
def addendOf (ppb : Nat) : Nat := ppb * 2 ^ 33 / 1000000000

/-- The frequency correction in ppb of an addend. -/
def ppbOf (adj : Int) : Int := adj * 1000000000 / (2 ^ 33 : Nat)

/-- The servo takes its frequency from `REF10M_IN` now (R378). -/
def TimeState.freqFrom10m (t : TimeState) : Bool := t.servoCfg.freq10m && t.ref10mPresent

/-- The loop updates `ADJ`: the gains are not given, so the addend is an open value within the bounds of R360 and R373. -/
def State.updateAdj (s : State) (offset : Int) : State :=
  let t := s.time
  let now := t.adjNext.getD t.adj
  let slew : Int := addendOf t.servoCfg.slewPpb
  let v := clampI (-adjMax) adjMax (clampI (now - slew) (now + slew) (Config.servoAddend s.free t.freqFrom10m now offset t.servoCfg.tcS))
  (s.modTime fun t => { t with
    adjNext := some v
    adjHistory := if t.servo = .locked then (t.now, v) :: t.adjHistory else t.adjHistory }).useFree

/-- An offset measurement (R372, R373). -/
def State.measure (s : State) (offset : Int) : State :=
  let s := s.modTime fun t => { t with offsetNs := offset, lastMeasure := t.now }
  let big := decide (1000 < offset.natAbs)
  let s := if s.time.servo = .free ∨ s.time.servo = .holdover then
      let stepped := s.time.servo == .free && s.time.fresh && big
      let s := (s.setServo .acquiring).modTime fun t => { t with fresh := false }
      if stepped then s.stepEpoch (-offset) else s
    else s
  let t := s.time
  let s := if t.servo = .acquiring then
      let run := if offset.natAbs ≤ t.servoCfg.lockNs then t.goodRun + 1 else 0
      let s := s.modTime fun t => { t with goodRun := run }
      if 16 ≤ run then s.setServo .locked else s
    else if t.servo = .locked then
      let run := if big then t.badRun + 1 else 0
      let s := s.modTime fun t => { t with badRun := run }
      if 4 ≤ run then s.setServo .acquiring else s
    else s
  s.updateAdj offset

/-- The mean of the addends over the last 64 s in `LOCKED`, or over the time in `LOCKED` (R374): the history, newest
first, weighted by how long each addend was in force up to `upto`. -/
def weighAddends (from_ : Nat) : Nat → List (Nat × Int) → Int
  | _, [] => 0
  | upto, (t, a) :: r => if t ≤ from_ then (upto - from_ : Nat) * a else (upto - t : Nat) * a + weighAddends from_ t r
def TimeState.meanAdj (t : TimeState) : Int :=
  let start := match t.adjHistory.getLast? with | some e => e.1 | none => t.now
  let from_ := max start (t.now - 64000000000)
  if t.now ≤ from_ then t.adj else weighAddends from_ t.now t.adjHistory / (t.now - from_ : Nat)

/-- How long a `LOCKED` servo may go without a usable measurement. -/
def TimeState.holdLimit (t : TimeState) : Nat :=
  if t.servoCfg.source = 2 then 2000000000
  else if 0 ≤ t.ptp.logAnnounce then 3000000000 * 2 ^ t.ptp.logAnnounce.toNat
  else 3000000000 / 2 ^ (-t.ptp.logAnnounce).toNat

def execServoHoldoverTimeout (s : State) : Out :=
  let t := s.time
  if t.servo == .locked && decide (t.lastMeasure + t.holdLimit ≤ t.now) then
    .next ((s.modTime fun t => { t with adjNext := some t.meanAdj }).setServo .holdover)
  else .next s

/-! ### PTP messages and port states (R368 to R371) -/

def State.ptpPort (s : State) (p : Nat) : PtpPort := s.time.ports.look {} p
def State.modPtp (s : State) (p : Nat) (f : PtpPort → PtpPort) : State :=
  s.modTime fun t => { t with ports := t.ports.modD {} p f }

/-- PTP time of an arrival or a departure at the reference plane of a port: board delays in picoseconds (R370). -/
def State.rxStamp (s : State) (p : Nat) : Int := s.ptpNow - (s.ptpPort p).rxDelayPs / 1000
def State.txStamp (s : State) (p : Nat) : Int := s.ptpNow + (s.ptpPort p).txDelayPs / 1000

/-- A Sync with its origin time gives an offset where the port is in slave state and the servo follows PTP. -/
def State.syncOffset (s : State) (p : Nat) (received origin : Int) : State :=
  let s := s.modPtp p fun q => { q with syncReceived := received, syncOrigin := origin, syncPending := none }
  if (s.ptpPort p).state = .slave ∧ s.time.servoCfg.source = 1 then
    s.measure (received - origin - s.time.pathDelayNs - (s.ptpPort p).asymPs / 1000)
  else s

/-- The grandmaster that the device follows; a new one is reported (R369). -/
def State.follow (s : State) (gm : Nat) : State :=
  if gm = s.time.gmId then s else (s.modTime fun t => { t with gmId := gm }).timeEvent evPtpGm gm

/-- A message of another PTP domain is none of the device's instance (R368). -/
def execPtpMessageReceive (port : Fin 16) (domain : BitVec 8) (m : PtpMessage) (s : State) : Out :=
  let p := port.val
  let q := s.ptpPort p
  let rx := s.rxStamp p
  let up := (s.lane.lanes.look {} p).up
  let follows := q.state == .slave || q.state == .uncalibrated
  if !bit s.time.ptp.portMask p || s.boot.held || !up || domain.toNat != s.time.ptp.domainNum then .next s
  else match m with
    | .sync (some o) corr => .next (s.syncOffset p rx (o + corr))
    | .sync none corr => .next (s.modPtp p fun q => { q with syncPending := some (rx - corr) })
    | .followUp o corr =>
      match q.syncPending with
      | some r => .next (s.syncOffset p r (o + corr))
      | none => .next s
    | .delayResp received corr =>
      if !follows || s.time.ptp.peerToPeer then .next s else
      let back : Int := received - corr - q.reqSent
      .next (s.modTime fun t => { t with pathDelayNs := (q.syncReceived - q.syncOrigin + back) / 2 })
    | .pdelayResp received sent corr =>
      if !follows || !s.time.ptp.peerToPeer then .next s else
      let turn : Int := (rx - q.reqSent) - ((sent : Int) - received) - corr
      .next (s.modTime fun t => { t with pathDelayNs := turn / 2 })
    | .delayReq => .next (if q.state = .master then s.modPtp p fun q => { q with due := q.due ++ [(.delayResp, rx)] } else s)
    | .pdelayReq => .next (if s.time.ptp.peerToPeer then s.modPtp p fun q => { q with due := q.due ++ [(.pdelayResp, rx)] } else s)
    | .announce a =>
      let s := s.modPtp p fun q => { q with best := some a, announceAt := s.now }
      .next (if q.state == .slave then s.follow a.gmId.toNat else s)
    | .management true => .next (s.modPtp p fun q => { q with managementRefused := q.managementRefused + 1 })
    | .management false => .next (s.modPtp p fun q => { q with managementAnswered := q.managementAnswered + 1 })

/-- The clockClass that the device announces (R369). -/
def TimeState.clockClass (t : TimeState) : Nat :=
  if !t.ptp.masterCapable then 255
  else if t.servoCfg.source = 2 ∧ t.servo = .locked then 6
  else if t.servoCfg.source = 2 ∧ t.servo = .holdover then 7 else 248

/-- The announce receipt time-out in nanoseconds (R369). -/
def PtpCfg.receiptNs (c : PtpCfg) : Nat :=
  if 0 ≤ c.logAnnounce then c.annTimeout * 1000000000 * 2 ^ c.logAnnounce.toNat
  else c.annTimeout * 1000000000 / 2 ^ (-c.logAnnounce).toNat

/-- No Announce for the time-out: the port's foreign master is forgotten, and the best-master algorithm runs on what the
other ports hold (log entry 36). -/
def execAnnounceReceiptTimeout (port : Fin 16) (s : State) : Out :=
  let q := s.ptpPort port.val
  if q.best.isSome && decide (q.announceAt + s.time.ptp.receiptNs ≤ s.now) then
    .next (s.modPtp port.val fun q => { q with best := none })
  else .next s

/-- The best-master algorithm gives a port a new state; a port outside `PORT_MASK` is disabled, and a slave-only instance
has no master port (R368, R369). -/
def execPtpPortStateChange (port : Fin 16) (target : PtpPortState) (s : State) : Out :=
  let p := port.val
  let code : Nat := match target with
    | .initializing => 1 | .faulty => 2 | .disabled => 3 | .listening => 4 | .preMaster => 5 | .master => 6
    | .passive => 7 | .uncalibrated => 8 | .slave => 9
  let masterish := target == .master || target == .preMaster
  if !s.firmwareRuns || (s.ptpPort p).state == target || (!bit s.time.ptp.portMask p && target != .disabled) ||
      (masterish && !s.time.ptp.masterCapable) then .next s
  else
    let s := s.modPtp p fun q => { q with state := target }
    let s := s.modTime fun t => { t with
      slavePort := if target = .slave then some p else if t.slavePort = some p then none else t.slavePort }
    let s := s.raise evPtpPort (portHandle p) (p + code * 256)
    let gm := match (s.ptpPort p).best with | some a => a.gmId.toNat | none => s.time.gmId
    .next (if target = .slave then s.follow gm else s)

/-! ### PPS and 10 MHz (R377, R378) -/

/-- `PPS_GATE` lets `PPS_OUT` run. -/
def TimeState.ppsOpen (t : TimeState) : Bool :=
  t.pps.gate == 0 || t.servo == .locked || (t.pps.gate == 1 && t.servo == .holdover)

/-- The level of `PPS_OUT`. -/
def TimeState.ppsOut (t : TimeState) : Bool :=
  t.ppsOpen && (match t.lastPpsOut with | some r => decide (t.now < r + t.pps.widthUs * 1000) | none => false)

/-- The level of `REF10M_OUT`: it rises at multiples of 100 ns plus `PPS_OFFSET_NS` of PTP time (R377). -/
def TimeState.ref10mOut (t : TimeState) : Bool := t.pps.ref10mOut && decide ((t.epochNs + t.ns - t.pps.offsetNs) % 100 < 50)

def parsePps (p : List Byte) : PpsCfg :=
  { widthUs := u32 p 0, offsetNs := s32 p 4, gate := u8 p 8, ref10mOut := u8 p 9 == 1, inInv := u8 p 0xA == 1 }

/-- `PPS.SET` payloads whose second has begun take effect, in submission order (R377). -/
def State.applyPps (s : State) : State :=
  let due (t : Staged) : Bool := match t.change, t.boundary with | .pps _, .time b => decide (b ≤ s.now) | _, _ => false
  let s' := s.modEci fun e => { e with staged := e.staged.filter fun t => !due t }
  (s.eci.staged.filter due).foldl (fun s t => match t.change with
    | .pps p => s.modTime fun x => { x with pps := parsePps p }
    | _ => s) s'

/-- `PPS_OUT` rises when a whole PTP second plus `PPS_OFFSET_NS` has come and the gate is open; settings that wait for the
second apply first. -/
def execPpsOutEdge (s : State) : Out :=
  if s.boot.held || s.boot.stage == .safe then .next s
  else
    let s := s.applyPps
    let second := s.time.ppsSecondAt
    if s.time.ppsSecond == some second then .next s
    else .next (s.modTime fun t => { t with
      lastPpsOut := if t.ppsOpen then some t.now else t.lastPpsOut, ppsSecond := some second })

/-- A `PPS_IN` edge of the selected polarity. -/
def execPpsInEdge (rising : Bool) (s : State) : Out :=
  let s := if s.boot.held then s else s.applyPps
  let t := s.time
  if s.boot.held || rising == t.pps.inInv then .next s
  else
    let gap := match t.lastPpsIn with | some l => t.now - l | none => 1000000000
    let late := decide (1500000000 < gap)
    let near := decide (999900000 ≤ gap ∧ gap ≤ 1000100000)
    let back := t.ppsLost && t.ppsReturn == 1 && near
    let tod := match t.todNext with
      | some v => some v
      | none => t.tod.map fun v => v + (gap + 500000000) / 1000000000
    let s' := s.modTime fun t => { t with
      lastPpsIn := some t.now, tod, todNext := none
      ppsLost := (t.ppsLost || late) && !back
      ppsReturn := if back || !t.ppsLost then 0 else 1 }
    let s' := if late && !t.ppsLost then s'.timeEvent evPpsIn 1 else if back then s'.timeEvent evPpsIn 2 else s'
    let ptp := s.ptpNow
    let nearest := (ptp + 500000000) / 1000000000 * 1000000000
    let reference := match t.todNext with | some v => (v : Int) * 1000000000 | none => nearest
    if t.servoCfg.source = 2 ∧ tod.isSome then .next (s'.measure (ptp - reference)) else .next s'

/-- No edge for 1.5 s. -/
def execPpsInLost (s : State) : Out :=
  match s.time.lastPpsIn with
  | some l =>
    if decide (l + 1500000000 ≤ s.now) && !s.time.ppsLost then
      .next ((s.modTime fun t => { t with ppsLost := true, ppsReturn := 0 }).timeEvent evPpsIn 1)
    else .next s
  | none => .next s

/-- `REF10M_IN` absent for 1 ms: the servo takes frequency from its source (R378). -/
def execRef10mInLost (s : State) : Out :=
  if s.time.ref10mPresent then
    let s := s.modTime fun t => { t with ref10mPresent := false }
    .next (if s.time.servoCfg.freq10m then s.timeEvent evPpsIn 3 else s)
  else .next s

/-- `REF10M_IN` returns. -/
def execRef10mInReturn (s : State) : Out := .next (s.modTime fun t => { t with ref10mPresent := true })

/-! ### Commands (R384) -/

def specTimeQuery : EciSpec where
  opcode := 0x0901
  target := .object [tTime]
  fast := false
  run _ s :=
    let t := s.time
    let ptp := s.ptpNow
    let s := s.captureTime
    let r := le 1 t.servo.code ++ le 1 t.servoCfg.source ++ le 1 (t.slavePort.getD 0xFF) ++ le 1 (min 255 t.steps) ++
      le 4 (twos 32 t.offsetNs) ++ le 4 (twos 32 t.pathDelayNs) ++ le 4 (twos 32 (ppbOf t.adj)) ++ le 8 t.gmId ++
      le 8 (twos 64 t.lastStep) ++ le 8 s.stamp ++ le 8 (twos 64 (ptp / 1000000000)) ++
      le 4 (ptp % 1000000000).toNat ++ le 4 0
    ok s { response := r }

def execTimeQuery (c : Submission) (s : State) : Out := runEci specTimeQuery c s

def specServoSet : EciSpec where
  opcode := 0x0902
  target := .object [tTime]
  form p _ :=
    [(0, decide (u8 p 0 ≤ 2)), (1, decide (u8 p 1 ≤ 1)), (2, decide (1 ≤ u8 p 2 ∧ u8 p 2 ≤ 64)), (3, zeros p 3 1),
     (4, decide (1000 ≤ u32 p 4 ∧ u32 p 4 ≤ 100000)), (8, decide (20 ≤ u16 p 8 ∧ u16 p 8 ≤ 1000)), (0xA, zeros p 0xA 6)]
  run k s :=
    let p := k.payload
    let changed := u8 p 0 != s.time.servoCfg.source
    let s := s.modTime fun t => { t with servoCfg :=
      { source := u8 p 0, freq10m := u8 p 1 == 1, tcS := u8 p 2, slewPpb := u32 p 4, lockNs := u16 p 8 } }
    ok (if u8 p 0 = 0 then s.setServo .free
        else if changed && s.time.servo != .free then s.setServo .acquiring else s)

def execServoSet (c : Submission) (s : State) : Out := runEci specServoSet c s

/-- Some aligned channel is not `IDLE` (R376, R380). -/
def State.alignedBusy (s : State) : Bool := s.chan.chans.any fun e => e.2.aligned && e.2.state != .idle

def specServoReset : EciSpec where
  opcode := 0x0903
  target := .object [tTime]
  run _ s :=
    checked s [(s.alignedBusy, { status := .eState })] fun _ =>
      ok ((s.setServo .free).modTime fun t => { t with fresh := true })

def execServoReset (c : Submission) (s : State) : Out := runEci specServoReset c s

/-- A signed interval field of `PTP.SET`: within its range, or `0x7F`. -/
def logOk (p : List Byte) (off : Nat) (lo hi : Int) : Bool := u8 p off == 0x7F || decide (lo ≤ s8 p off ∧ s8 p off ≤ hi)

/-- The instance of a `PTP.SET` payload, with the profile's defaults (R369). -/
def parsePtp (p : List Byte) : PtpCfg :=
  let aes := u8 p 0 == 1
  let pick (off : Nat) (st ae : Int) : Int := if u8 p off = 0x7F then (if aes then ae else st) else s8 p off
  { profile := u8 p 0, domainNum := if u8 p 1 = 0xFF then (if aes then 0 else 127) else u8 p 1, portMask := u16 p 2
    masterCapable := u8 p 4 == 1, peerToPeer := u8 p 5 == 1, twoStep := u8 p 6 == 1, unicastDelayReq := u8 p 7 == 1
    logSync := pick 8 (-3) (-3), logAnnounce := pick 9 (-2) 1, logDelayReq := pick 0xA (-3) 0
    annTimeout := if u8 p 0xB = 0 then 3 else u8 p 0xB, priority1 := u8 p 0xC, priority2 := u8 p 0xD
    smTlv := slice p 0x10 64 }

def specPtpSet : EciSpec where
  opcode := 0x0904
  target := .object [tTime]
  fast := false
  form p _ :=
    [(0, decide (u8 p 0 ≤ 1)), (1, decide (u8 p 1 ≤ 127) || u8 p 1 == 0xFF), (4, decide (u8 p 4 ≤ 1)),
     (5, decide (u8 p 5 ≤ 1)), (6, decide (u8 p 6 ≤ 1)), (7, decide (u8 p 7 ≤ 1)), (8, logOk p 8 (-7) 1),
     (9, logOk p 9 (-3) 1), (0xA, logOk p 0xA (-7) 5), (0xB, u8 p 0xB == 0 || decide (2 ≤ u8 p 0xB ∧ u8 p 0xB ≤ 10)),
     (0xE, zeros p 0xE 2)]
  run k s :=
    let c := parsePtp k.payload
    -- transmit low-power idle ends at once on a port that now runs PTP (R392)
    let s := (List.range 16).foldl (fun s i =>
      if bit c.portMask i then s.modLane fun l => { l with lanes := l.lanes.upd i fun x => { x with lpiTx := false } } else s) s
    ok (s.modTime fun t => { t with ptp := c })

def execPtpSet (c : Submission) (s : State) : Out := runEci specPtpSet c s

/-- A signed delay within ±1,000,000 ps. -/
def delayOk (p : List Byte) (off : Nat) : Bool := decide (-1000000 ≤ s32 p off ∧ s32 p off ≤ 1000000)

def specPtpPortSet : EciSpec where
  opcode := 0x0905
  target := .object [tPort]
  form p _ := [(0, delayOk p 0), (4, delayOk p 4), (8, delayOk p 8), (0xC, zeros p 0xC 4)]
  run k s :=
    let p := k.payload
    ok (s.modPtp (handleIndex k.tok.handle) fun q =>
      { q with txDelayPs := s32 p 0, rxDelayPs := s32 p 4, asymPs := s32 p 8 })

def execPtpPortSet (c : Submission) (s : State) : Out := runEci specPtpPortSet c s

/-- The device time at which the next whole PTP second begins. -/
def State.nextSecond (s : State) : Nat := s.now + (1000000000 - (s.ptpNow % 1000000000).toNat)

def specPpsSet : EciSpec where
  opcode := 0x0906
  target := .object [tTime]
  form p _ :=
    [(0, decide (1 ≤ u32 p 0 ∧ u32 p 0 ≤ 500000)), (4, decide (-500000000 ≤ s32 p 4 ∧ s32 p 4 ≤ 500000000)),
     (8, decide (u8 p 8 ≤ 2)), (9, decide (u8 p 9 ≤ 1)), (0xA, decide (u8 p 0xA ≤ 1)), (0xB, zeros p 0xB 5)]
  run k s := stage s (.timeAt 0) (.pps (slice k.payload 0 16))

def execPpsSet (c : Submission) (s : State) : Out := runEci specPpsSet c s

def specTimeSetTod : EciSpec where
  opcode := 0x0907
  target := .object [tTime]
  form p _ := [(6, zeros p 6 2)]
  run k s := ok (s.modTime fun t => { t with todNext := some (fieldAt k.payload 0 6) })

def execTimeSetTod (c : Submission) (s : State) : Out := runEci specTimeSetTod c s

def specDomainSet : EciSpec where
  opcode := 0x0908
  target := .object [tDomain]
  form p _ := [(0, decide (u8 p 0 ≤ 1)), (2, decide (u16 p 2 ≤ 16383)), (4, zeros p 4 4)]
  run k s :=
    let p := k.payload
    checked s [(s.alignedBusy, { status := .eState })] fun _ =>
      ok (s.modTime fun t => { t with memberOf := u8 p 0 == 1, domainId := u8 p 1, memberId := u16 p 2 })

def execDomainSet (c : Submission) (s : State) : Out := runEci specDomainSet c s

def specChannelAlign : EciSpec where
  opcode := 0x0909
  target := .object [tChannel]
  form p _ := [(0, decide (u8 p 0 ≤ 1)), (1, zeros p 1 3)]
  run k s :=
    let p := k.payload
    let h := k.tok.handle
    let c := s.ch h
    let on := u8 p 0 == 1
    checked s [(c.cfg.pNs ≤ u32 p 4, { status := .eBadParam, detail := 4 }),
        (s.isDecoder h || c.state != .idle, { status := .eState }),
        (on && (c.reference || !s.time.memberOf), { status := eAlign })] fun _ =>
      ok (s.modCh h fun c => { c with aligned := on, inAlignment := on, alignOffset := u32 p 4 })

def execChannelAlign (c : Submission) (s : State) : Out := runEci specChannelAlign c s

def specAlignQuery : EciSpec where
  opcode := 0x090A
  target := .object [tChannel]
  run k s :=
    let c := s.ch k.tok.handle
    ok s { response := le 8 c.alignIndex ++ le 8 c.alignPic ++ le 1 (b2n c.inAlignment) }

def execAlignQuery (c : Submission) (s : State) : Out := runEci specAlignQuery c s

end Sys2Proof.Machine
end

