-- ==== Sys2Proof/Machine/DeviceCmds.lean ====
section
/-!
DEFINITION. The device commands: identity and status, the event mask, I/O queues, object lists and ownership, quotas,
restart and echo (The Etdun Command Interface, R65 to R70).
-/

namespace Sys2Proof.Machine

open Sys2Proof (Byte Submission)

/-- Encode dies usable by a function: present, not fenced or held in reset, and inside a VF's quota mask (R65). -/
def State.usableDies (s : State) (f : Nat) : Nat :=
  ((List.range s.dies).filter fun d => !bit s.boot.diesFenced d && (f == 0 || bit (s.fn f).quota.dieMask d)).foldl setBit 0

/-- A VF's limit beside the device's. -/
def State.quotaCap (s : State) (f limit : Nat) (q : Quota → Nat) : Nat := if f = 0 then limit else min limit (q (s.fn f).quota)

/-- `CONFIG_DIGEST`: SHA3-256 of the creating and setting payloads of every live object in increasing handle order, each
preceded by its handle (R457). -/
def State.configDigest (s : State) : List Byte :=
  sha3 (s.eci.config.flatMap fun e => e.2.flatMap fun p => le 4 e.1 ++ p.2)

def specDeviceIdentify : EciSpec where
  opcode := 0x0001
  target := .device true
  fast := false
  run k s :=
    let f := k.tok.via.fn
    let r :=
      le 4 (s.devId f) ++ le 4 s.devRev ++ le 8 s.boot.fuses.serial ++ le 4 s.boot.eciVersion ++ le 4 s.boot.fwVersion ++
      le 4 s.boot.recipeVersion ++ le 2 (s.quotaCap f s.boot.fuses.variant.channels (·.maxChannels)) ++
      le 2 (s.quotaCap f 4096 (·.maxEgress)) ++ le 2 (s.quotaCap f 1024 (·.maxIngress)) ++ le 1 (s.usableDies f) ++
      le 1 s.eci.numVfs ++ le 4 2000 ++ s.configDigest
    ok s { response := r }

def execDeviceIdentify (c : Submission) (s : State) : Out := runEci specDeviceIdentify c s

/-- The hottest junction of the dies present and the hub, in units of 0.1 °C. -/
def State.hottest (s : State) : Int :=
  let js := s.boot.junctions
  ((js.take s.dies) ++ js.drop 8).foldl max (js.getD 8 0)

/-- `FAULTS` of `DEVICE.STATUS`. -/
def State.faultBits (s : State) : Nat :=
  let fenced := s.boot.health.any fun e =>
    !e.2.enginesFenced.isEmpty || !e.2.msusFenced.isEmpty || !e.2.banksFenced.isEmpty || !e.2.filtersFenced.isEmpty ||
      !e.2.ramsFenced.isEmpty
  let failed := s.chan.chans.any fun e => !e.2.kept.isEmpty || e.2.cond == .hubFill
  b2n fenced + 2 * b2n failed + 4 * b2n (s.boot.mpActive == 1) + 8 * b2n s.boot.thermAlert

def specDeviceStatus : EciSpec where
  opcode := 0x0002
  target := .device true
  run _ s :=
    let load := ((List.range s.dies).map fun d => s.dieLoad s.charges d).foldl max 0
    let running := (s.chan.chans.filter fun e => e.2.state == .running).length
    let r :=
      le 4 s.boot.statusWord ++ le 1 s.boot.stage.code ++ le 1 (load / 10000) ++ le 2 running ++
      le 2 (twos 16 s.hottest) ++ le 2 s.faultBits ++ le 4 0 ++ le 8 s.stamp
    ok s { response := r }

def execDeviceStatus (c : Submission) (s : State) : Out := runEci specDeviceStatus c s

/-- `DEVICE.EVENT_MASK` (R66; bounds: log entry 187). -/
def specDeviceEventMask : EciSpec where
  opcode := 0x0003
  target := .device true
  form p _ := [(0, decide (u16 p 0 < 0x8000)), (3, zeros p 3 1)]
  run k s :=
    let p := k.payload
    ok (s.modFn k.tok.via.fn fun g => { g with eventRanges := u16 p 0, eventMinSeverity := u8 p 2 })

def execDeviceEventMask (c : Submission) (s : State) : Out := runEci specDeviceEventMask c s

/-- `QUEUE.CREATE` (R67): the device-written index words become 0. Of a function without `RDY` it completes with
`E_STATE` (log entry 188). -/
def specQueueCreate : EciSpec where
  opcode := 0x0004
  target := .noObject
  fast := false
  adminOnly := true
  form p _ := [(3, zeros p 3 1)]
  run k s :=
    let p := k.payload
    let f := k.tok.via.fn
    let q := u8 p 0
    let sized (n : Nat) : Bool := decide (4 ≤ n ∧ n ≤ 12)
    checked s [(!(s.fn f).rdy, { status := .eState }),
        (decide (q = 0 ∨ 16 < q) || (s.fn f).queues.has q, { status := .eQid }),
        (!sized (u8 p 1) || !sized (u8 p 2) || u64 p 4 % 4096 != 0 || u64 p 0xC % 4096 != 0, { status := .eRingParam })]
      fun _ =>
        let u : Queue := { sqBase := u64 p 4, cqBase := u64 p 0xC, sqLog2 := u8 p 1, cqLog2 := u8 p 2 }
        let s := s.modFn f fun g => { g with queues := g.queues.put q u }
        ok ((s.mbxStore (indexBlock f q + 4) (le 4 0)).mbxStore (indexBlock f q + 8) (le 4 0))

def execQueueCreate (c : Submission) (s : State) : Out := runEci specQueueCreate c s

/-- `QUEUE.DELETE` (R67): no more fetching; it completes after every fetched command of the queue. -/
def specQueueDelete : EciSpec where
  opcode := 0x0005
  target := .noObject
  fast := false
  adminOnly := true
  form p _ := [(1, zeros p 1 3)]
  run k s :=
    let f := k.tok.via.fn
    let q := u8 k.payload 0
    match (s.fn f).queues.find q with
    | none => refuse s { status := .eQid }
    | some u =>
      if q = 0 ∨ u.deleting then refuse s { status := .eQid }
      else .wait (.queueDelete q) {}
        (s.modFn f fun g => { g with queues := g.queues.put q { u with deleting := true } })

def execQueueDelete (c : Submission) (s : State) : Out := runEci specQueueDelete c s

/-- The handles of the hardware objects (R55). -/
def State.hardware (s : State) : List Nat :=
  let hub (t : Nat) (is : List Nat) : List Nat := is.map (mkHandle t 0xFF)
  let checks (d : Nat) : List Nat := (List.range 32).map (mkHandle tCheck d)
  hub tDevice [0] ++ ((List.range s.dies).map dieHandle) ++ hub tDie [0] ++ hub tPort (List.range 18) ++
    hub tGateList (List.range 18) ++ hub tShaper ((List.range 144).filter fun i => i % 8 != 7) ++
    hub tAudioPort (List.range 8) ++ hub tTime [0] ++ hub tDomain [0] ++ ((List.range s.dies).flatMap checks) ++ checks 0xFF ++
    hub tLane ((List.range 104).filter fun i => s.isHardware (mkHandle tLane 0xFF i))

/-- The objects that a function owns, in increasing handle order. -/
def State.ownedHandles (s : State) (f : Nat) : List Nat :=
  ((s.eci.owners.map (·.1)) ++ s.hardware).foldl
    (fun (t : Tab Unit) h => if s.hasObject h && s.ownerOf h == f then t.put h () else t) [] |>.map (·.1)

/-- `OBJECT.LIST`: as many handles as fit in the response after `COUNT`, at most 7 on the fast path. -/
def specObjectList : EciSpec where
  opcode := 0x0006
  target := .device true
  form p _ := [(1, zeros p 1 3)]
  run k s :=
    let p := k.payload
    let all := (s.ownedHandles k.tok.via.fn).filter fun h =>
      decide (u32 p 4 < h) && (u8 p 0 == 0 || handleType h == u8 p 0)
    let room := match k.tok.via with
      | .fast .. => 7
      | _ => (k.sub.responseLen.toNat - 4) / 4
    let hs := all.take room
    ok s { result := b2n (decide (hs.length < all.length)), response := le 4 hs.length ++ hs.flatMap (le 4) }

def execObjectList (c : Submission) (s : State) : Out := runEci specObjectList c s

/-- An object changes owner: both functions receive `EV_OWNER_CHANGED` (R57). -/
def State.reassign (s : State) (h g : Nat) : State :=
  let from_ := s.ownerOf h
  let s := s.transfer h g
  let e : Event := { code := evOwnerChanged.1, severity := evOwnerChanged.2, handle := h, time := s.stamp
                     detail := from_ + g * 256 }
  let s := s.raiseTo g e
  if from_ = g then s else s.raiseTo from_ e

/-- The objects that move with an object: a channel's layers and its slate. -/
def State.dependents (s : State) (h : Nat) : List Nat :=
  if handleType h = tChannel then
    (s.comp.layers.filter fun e => e.2.chan == h).map (·.1) ++
      (if (s.ch h).cfg.slate = 0 then [] else [(s.ch h).cfg.slate])
  else []

def specObjectReassign : EciSpec where
  opcode := 0x0007
  target := .noObject
  pf0Only := true
  adminOnly := true
  form p s :=
    [(0, u32 p 0 != deviceHandle), (4, decide (u8 p 4 ≤ 32) && s.fnEnabled (u8 p 4)), (5, zeros p 5 3)]
  run k s :=
    let p := k.payload
    let h := u32 p 0
    checked s [(!s.hasObject h, { status := .eBadHandle })] fun _ =>
      ok ((h :: s.dependents h).foldl (fun s o => s.reassign o (u8 p 4)) s)

def execObjectReassign (c : Submission) (s : State) : Out := runEci specObjectReassign c s

def specDeviceVfQuota : EciSpec where
  opcode := 0x0008
  target := .device false
  pf0Only := true
  adminOnly := true
  form p s :=
    [(0, decide (1 ≤ u8 p 0 ∧ u8 p 0 ≤ 32)), (2, decide (u16 p 2 ≤ s.boot.fuses.variant.channels)),
     (4, decide (u16 p 4 ≤ 4096)), (6, decide (u16 p 6 ≤ 1024))]
  run k s :=
    let p := k.payload
    let q : Quota := { dieMask := u8 p 1, maxChannels := u16 p 2, maxEgress := u16 p 4, maxIngress := u16 p 6 }
    ok (s.modFn (u8 p 0) fun g => { g with quota := q })

def execDeviceVfQuota (c : Submission) (s : State) : Out := runEci specDeviceVfQuota c s

/-- `DEVICE.RESTART` (R70): the restart follows 10 ms after the completion; of two, the first stands (log entry
189). -/
def specDeviceRestart : EciSpec where
  opcode := 0x000A
  target := .device false
  pf0Only := true
  fast := false
  adminOnly := true
  form p _ := [(0, decide (u8 p 0 ≤ 1)), (1, zeros p 1 3)]
  run k s :=
    ok (s.modBoot fun b =>
      { b with restartAt := some (b.restartAt.getD (s.now + 10000000, u8 k.payload 0 == 1)) })

def execDeviceRestart (c : Submission) (s : State) : Out := runEci specDeviceRestart c s

def specDeviceNop : EciSpec where
  opcode := 0x000B
  target := .device true
  run k s := ok s { response := slice k.sub.inlineBytes 0 24 }

def execDeviceNop (c : Submission) (s : State) : Out := runEci specDeviceNop c s

end Sys2Proof.Machine
end

