-- ==== Sys2Proof/Machine/Trust.lean ====
section
/-!
DEFINITION. What the security processor derives, approves and signs: keys, image approval, authorisation blocks,
certificates and quotes (Security and Life Cycle, R444 to R457). The functions of FIPS 202, 203 and 204 are opaque.
-/

namespace Sys2Proof.Machine

open Sys2Proof (Byte)

/-- An ASCII label without terminator. -/
def label (t : String) : List Byte := t.toList.map fun c => BitVec.ofNat 8 c.toNat

def zeros32 : List Byte := List.replicate 32 0

/-! ### Fuses (R444) -/

/-- A redundant group of `n` bits at `lo` is set. -/
def redundant (v lo n : Nat) : Bool := bits v lo n != 0

/-- A key slot 0 to 5 is revoked. -/
def Fuses.revoked (u : Fuses) (slot : Nat) : Bool :=
  if slot < 4 then redundant u.vendorRevoke (4 * slot) 4 else redundant u.ownerRevoke (4 * (slot - 4)) 4

/-- The hash of a key slot. -/
def Fuses.hash (u : Fuses) (slot : Nat) : List Byte :=
  if slot < 4 then u.vendorHash.look zeros32 slot else u.ownerHash.look zeros32 slot

/-- A slot holds a hash that is not all zeros. -/
def Fuses.programmed (u : Fuses) (slot : Nat) : Bool := u.hash slot != zeros32

/-- Revoked slots: vendor in bits 3:0, owner in bits 5:4. -/
def Fuses.revokedMask (u : Fuses) : Nat := ((List.range 6).filter u.revoked).foldl setBit 0

/-- The `OWNER_HASH` fuse field. -/
def Fuses.ownerField (u : Fuses) : List Byte := slice (u.hash 4) 0 32 ++ slice (u.hash 5) 0 32

/-! ### Keys (R445) -/

/-- ξ. -/
def State.xi (s : State) : List Byte := sha3 (label "VOLDEL-ID" ++ slice Config.pufKey 0 32 ++ s.boot.fuses.idSeed)

/-- M, the boot measurement. In recovery mode both digests are zero. -/
def State.measurement (s : State) : List Byte :=
  let d (x : List Byte) : List Byte := if s.boot.recovery then zeros32 else x
  sha3 (le 4 Config.romVersion ++ le 1 s.boot.fuses.lcState ++ le 1 (b2n (s.boot.sec.debugScope != 0)) ++
    d s.boot.fwDigest ++ d s.boot.rcpDigest)

/-- Seeds of the identity, attestation and provenance keys. -/
def State.akSeed (s : State) : List Byte := sha3 (label "VOLDEL-AK" ++ s.xi ++ s.measurement)
def State.pkSeed (s : State) : List Byte := sha3 (label "VOLDEL-PK" ++ s.xi ++ slice (s.boot.fuses.hash 4) 0 32)
def State.kemD (s : State) : List Byte := sha3 (label "VOLDEL-KEM-D" ++ s.xi)
def State.kemZ (s : State) : List Byte := sha3 (label "VOLDEL-KEM-Z" ++ s.xi)

/-- Public keys, by the algorithm codes of a certificate. -/
def State.idkPublic (s : State) : List Byte := slice (Config.publicKey 1 s.xi) 0 1952
def State.akPublic (s : State) : List Byte := slice (Config.publicKey 2 s.akSeed) 0 1312
def State.pkPublic (s : State) : List Byte := slice (Config.publicKey 2 s.pkSeed) 0 1312
def State.kdkPublic (s : State) : List Byte := slice (Config.publicKey 3 (s.kemD ++ s.kemZ)) 0 1184

/-- `KEY_ID` of the provenance key. -/
def State.pkId (s : State) : Nat := u32 (sha3 s.pkPublic) 0

/-- Signatures by the identity, attestation and provenance keys. -/
def State.signIdk (s : State) (m : List Byte) : List Byte := slice (Config.mlDsaSign 65 s.xi m) 0 3309
def State.signAk (s : State) (m : List Byte) : List Byte := slice (Config.mlDsaSign 44 s.akSeed m) 0 2420
def State.signPk (s : State) (m : List Byte) : List Byte := slice (Config.mlDsaSign 44 s.pkSeed m) 0 2420

/-! ### Certificates (R456) -/

/-- A certificate of kinds 2 to 4. -/
def State.certificate (s : State) (kind alg keyId : Nat) (measurement subject : List Byte) : List Byte :=
  let body := le 4 0x54435856 ++ le 1 kind ++ le 1 alg ++ le 1 s.boot.fuses.lcState ++ le 1 0 ++
    le 8 s.boot.fuses.serial ++ le 4 keyId ++ le 4 0 ++ le 8 s.boot.sec.issued ++ sha3 s.idkPublic ++ measurement ++ subject
  body ++ s.signIdk body

def State.akCert (s : State) : List Byte := s.certificate 2 2 0 s.measurement s.akPublic
def State.pkCert (s : State) : List Byte := s.certificate 3 2 s.pkId zeros32 s.pkPublic
def State.kdkCert (s : State) : List Byte := s.certificate 4 3 0 zeros32 s.kdkPublic
def State.idkCert (s : State) : List Byte := slice s.boot.flash.identity 0 5357

/-! ### Quote (R457) -/

/-- The quote for a nonce. -/
def State.quote (s : State) (nonce : List Byte) : List Byte :=
  let b := s.boot
  let flags := b2n (b.fuses.dbgKill != 0) + 2 * b2n b.sec.unlocked + 4 * b2n b.recovery +
    8 * b2n (!b.ka.tamperLog.isEmpty) + 16 * b2n b.degraded
  let body := le 4 0x54515856 ++ le 2 1 ++ le 1 b.fuses.lcState ++ le 1 flags ++ le 8 b.fuses.serial ++
    le 8 b.ka.counter ++ le 8 s.stamp ++ slice nonce 0 32 ++ s.measurement ++ s.configDigest ++
    sha3 b.fuses.ownerField ++ le 4 b.fwVersion ++ le 4 b.recipeVersion ++ le 2 b.fuses.fwSvn ++
    le 2 b.fuses.rcpSvn ++ le 1 b.fuses.revokedMask ++ le 3 0
  body ++ s.signAk body

/-! ### Image approval (R447) -/

/-- Components of a manifest. -/
def imageCount (img : List Byte) : Nat := u16 img 0x0E

/-- The manifest, and the offset of the signature block. -/
def manifestLen (img : List Byte) : Nat := 0x20 + 56 * imageCount img
def manifest (img : List Byte) : List Byte := slice img 0 (manifestLen img)

/-- Bytes of the signature block. -/
def sigLen : Nat := 0x1C31 + 3309

/-- D: SHA3-256 of the manifest. -/
def imageDigest (img : List Byte) : List Byte := sha3 (manifest img)

/-- The component entry `i`: offset and length in the image, digest. -/
def component (img : List Byte) (i : Nat) : Nat × Nat × List Byte :=
  let o := 0x20 + 56 * i
  (u64 img (o + 8), u64 img (o + 16), slice img (o + 24) 32)

/-- Check 1 of R447 for a position of type 1 (firmware) or 2 (recipes). -/
def imageForm (img : List Byte) (type : Nat) : Bool :=
  let n := imageCount img
  let sig := manifestLen img
  u32 img 0 == 0x4D474956 && u16 img 4 == 1 && u8 img 6 == type && zeros img 7 1 && zeros img 0x19 7 &&
  decide (1 ≤ n ∧ n ≤ 16) && zeros img (sig + 2) 2 && decide (sig + sigLen ≤ img.length) &&
  (List.range n).all fun i =>
    let c := component img i
    decide (sig + sigLen ≤ c.1) && decide (c.1 + c.2.1 ≤ img.length)

/-- The vendor signature verifies, and the owner countersignature verifies. -/
def vendorSigned (img : List Byte) : Bool :=
  let sig := manifestLen img
  Config.mlDsaVerify 65 (slice img (sig + 4) 1952) (imageDigest img) (slice img (sig + 0x7A4) 3309)
def ownerSigned (img : List Byte) : Bool :=
  let sig := manifestLen img
  Config.mlDsaVerify 65 (slice img (sig + 0x1491) 1952)
    (sha3 (imageDigest img ++ slice img (sig + 0x7A4) 3309)) (slice img (sig + 0x1C31) 3309)
def imageOwnerKey (img : List Byte) : List Byte := slice img (manifestLen img + 0x1491) 1952
def imageVslot (img : List Byte) : Nat := u8 img (manifestLen img)
def imageOslot (img : List Byte) : Nat := u8 img (manifestLen img + 1)

/-- The first check of R447 that an image fails in a position of a type, as its reason code. -/
def Fuses.approve (u : Fuses) (img : List Byte) (type : Nat) : Option Nat :=
  let vs := imageVslot img
  let os := imageOslot img
  let checks : List (Bool × Nat) :=
    [(imageForm img type, 0x20),
     (decide (vs < 4) && !u.revoked vs && sha3 (slice img (manifestLen img + 4) 1952) == u.hash vs, 0x22),
     (vendorSigned img, 0x21),
     (decide (u.lcState < 2) ||
       ((os == 4 || os == 5) && u.programmed os && !u.revoked os && sha3 (imageOwnerKey img) == u.hash os &&
         ownerSigned img), 0x23),
     (decide ((if type = 1 then u.fwSvn else u.rcpSvn) ≤ u16 img 0x0C), 0x24),
     (bit (u8 img 0x18) u.lcState, 0x26),
     (u64 img 0x10 == 0 || u64 img 0x10 == u.serial, 0x27),
     ((List.range (imageCount img)).all fun i =>
       let c := component img i
       sha3 (slice img c.1 c.2.1) == c.2.2, 0x25)]
  (checks.find? fun c => !c.1).map (·.2)

/-- Slot codes of R473: slot and type of image. -/
def codeType (code : Nat) : Nat := code % 2 + 1
def Flash.image (f : Flash) (slot type : Nat) : List Byte := f.images.look [] (2 * slot + type - 1)

/-- Both images of a slot pass every check. -/
def State.slotApproved (s : State) (slot : Nat) : Bool :=
  (s.boot.fuses.approve (s.boot.flash.image slot 1) 1).isNone && (s.boot.fuses.approve (s.boot.flash.image slot 2) 2).isNone

/-! ### The monotonic counter (R468) -/

/-- The counter rises by 1; each multiple of 2^16 is written to boot flash before it is passed. -/
def State.countUp (s : State) : State :=
  s.modBoot fun b =>
    let n := (b.ka.counter + 1) % 2 ^ 64
    { b with ka := { b.ka with counter := n }
             flash := if n % 65536 = 0 then { b.flash with counterBackup := n } else b.flash }

/-! ### Authorisation (R449) -/

/-- Who may authorise a command in the present state. -/
inductive Authority where
  | vendor | owner | enrol
  /-- a zero-length block suffices -/
  | none
  /-- the command is not open in this state -/
  | stop (st : Status)
deriving DecidableEq, Repr

/-- The authority table, for the life-cycle move to `target` and for the other commands by opcode. -/
def Fuses.authority (u : Fuses) (opcode target : Nat) : Authority :=
  let lc := u.lcState
  if lc = 0 ∨ lc = 4 then .stop .eLocked
  else if opcode = 0x0C05 then (if lc = 1 then (if target = 2 then .enrol else .vendor) else .owner)
  else if opcode = 0x0C06 then (if lc = 1 then .stop .eState else .owner)
  else if opcode = 0x0C07 ∨ opcode = 0x0C08 then (if lc = 1 then .vendor else .owner)
  else if opcode = 0x0C0A then (if lc = 1 then .vendor else if lc = 2 then .owner else .stop .eLocked)
  else (if lc = 1 then .none else .owner)

/-- The checks of an authorisation block that stands at `off` of a payload; `counter` is the value that its `COUNTER` field
must hold, `extra` bytes that its signature also covers. -/
def State.authorise (s : State) (opcode target : Nat) (p : List Byte) (off counter : Nat) (extra : List Byte)
    (bad : Reply) : Option Reply :=
  let u := s.boot.fuses
  let a := slice p off 5273
  let slot := u8 a 0
  let key := slice a 0x0C 1952
  let hashOk :=
    if u.authority opcode target = .enrol then slot == 4 && !u.programmed 4 && !u.revoked 4 && sha3 key == slice p 4 32
    else u.programmed slot && !u.revoked slot && sha3 key == u.hash slot
  let authorityOk := match u.authority opcode target with
    | .vendor => decide (slot < 4)
    | .owner => slot == 4 || slot == 5
    | .enrol => slot == 4 || slot == 5
    | _ => true
  let signed := sha3 (le 2 opcode ++ le 8 u.serial ++ le 8 counter ++ extra ++ p.take off)
  match u.authority opcode target with
  | .stop st => some { status := st }
  | .none => Option.none
  | _ => firstFail [
      (!authorityOk, { status := .eDenied }), (!hashOk, { status := .eIntegrity }), (u64 a 4 != counter, bad),
      (!Config.mlDsaVerify 65 key signed (slice a 0x7AC 3309), { status := .eIntegrity })]

/-- The block's own form: reserved bytes, which stand at `off` + 1. A payload that can be INLINE holds no block (R49), and
then the bytes at its place are beyond the payload (R8). -/
def authForm (p : List Byte) (off : Nat) : Nat × Bool := (off + 1, decide (p.length ≤ 24) || zeros p (off + 1) 3)

/-- The counter check's refusal. -/
def State.badCounter (s : State) : Reply := { status := eAuthCounter, detail := s.boot.ka.counter }

/-- A refusal of the ordinary block of a command. -/
def State.blockRefused (s : State) (opcode target : Nat) (p : List Byte) (off : Nat) : Option Reply :=
  s.authorise opcode target p off s.boot.ka.counter [] s.badCounter

/-- The counter increments when a block has been accepted, before the command takes effect; a command that needed none
leaves it. -/
def State.acceptBlock (s : State) (opcode target : Nat) : State :=
  match s.boot.fuses.authority opcode target with
  | .none => s
  | _ => s.countUp

end Sys2Proof.Machine
end

