-- ==== Sys2Proof/Machine/BootOps.lean ====
section
/-!
DEFINITION. The operations that start-up, the safe state, wipes and the management processors share: the reason log,
reset, the safe state, the tamper log, wipes, and the fencing of the primary (Start-up, Recovery, Fail-over and
Self-test; Security and Life Cycle).
-/

namespace Sys2Proof.Machine

open Sys2Proof (Byte)

/-- The data plane runs: the device is out of reset and neither in recovery mode nor in the safe state. -/
def State.planeRuns (s : State) : Bool := s.boot.stage == .ready

/-- The pins `READY`, `ALERT_N` and `THERM_TRIP_N` (R470, R484, R503, R504); low is `true` for the last two. -/
def State.pinReady (s : State) : Bool := s.boot.stage == .ready
def State.pinAlertLow (s : State) : Bool :=
  let b := s.boot
  let fences := b.health.any fun e => !e.2.enginesFenced.isEmpty || !e.2.msusFenced.isEmpty || !e.2.banksFenced.isEmpty ||
    !e.2.filtersFenced.isEmpty || !e.2.ramsFenced.isEmpty
  !b.held && b.stage != .reset && (b.thermAlert || b.degraded || b.diesFaulted != 0 || fences || b.recovery ||
    b.stage == .safe || !b.ka.tamperLog.isEmpty)
def State.pinThermTripLow (s : State) : Bool := s.boot.thermTripLatch

/-- The levels of `PPS_OUT` and `REF10M_OUT`, which are low in reset and in the safe state (R377, R484). -/
def State.pinPpsOut (s : State) : Bool := !s.boot.held && s.boot.stage != .safe && s.time.ppsOut
def State.pinRef10mOut (s : State) : Bool := !s.boot.held && s.boot.stage != .safe && s.time.ref10mOut

/-- A reason is logged, newest first, at most three (R483). -/
def State.logReason (s : State) (reason : Nat) (detail : Nat := 0) : State :=
  let seconds := s.kaSeconds
  s.modBoot fun b =>
    let e : Reason := { reason, stage := b.stage.code, count := b.ka.bootCount, detail, seconds }
    { b with ka := { b.ka with reasons := (e :: b.ka.reasons).take 3 } }

/-! ### Reset (R470, R523, R542) -/

/-- The device in reset: everything but the fuses, the boot flash, the keep-alive island, the `THERM_TRIP_N` latch, the
levels of the board's signals and the queue of commands is at its reset value. -/
def State.intoReset (s : State) : State :=
  { pending := s.pending
    free := s.free
    eci := { perst := s.eci.perst }
    boot := { fuses := s.boot.fuses, flash := s.boot.flash, railsGood := s.boot.railsGood
              ka := { s.boot.ka with seconds := s.kaSeconds, rest := s.kaNs % 1000000000 }
              sysRstLow := s.boot.sysRstLow, thermTripLatch := s.boot.thermTripLatch, junctions := s.boot.junctions
              sec := { tk := s.boot.sec.tk } } }

/-- The device leaves reset when its rails are good and `SYS_RST_N` is high; the counter starts at 0 (R360, R475). -/
def State.leaveReset (s : State) : State :=
  if s.boot.railsGood && !s.boot.sysRstLow then s.modBoot fun b => { b with held := false } else s

/-- A restart: reset, then a start (R70, R451, R478, R480). -/
def State.restart (s : State) : State := s.intoReset.leaveReset

/-- A start fails: its reason is logged, the boot counter rises, and a restart is due (R474, R478). -/
def State.failStart (s : State) (reason : Nat) : State :=
  let s := s.modBoot fun b => { b with
    ka := { b.ka with bootCount := min 15 (b.ka.bootCount + 1) }
    flash := if b.trialRun then { b.flash with trialFail := reason } else b.flash
    failedAt := some s.now, lastFail := reason }
  s.logReason reason

/-! ### The safe state (R484) -/

/-- All encode dies of the device, as a mask. -/
def State.allDies (s : State) : Nat := 2 ^ s.dies - 1

/-- The device enters the safe state: dies held, processors stopped, transmitters but PCIe idle, outputs at rest. -/
def State.enterSafe (s : State) (reason : Nat) : State :=
  let s := s.logReason reason
  let s := s.setStage .safe
  let s := s.modBoot fun b => { b with
    diesFenced := s.allDies, diesReady := 0, health := [], fencedAt := none, standbyUp := false, failedAt := none
    restartAt := none, recovery := false }
  let s := s.modChan fun x => { x with
    chans := x.chans.mapV fun _ c => { c with state := .idle, pics := [], rows := [] }, pipe3 := [] }
  let s := s.modSched fun x => { x with scheds := [] }
  let s := s.modLane fun l => { l with
    lanes := l.lanes.mapV fun i x => if i < 32 ∨ 40 ≤ i then { x with up := false, attempt := false } else x
    outs := l.outs.mapV fun _ o => { o with carrying := 0 } }
  let s := s.modNet fun n => { n with
    ports := n.ports.mapV fun _ p => { p with wire := none, queues := [] }
    egress := n.egress.mapV fun _ g => { g with queue := [] } }
  s.modAudio fun a => { a with ports := a.ports.mapV fun _ p => { p with mode := 0 } }

/-! ### Tamper log and wipe (R465 to R467) -/

/-- Append an entry to the tamper log; beyond 32 the oldest is overwritten and counted. -/
def KeepAlive.logTamper (k : KeepAlive) (e : TamperEntry) : KeepAlive :=
  if k.tamperLog.length < 32 then { k with tamperLog := k.tamperLog ++ [e] }
  else { k with tamperLog := k.tamperLog.drop 1 ++ [e], tamperOverflow := (k.tamperOverflow + 1) % 65536 }

/-- The log entry of a trip of a sensor. -/
def State.tripEntry (s : State) (sensor : Nat) (whileOff : Bool) : TamperEntry :=
  { sensor, response := s.boot.ka.responses.getD sensor 0, whileOff, seconds := s.kaSeconds
    counter := s.boot.ka.counter % 2 ^ 32 }

/-- Log a trip. -/
def State.logTrip (s : State) (e : TamperEntry) : State := s.modBoot fun b => { b with ka := b.ka.logTamper e }

/-- `EV_TAMPER` for a trip. -/
def State.raiseTamper (s : State) (e : TamperEntry) (safe : Bool) : State :=
  s.raise (evTamper.1, if safe && !e.whileOff then 3 else 2) deviceHandle
    (e.sensor + e.response * 256 + b2n e.whileOff * 65536)

/-- A key is bound to a stream in either phase. -/
def Egress.keyed (g : Egress) : Bool := g.keyEven != 0 || g.keyOdd != 0

/-- A wipe starts (R466 steps 1 to 4): key memory reads zero, keyed streams discard payload, the scratchpad and TK are
gone. A wipe in progress runs on (R467). Key commands in flight complete with `E_HW_FAULT`. -/
def State.startWipe (s : State) (trips : List TamperEntry) (response : Nat) : State :=
  match s.boot.sec.wipePending with
  | some (ts, r) => s.modBoot fun b => { b with sec := { b.sec with wipePending := some (ts ++ trips, max r response) } }
  | none =>
    let s := s.modBoot fun b => { b with sec := { b.sec with
      wipePending := some (trips, response), scratchpadValid := false } }
    let s := s.modNet fun n => { n with
      egress := n.egress.mapV fun _ g => if g.keyed then { g with wiped := true } else g }
    let s := s.modEci fun e => { e with
      staged := e.staged.filter fun t => match t.change with | .egressKey _ key _ => key == 0 | _ => true }
    s.completeRunning (fun r => match r.await with | .arrival _ (.egressKey ..) => true | _ => false)
      fun r => { r.reply with status := .eHwFault, boundary := none }

/-- Delete every KEY object: its handle becomes invalid, and no stream binds it. -/
def State.deleteKeys (s : State) : State :=
  let keys := s.boot.sec.keys.keys
  let s := keys.foldl (fun s h => s.freeObject h) s
  let s := s.modBoot fun b => { b with sec := { b.sec with keys := [] } }
  s.modNet fun n => { n with egress := n.egress.mapV fun _ g => { g with keyEven := 0, keyOdd := 0 } }

/-- The wipe's last steps (R466 steps 5 and 6), and the safe state of a response of 2 (log entry 37). -/
def State.finishWipe (s : State) : State :=
  match s.boot.sec.wipePending with
  | none => s
  | some (trips, response) =>
    let count := s.boot.sec.keys.length
    let muted := (s.net.egress.filter fun e => e.2.wiped).length
    let s := s.deleteKeys
    let s := s.eci.sessions.keys.foldl (fun s n => s.closeSession n 0) s
    let s := trips.foldl (fun s t => s.raiseTamper t (response == 2)) s
    let s := s.raise evKeyWiped deviceHandle (count + muted * 2 ^ 32)
    let s := s.modBoot fun b => { b with sec := { b.sec with
      wipePending := none, tk := b.sec.tk + 1, scratchpadValid := true } }
    if response = 2 then
      (s.modBoot fun b => { b with sec := { b.sec with keysCleared := true } }).enterSafe 0x51
    else s

/-! ### Management processors (R488 to R491) -/

def Boot.mpOther (b : Boot) : MpState := if b.mpActive = 0 then b.mpB else b.mpA

/-- Change the state of processor 0 (MP-A) or 1 (MP-B). -/
def Boot.setMp (b : Boot) (n : Nat) (v : MpState) : Boot := if n = 0 then { b with mpA := v } else { b with mpB := v }

/-- A standby can start. -/
def Boot.hasStandby (b : Boot) : Bool := b.mpOther == .coldStandby || b.mpOther == .warmStandby

/-- The `TAKEOVER` cause bit (R42). -/
def takeoverCause : Nat := 21

/-- The supervisor fences the primary (R489): the epoch rises, a warm standby runs already (R490), the journal lock is released as broken (also when the primary
did not hold it at that moment: its next holder receives it `BROKEN`, step 4), `TAKEOVER` is set in every function; with no standby, reason `0x42` is logged (R491). -/
def State.fencePrimary (s : State) : State :=
  if s.boot.fencedAt.isSome then s
  else
    let active := s.boot.mpActive
    let s := s.modBoot fun b => { b.setMp active .fenced with
      fencedAt := some s.now, mpEpoch := b.mpEpoch + 1, standbyUp := b.mpOther == .warmStandby, noStandby := !b.hasStandby }
    let s := s.causeAll takeoverCause
    let agent := 6 * 512 + active
    let s := s.breakLocksOf 8 agent 4
    let s := s.modSd 8 fun d => { d with locks := d.locks.modD {} 0 fun g =>
      if g.owner.isNone && g.former.isNone then { g with former := some { agent, task := 0, cause := 4 } } else g }
    let s := s.raise evMpState deviceHandle (1 + active * 256)
    if s.boot.noStandby then (s.logReason 0x42).raise evMpState deviceHandle (4 + active * 256) else s

end Sys2Proof.Machine
end

