-- ==== Sys2Proof/Machine/Lane.lean ====
section
/-!
DEFINITION. The commands and events of the serial lanes (Serial Lanes: Ethernet, SDI and PCIe).
-/

namespace Sys2Proof.Machine

open Sys2Proof (Byte Submission SdiLine SdiPicture)

/-! ### Shared operations -/

def State.ln (s : State) (i : Nat) : Lane := s.lane.lanes.look {} i
def State.modLn (s : State) (i : Nat) (f : Lane → Lane) : State :=
  s.modLane fun l => { l with lanes := l.lanes.modD {} i f }

def isNetLane (i : Nat) : Bool := decide (i < 16)
def isEthernet (i : Nat) : Bool := decide (i < 18)
def isPcie (i : Nat) : Bool := decide (32 ≤ i ∧ i < 40)
def isSdiIn (i : Nat) : Bool := decide (64 ≤ i ∧ i < 80)
def isSdiOut (i : Nat) : Bool := decide (96 ≤ i ∧ i < 104)

/-- The lane that carries the port of an Ethernet lane (R387). -/
def State.portLane (s : State) (i : Nat) : Nat :=
  if isNetLane i && (s.ln (i - i % 2)).mode == 5 then i - i % 2
  else if isNetLane i && (s.ln (i - i % 4)).mode == 6 then i - i % 4 else i

/-- The SDI input that stands for a lane: the first of its quad group, and otherwise the lane itself (R400). -/
def State.quadLane (s : State) (i : Nat) : Nat := if isSdiIn i && (s.ln (i - i % 4)).mode == 2 then i - i % 4 else i

/-- The lane whose handle the events of a lane carry: the first of its port or of its quad group. -/
def State.firstLane (s : State) (i : Nat) : Nat := if isSdiIn i then s.quadLane i else s.portLane i

/-- Lanes of the port on lane `i` in a mode. -/
def lanesOfMode (i m : Nat) : List Nat := if m = 5 then [i, i + 1] else if m = 6 then [i, i + 1, i + 2, i + 3] else [i]

/-- Every `LANE.TRAIN` that waits for a lane completes. -/
def State.trainDone (s : State) (i : Nat) (r : Reply) : State :=
  s.completeRunning (fun x => x.await == .train i) fun _ => r

/-- Detectors of a lane assert (R393, R394): an up lane goes down, with at most 10 `EV_LANE_DOWN` per second; a network
port's PTP port becomes FAULTY (R395), an SDI input posts no rows. -/
def State.assertCauses (s : State) (i causes : Nat) (report : Bool := false) : State :=
  let l := s.ln i
  let now := s.now
  let merged := (List.range 5).foldl (fun m b => if bit causes b then setBit m b else m) l.causes
  let s := s.modLn i fun l => { l with causes := merged, clearSince := none }
  if !(l.up || report) then s
  else
    let recent := l.downSent.filter fun t => decide (now < t + 1000000000)
    let s := s.modLn i fun l => { l with
      up := false, lastCause := merged, posting := false, goodPictures := 0, lpiTx := false, waking := false
      downCount := if l.up then min 0xFFFFFFFF (l.downCount + 1) else l.downCount }
    let ptp := (s.time.ports.look {} i).state
    let faults := decide (i < 16) && ptp != .disabled && ptp != .faulty
    let s := if i < 16 then
        s.modTime fun t => { t with
          ports := t.ports.upd i fun p => { p with state := if faults then .faulty else p.state, latencyMeasured := false }
          slavePort := if faults && t.slavePort == some i then none else t.slavePort }
      else s
    let black (_ : Nat) (o : SdiOut) : SdiOut := if o.source = laneHandle i ∧ o.carrying = 1 then { o with carrying := 2 } else o
    let s := s.modLane fun x => { x with outs := x.outs.mapV black }
    let s := if recent.length < 10 then
        (s.modLn i fun x => { x with downSent := now :: recent, suppressed := 0 }).raise evLaneDown (laneHandle (s.firstLane i))
          (merged + l.suppressed % 65536 * 2 ^ 32)
      else s.modLn i fun x => { x with downSent := recent, suppressed := x.suppressed + 1 }
    -- the state FAULTY is reported as every change of a PTP port's state is (R369, R395)
    if faults then s.raise evPtpPort (mkHandle tPort 0xFF i) (i + 2 * 256) else s

/-- Detectors of a lane clear; the 1 ms of R394 begins when the last has. -/
def State.clearCauses (s : State) (i causes : Nat) : State :=
  s.modLn i fun l =>
    let left := (List.range 5).foldl (fun m b => if bit causes b then clearBit m b else m) l.causes
    { l with causes := left, clearSince := if left = 0 ∧ l.causes ≠ 0 then some s.now else l.clearSince }

/-! ### Commands -/

/-- A port of an Ethernet lane is in use: a stream, a policer, or the PTP instance (R408). -/
def State.portUsed (s : State) (i : Nat) : Bool :=
  (s.net.ingress.any fun e => u8 e.2.payload 2 == i || (u8 e.2.payload 1 == 3 && u8 e.2.payload 3 == i)) ||
  (s.net.egress.any fun e => u8 e.2.payload 8 == i || (e.2.paths == 3 && u8 e.2.payload 9 == i)) ||
  (s.net.policers.any fun e => e.2.target == mkHandle tPort 0xFF i) || bit s.time.ptp.portMask i

/-- The pairing of a mode with a lane (R386, R387, R400), over the payload of `LANE.SET`. -/
def State.laneModeBad (s : State) (i : Nat) (p : List Byte) : Bool :=
  let m := u8 p 0
  if isNetLane i then
    decide (6 < m) || (m == 5 && i % 2 != 0) || (m == 6 && i % 4 != 0) || s.portLane i != i ||
      (u8 p 6 == 2 && decide (m < 3))
  else if isEthernet i then !([0, 7, 8].contains m) || u8 p 6 == 2
  else if isSdiIn i then decide (2 < m) || u8 p 6 == 2
  else decide (1 < m) || u8 p 6 == 2

/-- A quad group that cannot be formed (R400): not the first input, or a member that is enabled or in use. -/
def State.quadBad (s : State) (i : Nat) (p : List Byte) : Bool :=
  let taken := [1, 2, 3].any fun d => (s.ln (i + d)).mode != 0 || s.sdiUsed (laneHandle (i + d))
  isSdiIn i && ((u8 p 0 == 2 && (i % 4 != 0 || taken)) || (i % 4 != 0 && (s.ln (i - i % 4)).mode == 2))

/-- The FEC of a mode that is not negotiated: RS(544,514) where the mode requires it, and otherwise the lowest that the
payload's `FEC` allows (R386, R388). -/
def forcedFec (m allowed : Nat) : Nat :=
  if 3 ≤ m ∧ m ≤ 6 then 3
  else if (m = 1 ∨ m = 2) ∧ bit allowed 0 then 1
  else if m = 2 ∧ bit allowed 1 then 2 else 0

/-- What a new mode of a lane has still to run: negotiation or training, or an SDI input's adaptation (R388, R390, R398). -/
def laneAttempt (i : Nat) (p : List Byte) : Bool :=
  let m := u8 p 0
  if isSdiIn i then m != 0
  else isEthernet i && m != 0 && decide (m < 7) && (u8 p 2 == 1 || u8 p 3 == 1) || m == 8 && u8 p 2 == 1

/-- A lane with its new settings (R408). -/
def Lane.withSet (l : Lane) (i : Nat) (p : List Byte) : Lane :=
  let m := u8 p 0
  { l with
    mode := m, media := u8 p 1, an := u8 p 2 == 1, train := u8 p 3 == 1, fec := u8 p 4, eee := u8 p 5, test := u8 p 6
    attempt := laneAttempt i p
    fecUsed := if !isEthernet i then 0 else if u8 p 2 = 1 ∧ m < 3 then 0 else forcedFec m (u8 p 4)
    format := none, candidate := none, posting := false, link := 0xFF, found := false, skewed := false }

def specLaneSet : EciSpec where
  opcode := 0x0A01
  target := .object [tLane]
  form p _ :=
    [(1, decide (u8 p 1 ≤ 1)), (2, decide (u8 p 2 ≤ 1)), (3, decide (u8 p 3 ≤ 1)), (4, decide (u8 p 4 < 4)),
     (5, decide (u8 p 5 < 4)), (6, decide (u8 p 6 ≤ 3)), (7, zeros p 7 1)]
  run k s :=
    let p := k.payload
    let h := k.tok.handle
    let i := handleIndex h
    let m := u8 p 0
    let group := lanesOfMode i (if isNetLane i then m else 0)
    let busy := (isEthernet i && (s.portLane i :: group).any s.portUsed) || (s.ln (s.portLane i)).attempt ||
      ((isSdiIn i || isSdiOut i) && s.sdiUsed h)
    checked s [(busy, { status := .eState }), (isPcie i, { status := eLaneKind }),
        (s.laneModeBad i p, { status := eLaneMode }), (s.quadBad i p, { status := eQuad })] fun _ =>
      let s := (group.filter (· != i)).foldl (fun s j => (s.assertCauses j 0x10).modLn j fun l => { l with mode := 0 }) s
      let s := (s.assertCauses i 0x10).modLn i fun l => l.withSet i p
      -- a mode with nothing to negotiate or to train runs at once
      ok (if m != 0 && !laneAttempt i p then s.clearCauses i 0x18 else s)

def execLaneSet (c : Submission) (s : State) : Out := runEci specLaneSet c s

def specLaneTrain : EciSpec where
  opcode := 0x0A02
  target := .object [tLane]
  run k s :=
    let i := s.portLane (handleIndex k.tok.handle)
    let l := s.ln i
    checked s [(l.mode == 0 && !isPcie i, { status := .eState }),
        (isPcie i || isSdiOut i, { status := eLaneKind })] fun _ =>
      let s := if l.attempt then s else (s.assertCauses i 4).modLn i fun l => { l with attempt := true }
      .wait (.train i) {} s

def execLaneTrain (c : Submission) (s : State) : Out := runEci specLaneTrain c s

/-- The PCIe link as `LANE.QUERY` reports it: width and speed code. -/
def specLaneQuery : EciSpec where
  opcode := 0x0A03
  target := .object [tLane]
  fast := false
  run k s :=
    let i := handleIndex k.tok.handle
    let pl := s.portLane i
    let l := s.ln i
    let e := s.eci
    let f := l.format.getD { rateDen := 0, sampling := 0, depth := 0 }
    let up := if isPcie i then e.linkUp else (s.ln pl).up
    let searching := (s.ln pl).attempt || (isSdiIn i && (s.ln (s.quadLane i)).mode != 0)
    let state := if up then 2 else if searching then 1 else 0
    let mode := if isSdiIn i then l.rate else if isPcie i then 0 else (s.ln pl).mode
    let lpi := if isPcie i then (if e.linkPower = 1 then 1 else 0) else b2n l.lpiTx + 2 * b2n l.lpiRx
    let preset := if isPcie i then e.presets.look 0xFF (i - 32) else 0xFF
    let s := s.captureGroup 1 [l.codeErr, l.fecCorr, l.fecUncorr, state]
    let r :=
      le 1 (s.heldOf 1 3) ++ le 1 mode ++ le 1 (s.ln pl).fecUsed ++ le 1 lpi ++ le 2 l.lastCause ++ le 1 preset ++ le 1 0 ++
      sat 8 (s.heldOf 1 0) ++ sat 8 (s.heldOf 1 1) ++ sat 8 (s.heldOf 1 2) ++ sat 8 l.crcErr ++ le 4 l.downCount ++
      l.taps.flatMap (fun t => le 1 (twos 8 t)) ++ le 1 l.eye ++ le 1 (if isPcie i then e.linkWidth else l.link) ++
      le 1 (if isPcie i then e.linkGen else 0) ++ le 2 f.width ++ le 2 f.height ++ le 4 f.rateNum ++ le 2 f.rateDen ++
      le 1 f.sampling ++ le 1 f.depth
    ok s { response := r }

def execLaneQuery (c : Submission) (s : State) : Out := runEci specLaneQuery c s

/-- Taps within the device's limits (R410): Σ|c| at most 64, c(0) at least 16. -/
def tapsOk (t : List Int) : Bool := decide ((t.map Int.natAbs).sum ≤ 64) && decide (16 ≤ t.getD 3 0)

def specLaneTaps : EciSpec where
  opcode := 0x0A04
  target := .object [tLane]
  formIn k s :=
    let p := k.payload
    let t := (List.range 5).map (s8 p)
    let i := handleIndex k.tok.handle
    let nrz := isEthernet i && [1, 2, 7, 8].contains (s.ln (s.portLane i)).mode
    [(0, decide ((t.map Int.natAbs).sum ≤ 64) && (!nrz || u8 p 0 == 0)), (1, !nrz || u8 p 1 == 0),
     (3, decide (16 ≤ t.getD 3 0)), (5, zeros p 5 3)]
  run k s :=
    let p := k.payload
    let i := handleIndex k.tok.handle
    checked s [((s.ln (s.portLane i)).train && isEthernet i, { status := .eState }),
        (!isEthernet i, { status := eLaneKind })] fun _ =>
      ok (s.modLn i fun l => { l with taps := (List.range 5).map (s8 p) })

def execLaneTaps (c : Submission) (s : State) : Out := runEci specLaneTaps c s

def specSdiOutSet : EciSpec where
  opcode := 0x0A05
  target := .object [tLane]
  formIn k s :=
    let src := u32 k.payload 0
    let c := (s.ch src).cfg
    [(4, !s.isDecoder src || decide (u32 k.payload 4 * c.rateNum < 1000000000 * c.rateDen))]
  run k s :=
    let p := k.payload
    let h := k.tok.handle
    let src := u32 p 0
    let c := (s.ch src).cfg
    let quad := handleType src == tLane && isSdiIn (handleIndex src) && (s.ln (handleIndex src)).mode == 2
    let kindOk := src == 0 || (handleType src == tLane && isSdiIn (handleIndex src)) || s.isDecoder src
    let use := if src = 0 then none else s.useObject k src [tLane, tChannel]
    checked s [(!isSdiOut (handleIndex h), { status := eLaneKind }), (use.isSome, use.getD {}),
        (!kindOk, { status := .eBadHandle }),
        (s.isDecoder src && (s.dec.decoders.look {} src).outCount == 0, { status := .eState }),
        (quad, { status := eLaneMode }),
        (s.isDecoder src && (decide (3840 < c.width) || decide (2160 < c.height) ||
          decide (60 * c.rateDen < c.rateNum)), { status := eLaneMode })] fun _ =>
      stage s (.sdiOut h) (.sdiOut h (slice p 0 8))

def execSdiOutSet (c : Submission) (s : State) : Out := runEci specSdiOutSet c s

/-! ### Detectors, negotiation and training -/

/-- The detectors of a lane, or of all lanes of its port, take new levels (R393, R394): those that rise take the lane down;
when none is left the 1 ms of R394 begins. -/
def execLaneDetectorAssert (lane : Fin 104) (levels : BitVec 5) (s : State) : Out :=
  let i := if isSdiIn lane.val then lane.val else s.portLane lane.val
  let l := s.ln i
  if !s.isHardware (laneHandle lane.val) || isPcie i || isSdiOut i then .next s
  else
    let rising := (List.range 5).any fun b => levels.getLsbD b && !bit l.causes b
    let falling := ((List.range 5).filter fun b => b < 3 && !levels.getLsbD b && bit l.causes b).foldl setBit 0
    let s := if rising then s.assertCauses i levels.toNat else s
    .next (if falling = 0 then s else s.clearCauses i falling)

/-- Detectors cleared for 1 ms bring an Ethernet or SDI lane up; the MAC-to-ball latency of a network lane is measured
(R370, R394); a `LANE.TRAIN` that waits completes (R409). -/
def execLaneUpTimer (lane : Fin 104) (s : State) : Out :=
  let i := lane.val
  let l := s.ln i
  match l.clearSince with
  | some t =>
    if !l.up && l.causes == 0 && (s.ln (s.firstLane i)).mode != 0 && decide (t + 1000000 ≤ s.now) then
      let s := s.modLn i fun l => { l with up := true, attempt := false, clearSince := none }
      let s := s.modTime fun x => { x with ports := x.ports.upd i fun p => { p with latencyMeasured := true } }
      let s := if isSdiIn i then s.modAudio fun a => { a with te := a.te.del (laneHandle i) } else s
      let mode := if isSdiIn i then l.rate else l.mode
      .next ((s.raise evLaneUp (laneHandle (s.firstLane i)) (mode + l.fecUsed * 256)).trainDone i {})
    else .next s
  | none => .next s

/-- FEC that a mode and the setting `FEC` allow to be resolved: none, BASE-R, RS(528,514) (R386, R388). -/
def Lane.allowsFec (l : Lane) (fec : Nat) : Bool :=
  fec == 0 || (fec == 1 && (l.mode == 1 || l.mode == 2) && bit l.fec 0) || (fec == 2 && l.mode == 2 && bit l.fec 1)

/-- Auto-negotiation resolves (R388): the FEC in force; without training the new mode runs. -/
def execAutonegDone (lane : Fin 18) (fec : Fin 4) (s : State) : Out :=
  let i := lane.val
  let l := s.ln i
  if !l.attempt ∨ !l.an then .next s
  else
    let s := s.modLn i fun l => { l with
      fecUsed := if 3 ≤ l.mode ∧ l.mode ≤ 6 then 3 else if l.allowsFec fec.val then fec.val else 0 }
    .next (if l.train && decide (l.mode ≤ 6) then s else s.clearCauses i 0x18)

/-- One coefficient request of the partner (R390): the tap moves by one step, or, where that leaves the device's limits, stays and
the answer is its maximum or minimum. NRZ modes have c(-1), c(0) and c(1) only (R410). Each lane of a port trains on its own. -/
def execCoeffUpdateRequest (lane : Fin 16) (tap : Fin 5) (up : Bool) (s : State) : Out :=
  let l := s.ln lane.val
  let p := s.ln (s.portLane lane.val)
  let nrz := p.mode == 1 || p.mode == 2
  let t := l.taps.set tap.val (l.taps.getD tap.val 0 + if up then 1 else -1)
  if !p.train || !p.attempt || (nrz && decide (tap.val < 2)) then .next s
  else if tapsOk t then .next (s.modLn lane.val fun l => { l with taps := t, answer := 1 })
  else .next (s.modLn lane.val fun l => { l with answer := if up then 3 else 2 })

/-- Both receivers are ready (R390): training ends and the new mode runs. `eye` is the margin that the receiver found. -/
def execTrainingDone (lane : Fin 16) (eye : Fin 101) (s : State) : Out :=
  let l := s.ln lane.val
  if l.train && l.attempt then
    .next ((s.modLn lane.val fun l => { l with eye := eye.val }).clearCauses lane.val 0x18)
  else .next s

/-- The clause's wait timer expires (R390, R409): `EV_LANE_DOWN` with the training cause, a waiting `LANE.TRAIN` completes
with `E_LANE_TRAIN`, and negotiation starts again. -/
def execTrainingWaitTimeout (lane : Fin 16) (s : State) : Out :=
  let i := lane.val
  let l := s.ln i
  if l.train && l.attempt && !l.up then
    let s := s.assertCauses i 8 true
    .next (s.trainDone i { status := eLaneTrain, detail := (s.ln i).causes })
  else .next s

/-- An SDI input's adaptation and rate search, restarted by `LANE.TRAIN`, fail (R409). -/
def execSdiAdaptationFail (lane : Fin 16) (s : State) : Out :=
  let i := 64 + lane.val
  if (s.ln i).attempt && !(s.ln i).up then
    .next ((s.modLn i fun l => { l with attempt := false }).trainDone i { status := eLaneTrain, detail := (s.ln i).causes })
  else .next s

/-! ### Errors of an Ethernet lane (R396, R407, R408) -/

/-- Code errors and codewords of a lane count; uncorrectable codewords are reported at most once per second (R396). -/
def State.laneErrors (s : State) (i code corr uncorr : Nat) : State :=
  let s := s.modLn i fun l => { l with
    codeErr := l.codeErr + code, fecCorr := l.fecCorr + corr, fecUncorr := l.fecUncorr + uncorr, fecSince := l.fecSince + uncorr }
  let l := s.ln i
  let due := match l.lastFec with | some t => decide (t + 1000000000 ≤ s.now) | none => true
  if due && l.fecSince != 0 then
    (s.modLn i fun l => { l with fecSince := 0, lastFec := some s.now }).raise evLaneFec (laneHandle i) (l.fecSince % 2 ^ 32)
  else s

/-! ### Energy-Efficient Ethernet (R392) -/

/-- The transmitter may be in low-power idle: allowed, no egress stream, not a PTP port. -/
def State.lpiAllowed (s : State) (i : Nat) : Bool :=
  bit (s.ln i).eee 1 && decide (1 ≤ (s.ln i).mode ∧ (s.ln i).mode ≤ 6) && !bit s.time.ptp.portMask i &&
    !(s.net.egress.any fun e => u8 e.2.payload 8 == i || (e.2.paths == 3 && u8 e.2.payload 9 == i))

/-- Transmit low-power idle of ports ends at once (R392). -/
def State.endLpi (s : State) (ports : List Nat) : State :=
  ports.foldl (fun s p =>
    let i := s.portLane p
    if (s.ln i).lpiTx then s.modLn i fun l => { l with lpiTx := false, waking := false } else s) s

/-- No frame has been queued for 10 µs: the transmitter enters low-power idle. -/
def execLpiEntry (lane : Fin 16) (s : State) : Out :=
  let i := lane.val
  let p := s.net.ports.look {} i
  if s.lpiAllowed i && (s.ln i).up && !(s.ln i).lpiTx && decide (p.lastQueued + 10000 ≤ s.now) && p.wire.isNone &&
      p.queues.all fun q => q.2.isEmpty then
    .next (s.modLn i fun l => { l with lpiTx := true })
  else .next s

/-- The partner enters or leaves low-power idle; the lane's receive side follows where it advertises EEE. -/
def execPartnerLpi (lane : Fin 16) (enter : Bool) (s : State) : Out :=
  let l := s.ln lane.val
  if bit l.eee 0 && l.up && decide (1 ≤ l.mode ∧ l.mode ≤ 6) then
    .next (s.modLn lane.val fun l => { l with lpiRx := enter })
  else .next s

/-! ### SDI receivers (R398 to R401) -/

/-- An SDI receiver locks to a rate: the loss detectors clear and the 1 ms of R394 begins. -/
def execSdiRateLock (lane : Fin 16) (rate : Fin 5) (fractional : Bool) (s : State) : Out :=
  let i := 64 + lane.val
  if (s.ln (s.quadLane i)).mode = 0 then .next s
  else
    let r := rate.val + (if fractional then 128 else 0)
    .next ((s.modLn i fun l => { l with
      rate := r, found := false, candidate := none }).clearCauses i 0x1F)

/-- The channel whose source is an SDI input. -/
def State.sdiChannel (s : State) (h : Nat) : Option (Nat × Channel) := s.chan.chans.find? fun e => e.2.cfg.source == h

/-- A detected format suits a channel: its width, height, rate and sampling. -/
def SdiFormat.suits (f : SdiFormat) (c : ChCfg) : Bool :=
  f.width == c.width && f.height == c.height && f.rateNum * c.rateDen == c.rateNum * f.rateDen &&
    (f.sampling != 1 || decide (c.chroma ≤ 1))

/-- A format is received, and suits the channel that names the input (R398). -/
def Lane.fits (l : Lane) (c : ChCfg) : Bool := l.format.any fun f => !f.unsupported && f.suits c

/-- The end of a picture on an SDI input: the same format on 2 consecutive pictures comes into force, with
`EV_SDI_FORMAT` (R398). -/
def State.sdiPicture (s : State) (i : Nat) (f : SdiFormat) : State :=
  let l := s.ln i
  let h := laneHandle i
  if l.candidate = some f ∧ ¬(l.found ∧ l.format = some f) then
    let reason := if f.unsupported then 1 else match s.sdiChannel h with
      | some c => if f.suits c.2.cfg then 0 else 2
      | none => 0
    (s.modLn i fun l => { l with format := some f, found := true, posting := !f.unsupported && !l.skewed }).raise evSdiFormat h
      (reason + f.height % 65536 * 2 ^ 16 + f.rateNum % 2 ^ 32 * 2 ^ 32)
  else s.modLn i fun l => { l with candidate := some f }

/-- A line with a bad CRC is counted, and reported at most once per second (R399). -/
def State.sdiCrc (s : State) (i : Nat) : State :=
  let s := s.modLn i fun l => { l with crcErr := l.crcErr + 1, crcSince := l.crcSince + 1 }
  let l := s.ln i
  let due := match l.lastCrc with | some t => decide (t + 1000000000 ≤ s.now) | none => true
  if due then
    (s.modLn i fun l => { l with crcSince := 0, lastCrc := some s.now }).raise evSdiCrc (laneHandle (s.firstLane i)) l.crcSince
  else s

/-- The picture format that a quad link receives, at the link rate of its receivers (R400). -/
def quadFormat (rate : Nat) (f : SdiPicture) : Bool :=
  rate % 128 == 4 && f.width == 7680 && f.height == 4320 && f.sampling == 1 && f.depth == 10 &&
    decide (24000 * f.rateDen.toNat ≤ 1001 * f.rateNum.toNat) && decide (f.rateNum.toNat ≤ 60 * f.rateDen.toNat)

/-- An SDI line arrives (R399): its CRC, and at the end of a picture its format; on a quad link the four links' skew
decides whether rows are posted (R401). Captions of the line wait for their picture, unless the channel takes them from a
stream (R170). -/
def State.sdiLine (s : State) (lane : Fin 16) (line : SdiLine) : State :=
  let i := 64 + lane.val
  let l := s.ln i
  let g := s.quadLane i
  if !l.up || l.test != 0 then s
  else
    let s := if line.badCrc && decide (1 ≤ l.rate % 128) then s.sdiCrc i else s
    let s := s.captionPacket (laneHandle g) s.now line.captions
    let s := match line.format with
      | some f => if i ≠ g then s else s.sdiPicture i
          { rate := f.rate.toNat, width := f.width.toNat, height := f.height.toNat, rateNum := f.rateNum.toNat
            rateDen := f.rateDen.toNat, sampling := f.sampling.toNat, depth := f.depth.toNat
            unsupported := f.unsupported || ((s.ln g).mode == 2 && !quadFormat l.rate f) }
      | none => s
    if (s.ln g).mode ≠ 2 then s
    else
      let s := match line.link with | some n => s.modLn i fun l => { l with link := n.val } | none => s
      let links := (List.range 4).map fun d => s.ln (g + d)
      let known := links.all fun l => decide (l.link < 4)
      let whole := links.all (·.up) && (known || line.skew.isNone) && (!known || decide (links.map (·.link)).Nodup)
      let k := line.skew.getD 0
      if decide (20000 < k) || !whole then
        let was := (s.ln g).skewed
        let s := s.modLn g fun l => { l with posting := false, goodPictures := 0, skewed := true }
        if was then s else s.raise evSdiSkew (laneHandle g) (if whole then k % 2 ^ 32 else 0xFFFFFFFF)
      else if line.format.isSome && i == g then
        s.modLn g fun l =>
          let again := decide (1 ≤ l.goodPictures) && l.found && l.format.any fun f => !f.unsupported
          { l with goodPictures := l.goodPictures + 1, skewed := l.skewed && !again, posting := l.posting || again }
      else s

end Sys2Proof.Machine
end

