-- ==== Sys2Proof/Machine/Net.lean ====
section
/-!
DEFINITION. The commands of ingress and egress streams, shapers, gate lists, policers and ports (Ingest, Egress and
Traffic).
-/

namespace Sys2Proof.Machine

open Sys2Proof (Byte Submission)

/-! ### Ingress streams -/

/-- The match of one path of a stream: port, destination, UDP port, source filter. -/
def pathMatch (p : List Byte) (b : Bool) : Nat × Nat × Nat × Nat :=
  if b then (u8 p 3, fieldAt p 0x30 16, u16 p 8, fieldAt p 0x40 16) else (u8 p 2, fieldAt p 0x10 16, u16 p 6, fieldAt p 0x20 16)

/-- The matches of a stream over its paths. -/
def matchesOf (p : List Byte) : List (Nat × Nat × Nat × Nat) :=
  pathMatch p false :: (if u8 p 1 = 3 then [pathMatch p true] else [])

/-- The media format of an ingress payload lies in R320. -/
def ingressFormatOk (p : List Byte) : Bool :=
  let w := u16 p 0x50
  let h := u16 p 0x52
  let smp := u8 p 0x5C
  let d := u8 p 0x5D
  let rate := decide (0 < u32 p 0x58) && decide (u32 p 0x54 ≤ 120 * u32 p 0x58) && decide (0 < u32 p 0x54)
  match u8 p 0 with
  | 0 => decide (0 < w ∧ w ≤ 7680) && decide (0 < h ∧ h ≤ 4320) && rate && decide (u8 p 0x5E ≤ 1) &&
      (if smp = 2 then d == 10 || d == 12 else decide (smp < 2) && (d == 8 || d == 10 || d == 12))
  | 1 => decide (0 < w ∧ w ≤ 1920) && decide (0 < h ∧ h ≤ 1080) && rate && smp == 1 && d == 10
  | 2 => (u8 p 0x61 == 2 || u8 p 0x61 == 4) && (u8 p 0x62 == 16 || u8 p 0x62 == 24)
  | 3 => decide (u8 p 0x61 ≤ 5)
  | _ => true

def specIngressCreate : EciSpec where
  opcode := 0x0801
  target := .device true
  fast := false
  form p _ :=
    let kind := u8 p 0
    [(0, decide (kind ≤ 9)), (1, u8 p 1 == 1 || u8 p 1 == 3), (2, decide (u8 p 2 ≤ 15)),
     (3, if u8 p 1 = 3 then decide (u8 p 3 ≤ 15) && u8 p 3 != u8 p 2 else u8 p 3 == 0xFF),
     (4, decide (u8 p 4 ≤ 1)), (5, decide (u8 p 5 ≤ 50)),
     (0x0A, !(kind == 7 || kind == 8) || decide (0x10 ≤ u16 p 0x0A ∧ u16 p 0x0A ≤ 0x1FFE)),
     (0x0C, zeros p 0x0C 4), (0x5F, zeros p 0x5F 1),
     (0x60, !(kind == 2 || kind == 3) || decide (1 ≤ u8 p 0x60 ∧ u8 p 0x60 ≤ 64)),
     (0x61, !(kind == 2 || kind == 3) || decide (u8 p 0x61 ≤ 5)), (0x63, zeros p 0x63 13)]
  run k s :=
    let p := k.payload
    let mine := matchesOf p
    let bad := mine.any (fun m => m.2.1 == 0 || m.2.2.1 == 0) ||
      s.net.ingress.any fun e => (matchesOf e.2.payload).any mine.contains
    checked s [(!ingressFormatOk p, { status := eNetFormat }), (bad, { status := eNetAddr }),
        s.quota k tIngress (·.maxIngress)] fun _ =>
      match s.newObject tIngress 0xFF 1024 k.tok.via.fn with
      | none => refuse s (noIndex tIngress)
      | some (h, s) =>
        ok (s.modNet fun n => { n with ingress := n.ingress.put h { payload := slice p 0 0x70 } }) { result := h }

def execIngressCreate (c : Submission) (s : State) : Out := runEci specIngressCreate c s

def specIngressDestroy : EciSpec where
  opcode := 0x0802
  target := .object [tIngress]
  run k s :=
    let h := k.tok.handle
    checked s [(s.ingressUsed h, { status := .eState })] fun _ =>
      ok ((s.modNet fun n => { n with ingress := n.ingress.del h }).freeObject h)

def execIngressDestroy (c : Submission) (s : State) : Out := runEci specIngressDestroy c s

def specIngressQuery : EciSpec where
  opcode := 0x0803
  target := .object [tIngress]
  fast := false
  run k s :=
    let g := s.net.ingress.look {} k.tok.handle
    let st := ((g.paths.zip [1, 2]).map fun e => if e.1.up then e.2 else 0).sum
    let s := s.captureGroup 0 [g.packets, g.bytes, g.lost]
    ok s { response := le 8 (s.heldOf 0 0) ++ le 8 (s.heldOf 0 1) ++ le 8 (s.heldOf 0 2) ++ le 8 g.duplicates ++ le 8 g.policerDrops ++
             le 8 g.checksumDrops ++ le 1 st }

def execIngressQuery (c : Submission) (s : State) : Out := runEci specIngressQuery c s

/-! ### Egress streams -/

/-- A source suits a kind (R323, R328). -/
def State.kindSuits (s : State) (kind h : Nat) : Bool :=
  let t := handleType h
  let c := s.ch h
  let g := s.audio.programs.look {} h
  if kind = 0 ∨ kind = 4 then t == tLane && decide (64 ≤ handleIndex h ∧ handleIndex h < 80)
  else if kind = 2 then t == tAudioProgram && g.kind == 0 && !bit g.flags 2
  else if kind = 3 then t == tAudioProgram && bit g.flags 2
  else if kind = 5 then s.isEncoder h && c.cfg.codec == 0
  else if kind = 6 then s.isEncoder h && c.cfg.codec == 1
  else s.isEncoder h

/-- Fields of an `EGRESS.CREATE` payload for a kind, from `CLASS` on. -/
def egressFields (kind paths : Nat) (p : List Byte) : List (Nat × Bool) :=
  let ts := kind == 7 || kind == 8
  [(6, decide (u8 p 6 ≤ 6)), (7, decide (u8 p 7 ≤ 63)), (8, decide (u8 p 8 ≤ 17)),
   (9, if paths = 3 then decide (u8 p 9 ≤ 17) else decide (u8 p 9 ≤ 17) || u8 p 9 == 0xFF),
   (0x0A, decide (576 ≤ u16 p 0x0A) && decide (u16 p 0x0A ≤ if u16 p 0x1A = 0xFFFF then 1500 else 1496)),
   (0x10, u32 p 0x10 == 0 || decide (1538 ≤ u32 p 0x10 ∧ u32 p 0x10 ≤ 65536)),
   (0x18, kind == 8 || decide (96 ≤ u8 p 0x18 ∧ u8 p 0x18 ≤ 127)), (0x19, zeros p 0x19 1),
   (0x1A, decide (u16 p 0x1A ≤ 4094) || u16 p 0x1A == 0xFFFF), (0x22, zeros p 0x22 2),
   (0x4C, !ts || u16 p 0x4C == 0 || decide (10 ≤ u16 p 0x4C ∧ u16 p 0x4C ≤ 40)), (0x70, zeros p 0x70 16)]

/-- Addresses of a stream: destinations and UDP ports present, two paths on two ports (R328). -/
def egressAddrOk (paths : Nat) (p : List Byte) : Bool :=
  fieldAt p 0x24 16 != 0 && u16 p 0x1E != 0 &&
    (paths != 3 || fieldAt p 0x34 16 != 0 && u16 p 0x20 != 0 && u8 p 8 != u8 p 9)

/-- The bit rate of a stream's payload in b/s, and the bytes of headers in each of its datagrams (log entry 20). -/
def State.payloadBps (s : State) (kind source : Nat) : Nat :=
  let g := s.audio.programs.look {} source
  let f := ((s.lane.lanes.look {} (handleIndex source)).format).getD {}
  if kind = 2 then g.channels * 24 * rateHz g.rate
  else if kind = 3 then g.channels * 32 * rateHz g.rate
  else if kind = 0 then
    cdiv (f.width * f.height * (if f.sampling = 2 then 3 else 2) * f.depth * f.rateNum) f.rateDen
  else if kind = 4 then 1000000
  else 0

/-- The wire rate of an ST 2110 stream at its format, in kb/s. -/
def State.formatKbps (s : State) (kind source mtu : Nat) : Nat := wireKbps (s.payloadBps kind source) mtu 40

/-- The least `PACE_KBPS` of a stream (R345). -/
def State.minPace (s : State) (kind source mtu : Nat) : Nat :=
  if kind = 5 ∨ kind = 6 ∨ kind = 9 then cdiv (125 * (s.ch source).capKbps) 100
  else cdiv (125 * s.formatKbps kind source mtu) 100

/-- The least `PTS_DELAY` in ms (R331). -/
def State.leastPtsDelay (s : State) (source : Nat) : Nat :=
  let c := s.ch source
  cdiv (c.delayNs + cdiv (c.cpb * 1000000) (max 1 c.capKbps)) 1000000

/-- `MUX_KBPS` and `PTS_DELAY` reach their minima (R331). -/
def State.muxOk (s : State) (source : Nat) (p : List Byte) : Bool :=
  let c := s.ch source
  let rates := ((audioOf p).map fun h => (s.audio.programs.look {} h).tsKbps).sum
  let cap := c.capKbps
  let minDelay := s.leastPtsDelay source
  decide (11 * (cap + rates) + 3000 ≤ 10 * u32 p 0x44) && (u16 p 0x4E == 0 || decide (minDelay ≤ u16 p 0x4E))

/-- The rate at which a stream is charged on its ports (R334). -/
def State.streamKbps (s : State) (kind source : Nat) (p : List Byte) : Nat :=
  if kind = 7 ∨ kind = 8 then u32 p 0x44
  else if kind = 5 ∨ kind = 6 ∨ kind = 9 then
    (if u32 p 0x0C = 0 then s.minPace kind source (u16 p 0x0A) else u32 p 0x0C)
  else s.formatKbps kind source (u16 p 0x0A)

/-- The ports of a stream. -/
def egressPorts (paths : Nat) (p : List Byte) : List Nat := if paths = 3 then [u8 p 8, u8 p 9] else [u8 p 8]

/-- Packet-buffer need of a stream in bytes (R334). -/
def State.bufferNeed (s : State) (source : Nat) : Nat :=
  if handleType source = tChannel then cdiv (s.ch source).cpb 8 + 3072 else 3072

/-- Checks 12, 14 and 20 for a stream in place of stream `self` (0: a new one). -/
def State.egressAdmission (s : State) (self kind source paths : Nat) (p : List Byte) : List (Bool × Reply) :=
  let others := s.net.egress.filter fun e => e.1 != self
  let load (port : Nat) : Nat :=
    ((others.filter fun e => (egressPorts e.2.paths e.2.payload).contains port).map fun e =>
      s.streamKbps e.2.kind e.2.source e.2.payload).sum + s.streamKbps kind source p
  let need := (others.map fun e => s.bufferNeed e.2.source).sum + s.bufferNeed source
  let fed (h : Nat) : Nat := (others.filter fun e => e.2.source == h || e.2.programs.contains h).length
  (egressPorts paths p).map (fun port => bound 12 port (cdiv (105 * load port) 100) (s.portKbps port) 1) ++
  [bound 14 0xFF need (24 * 1048576) 1024]  ++
  (source :: (if kind = 7 ∨ kind = 8 then audioOf p else [])).map fun h =>
    ((handleType h == tChannel || handleType h == tAudioProgram) && decide (4 ≤ fed h), noCapacity 20 0xFF 1)

/-- The rules of a stream's settings, in the chapter's order: kind, format, addressing, pacing. -/
def State.egressRules (s : State) (k : Cmd) (kind source paths : Nat) (p : List Byte) : List (Bool × Reply) :=
  let ts := kind == 7 || kind == 8
  let progs := audioOf p
  [(!s.kindSuits kind source, { status := eNetKind }),
   (ts && progs.any fun h => (s.useObject k h [tAudioProgram]).isSome,
     (progs.findSome? fun h => s.useObject k h [tAudioProgram]).getD {}),
   (ts && progs.any fun h =>
      let g := s.audio.programs.look {} h
      !(g.kind == 1 || g.rate == 2 && !bit g.flags 2), { status := eNetFormat }),
   (kind == 2 && !((s.audio.programs.look {} source).rate == 2 || (s.audio.programs.look {} source).rate == 4),
     { status := eNetFormat }),
   ((source :: (if ts then progs else [])).any fun h => handleType h == tAudioProgram && s.programClock h != 0,
     { status := eAudioClock }),
   (!egressAddrOk paths p, { status := eNetAddr }),
   (if ts then !s.muxOk source p
    else u32 p 0x0C != 0 && decide (u32 p 0x0C < s.minPace kind source (u16 p 0x0A)), { status := ePaceLow })]

def specEgressCreate : EciSpec where
  opcode := 0x0804
  target := .device true
  fast := false
  form p _ :=
    [(4, u8 p 4 == 0 || decide (2 ≤ u8 p 4 ∧ u8 p 4 ≤ 9)), (5, u8 p 5 == 1 || u8 p 5 == 3)] ++
      egressFields (u8 p 4) (u8 p 5) p
  run k s :=
    let p := k.payload
    let src := u32 p 0
    let use := s.useObject k src [tLane, tAudioProgram, tChannel, tIngress, tEgress, tPort, tAudioPort]
    checked s ([(use.isSome, use.getD {})] ++ s.egressRules k (u8 p 4) src (u8 p 5) p ++
        [s.quota k tEgress (·.maxEgress)] ++ s.egressAdmission 0 (u8 p 4) src (u8 p 5) p) fun _ =>
      match s.newObject tEgress 0xFF 4096 k.tok.via.fn with
      | none => refuse s (noIndex tEgress)
      | some (h, s) =>
        let g : Egress :=
          { payload := slice p 0 0x80, source := src, kind := u8 p 4, paths := u8 p 5, nextPic := (s.ch src).nextPic }
        ok ((s.endLpi (egressPorts (u8 p 5) p)).modNet fun n => { n with egress := n.egress.put h g }) { result := h }

def execEgressCreate (c : Submission) (s : State) : Out := runEci specEgressCreate c s

/-- The boundary kind of an egress stream's settings. -/
def egressBoundary (h : Nat) : BoundaryKind := .accessUnit h

/-- The payload that `EGRESS.SET` gives: its own, with the stream's source, kind and paths (R335). -/
def Egress.merged (g : Egress) (p : List Byte) : List Byte := slice g.payload 0 6 ++ (slice p 0 0x80).drop 6

def specEgressSet : EciSpec where
  opcode := 0x0805
  target := .object [tEgress]
  fast := false
  run k s :=
    let h := k.tok.handle
    let g := s.net.egress.look {} h
    let p := g.merged k.payload
    match formFail (egressFields g.kind g.paths p) with
    | some r => refuse s r
    | none =>
      checked s (s.egressRules k g.kind g.source g.paths p ++ s.egressAdmission h g.kind g.source g.paths p) fun _ =>
        stage s (egressBoundary h) (.egress h p)

def execEgressSet (c : Submission) (s : State) : Out := runEci specEgressSet c s

def specEgressDestroy : EciSpec where
  opcode := 0x0806
  target := .object [tEgress]
  run k s :=
    let h := k.tok.handle
    checked s [((s.dec.decoders.any fun e => e.2.source == h) || (s.checkBound h (some 5)).isSome,
        { status := .eState })] fun _ => stage s (egressBoundary h) (.egressEnd h)

def execEgressDestroy (c : Submission) (s : State) : Out := runEci specEgressDestroy c s

def specEgressQuery : EciSpec where
  opcode := 0x0807
  target := .object [tEgress]
  fast := false
  run k s :=
    let g := s.net.egress.look {} k.tok.handle
    let s := s.captureGroup 0 [g.packets, g.bytes, g.impaired]
    ok s { response := le 8 (s.heldOf 0 0) ++ le 8 (s.heldOf 0 1) ++ le 8 (s.heldOf 0 2) ++ le 8 g.signed ++ le 8 g.droppedInBand ++
             le 1 (b2n g.odd) }

def execEgressQuery (c : Submission) (s : State) : Out := runEci specEgressQuery c s

/-- The manifest rate of provenance settings on a stream of picture rate `num` / `den`, in manifests per 10^6 s, rounded
up (R339). -/
def manifestRate (num den : Nat) (p : List Byte) : Nat :=
  let byPics := if u16 p 4 = 0 then 0 else cdiv (1000000 * num) (den * u16 p 4)
  let byMs := if u16 p 6 = 0 then 0 else cdiv 1000000000 (u16 p 6)
  if u8 p 0 = 0 then 0 else max byPics byMs

/-- Signing load with a stream's settings replaced, in manifests per 10^6 s. -/
def State.signLoad (s : State) (self : Nat) (p : List Byte) : Nat :=
  (s.net.egress.map fun e =>
    let c := (s.ch e.2.source).cfg
    manifestRate c.rateNum c.rateDen (if e.1 = self then p else e.2.prov.payload)).sum

def specEgressProvenance : EciSpec where
  opcode := 0x0808
  target := .object [tEgress]
  fast := false
  formIn k s :=
    let p := k.payload
    let g := s.net.egress.look {} k.tok.handle
    let on := u8 p 0 == 1
    [(0, decide (u8 p 0 ≤ 1)), (1, decide (u8 p 1 ≤ 3)),
     (2, !on || (u8 p 2 != 0 && (g.kind == 8 || u8 p 2 != g.keyExt))), (3, decide (u8 p 3 ≤ 17)),
     (4, decide (u16 p 4 ≤ 600)), (6, u16 p 6 == 0 || decide (100 ≤ u16 p 6 ∧ u16 p 6 ≤ 10000)), (0x0C, zeros p 0x0C 4)]
  run k s :=
    let h := k.tok.handle
    let p := k.payload
    let g := s.net.egress.look {} h
    let load := s.signLoad h p
    checked s [(decide (g.kind < 5), { status := eProvKind }),
        (u8 p 0 == 1 && u16 p 4 == 0 && u16 p 6 == 0, { status := eProvKind }),
        bound 13 0xFF load 25000000000 1000000] fun _ =>
      stage s (egressBoundary h) (.provenance h (slice p 0 32))

def execEgressProvenance (c : Submission) (s : State) : Out := runEci specEgressProvenance c s

/-- Streams to which a key is bound, or to which a bind is under way (R341). -/
def State.keyStreams (s : State) (key : Nat) : List Nat :=
  (s.net.egress.filter fun e => e.2.keyEven == key || e.2.keyOdd == key).map (·.1) ++
    s.changes.filterMap fun c => match c with
      | .egressKey eg x _ => if x = key then some eg else none
      | _ => none

def specEgressKey : EciSpec where
  opcode := 0x0809
  target := .object [tEgress]
  form p _ := [(5, zeros p 5 3)]
  run k s :=
    let h := k.tok.handle
    let p := k.payload
    let key := u32 p 0
    let g := s.net.egress.look {} h
    let rtp := g.kind != 7 && g.kind != 8
    match formFail [(4, !rtp || u8 p 4 != 0)] with
    | some r => refuse s r
    | none =>
      let use := if key = 0 then none else s.useObject k key [tKey]
      checked s [(g.kind == 0 || g.kind == 4, { status := eNetKind }), (use.isSome, use.getD {}),
          (key != 0 && (s.keyStreams key).any (· != h), { status := eKeyShared })] fun _ =>
        let kind : BoundaryKind := if u64 p 8 = 2 ^ 64 - 1 ∨ g.kind < 5 then .accessUnit h else .accessUnitAt h (u64 p 8)
        stage s kind (.egressKey h key (u8 p 4))

def execEgressKey (c : Submission) (s : State) : Out := runEci specEgressKey c s

def specEgressImpair : EciSpec where
  opcode := 0x080A
  target := .object [tEgress]
  fast := false
  form p _ := [(0x24, zeros p 0x24 4)]
  run k s :=
    let h := k.tok.handle
    let p := k.payload
    let g := s.net.egress.look {} h
    let ts := g.kind == 7 || g.kind == 8
    let bad := decide (64 ≤ u8 p 0) || (!ts && decide (16 ≤ u8 p 0)) || u32 p 4 == 0 || decide (4 ≤ u8 p 1) ||
      decide (u8 p 2 = 0 ∨ 64 < u8 p 2) || decide (u8 p 3 = 0 ∨ 16 < u8 p 3) ||
      (List.range 6).any (fun i => decide (2 ^ 24 < u32 p (8 + 4 * i))) ||
      (bit (u8 p 0) 5 && decide (u32 p 0x20 = 0 ∨ 50000 < u32 p 0x20))
    checked s [(bad, { status := eImpair })] fun _ => stage s (egressBoundary h) (.impair h (slice p 0 40))

def execEgressImpair (c : Submission) (s : State) : Out := runEci specEgressImpair c s

/-! ### Shapers and gate lists -/

def specShaperSet : EciSpec where
  opcode := 0x080B
  target := .object [tShaper]
  form p _ := [(0, decide (u8 p 0 ≤ 2)), (1, zeros p 1 3)]
  run k s :=
    let p := k.payload
    let i := handleIndex k.tok.handle
    let m := u8 p 0
    match formFail [(4, m == 0 || decide (1 ≤ u32 p 4 ∧ u32 p 4 ≤ s.portKbps (i / 8))),
        (8, m != 1 || decide (1538 ≤ u32 p 8 ∧ u32 p 8 ≤ 2 ^ 24)),
        (0x0C, if m = 2 then decide (s32 p 0x0C ≤ 0) else zeros p 0x0C 4)] with
    | some r => refuse s r
    | none => stage s .refill (.shaper (i / 8) (i % 8) (slice p 0 16))

def execShaperSet (c : Submission) (s : State) : Out := runEci specShaperSet c s

/-- Entries of a gate-list payload: gates and interval. -/
def gateEntries (p : List Byte) : List (Nat × Nat) :=
  (List.range (min 256 (u16 p 0x0C))).map fun i => (u8 p (0x10 + 8 * i), u32 p (0x14 + 8 * i))

/-- Entries with their durations in a cycle: cut at its end, the last one held to it (R349). -/
def gateSpans (p : List Byte) : List (Nat × Nat) :=
  let cycle := u32 p 8
  let rec go : List (Nat × Nat) → Nat → List (Nat × Nat)
    | [], _ => []
    | [(g, _)], at_ => if at_ < cycle then [(g, cycle - at_)] else []
    | (g, d) :: r, at_ => if at_ < cycle then (g, min d (cycle - at_)) :: go r (at_ + d) else []
  go (gateEntries p) 0

/-- The windows of a class in the spans of a list: first entry and length, from the spans rotated to begin after a closed
one; `base` is the index of the first span. -/
def windowsOf (c : Nat) (spans : List (Nat × Nat × Nat)) : List (Nat × Nat) :=
  let rec go : List (Nat × Nat × Nat) → Option (Nat × Nat) → List (Nat × Nat)
    | [], none => []
    | [], some w => [w]
    | (i, g, d) :: r, none => if bit g c then go r (some (i, d)) else go r none
    | (_, g, d) :: r, some w => if bit g c then go r (some (w.1, w.2 + d)) else w :: go r none
  go spans none

/-- The first entry of a window that is too short, for a class that is opened and never open long enough (R350). -/
def gateTooShort (p : List Byte) (need : Nat) : Option Nat :=
  let spans := (gateSpans p).zipIdx.map fun e => (e.2, e.1.1, e.1.2)
  (List.range 8).findSome? fun c =>
    match spans.findIdx? fun e => !bit e.2.1 c with
    | none => none
    | some i =>
      let ws := windowsOf c (spans.drop i ++ spans.take i)
      match ws with
      | [] => none
      | _ => if ws.any fun w => decide (need ≤ w.2) then none else (ws.map (·.1)).min?

def specGatelistSet : EciSpec where
  opcode := 0x080C
  target := .object [tGateList]
  form p _ :=
    [(8, decide (1000 ≤ u32 p 8 ∧ u32 p 8 ≤ 1000000000)), (0x0C, decide (u16 p 0x0C ≤ 256)), (0x0E, decide (u16 p 0x0E ≤ 1000))] ++
      (List.range (min 256 (u16 p 0x0C))).flatMap fun i =>
        [(0x11 + 8 * i, zeros p (0x11 + 8 * i) 3), (0x14 + 8 * i, decide (64 ≤ u32 p (0x14 + 8 * i)))]
  run k s :=
    let p := k.payload
    let port := handleIndex k.tok.handle
    let r := s.portKbps port
    let need := (if r = 0 then 0 else cdiv 12304000000 r) + u16 p 0x0E
    let short := gateTooShort p need
    checked s [(short.isSome, { status := eGatelist, detail := short.getD 0 })] fun _ =>
      stage s (.timeAt 0) (.gates port (slice p 0 (0x10 + 8 * u16 p 0x0C)))

def execGatelistSet (c : Submission) (s : State) : Out := runEci specGatelistSet c s

def specGatelistQuery : EciSpec where
  opcode := 0x080D
  target := .object [tGateList]
  fast := false
  run k s :=
    let g := s.net.ports.look {} (handleIndex k.tok.handle)
    let img (l : Option GateList) : List Byte := slice ((l.map (·.payload)).getD []) 0 0x810
    ok s { response := img g.gates ++ img g.gatesNext ++ le 8 ((g.gates.map (·.start)).getD 0) }

def execGatelistQuery (c : Submission) (s : State) : Out := runEci specGatelistQuery c s

/-! ### Policers and ports -/

/-- `BURST` and `ACTION` of a policer payload (R352, R359). -/
def policerFields (p : List Byte) : List (Nat × Bool) :=
  [(8, decide (1538 ≤ u32 p 8 ∧ u32 p 8 ≤ 2 ^ 24)), (0x0C, decide (u8 p 0x0C ≤ 1)), (0x0D, zeros p 0x0D 3)]

/-- `POLICER.CREATE` (R352, R359): the target handle and `TARGET` name the same stream or port (log entry 21). -/
def specPolicerCreate : EciSpec where
  opcode := 0x080E
  target := .object [tIngress, tPort]
  form p _ := policerFields p
  run k s :=
    let p := k.payload
    let t := k.tok.handle
    checked s [(s.net.policers.any fun e => e.2.target == t, { status := .eState }),
        (u32 p 0 != t, { status := .eBadParam, detail := 0 })] fun _ =>
      match s.newObject tPolicer 0xFF 1042 k.tok.via.fn with
      | none => refuse s (noIndex tPolicer)
      | some (h, s) =>
        let g : Policer := { target := t, rate := u32 p 4, burst := u32 p 8, action := u8 p 0x0C }
        ok (s.modNet fun n => { n with policers := n.policers.put h g }) { result := h }

def execPolicerCreate (c : Submission) (s : State) : Out := runEci specPolicerCreate c s

def specPolicerSet : EciSpec where
  opcode := 0x080F
  target := .object [tPolicer]
  form p _ := (0, zeros p 0 4) :: policerFields p
  run k s := stage s .refill (.policer k.tok.handle (slice k.payload 0 16))

def execPolicerSet (c : Submission) (s : State) : Out := runEci specPolicerSet c s

def specPolicerDestroy : EciSpec where
  opcode := 0x0810
  target := .object [tPolicer]
  run k s :=
    let h := k.tok.handle
    ok ((s.modNet fun n => { n with policers := n.policers.del h }).freeObject h)

def execPolicerDestroy (c : Submission) (s : State) : Out := runEci specPolicerDestroy c s

/-- `PORT.ADDR` (R359); the addresses of ports 16 and 17 are kept in boot flash (R472). Bytes 0x07 and 0x0D to
0x0F are taken as padding (log entry 185). -/
def specPortAddr : EciSpec where
  opcode := 0x0811
  target := .object [tPort]
  fast := false
  form p _ := [(0x0C, decide (u8 p 0x0C ≤ 32)), (0x20, decide (u8 p 0x20 ≤ 128))]
  run k s :=
    let i := handleIndex k.tok.handle
    let addr := slice k.payload 0 0x21
    let s := s.modNet fun n => { n with ports := n.ports.modD {} i fun g => { g with addr } }
    ok (if i < 16 then s else s.modBoot fun b => { b with flash := { b.flash with portAddr := b.flash.portAddr.put i addr } })

def execPortAddr (c : Submission) (s : State) : Out := runEci specPortAddr c s

def specArbiterMode : EciSpec where
  opcode := 0x0813
  target := .device false
  pf0Only := true
  form p _ := [(0, decide (u8 p 0 ≤ 1))]
  run k s :=
    let total := ((List.range 18).map s.portKbps).sum
    checked s [(!s.net.egress.isEmpty, { status := .eState }),
        (u8 k.payload 0 == 1 && decide (800000000 < total), { status := eArbMode })] fun _ =>
      ok (s.modNet fun n => { n with arbMode := u8 k.payload 0 })

def execArbiterMode (c : Submission) (s : State) : Out := runEci specArbiterMode c s

end Sys2Proof.Machine
end

