-- ==== Sys2Proof/Machine/Security.lean ====
section
/-!
DEFINITION. The security commands, image loading, the provenance key, and the security events of the board (Security and
Life Cycle).
-/

namespace Sys2Proof.Machine

open Sys2Proof (Byte Submission TapInstruction)

/-! ### Quotes, certificates and the provenance key (R456, R457, R338, R492) -/

/-- A command that needs a signature: answered now, or when the security processor is back (R492). -/
def State.whenSigning (s : State) (r : Reply) : Answer :=
  if s.boot.sec.spUp then ok s r else .wait .securityProcessor {} s

/-- The answers that wait for the security processor. -/
def State.signedReply (s : State) (k : Cmd) : Reply :=
  if k.tok.opcode = 0x0C01 then { response := s.quote (slice k.payload 0 32) ++ s.akCert }
  else if k.tok.opcode = 0x0C02 then
    { response := [s.idkCert, s.akCert, s.pkCert, s.kdkCert].flatMap fun c => le 4 c.length ++ c }
  else { response := le 4 s.pkId ++ s.pkPublic ++ s.pkCert }

def specSecQuote : EciSpec where
  opcode := 0x0C01
  target := .device true
  fast := false
  run k s := s.whenSigning (s.signedReply k)

def execSecQuote (c : Submission) (s : State) : Out := runEci specSecQuote c s

def specSecCerts : EciSpec where
  opcode := 0x0C02
  target := .device true
  fast := false
  run k s := s.whenSigning (s.signedReply k)

def execSecCerts (c : Submission) (s : State) : Out := runEci specSecCerts c s

def specProvKey : EciSpec where
  opcode := 0x0812
  target := .device true
  fast := false
  run k s := s.whenSigning (s.signedReply k)

def execProvKey (c : Submission) (s : State) : Out := runEci specProvKey c s

/-- The restarted security processor is back: what waited for it is answered (R492). -/
def execSecurityProcessorRestartDone (s : State) : Out :=
  if s.boot.sec.spUp then .next s
  else
    let s := (s.unitReset 1).modBoot fun b => { b with sec := { b.sec with spUp := true } }
    .next (s.completeRunning (fun r => r.await == .securityProcessor) fun r => s.signedReply r.cmd)

/-- The security processor's fatal error: restart, and a wipe with response 1 (R492). Locks that it owns on the hub are
released as broken by its fault (R229). -/
def execSpFatalError (s : State) : Out :=
  if s.boot.stage == .ready && s.boot.sec.spUp then
    .next ((s.modBoot fun b => { b with sec := { b.sec with spUp := false } }).startWipe [] 1
      |>.breakLocksOf 8 (6 * 512 + 2) 2 |>.settleSd 8)
  else .next s

/-! ### Keys (R458) -/

/-- The material that a `KEY.IMPORT` payload unwraps to. -/
def State.unwrap (s : State) (p : List Byte) : Option (List Byte) :=
  let aad := le 8 s.boot.fuses.serial ++ le 4 (u32 p 0)
  let ss := slice (Config.mlKemDecaps s.kemD s.kemZ (slice p 8 1088)) 0 32
  let kek := sha3 (label "VOLDEL-KEK" ++ ss ++ aad)
  Config.gcmOpen kek (slice p 0x448 12) aad (slice p 0x464 40 ++ slice p 0x454 16)

def specKeyImport : EciSpec where
  opcode := 0x0C03
  target := .device true
  fast := false
  form p _ := [(0, u32 p 0 != 0), (4, zeros p 4 4)]
  run k s :=
    let p := k.payload
    let id := u32 p 0
    checked s [((s.unwrap p).isNone, { status := .eIntegrity }), (s.boot.sec.keys.any fun e => e.2.1 == id, { status := eKeyExists }),
        (decide (8192 ≤ s.boot.sec.keys.length), noCapacity 18 0xFF 1),
        (!s.boot.sec.spUp || s.boot.sec.wipePending.isSome, { status := .eHwFault })] fun _ =>
      match s.newObject tKey 0xFF 8192 k.tok.via.fn with
      | none => refuse s (noIndex tKey)
      | some (h, t) =>
        let material := slice ((s.unwrap p).getD []) 0 40
        ok (t.modBoot fun b => { b with sec := { b.sec with keys := b.sec.keys.put h (id, material) } }) { result := h }

def execKeyImport (c : Submission) (s : State) : Out := runEci specKeyImport c s

/-- A stream binds a KEY, or a change under way names it. -/
def State.keyUsed (s : State) (h : Nat) : Bool :=
  (s.net.egress.any fun e => e.2.keyEven == h || e.2.keyOdd == h) ||
  s.changes.any fun c => match c with | .egressKey _ key _ => key == h | _ => false

def specKeyDestroy : EciSpec where
  opcode := 0x0C04
  target := .object [tKey]
  fast := false
  run k s :=
    let h := k.tok.handle
    checked s [(s.keyUsed h, { status := .eState })] fun _ =>
      ok ((s.freeObject h).modBoot fun b => { b with sec := { b.sec with keys := b.sec.keys.del h } })

def execKeyDestroy (c : Submission) (s : State) : Out := runEci specKeyDestroy c s

/-! ### Life cycle and fuses (R448, R451 to R453) -/

/-- An active image carries a countersignature under one of two owner key hashes. -/
def countersigned (img h0 h1 : List Byte) : Bool :=
  let key := sha3 (imageOwnerKey img)
  (key == h0 || (h1 != zeros32 && key == h1)) && ownerSigned img

/-- What a life-cycle move asks for beyond its block (R451, R452): `E_LC_PRECOND` with its number. -/
def State.lcPrecond (s : State) (p : List Byte) : List (Bool × Reply) :=
  let u := s.boot.fuses
  let target := u8 p 0
  let pre (n : Nat) : Reply := { status := eLcPrecond, detail := n }
  let h0 := slice p 4 32
  let h1 := slice p 0x24 32
  let f := s.boot.flash
  if target = 2 then
    [(((u.programmed 4) && u.hash 4 != h0) || (u.programmed 5 && u.hash 5 != h1), pre 4),
     (!(countersigned (f.image f.active 1) h0 h1 && countersigned (f.image f.active 2) h0 h1), pre 1)]
  else []

/-- A target that `SEC.LC_ADVANCE` may name in the present state. -/
def Fuses.targetOk (u : Fuses) (target : Nat) : Bool := target == u.lcState + 1 || (target == 4 && decide (1 ≤ u.lcState))

/-- The fuses of a life-cycle move, in the order of R451. -/
def Fuses.advance (u : Fuses) (p : List Byte) : Fuses :=
  let target := u8 p 0
  let u := if target = 2 then
      { u with ownerHash := (u.ownerHash.put 4 (slice p 4 32)).put 5 (slice p 0x24 32) }
    else { u with dbgKill := 0xFF }
  let u := if target = 4 then { u with idSeed := List.replicate 32 0xFF } else u
  { u with lc := u.lc ||| (3 * 2 ^ (2 * (target - 1))) }

/-- The form of a life-cycle payload. -/
def lcForm (p : List Byte) : List (Nat × Bool) :=
  [(0, decide (2 ≤ u8 p 0 ∧ u8 p 0 ≤ 4)), (1, zeros p 1 3), (4, u8 p 0 == 2 || zeros p 4 32), (0x24, u8 p 0 == 2 || zeros p 0x24 32),
   authForm p 0x44]

/-- A move to OWNED is repeated: its block is checked against the payload's hash although slot 4 no longer reads zero, and
hashes other than those programmed are refused by the precondition (R452). -/
def State.enrolAgain (s : State) (p : List Byte) : State :=
  if u8 p 0 = 2 then
    s.modBoot fun b => { b with fuses := { b.fuses with ownerHash := b.fuses.ownerHash.put 4 zeros32 } }
  else s

/-- The refusal of a life-cycle payload: the block, then the command's own preconditions, the target first (R449). -/
def State.lcRefused (s : State) (p : List Byte) : Option Reply :=
  ((s.enrolAgain p).blockRefused 0x0C05 (u8 p 0) p 0x44).or
    (firstFail ((!s.boot.fuses.targetOk (u8 p 0), { status := eLcPrecond, detail := 3 }) :: s.lcPrecond p))

/-- The life-cycle move itself: the counter, the fuses, the wipe, and the restart 10 ms later. -/
def State.lcMove (s : State) (p : List Byte) : State :=
  let s := s.countUp
  let s := s.modBoot fun b => { b with fuses := b.fuses.advance p }
  (s.startWipe [] 1).modBoot fun b => { b with restartAt := some (s.now + 10000000, false) }

def specSecLcAdvance : EciSpec where
  opcode := 0x0C05
  target := .device false
  pf0Only := true
  fast := false
  form p _ := lcForm p
  run k s :=
    match s.lcRefused k.payload with
    | some r => refuse s r
    | none => ok (s.lcMove k.payload)

def execSecLcAdvance (c : Submission) (s : State) : Out := runEci specSecLcAdvance c s

def specSecOwnerKeyAdd : EciSpec where
  opcode := 0x0C06
  target := .device false
  pf0Only := true
  fast := false
  form p _ := [authForm p 0x20]
  run k s :=
    let p := k.payload
    match s.blockRefused 0x0C06 0 p 0x20 with
    | some r => refuse s r
    | none =>
      if s.boot.fuses.programmed 5 then refuse s { status := .eState }
      else
        let s := s.acceptBlock 0x0C06 0
        ok (s.modBoot fun b => { b with fuses := { b.fuses with ownerHash := b.fuses.ownerHash.put 5 (slice p 0 32) } })

def execSecOwnerKeyAdd (c : Submission) (s : State) : Out := runEci specSecOwnerKeyAdd c s

/-- Usable slots of a kind once `slot` is revoked. -/
def Fuses.othersUsable (u : Fuses) (slots : List Nat) (slot : Nat) : Bool :=
  slots.any fun i => i != slot && u.programmed i && !u.revoked i

/-- The slot signed either active image. -/
def State.signsActive (s : State) (slot : Nat) : Bool :=
  let f := s.boot.flash
  [f.image f.active 1, f.image f.active 2].any fun i =>
    !i.isEmpty && (if slot < 4 then imageVslot i == slot else imageOslot i == slot)

def Fuses.revoke (u : Fuses) (slot : Nat) : Fuses :=
  if slot < 4 then { u with vendorRevoke := u.vendorRevoke ||| (15 * 2 ^ (4 * slot)) }
  else { u with ownerRevoke := u.ownerRevoke ||| (15 * 2 ^ (4 * (slot - 4))) }

def specSecKeyRevoke : EciSpec where
  opcode := 0x0C07
  target := .device false
  pf0Only := true
  fast := false
  form p _ := [(0, decide (u8 p 0 < 6)), (1, zeros p 1 3), authForm p 4]
  run k s :=
    let p := k.payload
    let slot := u8 p 0
    let u := s.boot.fuses
    let last := if slot < 4 then !u.othersUsable [0, 1, 2, 3] slot else decide (2 ≤ u.lcState) && !u.othersUsable [4, 5] slot
    match s.blockRefused 0x0C07 0 p 4 with
    | some r => refuse s r
    | none =>
      checked s [(last, { status := eLastKey }), (s.signsActive slot, { status := eLcPrecond, detail := 2 })] fun _ =>
        ok ((s.acceptBlock 0x0C07 0).modBoot fun b => { b with fuses := b.fuses.revoke slot })

def execSecKeyRevoke (c : Submission) (s : State) : Out := runEci specSecKeyRevoke c s

def specSecSvnCommit : EciSpec where
  opcode := 0x0C08
  target := .device false
  pf0Only := true
  fast := false
  form p _ := [(0, decide (1 ≤ u8 p 0 ∧ u8 p 0 ≤ 2)), (1, zeros p 1 3), authForm p 4]
  run k s :=
    let p := k.payload
    let type := u8 p 0
    let f := s.boot.flash
    let svn := u16 (f.image s.boot.slot type) 0x0C
    let fuse := if type = 1 then s.boot.fuses.fwSvn else s.boot.fuses.rcpSvn
    let trial := match f.trial with | some t => u16 (f.image t type) 0x0C | none => svn
    match s.blockRefused 0x0C08 0 p 4 with
    | some r => refuse s r
    | none =>
      checked s [(decide (fuse < svn) && decide (trial < svn), { status := eSvn, detail := trial })] fun _ =>
        ok ((s.acceptBlock 0x0C08 0).modBoot fun b =>
          { b with fuses := if type = 1 then { b.fuses with fwSvn := max fuse svn } else { b.fuses with rcpSvn := max fuse svn } })

def execSecSvnCommit (c : Submission) (s : State) : Out := runEci specSecSvnCommit c s

/-! ### Debug (R454, R455) -/

def specSecDebugChallenge : EciSpec where
  opcode := 0x0C09
  target := .device false
  pf0Only := true
  fast := false
  run _ s :=
    let n := slice (Config.trng s.free) 0 32
    ok ((s.modBoot fun b => { b with sec := { b.sec with nonce := some (n, s.now) } }).useFree) { response := n }

def execSecDebugChallenge (c : Submission) (s : State) : Out := runEci specSecDebugChallenge c s

/-- Debug is unlocked with a scope: the counter, the nonce, the wipe, the latch and the event come first (R455). Scan is opened
only in the safe state; the reason code of that entry is not stated. -/
def State.openDebug (s : State) (scope : Nat) : State :=
  let s := s.countUp
  let s := s.modBoot fun b => { b with sec := { b.sec with nonce := none } }
  let s := s.startWipe [] 1
  let s := s.modBoot fun b => { b with sec := { b.sec with unlocked := true } }
  let s := s.raise evDebugUnlocked deviceHandle scope
  let s := if bit scope 1 then (s.useFree).enterSafe (Config.freeNat s.free % 256) else s
  s.modBoot fun b => { b with sec := { b.sec with debugScope := scope } }

def specSecDebugUnlock : EciSpec where
  opcode := 0x0C0A
  target := .device false
  pf0Only := true
  fast := false
  form p _ := [(0, decide (u8 p 0 < 4)), (1, zeros p 1 3), authForm p 4]
  run k s :=
    let p := k.payload
    let scope := u8 p 0
    match s.boot.fuses.authority 0x0C0A 0, s.boot.sec.nonce with
    | .stop st, _ => refuse s { status := st }
    | _, none => refuse s { status := .eState }
    | _, some (n, since) =>
      if since + 60000000000 < s.now then refuse s { status := .eState }
      else match s.authorise 0x0C0A 0 p 4 (u64 n 0) n { status := .eIntegrity } with
        | some r => refuse s r
        | none =>
          if s.boot.fuses.dbgKill ≠ 0 then refuse s { status := .eLocked }
          else ok (s.openDebug scope)

def execSecDebugUnlock (c : Submission) (s : State) : Out := runEci specSecDebugUnlock c s

/-- The device answers an instruction of the test port (R454). -/
def State.tapAllows (s : State) (i : TapInstruction) : Bool :=
  let u := s.boot.fuses
  let open_ (scope : Bool) : Bool := u.dbgKill == 0 && (u.lcState == 0 || (decide (u.lcState < 3) && scope))
  match i with
  | .bypass | .idcode | .sample | .extest => true
  | .debugAccess => open_ (bit s.boot.sec.debugScope 0)
  | .scan => open_ (bit s.boot.sec.debugScope 1)
  | .fuseProgramming => open_ (s.boot.sec.debugScope != 0)

def tapCode : TapInstruction → Nat
  | .bypass => 0 | .idcode => 1 | .sample => 2 | .extest => 3 | .debugAccess => 4 | .scan => 5 | .fuseProgramming => 6

/-- The IDCODE word (R454). -/
def State.idcode (s : State) : Nat :=
  s.boot.fuses.hubStep % 16 * 2 ^ 28 + s.boot.fuses.variant.deviceId * 2 ^ 12 + Config.manufacturerCode % 2048 * 2 + 1

/-- A test-port instruction is loaded: one that is not allowed is answered as BYPASS; EXTEST outside RESET enters the
safe state; scan first moves an unlocked device into it (R454, R455). -/
def execTapInstructionLoad (i : TapInstruction) (s : State) : Out :=
  let s' := s.modBoot fun b => { b with sec := { b.sec with
    tap := if s.tapAllows i then tapCode i else 0, tapOut := if i = .idcode then some s.idcode else none } }
  if i = .extest ∧ s.boot.stage ≠ .reset ∧ s.boot.stage ≠ .safe then .next (s'.enterSafe 0x52) else .next s'

/-! ### Tamper (R463 to R467) -/

/-- A change of the tamper settings needs authorisation: it lowers a response or disarms the loop. -/
def KeepAlive.lowers (k : KeepAlive) (p : List Byte) : Bool :=
  ((List.range 6).any fun i => decide (u8 p i < k.responses.getD i 0)) || (k.loopArmed && u8 p 6 == 0)

def specSecTamperSet : EciSpec where
  opcode := 0x0C0B
  target := .device false
  pf0Only := true
  fast := false
  form p _ := ((List.range 6).map fun i => (i, decide (u8 p i ≤ 2))) ++ [(6, decide (u8 p 6 ≤ 1)), (7, zeros p 7 1), authForm p 8]
  run k s :=
    let p := k.payload
    let apply (s : State) : State := s.modBoot fun b => { b with ka := { b.ka with
      responses := (List.range 6).map fun i => u8 p i, loopArmed := u8 p 6 == 1 } }
    if s.boot.ka.lowers p then
      match s.blockRefused 0x0C0B 0 p 8 with
      | some r => refuse s r
      | none => ok (apply (s.acceptBlock 0x0C0B 0))
    else ok (apply s)

def execSecTamperSet (c : Submission) (s : State) : Out := runEci specSecTamperSet c s

/-- The 16 bytes of a tamper log entry. -/
def TamperEntry.encode (e : TamperEntry) : List Byte :=
  le 1 e.sensor ++ le 1 e.response ++ le 1 (b2n e.whileOff) ++ le 1 0 ++ le 8 e.seconds ++ le 4 e.counter

def specSecTamperLog : EciSpec where
  opcode := 0x0C0C
  target := .device true
  fast := false
  run _ s :=
    let k := s.boot.ka
    ok s { response := le 2 k.tamperLog.length ++ le 2 k.tamperOverflow ++ k.tamperLog.flatMap TamperEntry.encode }

def execSecTamperLog (c : Submission) (s : State) : Out := runEci specSecTamperLog c s

def specSecTamperClear : EciSpec where
  opcode := 0x0C0D
  target := .device false
  pf0Only := true
  fast := false
  form p _ := [authForm p 0]
  run k s :=
    match s.blockRefused 0x0C0D 0 k.payload 0 with
    | some r => refuse s r
    | none =>
      ok ((s.acceptBlock 0x0C0D 0).modBoot fun b => { b with ka := { b.ka with tamperLog := [], tamperOverflow := 0 } })

def execSecTamperClear (c : Submission) (s : State) : Out := runEci specSecTamperClear c s

/-- A sensor can trip now: while main power is off only sensors 3 to 5, and sensor 5 only when it is armed. -/
def State.sensorLive (s : State) (i : Nat) (whileOff : Bool) : Bool :=
  (if whileOff then !s.boot.railsGood && decide (3 ≤ i) else s.boot.railsGood) && (i != 5 || s.boot.ka.loopArmed)

/-- One sensor, or two in the same cycle, trip (R463, R466, R467). -/
def execTamperTrip (sensor : Fin 6) (second : Option (Fin 6)) (whileOff : Bool) (s : State) : Out :=
  let hit := ((sensor.val :: (second.map Fin.val).toList).eraseDups).filter fun i => s.sensorLive i whileOff
  let trips := hit.map fun i => s.tripEntry i whileOff
  let s := trips.foldl State.logTrip s
  if whileOff then
    .next (s.modBoot fun b => { b with ka := { b.ka with tripsWhileOff := b.ka.tripsWhileOff ++ trips } })
  else
    let response := (trips.map (·.response)).foldl max 0
    if response = 0 then .next (trips.foldl (fun s t => s.raiseTamper t false) s)
    else .next (s.startWipe trips response)

/-- The last steps of a wipe. -/
def execWipeDone (s : State) : Out := .next s.finishWipe

/-! ### Counter and credentials (R462, R468) -/

/-- `SEC.COUNTER`: only reading may use the fast path (R53), and incrementing is PF0's alone (R56). -/
def specSecCounter : EciSpec where
  opcode := 0x0C0E
  target := .device true
  slow p := u8 p 0 != 0
  locked k _ := if k.tok.via.fn ≠ 0 ∧ u8 k.payload 0 = 1 then some { status := .eDenied } else none
  form p _ := [(0, decide (u8 p 0 ≤ 1))]
  run k s :=
    if u8 k.payload 0 = 1 then
      let s := s.countUp
      ok s { response := le 8 s.boot.ka.counter }
    else ok s { response := le 8 s.boot.ka.counter }

def execSecCounter (c : Submission) (s : State) : Out := runEci specSecCounter c s

def specSecCredSet : EciSpec where
  opcode := 0x0C0F
  target := .device false
  pf0Only := true
  fast := false
  form p _ := [(0, decide (u8 p 0 < 16)), (1, decide (u8 p 1 ≤ 32)), (2, decide (u8 p 2 ≤ 1)), (3, zeros p 3 1), authForm p 0x24]
  run k s :=
    let p := k.payload
    match s.blockRefused 0x0C0F 0 p 0x24 with
    | some r => refuse s r
    | none =>
      let i := u8 p 0
      let s := s.acceptBlock 0x0C0F 0
      let s := s.modBoot fun b => { b with flash := { b.flash with
        credentials := b.flash.credentials.put i (slice p 4 32, u8 p 1, u8 p 2 == 1) } }
      let open_ := if u8 p 2 = 1 then [] else (s.eci.sessions.sel fun _ c => c.credential == i + 1).keys
      ok (open_.foldl (fun s n => s.closeSession n 0) s)

def execSecCredSet (c : Submission) (s : State) : Out := runEci specSecCredSet c s

/-! ### Image load (R69, R473) -/

/-- Checks of a load that come before approval: the type, the size of a recipe image. -/
def imageChecks (code : Nat) (img : List Byte) : List (Bool × Reply) :=
  [(u8 img 6 != codeType code, { status := .eBadParam, detail := 4 + 6 }),
   (codeType code == 2 && decide (0x2000000 < img.length), { status := .eBadParam, detail := 4 })]

def specDeviceImageLoad : EciSpec where
  opcode := 0x0009
  target := .device false
  pf0Only := true
  fast := false
  adminOnly := true
  maxPayload := 0x4000000
  form p _ := [(0, decide (u8 p 0 ≤ 3)), (1, zeros p 1 3)]
  run k s :=
    let code := u8 k.payload 0
    let img := k.payload.drop 4
    checked s (imageChecks code img ++
        [(code / 2 == s.boot.flash.active, { status := eSlotActive }),
         ((s.boot.fuses.approve img (codeType code)).isSome, { status := .eIntegrity })]) fun _ =>
      ok (s.modBoot fun b => { b with flash := { b.flash with images := b.flash.images.put code img } })

def execDeviceImageLoad (c : Submission) (s : State) : Out := runEci specDeviceImageLoad c s

end Sys2Proof.Machine
end

