-- ==== Sys2Proof/Machine/Startup.lean ====
section
/-!
DEFINITION. Power, reset, boot, recovery mode, the keep-alive supplies and the PCIe link (Start-up, Recovery, Fail-over
and Self-test, R470 to R487; Serial Lanes, R403 to R407).
-/

namespace Sys2Proof.Machine

open Sys2Proof (Byte Junctions Element BistReport DieNo)

/-! ### Power and `SYS_RST_N` (R470, R508, R523) -/

/-- The rails are good; the keep-alive oscillator has run meanwhile, for a time that is open (R487). -/
def execPowerGood (s : State) : Out :=
  if s.boot.railsGood then .next s
  else
    let (off, s) := s.fresh
    .next ((s.modBoot fun b => { b with railsGood := true, ka := { b.ka with seconds := b.ka.seconds + off } }).leaveReset)

/-- A brown-out has tripped the supply-glitch sensor before it resets the device; removing the rails of the `VDDIO` domain
is not told apart from it (log entry 39). -/
def execBrownOut (s : State) : Out :=
  if s.boot.railsGood then
    let s := s.logTrip (s.tripEntry 0 false)
    .next ((s.modBoot fun b => { b with railsGood := false }).intoReset)
  else .next s

/-- `SYS_RST_N` is low for `ns`: below 1 µs it is ignored, from 2 µs it is a reset; between them whether it is recognised is
open (R523). A recognised low releases the `THERM_TRIP_N` latch (R504). -/
def execSysRstNLow (ns : Nat) (s : State) : Out :=
  let maybe := decide (1000 ≤ ns ∧ ns < 2000)
  let seen := decide (2000 ≤ ns) || (maybe && Config.freeNat s.free % 2 == 1)
  let s := if maybe then s.useFree else s
  if seen then .next ((s.modBoot fun b => { b with sysRstLow := true, thermTripLatch := false }).intoReset) else .next s

def execSysRstNRelease (s : State) : Out :=
  if s.boot.sysRstLow then .next ((s.modBoot fun b => { b with sysRstLow := false }).leaveReset) else .next s

/-! ### Restarts (R70, R451, R478) -/

/-- The 10 ms of `DEVICE.RESTART` or of a life-cycle move have passed. -/
def execRestartDelayExpiry (s : State) : Out :=
  match s.boot.restartAt with
  | some (t, rec) =>
    if t ≤ s.now then
      .next (s.modBoot fun b => if rec then { b with ka := { b.ka with request := some 0x03 } } else b).restart
    else .next s
  | none => .next s

/-- The device restarts within 100 ms of a failed start. -/
def execFailedStartRestart (s : State) : Out := if s.boot.failedAt.isSome then .next s.restart else .next s

/-! ### ROM (R452, R474, R475, R479, R486) -/

/-- The keep-alive island as the ROM sets it when its signature does not check (R468, R485, R486). -/
def Boot.coldKa (b : Boot) : KeepAlive :=
  { signature := true, counter := b.flash.counterBackup + 65536, lcShadow := b.fuses.lcState, supplyLog := [(3, 0)] }

/-- Some junction lies above the grade's maximum (R4). -/
def Boot.tooHot (b : Boot) : Bool := b.junctions.any fun j => decide ((if b.fuses.grade = 0 then 1000 else 1050 : Int) < j)

/-- Recovery mode is entered (R479). -/
def State.enterRecovery (s : State) (reason : Nat) : State :=
  let s := s.logReason reason
  let s := s.setStage .recovery
  s.modBoot fun b => { b with
    ka := { b.ka with request := none, attempt := false }
    recovery := true, recState := 1, diesFenced := 2 ^ b.fuses.variant.dies - 1, recoverAs := none }

/-- Why this start goes to recovery mode, if it does: a lowered life cycle, the strap, a request, three failed starts, or a
life-cycle state in which no firmware runs, whose reason code `unstated` no rule gives (R450, R479, R483; log entry 25). -/
def Boot.recoveryReason (b : Boot) (strap : Bool) (unstated : Nat) : Option Nat :=
  let lc := b.fuses.lcState
  if lc < b.ka.lcShadow then some 0x29
  else if strap then some 0x01
  else if b.ka.request.isSome then b.ka.request
  else if 3 ≤ b.ka.bootCount ∧ b.ka.attempt = false then some 0x04
  else if lc = 0 ∨ lc = 4 then some unstated else none

/-- The boot record's trial at a normal start (R474): marked tried and booted, or, found tried, given up. -/
def State.chooseSlot (s : State) : State :=
  match s.boot.flash.trial with
  | none => s.modBoot fun b => { b with slot := b.flash.active }
  | some t =>
    if s.boot.flash.tried then
      let reason := s.boot.flash.trialFail
      let s := s.modBoot fun b => { b with
        flash := { b.flash with trial := none, tried := false, trialFail := 0, seqNo := b.flash.seqNo + 1 }
        slot := b.flash.active, fallback := some (t, reason) }
      s.logReason 0x43
    else s.modBoot fun b => { b with
      flash := { b.flash with tried := true, trialFail := 0, seqNo := b.flash.seqNo + 1 }, slot := t, trialRun := true }

/-- The ROM goes on once no junction is too hot: recovery mode, or the slot of a normal start. -/
def State.romGoesOn (s : State) : State :=
  match s.boot.recoverAs with
  | some r => s.enterRecovery r
  | none => (s.modBoot fun b => { b with ka := { b.ka with attempt := false } }).chooseSlot

/-- The ROM starts (R475 step 2). An entry condition of recovery mode is judged before a failure of hub DRAM or boot flash,
so a third failed start leads to recovery mode here too (R470, R478, R479; log entry 144). -/
def execRomStart (bootHost bootRecovery dramOk flashOk : Bool) (s : State) : Out :=
  if s.boot.held || s.boot.stage != .reset then .next s
  else
    let cold := !s.boot.ka.signature
    let s := s.modBoot fun b => { b with
      bootHost, startRef := 0, kaColdAtStart := cold, counterRestored := cold
      ka := if cold then b.coldKa else b.ka }
    let s := s.setStage .rom
    let s := s.countUp
    let s := s.modBoot fun b => { b with sec := { b.sec with issued := b.ka.counter } }
    let why := s.boot.recoveryReason bootRecovery (Config.freeNat s.free % 256)
    let s := s.useFree
    if !dramOk && why.isNone then .next (s.failStart 0x31)
    else if !flashOk && why.isNone then .next (s.failStart 0x32)
    else
      let s := if why = some 0x29 then s.logTrip (s.tripEntry 3 false) else s
      let s := s.modBoot fun b => { b with
        ka := { b.ka with lcShadow := max b.ka.lcShadow b.fuses.lcState }, recoverAs := why }
      if s.boot.tooHot then .next (s.modBoot fun b => { b with thermalWait := some s.now }) else .next s.romGoesOn

/-- The ROM checks the junctions again after 100 ms (R475). -/
def execThermalWaitCheck (junctions : Junctions) (s : State) : Out :=
  match s.boot.thermalWait with
  | some t =>
    if s.now < t + 100000000 then .next s
    else
      let s := s.modBoot fun b => { b with
        junctions := ((junctions.dies ++ List.replicate 8 250).take 8) ++ [junctions.hub], waited := b.waited + (s.now - t) }
      if s.boot.tooHot then .next (s.modBoot fun b => { b with thermalWait := some s.now })
      else .next (s.modBoot fun b => { b with thermalWait := none }).romGoesOn
  | none => .next s

/-- The security processor has formed ξ and checked the images of the chosen slot (R447, R452, R475 step 3). -/
def execImageVerifyDone (pufOk : Bool) (s : State) : Out :=
  if s.boot.stage != .rom || s.boot.thermalWait.isSome || s.boot.failedAt.isSome then .next s
  else
    let s := s.setStage .verify
    let fw := s.boot.flash.image s.boot.slot 1
    let rcp := s.boot.flash.image s.boot.slot 2
    if !pufOk || s.boot.fuses.idSeed == List.replicate 32 0xFF then
      .next ((s.modBoot fun b => { b with sec := { b.sec with xiFormed := false } }).failStart 0x28)
    else match (s.boot.fuses.approve fw 1).or (s.boot.fuses.approve rcp 2) with
      | some r => .next (s.failStart r)
      | none =>
        let s := s.modBoot fun b => { b with
          recipeVersion := u32 rcp 8, fwDigest := imageDigest fw, rcpDigest := imageDigest rcp
          sec := { b.sec with tk := b.sec.tk + 1 } }
        .next (s.setStage .bist)

/-! ### BIST and READY (R475 to R477) -/

/-- An element fails BIST or self-test and is fenced; an SRAM bank counts as one that a spare can replace while two spares
remain. -/
def DieHealth.fence (h : DieHealth) (e : Element) : DieHealth :=
  let add (l : List Nat) (n : Nat) : List Nat := if l.contains n then l else l ++ [n]
  match e with
  | .pixelEngine n => { h with enginesFenced := add h.enginesFenced n.val }
  | .msu n => { h with msusFenced := add h.msusFenced n.val }
  | .filterUnit n => { h with filtersFenced := add h.filtersFenced n.val }
  | .sramBank n => { h with banksFenced := add h.banksFenced n.val }
  | .schedulerRam n => { h with ramsFenced := add h.ramsFenced n.val }

/-- Change a die's health. -/
def State.modHealth (s : State) (d : Nat) (f : DieHealth → DieHealth) : State :=
  s.modBoot fun b => { b with health := b.health.modD {} d f }

/-- A cluster whose MSU is fenced is served by the lowest working MSU that serves no other cluster (R108). -/
def State.shareMsu (s : State) (d c : Nat) : State :=
  let fenced := (s.boot.health.look {} d).msusFenced
  let serving := (s.chan.msuServing.filter fun e => e.1 / 16 == d).map (·.2)
  match (List.range 16).find? fun m => !fenced.contains m && !serving.contains m with
  | some m => (s.modChan fun x => { x with msuServing := x.msuServing.put (16 * d + c) m }).raise evMsuShared (dieHandle d)
      (c + m * 256)
  | none => s

/-- Spare banks take the place of a die's fenced banks (R434). -/
def State.swapSpares (s : State) (d : Nat) : State :=
  let g := s.boot.health.look {} d
  ((g.banksFenced.take 2).filter fun n => !g.banksSwapped.contains n).foldl (fun s n =>
    let s := s.modDie d fun m => { m with spares := m.spares + 1 }
    let s := s.modHealth d fun h => { h with banksSwapped := h.banksSwapped ++ [n] }
    s.raise evSramSpare (dieHandle d) (n + (63 + (s.dm d).spares) * 256)) s

/-- A channel that is not `IDLE` runs on a die. -/
def State.dieBusy (s : State) (d : Nat) : Bool := s.chan.chans.any fun e => e.2.state != .idle && e.2.dies.contains d

/-- The fence of one element is in place: an MSU is served by another; a bank gets a spare, at the next picture boundary on
a die that runs channels (R434). -/
def State.fenceElement (s : State) (d : Nat) (e : Element) : State :=
  let s := s.modHealth d fun h => h.fence e
  match e with
  | .msu n =>
    let lost := ((s.chan.msuServing.filter fun e => e.1 / 16 == d && e.2 == n.val).map fun e => e.1 % 16)
    let s := s.modChan fun x => { x with msuServing := x.msuServing.filter fun e => !(e.1 / 16 == d && e.2 == n.val) }
    (n.val :: lost).foldl (fun s c => s.shareMsu d c) s
  | .sramBank n =>
    if (s.boot.health.look {} d).banksFenced.length ≤ 2 then (if s.dieBusy d then s else s.swapSpares d)
    else s.raise evSramSpare (dieHandle d) (n.val + 0xFF * 256)
  | _ => s

/-- Boot BIST holds a die in reset for this failure. -/
def State.bistHolds (s : State) (d : Nat) (e : Element) : Bool :=
  match e with
  | .pixelEngine _ | .msu _ => false
  | .sramBank _ => decide (2 ≤ (s.boot.health.look {} d).banksFenced.length)
  | _ => true

/-- A die is held in reset (R477). -/
def State.holdDie (s : State) (d : Nat) : State := s.modBoot fun b => { b with diesFenced := setBit b.diesFenced d }

/-- Boot BIST ends, and firmware starts: the version registers read from then on (R476, and the table of `ECI_VERSION` and
`FW_VERSION`). -/
def execBistDone (report : BistReport) (s : State) : Out :=
  if s.boot.stage != .bist || s.boot.failedAt.isSome then .next s
  else if report.hubFault || (report.mpAFault && report.mpBFault) then .next (s.failStart 0x30)
  else
    let s := s.modBoot fun b => { b with
      mpActive := b2n report.mpAFault
      mpA := if report.mpAFault then .fenced else .primary
      mpB := if report.mpBFault then .fenced else if report.mpAFault then .primary else .coldStandby }
    let s := report.elements.foldl (fun s x =>
      let d := x.1.val
      if s.dies ≤ d then s else if s.bistHolds d x.2 then s.holdDie d else s.fenceElement d x.2) s
    let s := report.otherFault.foldl (fun s d => if d.val < s.dies then s.holdDie d.val else s) s
    let fw := s.boot.flash.image s.boot.slot 1
    .next ((s.setStage .fwStart).modBoot fun b => { b with eciVersion := 0x10000, fwVersion := u32 fw 8 })

/-- The bound that runs from the start reference plus the thermal wait has passed; while the wait lasts it has not. -/
def State.startPast (s : State) (ns : Nat) : Bool :=
  s.boot.thermalWait.isNone && decide (s.boot.startRef + s.boot.waited + ns ≤ s.now)

/-- Dies held in reset make the start degraded once READY is reached (R477). -/
def State.degrade (s : State) : State :=
  (s.modBoot fun b => { b with degraded := true }).raise evDegraded deviceHandle s.boot.diesFenced

/-- Firmware reports READY (R463, R474, R475, R477, R486). -/
def execFirmwareReady (s : State) : Out :=
  if s.boot.stage != .fwStart || s.boot.failedAt.isSome then .next s
  else
    let s := s.setStage .ready
    let b := s.boot
    let s := s.modBoot fun b => { b with
      ka := { b.ka with bootCount := 0, tripsWhileOff := [] }
      flash := if b.trialRun then
        { b.flash with active := b.slot, trial := none, tried := false, seqNo := b.flash.seqNo + 1 } else b.flash
      lastReport := s.now, journaledAt := s.now }
    let s := s.modEci fun e => { e with sessionPort := b.flash.sessionPort.getD 7418 }
    let s := s.modNet fun n => { n with ports := b.flash.portAddr.foldl (fun t e => t.modD {} e.1 fun p => { p with addr := e.2 }) n.ports }
    let s := if b.kaColdAtStart then s.raise evKaSupply deviceHandle (3 + s.kaSeconds * 65536) else s
    let s := if b.counterRestored then s.raise evCounterRestored deviceHandle b.ka.counter else s
    let s := b.ka.tripsWhileOff.foldl (fun s t => s.raiseTamper t false) s
    let s := match b.fallback with
      | some (slot, reason) => s.raise evBootFallback deviceHandle (slot + reason * 256)
      | none => s
    let held := (List.range s.dies).filter fun d => bit b.diesFenced d
    let s := held.foldl (fun s d => s.raise evDieFault (dieHandle d) (7 + d * 256)) s
    .next (if held.isEmpty then s else s.degrade)

/-- A die reports READY (R475 step 7): it comes up with its heartbeats running. -/
def execDieReady (d : DieNo) (s : State) : Out :=
  let i := d.val
  if !(s.boot.stage == .fwStart || s.boot.stage == .ready) || decide (s.dies ≤ i) || bit s.boot.diesFenced i ||
      bit s.boot.diesReady i then .next s
  else
    let s := s.modBoot fun b => { b with diesReady := setBit b.diesReady i }
    .next (s.modHealth i fun h => { h with beat0 := s.now, beat1 := s.now, period := s.now, cycleStart := s.now })

/-- A die has not reported READY within 2.5 s: it is held in reset (R477). -/
def execDieReadyTimeout (d : DieNo) (s : State) : Out :=
  let i := d.val
  if !(s.boot.stage == .fwStart || s.boot.stage == .ready) || decide (s.dies ≤ i) || bit s.boot.diesFenced i ||
      bit s.boot.diesReady i || !s.startPast 2500000000 then .next s
  else
    let s := s.holdDie i
    if s.boot.stage = .ready then .next (s.raise evDieFault (dieHandle i) (7 + i * 256)).degrade else .next s

/-- Firmware has not reported READY within 10 s (R478). -/
def execFirmwareReadyTimeout (s : State) : Out :=
  let early := s.boot.stage == .rom || s.boot.stage == .verify || s.boot.stage == .bist || s.boot.stage == .fwStart
  if early && s.boot.failedAt.isNone && s.startPast 10000000000 then .next (s.failStart 0x40) else .next s

/-! ### Recovery window (R480 to R483) -/

/-- The 16 bytes of a reason entry. -/
def Reason.encode (r : Reason) : List Byte :=
  le 1 r.reason ++ le 1 r.stage ++ le 1 r.count ++ le 1 0 ++ le 4 r.detail ++ le 8 r.seconds
def KeepAlive.reasonBytes (k : KeepAlive) : List Byte := slice (k.reasons.flatMap Reason.encode) 0 48

/-- In RETIRED every command but get reasons is locked. -/
def State.recLocked (s : State) (cmd : Nat) : Option State :=
  if s.boot.fuses.lcState = 4 then some (s.recDone cmd .eLocked []) else none

def execRecGetReasons (s : State) : Out :=
  if s.recIdle then .next (s.recDone 1 .ok s.boot.ka.reasonBytes) else .next s

def execRecGetAttestation (s : State) : Out :=
  if !s.recIdle then .next s
  else match s.recLocked 2 with
    | some t => .next t
    | none =>
      if !s.boot.sec.xiFormed then .next (s.recDone 2 .eHwFault [])
      else .next (s.recDone 2 .ok (s.quote (s.eci.mailbox.load 0 32) ++ s.akCert))

def execRecLoadImage (s : State) : Out :=
  if !s.recIdle then .next s
  else match s.recLocked 3 with
    | some t => .next t
    | none =>
      let code := s.boot.recArg
      let img := s.mem.data.load 0 s.boot.recLen
      if 4 ≤ code ∨ 0x4000000 < s.boot.recLen ∨ (firstFail (imageChecks code img)).isSome then .next (s.recDone 3 .eBadParam [])
      else if (s.boot.fuses.approve img (codeType code)).isSome then .next (s.recDone 3 .eIntegrity [])
      else .next ((s.modBoot fun b => { b with flash := { b.flash with images := b.flash.images.put code img } }).recDone 3 .ok [])

def execRecSetBootSlot (s : State) : Out :=
  if !s.recIdle then .next s
  else match s.recLocked 4 with
    | some t => .next t
    | none =>
      let slot := s.boot.recArg
      if 2 ≤ slot then .next (s.recDone 4 .eBadParam [])
      else if !s.slotApproved slot then .next (s.recDone 4 .eIntegrity [])
      else
        let s := s.modBoot fun b => { b with flash := { b.flash with
          active := slot, trial := none, tried := false, seqNo := b.flash.seqNo + 1 } }
        .next (s.recDone 4 .ok [])

def execRecRestart (s : State) : Out :=
  if !s.recIdle then .next s
  else match s.recLocked 5 with
    | some t => .next t
    | none =>
      let arg := s.boot.recArg
      if 2 ≤ arg then .next (s.recDone 5 .eBadParam [])
      else
        let s := s.modBoot fun b => { b with
          ka := if arg = 0 then { b.ka with attempt := true } else { b.ka with request := some 0x02 } }
        .next s.restart

def execRecFinishLcMove (s : State) : Out :=
  if !s.recIdle then .next s
  else match s.recLocked 6 with
    | some t => .next t
    | none =>
      let p := s.eci.mailbox.load 0 (min 65536 s.boot.recLen)
      match (formFail (lcForm p)).or (s.lcRefused p) with
      | some r => .next (s.recDone 6 r.status [])
      | none => .next ((s.lcMove p).recDone 6 .ok [])

/-- The host's writes to `REC_RESET`: ignored in the safe state (R481). -/
def execRecResetNormal (s : State) : Out := if s.hostWrites 0 then .next s.restart else .next s
def execRecResetRecovery (s : State) : Out :=
  if s.hostWrites 0 then .next (s.modBoot fun b => { b with ka := { b.ka with request := some 0x02 } }).restart else .next s

/-! ### Keep-alive supplies (R485) -/

/-- A switch of supply is logged, and reported while main power is on and firmware runs. -/
def State.kaSwitch (s : State) (backup : Bool) : State :=
  if s.boot.ka.onBackup == backup then s
  else
    let kind := if backup then 1 else 2
    let seconds := s.kaSeconds
    let s := s.modBoot fun b => { b with ka := { b.ka with
      onBackup := backup
      supplyLog := (b.ka.supplyLog ++ [(kind, seconds)]).drop ((b.ka.supplyLog.length + 1) - 16) } }
    if s.boot.stage = .ready then s.raise evKaSupply deviceHandle (kind + seconds * 65536) else s

def execKaSwitchToBackup (s : State) : Out := .next (s.kaSwitch true)
def execKaSwitchToMain (s : State) : Out := .next (s.kaSwitch false)

/-! ### The PCIe link (R403 to R407, R542) -/

/-- The endpoint is up: from ROM start on with `BOOT_HOST` high, and always in recovery mode (R471). -/
def State.pcieUp (s : State) : Bool :=
  !s.boot.held && s.boot.stage != .reset && (s.boot.bootHost || s.boot.stage == .recovery) && !s.eci.perst

/-- The link is up or down on lanes PL0 to the link's width; a change is reported once, for the link (R393, R394). -/
def State.pcieLanes (s : State) (width : Nat) (up : Bool) : State :=
  let set (s : State) (i : Nat) : State :=
    s.modLn (32 + i) fun l => { l with
      up, causes := if up then 0 else 4, lastCause := if up then l.lastCause else 4
      downCount := if l.up && !up then min 0xFFFFFFFF (l.downCount + 1) else l.downCount }
  if up then
    let was := (s.ln 32).up
    let s := (List.range width).foldl set s
    if was then s else s.raise evLaneUp (laneHandle 32) 0
  else (((List.range width).drop 1).foldl set s).assertCauses 32 4

/-- The PCIe interface is reset: the link is down, every function disabled, configuration space at its reset values and
the VFs gone (R406, R542). -/
def State.pcieReset (s : State) : State :=
  let s := if s.eci.linkUp then s.pcieLanes s.eci.linkWidth false else s
  let vfs := (List.range 33).filter fun v => decide (1 ≤ v) && (s.fn v).enabled
  let s := vfs.foldl State.removeVf s
  let s := (s.unitReset 13).resetFunction 0
  let s := (List.range 33).foldl (fun s f => if (s.eci.fns.has f) then s.modFn f fun g => { g with msix := [] } else s) s
  s.modEci fun e => { e with linkUp := false, linkDownAt := none, linkGen := 0, linkWidth := 0, linkPower := 0
                             presets := [], eqAnswers := [], numVfs := 0 }

def execPerstNAssert (s : State) : Out :=
  if s.eci.perst then .next s else .next (s.modEci fun e => { e with perst := true }).pcieReset

def execPerstNRelease (s : State) : Out := .next (s.modEci fun e => { e with perst := false })

def execPcieLinkDown (s : State) : Out :=
  if s.eci.linkUp then
    .next ((s.modEci fun e => { e with linkUp := false, linkDownAt := some s.now }).pcieLanes s.eci.linkWidth false)
  else .next s

/-- What waited for the link or for a take-over is written in order. -/
def State.flushAll (s : State) : State :=
  let s := s.flushCompletions
  s.functions.foldl (fun s f => s.flushEvents f) s

def execPcieLinkReturn (s : State) : Out :=
  match s.eci.linkDownAt with
  | some t =>
    if s.now ≤ t + 100000000 ∧ s.pcieUp then
      .next ((s.modEci fun e => { e with linkUp := true, linkDownAt := none, linkPower := 0 }).pcieLanes s.eci.linkWidth true).flushAll
    else .next s
  | none => .next s

def execPcieLinkLossTimeout (s : State) : Out :=
  match s.eci.linkDownAt with
  | some t => if t + 100000000 ≤ s.now then .next s.pcieReset else .next s
  | none => .next s

/-- The link trains, or changes speed or width while up (R403, R407). At 8 GT/s and above `settled` is the preset of the root port's
transmitters with which phase 2 ended (R404). -/
def execPcieLinkTrained (gen : Fin 6) (width : Fin 9) (settled : Fin 11) (s : State) : Out :=
  let g := gen.val
  let w := width.val
  if !s.pcieUp || g == 0 || !([1, 2, 4, 8].contains w) then .next s
  else
    let changed := s.eci.linkUp && (s.eci.linkGen != g || s.eci.linkWidth != w)
    let presets := if 3 ≤ g then (List.range w).map fun i => (i, settled.val) else []
    let s := s.modEci fun e => { e with linkUp := true, linkDownAt := none, linkGen := g, linkWidth := w, linkPower := 0, presets }
    let s := (s.pcieLanes w true).flushAll
    .next (if decide (g < 5) || w != 8 || changed then s.raise evPcieLink (laneHandle 32) (w + g * 256) else s)

/-- Taps c(-1), c(0) and c(1) of a transmitter preset, in units of 1/64 (PRESUMED, the base specification's ratios; log entry 215). -/
def presetTaps (p : Nat) : List Int :=
  [[0, 48, -16], [0, 53, -11], [0, 51, -13], [0, 56, -8], [0, 64, 0], [-6, 58, 0], [-8, 56, 0], [-6, 45, -13], [-8, 48, -8],
    [-11, 53, 0], [0, 43, -21]].getD p [0, 64, 0]

/-- The root port requests a transmitter setting: applied, or rejected and the setting stays; the answer is reported (R404). -/
def execPcieEqRequest (lane : Fin 8) (preset : Fin 11) (s : State) : Out :=
  if !s.pcieUp then .next s
  else
    let yes := Config.eqAccepts preset.val
    let s := s.modEci fun e => { e with eqAnswers := e.eqAnswers.put lane.val yes }
    .next (if yes then s.modLn (32 + lane.val) fun l => { l with taps := [0, 0] ++ presetTaps preset.val } else s)

def execAspmL0sEntry (s : State) : Out :=
  if s.eci.linkUp && s.eci.linkPower == 0 then .next (s.modEci fun e => { e with linkPower := 1 }) else .next s
def execAspmL1Entry (s : State) : Out :=
  if s.eci.linkUp then .next (s.modEci fun e => { e with linkPower := 2 }) else .next s

end Sys2Proof.Machine
end

