-- ==== Sys2Proof/Machine/Mp.lean ====
section
/-!
DEFINITION. Management processors: reports, fences, take-over, journal, repair; and the health, supply-log and
temperature commands (Start-up, Recovery, Fail-over and Self-test, R488 to R491, R499 to R505).
-/

namespace Sys2Proof.Machine

open Sys2Proof (Byte Submission LateWrite)

/-- Firmware reached READY and the device neither restarts nor stands in the safe state. -/
def State.afterReady (s : State) : Bool := s.boot.stage == .ready

/-- The primary reports to the supervisor (R488). -/
def execMpReport (s : State) : Out :=
  if s.firmwareRuns then .next (s.modBoot fun b => { b with lastReport := s.now }) else .next s

/-- 20 ms without a report: the supervisor fences the primary (R489). -/
def execMpReportTimeout (s : State) : Out :=
  if s.firmwareRuns && decide (s.boot.lastReport + 20000000 ≤ s.now) then .next s.fencePrimary else .next s

/-- Firmware is starting: the primary runs and READY has not been reached. -/
def State.beforeReady (s : State) : Bool :=
  (s.boot.stage == .rom || s.boot.stage == .verify || s.boot.stage == .bist || s.boot.stage == .fwStart) &&
    s.boot.failedAt.isNone

/-- The primary signals a fatal error: before READY the start fails (R478), after it the primary is fenced (R489). -/
def execMpFatalError (s : State) : Out :=
  if s.firmwareRuns then .next s.fencePrimary
  else if s.beforeReady then .next (s.failStart 0x41) else .next s

/-- The standby has been started with the verified firmware copy (R489 step 3). -/
def execStandbyStartDone (s : State) : Out :=
  if s.afterReady && s.boot.fencedAt.isSome && s.boot.hasStandby && !s.boot.standbyUp then
    .next (s.modBoot fun b => { b with standbyUp := true })
  else .next s

/-- Firmware journals its other state: the maintenance tuple and the event ring positions (R488). -/
def execFirmwareStateJournal (s : State) : Out :=
  if s.firmwareRuns then
    .next (s.journalTuple.modBoot fun b => { b with
      journaledAt := s.now, journalTuple := (List.range 33).map fun f => (s.fn f).ring.tail })
  else .next s

/-! ### Take-over (R489) -/

/-- The agent ID of a management processor (R207). -/
def mpAgent (n : Nat) : Nat := 6 * 512 + n

/-- `EV_TAKEOVER` 0 with the time of the fence and `EV_TAKEOVER` 1, in that order, go before the events held since the fence
and behind those held before it (R489, R498). -/
def State.insertTakeover (s : State) (f fence : Nat) (e0 e1 : Event) : State :=
  let g := s.fn f
  if !g.wants e0 then s
  else
    let s := (s.sendSessions f e0).sendSessions f e1
    if !g.rdy then s.modFn f fun g => { g with ring := (g.ring.lose e0).lose e1 }
    else
      let early := g.ring.held.takeWhile fun e => decide (e.time < fence)
      let late := g.ring.held.drop early.length
      (s.modFn f fun g => { g with ring := { g.ring with held := early ++ [e0, e1] ++ late } }).flushEvents f

/-- A command that was fetched and never journaled completes with `E_TAKEOVER` (R22). -/
def State.loseCommands (s : State) : State :=
  s.eci.fetched.foldl (fun s t =>
    let k : Cmd := { tok := t, sub := { port := .ring 0 0 } }
    (s.modEci fun e => { e with fetched := e.fetched.filter (· != t) }).complete k { status := .eTakeover }) s

/-- The new primary takes the journal lock, which it receives `BROKEN`, replays the journal, and releases the lock
(R230, R489 step 4). -/
def State.takeJournal (s : State) (agent : Nat) : State :=
  let s := s.modSd 8 fun d => { d with
    clock := d.clock + 1
    locks := d.locks.modD {} 0 fun g => { g with direct := { agent, order := d.clock + 1 } :: g.direct } }
  let s := s.settleSd 8
  if ((s.sd 8).locks.look {} 0).owner == some (agent, 0) then
    let ev : TraceEvent := { type := 6, agent, detail := 0, direct := true }
    (s.releaseLock 8 0 ev).settleSd 8
  else s

/-- A late write of the fenced processor lands within 2 µs of the fence; whatever it changes is overwritten whole by the
new primary's own copy before `TAKEOVER` clears, and journal records of the old epoch are discarded (R489, R44). -/
def execFencedProcessorLateWrite (w : LateWrite) (s : State) : Out :=
  match s.boot.fencedAt with
  | none => .next s
  | some t =>
    if t + 2000 < s.now then .next s
    else match w with
      | .journal => .next s
      | .mailbox word value =>
        let x := 4 * word.val
        if s.functions.any fun f => deviceWord f x then
          let own := s.eci.mailbox.load x 4
          let s := s.modBoot fun b => { b with lateWords := if b.lateWords.has x then b.lateWords else b.lateWords.put x own }
          .next (s.mbxStore x (le 4 value.toNat))
        else .next s
      | .register f rdy _ cfgErr =>
        let g := s.fn f.val
        let s := s.modBoot fun b => { b with
          lateRegs := if b.lateRegs.has f.val then b.lateRegs else b.lateRegs.put f.val (g.rdy, g.cfgErr) }
        .next (s.modFn f.val fun g => { g with rdy, cfgErr })

/-- The new primary writes each word and register that a late write hit from its own copy (R44, R489). -/
def State.rewriteLate (s : State) : State :=
  let s := s.boot.lateWords.foldl (fun s w => s.mbxStore w.1 w.2) s
  let s := s.boot.lateRegs.foldl (fun s r => s.modFn r.1 fun g => { g with rdy := r.2.1, cfgErr := r.2.2 }) s
  s.modBoot fun b => { b with lateWords := [], lateRegs := [] }

/-- The standby is primary: it completes the commands, writes `EV_TAKEOVER` and clears `TAKEOVER` (R489 step 5). Commands
that were journaled go on to wait for what they waited for (R22). -/
def execTakeoverComplete (s : State) : Out :=
  match s.boot.fencedAt with
  | none => .next s
  | some fence =>
    if !s.afterReady || !s.boot.standbyUp then .next s
    else
      let new := 1 - s.boot.mpActive
      let s := s.modBoot fun b => { b.setMp new .primary with
        mpActive := new, standbyUp := false, lastReport := s.now, journaledAt := s.now }
      let s := (s.rewriteLate.takeJournal (mpAgent new)).resolveWraps
      let s := (s.unitReset 0).loseCommands
      let time := fence
      let e0 : Event := { code := evTakeover.1, severity := evTakeover.2, handle := deviceHandle, time, detail := new * 256 }
      let e1 : Event := { e0 with time := s.stamp, detail := 1 + new * 256 }
      let s := s.modBoot fun b => { b with fencedAt := none }
      let s := s.flushCompletions
      let s := s.functions.foldl (fun s f => s.insertTakeover f fence e0 e1) s
      .next (s.causeAll takeoverCause).flushAll

/-! ### Repair of a management processor (R490) -/

/-- The fenced processor: the one that is not primary. -/
def Boot.fencedMp (b : Boot) : Option Nat := if b.mpOther = .fenced then some (1 - b.mpActive) else none

/-- The repair BIST ends: a warm standby, or still fenced with `E_REPAIR`. -/
def execMpRepairBistDone (pass : Bool) (s : State) : Out :=
  if !s.boot.mpRepairing then .next s
  else
    let n := 1 - s.boot.mpActive
    let s := s.modBoot fun b => { (if pass then b.setMp n .warmStandby else b) with mpRepairing := false }
    let s := s.raise evMpState deviceHandle ((if pass then 2 else 3) + n * 256)
    .next (s.completeRunning (fun r => r.await == .mpRepair)
      fun r => if pass then r.reply else { r.reply with status := eRepair })

def specMpRepair : EciSpec where
  opcode := 0x0D04
  target := .device false
  pf0Only := true
  run _ s :=
    checked s [(s.boot.fencedMp.isNone, { status := .eState })] fun _ =>
      .wait .mpRepair {} (s.modBoot fun b => { b with mpRepairing := true })

def execMpRepair (c : Submission) (s : State) : Out := runEci specMpRepair c s

/-! ### Queries and the boot slot (R474, R485, R501, R503, R505) -/

def specHealthQuery : EciSpec where
  opcode := 0x0D01
  target := .device true
  fast := false
  run _ s :=
    let b := s.boot
    let r := le 1 b.ka.bootCount ++ le 1 b.flash.active ++ le 1 (b.flash.trial.getD 0xFF) ++
      le 1 (b.mpA.code + 4 * b.mpB.code) ++ le 4 b.statusWord ++ le 8 s.kaSeconds ++ b.ka.reasonBytes
    ok s { response := r }

def execHealthQuery (c : Submission) (s : State) : Out := runEci specHealthQuery c s

/-- `BOOT.SLOT_SET`: the active slot clears any trial; the other slot is approved and becomes the trial slot. -/
def specBootSlotSet : EciSpec where
  opcode := 0x0D02
  target := .device false
  pf0Only := true
  form p _ := [(0, decide (u8 p 0 ≤ 1)), (1, zeros p 1 7)]
  run k s :=
    let slot := u8 k.payload 0
    if slot = s.boot.flash.active then
      ok (s.modBoot fun b => { b with flash := { b.flash with
        trial := none, tried := false, seqNo := b.flash.seqNo + 1 } })
    else
      checked s [(!s.slotApproved slot, { status := .eIntegrity })] fun _ =>
        ok (s.modBoot fun b => { b with flash := { b.flash with
          trial := some slot, tried := false, seqNo := b.flash.seqNo + 1 } })

def execBootSlotSet (c : Submission) (s : State) : Out := runEci specBootSlotSet c s

def specIsstQuery : EciSpec where
  opcode := 0x0D05
  target := .object [tDie]
  run k s := s.gated k.tok.handle <|
    let d := handleDie k.tok.handle
    let h := s.boot.health.look {} d
    let r := le 4 h.slices ++ le 4 h.fails ++ le 4 h.deferred ++ le 2 h.enginesFenced.length ++
      le 1 h.msusFenced.length ++ le 1 (s.mem.dies.look {} d).spares ++ le 4 h.slice ++ le 4 h.lastCycleMs
    ok s { response := r }

def execIsstQuery (c : Submission) (s : State) : Out := runEci specIsstQuery c s

def specKaLog : EciSpec where
  opcode := 0x0D06
  target := .device true
  fast := false
  run _ s :=
    let l := s.boot.ka.supplyLog
    let entries := l.flatMap fun e => le 1 e.1 ++ List.replicate 7 0 ++ le 8 e.2
    ok s { response := le 2 l.length ++ List.replicate 6 0 ++ slice entries 0 256 }

def execKaLog (c : Submission) (s : State) : Out := runEci specKaLog c s

def specThermQuery : EciSpec where
  opcode := 0x0E01
  target := .device true
  run _ s :=
    let b := s.boot
    let die (d : Nat) : Nat :=
      if s.dies ≤ d ∨ bit b.diesFenced d then 0x8000 else twos 16 (b.junctions.getD d 0)
    let r := (List.range 8).flatMap (fun d => le 2 (die d)) ++ le 2 (twos 16 (b.junctions.getD 8 0)) ++
      le 1 (b2n b.thermAlert) ++ le 1 b.fuses.grade
    ok s { response := r }

def execThermQuery (c : Submission) (s : State) : Out := runEci specThermQuery c s

end Sys2Proof.Machine
end

