-- ==== Sys2Proof/Machine/Rate.lean ====
section
/-!
DEFINITION. Rate control: the CPB model, fill bounds, the judgement quantities, the judgement table, the picture QP
(Rate Control and Fixed Delay, R181 to R200).
-/

namespace Sys2Proof.Machine

/-- Units of the model in one bit (R181). -/
def unitBits : Nat := 65536

/-- A(j), the bits that have arrived after j row removals, in units (R181). -/
def Channel.arrivals (c : Channel) (j : Nat) : Nat :=
  65536 * (c.capKbps * 1000) * j * c.cfg.rateDen / (c.cfg.rateNum * c.cfg.rows)

/-- The nominal arrival per row, rounded down. -/
def Channel.rowArrival (c : Channel) : Nat := c.arrivals 1

/-- B in units. -/
def Channel.bUnits (c : Channel) : Nat := c.cpb * unitBits

/-- The largest access unit of R181 for picture `n`, in units; B where the level is unknown. -/
def Channel.aMax (c : Channel) (n : Nat) : Nat :=
  match c.cfg.limit with
  | some l => c.cfg.auMaxOf l ((c.pics.look {} n).seqStart == n) * unitBits
  | none => c.bUnits

/-! ### Refresh (R163) -/

/-- CTU columns that picture `i` of a refresh has clean. -/
def Channel.cleanColumns (c : Channel) (i : Nat) : Nat :=
  min c.cfg.cols ((i + 1) * cdiv c.cfg.cols (max 1 c.set.refreshPics))

/-- Columns of the clean area of picture `i` that are coded intra. -/
def Channel.bandColumns (c : Channel) (i : Nat) : Nat :=
  c.cleanColumns i - min c.cfg.cols (i * cdiv c.cfg.cols (max 1 c.set.refreshPics))

/-! ### Fill bounds (R189, R198, R199) -/

/-- Sum over a row's CTUs of the skip-fill bound of their fill coding. -/
def Channel.fillCtus (c : Channel) (p : Pic) : Nat :=
  let (merge, zeroVec, intra) := c.cfg.fillBounds
  match p.kind with
  | .repeat_ | .hubFill => c.cfg.cols * merge
  | _ =>
    match p.type, p.refresh with
    | .idr, _ | .cra, _ => c.cfg.cols * intra
    | _, some i =>
      let band := c.bandColumns i
      let clean := c.cleanColumns i - band
      band * intra + clean * zeroVec + (c.cfg.cols - band - clean) * merge
    | _, none => c.cfg.cols * merge

/-- f_k in units. For a row of the next picture (`k` ≥ R) the largest bound, with H_MAX at its row 0. -/
def Channel.fillUnits (c : Channel) (p : Pic) (k : Nat) : Nat :=
  if k < c.cfg.rows then (c.fillCtus p + c.cfg.fillOverhead c.set.hashSei k) * unitBits
  else (c.cfg.fillRow c.set.hashSei c.cfg.fillMax (k - c.cfg.rows) + (if k = c.cfg.rows then hMax else 0)) * unitBits

/-- Z_k, the skive reserve. -/
def Channel.reserve (c : Channel) (p : Pic) (k : Nat) : Nat :=
  ((List.range (c.cfg.rows - k)).map fun i => c.fillUnits p (k + i)).sum

/-- The running values (f_k + … + f_j) − (j − k) × a and their largest. -/
def floorFrom (a : Nat) : List Nat → Int → Int → Int
  | [], _, best => best
  | f :: r, acc, best =>
    let acc := acc + f
    floorFrom a r (acc - a) (max best acc)

/-- V_k, the conformance floor (R189). -/
def Channel.floor (c : Channel) (p : Pic) (k : Nat) : Int :=
  floorFrom c.rowArrival ((List.range (2 * c.cfg.rows - k)).map fun i => c.fillUnits p (k + i)) 0 (c.fillUnits p k)

/-! ### Judgement (R189, R191, R192, R197) -/

/-- The quantities of R189 for row `k`, in units. -/
structure Budget where
  f : Int := 0
  z : Int := 0
  g : Int := 0
  u : Int := 0
  h : Int := 0
  b : Int := 0
deriving DecidableEq, Repr

def Channel.pic (c : Channel) (n : Nat) : Pic := c.pics.look {} n
def Channel.rowKey (c : Channel) (n k : Nat) : Nat := n * c.cfg.rows + k
def Channel.row (c : Channel) (n k : Nat) : Row := c.rows.look {} (c.rowKey n k)
def Channel.modPic (c : Channel) (n : Nat) (f : Pic → Pic) : Channel := { c with pics := c.pics.upd n f }
def Channel.modRow (c : Channel) (n k : Nat) (f : Row → Row) : Channel :=
  { c with rows := c.rows.upd (c.rowKey n k) f }

/-- The channel with the settings that picture `n` has had since its boundary (R20). -/
def Channel.at_ (c : Channel) (n : Nat) : Channel := match c.pics.find n with | some p => { c with set := p.set } | none => c

/-- A change under the settings of picture `n`. -/
def Channel.under (c : Channel) (n : Nat) (f : Channel → Channel) : Channel := { f (c.at_ n) with set := c.set }

/-- The row weights of R189: of the picture's own rows up to `k`, of the last coded picture's beyond it. -/
def Channel.rowWeights (c : Channel) (n k : Nat) : List Nat :=
  let own := (c.row n k).cplx
  let ws := (List.range (c.cfg.rows - k)).map fun i => if i = 0 then own else (c.weights[k + i]?).getD own
  if ws.sum = 0 then ws.map fun _ => 1 else ws

/-- The judgement quantities of row `k` of picture `n` at a fullness. -/
def Channel.budget (c : Channel) (n k : Nat) (omega : Int) : Budget :=
  let c := c.at_ n
  let p := c.pic n
  let a : Int := c.rowArrival
  let f : Int := c.fillUnits p k
  let z : Int := c.reserve p k
  let left : Int := c.aMax n - p.spent * unitBits
  let g := min (c.bUnits : Int) (min (omega + (c.cfg.rows - 1 - k : Nat) * a) left)
  let u := g - z
  let h := min omega (min (omega + a - c.floor p (k + 1)) (left - c.reserve p (k + 1)))
  let ws := c.rowWeights n k
  { f, z, g, u, h, b := min h (f + min u (2 * u * (ws.headD 1 : Nat) / (ws.sum : Nat))) }

/-- The highest stage whose threshold holds before a row (R197). -/
def Budget.threshold (q : Budget) : Nat :=
  if q.u < q.f then 3 else if 4 * q.g < 5 * q.z then 2 else if q.g < 2 * q.z then 1 else 0

/-- The rewind factors of R192. -/
def rewindFactors : List Nat := [1149, 1290, 1448, 1625, 1825, 2048, 2299, 2580, 2896, 3251, 3649, 4096]

/-- d of R192 for a budget and a size in units. -/
def rewindStep (b s : Int) : Nat :=
  match (List.range 12).find? fun i => decide (s * 1024 ≤ b * ((rewindFactors[i]?).getD 4096 : Nat)) with
  | some i => i + 1
  | none => 12

/-- The table of R191: the order for a coding of size `s` and the stage from the next row on. -/
def judge (stage : Nat) (rewound atMax : Bool) (q : Budget) (s : Int) : Order × Nat :=
  if stage = 0 then
    if s ≤ q.b then (.commit, 0)
    else if !rewound && !atMax then (.rewind (rewindStep q.b s), 0)
    else if s ≤ q.h then (.commit, 1) else (.fill, 2)
  else if stage = 1 then (if s ≤ q.b then (.commit, 1) else if s ≤ q.h then (.commit, 2) else (.fill, 2))
  else if stage = 2 then (if s ≤ q.h then (.commit, 2) else (.fill, 3))
  else (.fill, 3)

/-! ### Picture QP (R185, R186, R188) -/

def clipI (lo hi v : Int) : Int := max lo (min hi v)

/-- QP_base of a quality level (R185). -/
def qpBase (ql : Nat) : Nat := 51 - (2 * ql + 2) / 5

/-- Cap pressure of a fullness against B (R186). -/
def capPressure (phi : Int) (b : Nat) : Nat :=
  if 2 * phi ≥ b then 0 else if 8 * phi ≥ 3 * b then 1 else if 4 * phi ≥ b then 2 else if 8 * phi ≥ b then 4 else 6

/-- Lg of R187, for x ≥ 1. -/
def lg (x : Nat) : Nat :=
  let m := Nat.log2 x
  8 * m + 8 * (x - 2 ^ m) / 2 ^ m

/-- Division rounded toward zero. -/
def divTrunc (a : Int) (b : Nat) : Int := if 0 ≤ a then a / b else -((-a) / b)

/-- QP_ref by C0 (R188). -/
def qpRef (c0 : Nat) : Nat :=
  if c0 < 64 then 22 else if c0 < 128 then 26 else if c0 < 256 then 30 else if c0 < 512 then 33
  else if c0 < 1024 then 36 else if c0 < 2048 then 39 else if c0 < 4096 then 42 else 45

/-- The fullness that sets the cap pressure: projected over the look-ahead (R186). -/
def Channel.projected (c : Channel) (n : Nat) (phi0 : Int) : Int :=
  let l := c.cfg.lookahead
  if l = 0 ∨ !c.history ∨ c.lastBits = 0 then phi0
  else
    let term (i : Nat) : Nat :=
      match c.pics.find (n + i) with
      | some p => if (c.row (n + i) (c.cfg.rows - 1)).analysed then c.lastBits * p.cpxPic / max 1 c.lastCpx else c.lastBits
      | none => c.lastBits
    phi0 + ((l * 65536 * (c.capKbps * 1000) * c.cfg.rateDen / c.cfg.rateNum : Nat) : Int) -
      ((((List.range l).map fun i => term (i + 1)).sum * unitBits : Nat) : Int)

/-- QP_pic of a picture that starts at a fullness (R186, R188; jig pattern 0 under R258). -/
def Channel.qpPic (c : Channel) (n : Nat) (phi0 : Int) (binRate : Bool) : Nat :=
  let c := c.at_ n
  if binRate then c.set.qpMin
  else
    let base : Int := qpBase c.set.ql + capPressure (c.projected n phi0) c.bUnits
    let want :=
      if c.history then base
      else
        let c0 := (c.row n 0).cplx / max 1 c.cfg.cols
        let beta := max 1 (c.capKbps * 1000 * 1000 * c.cfg.rateDen / (c.cfg.width * c.cfg.height * c.cfg.rateNum))
        max base (qpRef c0 - divTrunc (6 * ((lg beta : Int) - lg 100)) 8)
    (clipI c.set.qpMin c.set.qpMax want).toNat

/-- The CTU QP of stage S0 (R187). -/
def Channel.qpCtu (c : Channel) (rowQp act actPic : Nat) : Nat :=
  let d := clipI (-c.set.aqMax) c.set.aqMax
    (divTrunc ((c.set.aqStr : Int) * ((lg (act + 1) : Int) - lg (actPic + 1))) 32)
  (clipI c.set.qpMin c.set.qpMax (rowQp + d)).toNat

/-! ### Model steps (R181, R188) -/

/-- The model after a row of `s` bits is removed. -/
def Channel.removeRow (c : Channel) (s : Nat) : Channel :=
  let a : Int := c.arrivals (c.modelRows + 1) - c.arrivals c.modelRows
  { c with omega := min (c.bUnits : Int) (c.omega - s * unitBits + a), modelRows := c.modelRows + 1 }

/-- The model starts at `INIT_PCT` of B. -/
def Channel.startModel (c : Channel) : Channel :=
  { c with omega := c.bUnits * c.set.initPct / 100, modelRows := 0, modelStarted := true }

/-- The picture's rate control begins: Φ_0, clamped to the B of the picture's settings (R205), and QP_pic. -/
def Channel.startQp (c : Channel) (n : Nat) (binRate : Bool) : Channel :=
  let c := { c with omega := min c.omega (c.at_ n).bUnits }
  let qp := c.qpPic n c.omega binRate
  c.modPic n fun p => { p with phi0 := c.omega, qpPic := qp, rowQp := qp, lowRun := 0, stage := 0 }

/-- The head of its access unit, of H bits, is removed, and a threshold may give row 0 a stage (R181, R196, R197). -/
def Channel.startBits (c : Channel) (n h : Nat) : Channel :=
  let c := { c with omega := c.omega - h * unitBits }.modPic n fun p => { p with header := h, spent := h, omega := c.omega - h * unitBits }
  c.modPic n fun p => { p with stage := (c.budget n 0 c.omega).threshold, rated := true }

end Sys2Proof.Machine
end

