-- ==== Sys2Proof/Machine/Gop.lean ====
section
/-!
DEFINITION. Picture structure: coding and output order, picture order counts, temporal identifiers and reference lists (Coding
Core, R161 to R163; Rate Control and Fixed Delay, R179).
-/

namespace Sys2Proof.Machine

/-- A picture that starts a refresh, or is one. -/
def PicType.starts : PicType → Bool
  | .refreshStart | .idr | .cra => true
  | _ => false

/-- A picture of a type has a reference list: it is not intra, and a picture has been coded before it (R125, R161). -/
def Channel.refers (c : Channel) (n : Nat) (t : PicType) : Bool :=
  t != .idr && t != .cra && (c.history || c.pics.any fun e => decide (e.1 < n))

/-- `STRUCT` in force: 0 until the refresh that follows a fail-over has completed (R167). -/
def Channel.structNow (c : Channel) : Nat :=
  if c.failover.isSome || (c.refreshFail && c.refresh.isSome) then 0 else c.set.struct

/-- POC offsets of a mini-group in coding order (R162). -/
def miniOrder (m : Nat) : List Nat :=
  if m = 8 then [8, 4, 2, 1, 3, 6, 5, 7] else if m = 4 then [4, 2, 1, 3] else [2, 1]

/-- Temporal identifier of an offset in a mini-group of 2 ^ g pictures: 0 for the last, g for the odd ones. -/
def offsetTid (g offset : Nat) : Nat :=
  if offset = 2 ^ g then 0 else ((List.range g).find? fun i => decide (offset % 2 ^ (i + 1) ≠ 0)).elim 0 (g - ·)

/-- A slot's place in its mini-group: the slot before the group, and the offset; none where pictures keep their order. -/
def Channel.groupPlace (c : Channel) (n : Nat) : Option (Nat × Nat) :=
  if c.structNow = 0 ∨ n < c.gopBase then none
  else
    let m := max 2 c.set.miniGop
    let i := (n - c.gopBase) % m
    some (n - i, (miniOrder m).getD i 1)

/-- Output index of the picture that a slot codes, in slots: the slot whose source it takes (R162, R179). -/
def Channel.outIndex (c : Channel) (n : Nat) : Nat :=
  match c.groupPlace n with
  | some (first, offset) => first + offset - 1
  | none => n

/-- The slot that codes the picture of an output index. -/
def Channel.slotOf (c : Channel) (o : Nat) : Nat :=
  match c.groupPlace o with
  | some (first, _) => ((List.range 8).map (first + ·)).find? (fun n => c.outIndex n == o) |>.getD o
  | none => o

/-- Temporal identifier of a slot's picture. -/
def Channel.tidOf (c : Channel) (n : Nat) : Nat :=
  match c.groupPlace n with
  | some (_, offset) => offsetTid (Nat.log2 (max 2 c.set.miniGop)) offset
  | none => 0

/-- The highest temporal identifier, whose pictures are no references under `STRUCT` = 1. -/
def Channel.topTid (c : Channel) : Nat := if c.structNow = 0 then 0 else Nat.log2 (max 2 c.set.miniGop)

/-- Pictures that may be referred to by picture `n`, newest first: of its coded video sequence, and, after an IRAP picture in
output order, none from before that picture. -/
def Channel.refCandidates (c : Channel) (n start : Nat) (poc : Int) (tid : Nat) : List (Nat × Int) :=
  let top := c.topTid
  let irap := ((c.pics.filter fun e => decide (e.1 < n) && (e.2.type == .idr || e.2.type == .cra) && decide (e.2.poc < poc)).map
    (·.1)).foldl max 0
  ((c.pics.filter fun (e : Nat × Pic) => decide (start ≤ e.1 ∧ irap ≤ e.1 ∧ e.1 < n) &&
    (c.structNow == 0 || (e.2.tid != top && (decide (e.2.tid < tid) || (tid == 0 && e.2.tid == 0))))).map
      fun e => (e.1, e.2.poc)).reverse

/-- Reference lists 0 and 1 of a picture, up to the references searched: the most recent in both under `STRUCT` = 0; else the
nearest before it in output order, and the nearest after it (R161, R162). -/
def Channel.refLists (c : Channel) (n start : Nat) (poc : Int) (tid refs : Nat) : List Nat × List Nat :=
  let l := c.refCandidates n start poc tid
  let past := (l.filter fun e => decide (e.2 < poc)).mergeSort fun a b => b.2 ≤ a.2
  let next := (l.filter fun e => decide (poc < e.2)).mergeSort fun a b => a.2 ≤ b.2
  let cut (x : List (Nat × Int)) : List Nat := (x.take refs).map (·.1)
  if next.isEmpty then (cut past, cut past) else if past.isEmpty then (cut next, cut next) else (cut past, cut next)

/-- The pictures that a picture's search takes: the lists in turn, each picture once, up to a count (R125). -/
def Pic.searched (p : Pic) (refs : Nat) : List Nat :=
  (((List.range (max p.list0.length p.list1.length)).flatMap fun i => (p.list0[i]?).toList ++ (p.list1[i]?).toList).eraseDups).take
    refs

/-- The halves of a channel: 0 the even or only die, 1 the odd die. -/
def Channel.halves (c : Channel) : List Nat := if c.partnerPipe.isSome then [0, 1] else [0]

/-- CTU columns of a half, from and up to. -/
def Channel.halfCols (c : Channel) (half : Nat) : Nat × Nat :=
  let seam := cdiv c.cfg.cols 2
  if c.partnerPipe.isNone then (0, c.cfg.cols) else if half = 0 then (0, seam) else (seam, c.cfg.cols)

/-- Luma columns of a range of CTU columns, and luma lines of a row. -/
def ChCfg.lumaCols (c : ChCfg) (cols : Nat × Nat) : Nat × Nat := (min c.width (cols.1 * c.ctu), min c.width (cols.2 * c.ctu))
def ChCfg.lumaRows (c : ChCfg) (k : Nat) : Nat × Nat := (min c.height (k * c.ctu), min c.height ((k + 1) * c.ctu))

/-- The half that a die of the channel codes. -/
def Channel.halfOn (c : Channel) (d : Nat) : Nat := if c.partnerPipe.isSome && d == c.die + 1 then 1 else 0
def Channel.dieOf (c : Channel) (half : Nat) : Nat := c.die + half

end Sys2Proof.Machine
end

