-- ==== Sys2Proof/Machine/Pixels.lean ====
section
/-!
DEFINITION. Samples: planes, welt blocks as the device writes them, pyramids, and the measures of pre-analysis (Composition,
R274 to R276; Pre-analysis, R112, R113).
-/

namespace Sys2Proof.Machine

open Sys2Proof (Byte)

/-! ### Planes -/

/-- An index held to `lo` to `hi - 1`. -/
def inRange (lo hi : Nat) (v : Int) : Nat := (clampI lo ((hi : Int) - 1) v).toNat

/-- The sample at a position; outside the plane the nearest one inside. -/
def Plane.sample (p : Plane) (x y : Int) : Nat :=
  let l := p.getD (inRange 0 p.length y) []
  l.getD (inRange 0 l.length x) 0

/-- The part of a plane from (x, y), `w` × `h` samples. -/
def Plane.part (p : Plane) (x y w h : Nat) : Plane := ((p.drop y).take h).map fun l => (l.drop x).take w

/-- A plane of exactly `w` × `h` samples: what is missing is `v`, what is beyond is cut. -/
def Plane.fit (p : Plane) (w h v : Nat) : Plane :=
  (List.range h).map fun j => (List.range w).map fun i => (p.getD j []).getD i v

def Plane.map2 (f : Nat → Nat) (p : Plane) : Plane := p.map fun l => l.map f

/-- A plane of the values of a function of the position. -/
def Plane.tabulate (w h : Nat) (f : Nat → Nat → Nat) : Plane := (List.range h).map fun j => (List.range w).map fun i => f i j

/-- Planes side by side. -/
def Plane.beside (p q : Plane) : Plane :=
  (List.range (max p.length q.length)).map fun j => p.getD j [] ++ q.getD j []

def Frame.append (a b : Frame) : Frame := { y := a.y ++ b.y, cb := a.cb ++ b.cb, cr := a.cr ++ b.cr }
def Frame.beside (a b : Frame) : Frame := { y := a.y.beside b.y, cb := a.cb.beside b.cb, cr := a.cr.beside b.cr }

/-- Chroma columns and lines that go with luma columns and lines in a chroma format: 0 4:2:0, 1 4:2:2, 2 4:4:4. -/
def chromaCols (sampling w : Nat) : Nat := if sampling = 2 then w else w / 2
def chromaLines (sampling h : Nat) : Nat := if sampling = 0 then h / 2 else h

/-- The part of a frame that a rectangle of luma samples takes. -/
def Frame.part (f : Frame) (sampling x y w h : Nat) : Frame :=
  let c (p : Plane) : Plane :=
    p.part (chromaCols sampling x) (chromaLines sampling y) (chromaCols sampling w) (chromaLines sampling h)
  { y := f.y.part x y w h, cb := c f.cb, cr := c f.cr }

/-- A frame of one value, as of a picture that is not there. -/
def Frame.grey (sampling depth w h : Nat) : Frame :=
  let v := 2 ^ (depth - 1)
  let c : Plane := List.replicate (chromaLines sampling h) (List.replicate (chromaCols sampling w) v)
  { y := List.replicate h (List.replicate w v), cb := c, cr := c }

/-- A frame held to a size; samples that are missing read 0. -/
def Frame.fit (f : Frame) (sampling w h : Nat) : Frame :=
  let c (p : Plane) : Plane := p.fit (chromaCols sampling w) (chromaLines sampling h) 0
  { y := f.y.fit w h 0, cb := c f.cb, cr := c f.cr }

/-- Luma at 10 bits (R112). -/
def tenBits (depth : Nat) (p : Plane) : Plane := if depth = 8 then p.map2 (· * 4) else p

/-! ### Welt blocks (R274 to R276) -/

/-- The 128 × 8 positions of block (bx, by) of a component's plane; outside the plane the nearest position inside, the right
edge first. -/
def blockOf (p : Plane) (bx by_ : Nat) : Plane :=
  Plane.tabulate 128 8 fun i j => p.sample (128 * bx + i : Nat) (8 * by_ + j : Nat)

/-- The samples of a sub-block of 16 × 8 positions, in raster order. -/
def subBlock (b : Plane) (i : Nat) : List Nat := (b.part (16 * i) 0 16 8).flatten

/-- The least width that holds every difference from the least value. -/
def leastWidth (l : List Nat) : Nat × Nat :=
  let base := l.foldl min (l.headD 0)
  let top := l.foldl max 0 - base
  (base, if top = 0 then 0 else Nat.log2 top + 1)

/-- The block that the device writes for components of a bit depth (R276): constant, else residual where that is shorter than
raw, else raw. -/
def weltWrite (depth : Nat) (comps : List Plane) : WeltBlock :=
  let flat := comps.map List.flatten
  let same (l : List Nat) : Bool := l.all (· == l.headD 0)
  let subs := comps.flatMap fun b => (List.range 8).map (subBlock b)
  let descs := subs.map leastWidth
  let raw := 4 * comps.length * depth
  let len := cdiv (16 * comps.length + (descs.map fun d => 16 * d.2).sum) 32
  if flat.all same then { mode := 1, consts := flat.map (·.headD 0) }
  else if len < raw then
    { mode := 2, len, descs, values := (subs.zip descs).flatMap fun e => e.1.map (· - e.2.1) }
  else { mode := 0, len := raw, values := subs.flatten }

/-- The samples of component `c` of a block, as a plane of 128 × 8 positions. -/
def WeltBlock.read (b : WeltBlock) (c : Nat) : Plane :=
  let at_ (i j : Nat) : Nat :=
    let k := 8 * c + i / 16
    let v := b.values.getD (128 * k + 16 * j + i % 16) 0
    if b.mode = 1 then b.consts.getD c 0 else if b.mode = 2 then (b.descs.getD k (0, 0)).1 + v else v
  Plane.tabulate 128 8 at_

/-- Rows of blocks that hold components of a size. -/
def weltRows (depth : Nat) (comps : List Plane) (w h : Nat) : List (List WeltBlock) :=
  (List.range (cdiv h 8)).map fun j => (List.range (cdiv w 128)).map fun i => weltWrite depth (comps.map fun p => blockOf p i j)

/-- A component read back from rows of blocks. -/
def weltPlaneOf (rows : List (List WeltBlock)) (c w h : Nat) : Plane :=
  let lines (r : List WeltBlock) : Plane := r.foldl (fun p b => Plane.beside p (b.read c)) []
  Plane.part (rows.flatMap lines) 0 0 w h

/-- A CTU row of a reference picture goes to memory, and is read back. -/
def Frame.store (f : Frame) (sampling depth w h : Nat) : WeltRow :=
  { luma := weltRows depth [f.y] w h
    chroma := weltRows depth [f.cb, f.cr] (chromaCols sampling w) (chromaLines sampling h) }

def WeltRow.load (r : WeltRow) (sampling w h : Nat) : Frame :=
  let c (i : Nat) : Plane := weltPlaneOf r.chroma i (chromaCols sampling w) (chromaLines sampling h)
  { y := weltPlaneOf r.luma 0 w h, cb := c 0, cr := c 1 }

/-! ### Pyramids (R112) -/

/-- One line of half width from two lines. -/
def halveLine : List Nat → List Nat → List Nat
  | a :: b :: r, c :: d :: q => (a + b + c + d + 2) / 4 :: halveLine r q
  | _, _ => []

/-- A level from the one below it. -/
def halve : Plane → Plane
  | l :: m :: r => halveLine l m :: halve r
  | _ => []

/-- Lines, or columns, repeated at the end up to a multiple of 8. -/
def padLine {α : Type} (l : List α) : List α :=
  match l.getLast? with
  | some v => l ++ List.replicate ((8 - l.length % 8) % 8) v
  | none => l

/-- The pyramid of some lines of luma at 10 bits. -/
def pyramidOf (p : Plane) : Pyramid :=
  let l1 := halve (padLine (p.map padLine))
  let l2 := halve l1
  { l1, l2, l3 := halve l2 }

/-! ### Measures (R113) -/

/-- Block activity of an 8 × 8 block. -/
def blockActivity (b : Plane) : Nat :=
  let l := b.flatten
  (64 * (l.map fun x => x * x).sum - l.sum * l.sum) / 65536

/-- The Hadamard transform of 2 ^ n values. -/
def hadamard : Nat → List Int → List Int
  | 0, l => l
  | n + 1, l =>
    let a := l.take (2 ^ n)
    let b := l.drop (2 ^ n)
    hadamard n (List.zipWith (· + ·) a b) ++ hadamard n (List.zipWith (· - ·) a b)

/-- SATD of an 8 × 8 block less its rounded mean. -/
def satd (b : Plane) : Nat :=
  let m := (b.flatten.sum + 32) / 64
  let rows := b.map fun l => hadamard 3 (l.map fun x => ((x : Int) - m))
  let cols := (List.range 8).map fun i => hadamard 3 (rows.map fun r => r.getD i 0)
  ((cols.map fun c => (c.map Int.natAbs).sum).sum + 2) / 4

/-- The blocks of 8 × 8 samples of a plane that lie whole in it, and those that its edge cuts. -/
def wholeBlocks (p : Plane) (w h : Nat) : List Plane :=
  (List.range (h / 8)).flatMap fun j => (List.range (w / 8)).map fun i => p.part (8 * i) (8 * j) 8 8

def cutBlocks (p : Plane) (w h : Nat) : List Plane :=
  (List.range (cdiv h 8)).flatMap fun j => ((List.range (cdiv w 8)).filter fun i => decide (w < 8 * i + 8 ∨ h < 8 * j + 8)).map
    fun i => p.part (8 * i) (8 * j) 8 8

/-- `ACT` of a CTU from its samples inside the picture. -/
def ctuActivity (p : Plane) (w h : Nat) : Nat :=
  let bs := wholeBlocks p w h
  (bs.map blockActivity).sum / max 1 bs.length

end Sys2Proof.Machine
end

