-- ==== Sys2Proof/Machine/Check.lean ====
section
/-!
DEFINITION. What a check unit computes from what the model holds: the polynomials, the access unit of an encode channel, and
the picture of the jig generator (Decode, Reference Mode and Verification, R259 and R262 to R265).
-/

namespace Sys2Proof.Machine

open Sys2Proof (Byte)

/-! ### Polynomials (R264) -/

/-- A value of `w` bits in the opposite bit order. -/
def mirror : Nat → Nat → Nat
  | 0, _ => 0
  | w + 1, v => (v % 2) * 2 ^ w + mirror w (v / 2)

/-- A byte into a register of `w` bits, most significant bit first. -/
def crcForward (w poly r b : Nat) : Nat :=
  (List.range 8).foldl (fun r _ => if bit r (w - 1) then (2 * r % 2 ^ w) ^^^ poly else 2 * r % 2 ^ w) (r ^^^ (b * 2 ^ (w - 8)))

/-- A byte into a register of `w` bits, least significant bit first; `poly` is given most significant bit first. -/
def crcReflected (w poly r b : Nat) : Nat :=
  (List.range 8).foldl (fun r _ => if r % 2 = 1 then (r / 2) ^^^ mirror w poly else r / 2) (r ^^^ b)

/-- The value of a run of bytes under `POLY`: 0 CRC-16/CCITT, 1 CRC-32, 2 CRC-32C, 3 CRC-64/ECMA-182. -/
def crc (poly : Nat) (bytes : List Byte) : Nat :=
  let run (f : Nat → Nat → Nat) (init : Nat) : Nat := bytes.foldl (fun r b => f r b.toNat) init
  if poly = 0 then run (crcForward 16 0x1021) 0xFFFF
  else if poly = 1 then run (crcReflected 32 0x04C11DB7) 0xFFFFFFFF ^^^ 0xFFFFFFFF
  else if poly = 2 then run (crcReflected 32 0x1EDC6F41) 0xFFFFFFFF ^^^ 0xFFFFFFFF
  else run (crcForward 64 0x42F0E1EBA9EA3693) 0

/-! ### Access units (R262, R263) -/

/-- An access unit as a byte stream with 4-byte start codes. -/
def byteStream (nals : List (List Byte)) : List Byte := nals.flatMap fun b => [0, 0, 0, 1] ++ b

/-- An access unit is whole before encryption: the units bound to it at snoop point 4 have its value. -/
def State.checkAu (s : State) (h n : Nat) (nals : List (List Byte)) : State :=
  let take (u : CheckUnit) : CheckUnit :=
    if (u.bound || u.until_.isSome) && u.target == h && u.point == 4 then
      { u with ready := u.ready.put n (crc u.poly (byteStream nals)) } else u
  s.modDec fun d => { d with checks := d.checks.mapV fun _ u => take u }

/-! ### The jig generator (R259) -/

/-- Samples of `depth` bits, each after 32 steps of the register; and the register after them. -/
def noiseLine (depth : Nat) : Nat → Nat → List Nat × Nat
  | 0, r => ([], r)
  | n + 1, r =>
    let v := lfsrNext r
    let x := noiseLine depth n v
    (v / 2 ^ (32 - depth) :: x.1, x.2)

/-- A plane of lines in raster order. -/
def noisePlane (depth w : Nat) : Nat → Nat → List (List Nat) × Nat
  | 0, r => ([], r)
  | h + 1, r =>
    let l := noiseLine depth w r
    let x := noisePlane depth w h l.2
    (l.1 :: x.1, x.2)

/-- A plane shifted by (x, −y), modulo its size. -/
def shiftPlane (x y : Nat) (p : List (List Nat)) : List (List Nat) := (p.rotateLeft y).map fun l => l.rotateRight x

/-- Chroma width and height of a format. -/
def ChCfg.chromaSize (c : ChCfg) : Nat × Nat := (c.width / 2, if c.chroma = 0 then c.height / 2 else c.height)

/-- Picture `n` of the generator: planes Y, Cb and Cr. -/
def ChCfg.jigPicture (c : ChCfg) (seed n : Nat) : List (List (List Nat)) :=
  let (cw, ch) := c.chromaSize
  let y := noisePlane c.bitDepth c.width c.height seed
  let cb := noisePlane c.bitDepth cw ch y.2
  let cr := noisePlane c.bitDepth cw ch cb.2
  let dy := if c.chroma = 0 then 2 * n else 4 * n
  [shiftPlane (6 * n) (4 * n) y.1, shiftPlane (3 * n) dy cb.1, shiftPlane (3 * n) dy cr.1]

/-- The bytes that a picture value covers: a whole picture of a chroma format and bit depth, or the columns of one half (R263). -/
def ChCfg.pictureBytes (c : ChCfg) (sampling depth tile : Nat) (planes : List (List (List Nat))) : List Byte :=
  let seam := cdiv c.cols 2 * c.ctu
  let part (i : Nat) (l : List Nat) : List Nat :=
    let m := if i = 0 then seam else chromaCols sampling seam
    if tile = 1 then l.take m else if tile = 2 then l.drop m else l
  (planes.mapIdx fun i p => p.flatMap fun l => (part i l).flatMap fun x => le (if depth = 8 then 1 else 2) x).flatten

/-- A picture of a channel is whole at a snoop point: the units bound to it there have its value. -/
def State.checkFrame (s : State) (h n point : Nat) (f : Frame) (sampling depth : Nat) : State :=
  let c := (s.ch h).cfg
  let take (u : CheckUnit) : CheckUnit :=
    if (u.bound || u.until_.isSome) && u.target == h && u.point == point then
      { u with ready := u.ready.put n (crc u.poly (c.pictureBytes sampling depth u.tile [f.y, f.cb, f.cr])) } else u
  s.modDec fun d => { d with checks := d.checks.mapV fun _ u => take u }

/-! ### The value of a picture -/

/-- The generator of a channel is on. -/
def State.generates (s : State) (h : Nat) : Bool := u8 (s.dec.jigs.look [] h) 1 == 1

/-- A unit's value for picture `q`: of an access unit or a generated picture as the model computes it, of anything else as
the unit finds it (`found`). -/
def State.checkValue (s : State) (u : CheckUnit) (q found : Nat) : Nat :=
  let c := (s.ch u.target).cfg
  if u.point = 0 ∧ s.generates u.target then
    crc u.poly (c.pictureBytes c.chroma c.bitDepth u.tile (c.jigPicture (u32 (s.dec.jigs.look [] u.target) 4) ((s.ch u.target).outIndex q)))
  else match u.ready.find q with
    | some v => v
    | none => found % 2 ^ polyBits u.poly

end Sys2Proof.Machine
end

