-- ==== Sys2Proof/Machine/Welt.lean ====
section
/-!
DEFINITION. Welt surfaces in device memory and their invalid blocks (Composition, Scaling and Welt Surfaces, R274 to R277).
-/

namespace Sys2Proof.Machine

open Sys2Proof (Byte)

/-- A descriptor of a mode 2 block is invalid: a reserved bit, a `BASE` or a `W` beyond the bit depth. -/
def weltDescBad (depth d : Nat) : Bool :=
  let base := bits d 0 10
  let w := bits d 10 4
  decide (2 ^ 14 ≤ d) || decide (2 ^ depth ≤ base) || decide (depth < w) || decide (2 ^ depth < base + 2 ^ w)

/-- A block is invalid, by its header and the descriptors at the start of its payload (R277). -/
def weltBlockBad (comps depth header : Nat) (payload : List Byte) : Bool :=
  let mode := bits header 0 2
  let len := bits header 8 8
  let const := header / 2 ^ 16
  let raw := 4 * comps * depth
  let descs := (List.range (8 * comps)).map fun i => u16 payload (2 * i)
  let need := 16 * comps + (descs.map fun d => 16 * bits d 10 4).sum
  mode == 3 || bits header 2 6 != 0 || decide (raw < len) ||
    (mode == 0 && (len != raw || const != 0)) ||
    (mode == 1 && (decide (2 ^ (12 * comps) ≤ const) || (List.range comps).any fun c => decide (2 ^ depth ≤ bits const (12 * c) 12))) ||
    (mode == 2 && (const != 0 || descs.any (weltDescBad depth) || decide (32 * len < need)))

/-- Invalid blocks of a plane that lies at an address, among the blocks that meet the positions from (x, y) of the size given. -/
def weltPlaneBad (m : Cells) (base w h comps depth : Nat) (x y rw rh : Nat) : Nat :=
  let bw := cdiv w 128
  let n := bw * cdiv h 8
  let payload := base + 4096 * cdiv (8 * n) 4096
  let meets (i : Nat) : Bool :=
    let bx := i % bw * 128
    let by_ := i / bw * 8
    decide (bx < x + rw ∧ x < bx + 128 ∧ by_ < y + rh ∧ y < by_ + 8)
  ((List.range n).filter fun i => meets i &&
    weltBlockBad comps depth (ofLe (m.load (base + 8 * i) 8)) (m.load (payload + 128 * comps * depth * i) (16 * comps))).length

/-- Invalid blocks of a welt surface in a format code, among those that meet a rectangle of luma positions. -/
def weltBad (m : Cells) (base fmt w h : Nat) (x y rw rh : Nat) : Nat :=
  if fmt = 0x24 then weltPlaneBad m base w h 4 8 x y rw rh
  else if 0x20 ≤ fmt ∧ fmt ≤ 0x23 then
    let depth := if fmt % 2 = 0 then 8 else 10
    let half (a : Nat) : Nat := if fmt < 0x22 then a / 2 else a
    let edge (a : Nat) : Nat := if fmt < 0x22 then cdiv a 2 else a
    weltPlaneBad m base w h 1 depth x y rw rh +
      weltPlaneBad m (base + weltPlane w h 1 depth) (w / 2) (half h) 2 depth (x / 2) (half y)
        (cdiv (x + rw) 2 - x / 2) (edge (y + rh) - half y)
  else 0

/-- Invalid blocks of the slate that a channel shows. -/
def State.slateWelt (s : State) (h : Nat) : Nat :=
  let c := s.ch h
  let g := s.chan.slates.look {} c.cfg.slate
  weltBad s.mem.data (g.addr.look 0 c.die) g.format g.width g.height 0 0 g.width g.height

/-- Invalid blocks of the part of its buffer that a layer takes in a state. -/
def State.layerWelt (s : State) (l : Nat) (p : List Byte) : Nat :=
  let g := s.lyr l
  weltBad s.mem.data (g.addr.getD (u8 p 3) 0) (u8 p 2) g.maxW g.maxH (u16 p 4) (u16 p 6) (u16 p 8) (u16 p 0xA)

end Sys2Proof.Machine
end

