-- ==== Sys2Proof/Machine/Blend.lean ====
section
/-!
DEFINITION. The composition unit: surfaces as they are read, base conversion, scalers, colour conversion and blending
(Composition, Scaling and Welt Surfaces, R270 to R285).
-/

namespace Sys2Proof.Machine

open Sys2Proof (Byte)

/-! ### Surfaces (R272 to R275, R277) -/

/-- A surface as read: components on their own grids (Y, Cb, Cr, or R, G, B), and alpha at 10 bits on the luma grid. -/
structure Surface where
  sampling : Nat := 0
  depth : Nat := 8
  rgb : Bool := false
  frame : Frame := {}
  alpha : Plane := []
deriving DecidableEq, Repr

/-- Bytes from an address: how many, from where. -/
abbrev Reader := Nat → Nat → List Byte

/-- A value of `n` bits of a bit stream, least significant bit first. -/
def streamBits (b : List Byte) (at_ n : Nat) : Nat := bits (ofLe b) at_ n

/-- A valid block's sample of component `c` at its position (i, j) (R275). -/
def weltSample (comps depth header : Nat) (payload : List Byte) (c i j : Nat) : Nat :=
  let k := 8 * c + i / 16
  let n := 16 * j + i % 16
  let desc (a : Nat) : Nat := u16 payload (2 * a)
  let mode := bits header 0 2
  if mode = 1 then bits header (16 + 12 * c) 12
  else if mode = 0 then streamBits payload ((128 * k + n) * depth) depth
  else
    let w := bits (desc k) 10 4
    let before := ((List.range k).map fun a => 128 * bits (desc a) 10 4).sum
    bits (desc k) 0 10 + streamBits (payload.drop (16 * comps)) (before + n * w) w

/-- A component of a welt plane, with the default in invalid blocks; and where blocks are invalid (1). -/
def weltRead (rd : Reader) (base w h comps depth dflt c : Nat) : Plane × Plane :=
  let bw := cdiv w 128
  let payload := base + 4096 * cdiv (8 * (bw * cdiv h 8)) 4096
  let blk (x y : Nat) : Nat × List Byte :=
    let i := y / 8 * bw + x / 128
    (ofLe (rd (base + 8 * i) 8), rd (payload + 128 * comps * depth * i) (128 * comps * depth))
  let bad (x y : Nat) : Bool := weltBlockBad comps depth (blk x y).1 (blk x y).2
  (Plane.tabulate w h fun x y => if bad x y then dflt else weltSample comps depth (blk x y).1 (blk x y).2 c (x % 128) (y % 8),
    Plane.tabulate w h fun x y => b2n (bad x y))

/-- Unpacking to 10 bits (R280). -/
def unpack10 (depth x : Nat) : Nat := if depth = 8 then 4 * x + x / 64 else if depth = 2 then 341 * x else x

/-- A surface of a format, read with its chroma or second plane by a reader of its own; `cAt` is where that starts. -/
def readSurface (ry rc : Reader) (cAt fmt pitch w h : Nat) : Surface :=
  let val (rd : Reader) (a n lo len : Nat) : Nat := bits (ofLe (rd a n)) lo len
  if fmt = 0x10 ∨ fmt = 0x11 then
    let c (i : Nat) : Plane := Plane.tabulate w h fun x y =>
      if fmt = 0x10 then val ry (y * pitch + 4 * x + i) 1 0 8 else val ry (y * pitch + 4 * x) 4 (10 * i) (if i = 3 then 2 else 10)
    { sampling := 2, depth := if fmt = 0x10 then 8 else 10, rgb := true, frame := { y := c 0, cb := c 1, cr := c 2 }
      alpha := (c 3).map2 (unpack10 (if fmt = 0x10 then 8 else 2)) }
  else if fmt = 0x24 then
    let c (i : Nat) : Plane := (weltRead ry 0 w h 4 8 0 i).1
    { sampling := 2, depth := 8, rgb := true, frame := { y := c 0, cb := c 1, cr := c 2 }, alpha := (c 3).map2 (unpack10 8) }
  else if fmt = 5 ∨ fmt = 6 then
    let len := if fmt = 5 then 12 else 10
    let c (rd : Reader) (a : Nat) : Plane := Plane.tabulate w h fun x y => val rd (a + y * pitch + 2 * x) 2 0 len
    { sampling := 2, depth := len, frame := { y := c ry 0, cb := c rc cAt, cr := c rc (cAt + pitch * h) }
      alpha := List.replicate h (List.replicate w 1023) }
  else
    let (chroma, depth) := (pictureFormat fmt).getD (0, 8)
    let cw := chromaCols chroma w
    let ch := chromaLines chroma h
    if fmt < 0x20 then
      let b := if depth = 8 then 1 else 2
      let c (i : Nat) : Plane := Plane.tabulate cw ch fun x y => val rc (cAt + y * pitch + (2 * x + i) * b) b 0 depth
      { sampling := chroma, depth
        frame := { y := Plane.tabulate w h fun x y => val ry (y * pitch + x * b) b 0 depth, cb := c 0, cr := c 1 }
        alpha := List.replicate h (List.replicate w 1023) }
    else
      let grey := 2 ^ (depth - 1)
      let at_ := weltPlane w h 1 depth
      let y := weltRead ry 0 w h 1 depth grey 0
      let c (i : Nat) : Plane × Plane := weltRead ry at_ cw ch 2 depth grey i
      let hole (x j : Nat) : Bool :=
        y.2.sample x j == 1 || (c 0).2.sample (x / 2 : Nat) (if chroma = 0 then (j / 2 : Nat) else (j : Nat)) == 1
      { sampling := chroma, depth, frame := { y := y.1, cb := (c 0).1, cr := (c 1).1 }
        alpha := Plane.tabulate w h fun x j => if hole x j then 0 else 1023 }

/-- A linear surface's smallest pitch. -/
def leastPitch (fmt w : Nat) : Nat :=
  64 * cdiv (w * (if fmt = 1 ∨ fmt = 3 then 1 else if fmt = 0x10 ∨ fmt = 0x11 then 4 else 2)) 64

/-- Bytes as a device reads them: those of poisoned lines read as zeros (R415). -/
def Cells.loadClean (m : Cells) (poisoned : List Nat) (a n : Nat) : List Byte :=
  (m.load a n).mapIdx fun i b => if poisoned.contains ((a + i) / 64) then 0 else b

/-- A surface in device memory: the second plane of a linear one follows the first (log entry 197). -/
def Cells.surface (m : Cells) (poisoned : List Nat) (base fmt pitch w h : Nat) : Surface :=
  let rd : Reader := fun a n => m.loadClean poisoned (base + a) n
  let p := if pitch = 0 then leastPitch fmt w else pitch
  readSurface rd rd (p * h) fmt p w h

/-- A surface in host memory, given as the bytes from its two addresses; and its invalid blocks. -/
def hostSurface (y c : List Byte) (fmt pitch w h : Nat) : Surface × Nat :=
  let rd (l : List Byte) : Reader := fun a n => slice l a n
  let bad := if fmt < 0x20 ∨ 0x23 < fmt then 0
    else
      let (chroma, depth) := (pictureFormat fmt).getD (0, 8)
      let count (base w h comps : Nat) : Nat :=
        let n := cdiv w 128 * cdiv h 8
        let pay := base + 4096 * cdiv (8 * n) 4096
        ((List.range n).filter fun i => weltBlockBad comps depth (ofLe (slice y (base + 8 * i) 8))
          (slice y (pay + 128 * comps * depth * i) (16 * comps))).length
      count 0 w h 1 + count (weltPlane w h 1 depth) (chromaCols chroma w) (chromaLines chroma h) 2
  (readSurface (rd y) (rd c) 0 fmt pitch w h, bad)

/-! ### Base conversion (R270) -/

/-- Step 1: a chroma line of 4:4:4 to 4:2:2. -/
def halveColumns (l : List Nat) : List Nat :=
  let at_ (x : Int) : Nat := l.getD (inRange 0 l.length x) 0
  (List.range (l.length / 2)).map fun x => (at_ (2 * x - 1) + 2 * at_ (2 * x) + at_ (2 * x + 1) + 2) / 4

/-- Step 2: chroma lines. -/
def halveLines : Plane → Plane
  | a :: b :: r => List.zipWith (fun x y => (x + y + 1) / 2) a b :: halveLines r
  | _ => []

/-- Lines of a base at 10 bits in a channel's chroma format: steps 1 to 4. -/
def Frame.toBase (f : Frame) (sampling depth chroma : Nat) : Frame :=
  let c (p : Plane) : Plane :=
    let p := if sampling = 2 then p.map halveColumns else p
    if sampling ≠ 0 ∧ chroma = 0 then halveLines p else p
  let d (x : Nat) : Nat := if depth = 12 then min 1023 ((x + 2) / 4) else if depth = 8 then 4 * x else x
  { y := f.y.map2 d, cb := (c f.cb).map2 d, cr := (c f.cr).map2 d }

/-- Step 5. -/
def Frame.toDepth (f : Frame) (depth : Nat) : Frame :=
  let d (x : Nat) : Nat := if depth = 8 then min 255 ((x + 2) / 4) else x
  { y := f.y.map2 d, cb := f.cb.map2 d, cr := f.cr.map2 d }

/-! ### Scalers (R284, R285) -/

/-- A coefficient: of the bilinear set, of the two fixed sets, or of the die's custom set for the tap count. -/
def State.scaleCoef (s : State) (die set taps phase i : Nat) : Int :=
  if set = 0 then
    let a := cdiv taps 2 - 1
    if i = a then 256 - 4 * phase else if i = a + 1 then 4 * phase else 0
  else if set = 3 then s16 (s.comp.coefs.look [] (die * 16 + taps)) (2 * (taps * phase + i))
  else fixedCoef set taps phase i

/-- Source position n and phase of an output index. -/
def scalePos (src dst i : Nat) : Int × Nat :=
  let step := src * 65536 / dst
  let p : Int := i * step + (step / 2 : Nat) - 32768
  (p / 65536, (p / 1024 % 64).toNat)

/-- The taps' sum around an output index, over sources 0 to `src` − 1. -/
def scaleSum (coef : Nat → Nat → Int) (taps src dst i : Nat) (f : Nat → Int) : Int :=
  let (n, phase) := scalePos src dst i
  ((List.range taps).map fun t => coef phase t * f (inRange 0 src (n - cdiv taps 2 + 1 + t))).sum

/-- A sample of a plane's source rectangle, scaled: vertically first, then horizontally. -/
def scaleSample (cv ch : Nat → Nat → Int) (tv th : Nat) (sw sh dw dh i j : Nat) (f : Nat → Nat → Nat) : Nat :=
  let v (x : Nat) : Int := clampI 0 4095 ((scaleSum cv tv sh dh j (fun y => f x y) + 32) / 64)
  (clampI 0 1023 ((scaleSum ch th sw dw i v + 512) / 1024)).toNat

/-! ### Layers (R279 to R283) -/

/-- Chroma raised to the luma grid, by component sample. -/
def raiseChroma (sampling : Nat) (p : Plane) (x y : Nat) : Nat :=
  let across (j : Int) : Nat :=
    if sampling = 2 then p.sample x j
    else if x % 2 = 0 then p.sample (x / 2 : Nat) j
    else (p.sample (x / 2 : Nat) j + p.sample (x / 2 + 1 : Nat) j + 1) / 2
  if sampling = 0 then
    (if y % 2 = 0 then across (y / 2 : Nat) else (across (y / 2 : Nat) + across (y / 2 + 1 : Nat) + 1) / 2)
  else across y

/-- The matrix and offsets of a preset (R281). -/
def cscMatrix (p : List Byte) (colour : Nat) : List Int × List Int :=
  if u8 p 0x17 = 0 then ([4096, 0, 0, 0, 4096, 0, 0, 0, 4096], [64, 512, 512])
  else if u8 p 0x17 = 15 then ((List.range 9).map fun i => s16 p (0x20 + 2 * i), (List.range 3).map fun i => s16 p (0x32 + 2 * i))
  else if colour = 0 then ([746, 2509, 253, -411, -1383, 1794, 1794, -1629, -165], [0, 0, 0])
  else ([921, 2378, 208, -501, -1293, 1794, 1794, -1650, -144], [0, 0, 0])

/-- L0 of a component from a pixel. -/
def cscL0 (m pre : List Int) (pixel : List Nat) (j : Nat) : Int :=
  (((List.range 3).map fun i => m.getD (3 * j + i) 0 * ((pixel.getD i 0 : Int) - pre.getD i 0)).sum + 2048) / 4096

/-- k of a pixel (R282). -/
def alphaK (a g : Nat) : Nat := ((a + a / 512) * g + 512) / 1024

/-- One component blended over the picture below; `o` is its offset. -/
def blend (mode g k : Nat) (l0 : Int) (below : Nat) (o : Int) : Nat :=
  let d0 : Int := below - o
  let w : Int := if mode = 1 then k else g
  let out : Int := if mode = 0 then (g * l0 + (1024 - (g : Int)) * d0 + 512) / 1024
    else (w * l0 + (1024 - (k : Int)) * d0 + 512) / 1024
  (clampI 0 1023 (out + o)).toNat

/-- A layer over the picture: its payload, and L0 of each component and k at a position of the picture inside its rectangle. -/
structure Overlay where
  p : List Byte
  l0 : Nat → Nat → Nat → Int
  k : Nat → Nat → Nat

/-- Whether a position of the picture lies in a layer's destination. -/
def Overlay.covers (o : Overlay) (x y : Nat) : Bool :=
  decide (s16 o.p 0xC ≤ x ∧ (x : Int) < s16 o.p 0xC + u16 o.p 0x10 ∧ s16 o.p 0xE ≤ y ∧ (y : Int) < s16 o.p 0xE + u16 o.p 0x12)

/-- A layer of a channel as it is composed. -/
def State.overlay (s : State) (die colour : Nat) (surf : Surface) (p : List Byte) : Overlay :=
  let sw := u16 p 8
  let sh := u16 p 0xA
  let tv := u8 p 0x18
  let set := u8 p 0x19
  let at_ (f : Nat → Nat → Nat) (x y : Nat) : Nat :=
    scaleSample (s.scaleCoef die set tv) (s.scaleCoef die set 6) tv 6 sw sh (u16 p 0x10) (u16 p 0x12)
      ((x : Int) - s16 p 0xC).toNat ((y : Int) - s16 p 0xE).toNat (fun i j => f (u16 p 4 + i) (u16 p 6 + j))
  let depth := surf.depth
  let luma (x y : Nat) : Nat := unpack10 depth (surf.frame.y.sample x y)
  let raised (c : Plane) (x y : Nat) : Nat := raiseChroma surf.sampling (c.map2 (unpack10 depth)) x y
  let (m, pre) := cscMatrix p colour
  let pixel (x y : Nat) : List Nat := [at_ luma x y, at_ (raised surf.frame.cb) x y, at_ (raised surf.frame.cr) x y]
  { p, l0 := fun j x y => cscL0 m pre (pixel x y) j
    k := fun x y => alphaK (at_ (fun i j => surf.alpha.sample i j) x y) (u16 p 0x14) }

/-- A value on the luma grid filtered to a chroma position: as step 1 of R270, and for 4:2:0 as step 2; what lies outside the
layer or the picture repeats the nearest position inside (log entry 198). -/
def Overlay.toChroma (o : Overlay) (chroma w h cx cy : Nat) (f : Nat → Nat → Int) : Int :=
  let x0 : Int := max 0 (s16 o.p 0xC)
  let x1 : Int := min w (s16 o.p 0xC + u16 o.p 0x10)
  let y0 : Int := max 0 (s16 o.p 0xE)
  let y1 : Int := min h (s16 o.p 0xE + u16 o.p 0x12)
  let v (x y : Int) : Int := f (clampI x0 (x1 - 1) x).toNat (clampI y0 (y1 - 1) y).toNat
  let row (y : Int) : Int := (v (2 * cx - 1) y + 2 * v (2 * cx) y + v (2 * cx + 1) y + 2) / 4
  if chroma = 1 then row cy else (row (2 * cy) + row (2 * cy + 1) + 1) / 2

/-- A layer blended over lines of the picture that start at luma line `y0`. -/
def Overlay.laid (o : Overlay) (chroma w h y0 : Nat) (f : Frame) : Frame :=
  let mode := u8 o.p 0x16
  let g := u16 o.p 0x14
  let luma := f.y.mapIdx fun j l => l.mapIdx fun x d =>
    if o.covers x (y0 + j) then blend mode g (o.k x (y0 + j)) (o.l0 0 x (y0 + j)) d 64 else d
  let c0 := chromaLines chroma y0
  let lift (cy : Nat) : Nat := if chroma = 0 then 2 * cy else cy
  let comp (i : Nat) (p : Plane) : Plane := p.mapIdx fun j l => l.mapIdx fun cx d =>
    if o.covers (2 * cx) (lift (c0 + j)) then
      blend mode g (o.toChroma chroma w h cx (c0 + j) (fun x y => o.k x y)).toNat
        (o.toChroma chroma w h cx (c0 + j) (o.l0 i)) d 512
    else d
  { y := luma, cb := comp 1 f.cb, cr := comp 2 f.cr }

/-- Enabled layers in increasing `Z` (R279). -/
def inZ (l : Tab (List Byte)) : Tab (List Byte) := l.mergeSort fun a b => u8 a.2 1 ≤ u8 b.2 1

/-- Lines of a picture composed: the base converted, the layers blended over it, the channel's bit depth. Each half's die reads
its own copy of a layer, which the host has written alike (R278). -/
def State.composeLines (s : State) (cfg : ChCfg) (die colour : Nat) (layers : Tab (List Byte)) (base : Frame)
    (sampling depth y0 : Nat) : Frame :=
  let lay (f : Frame) (e : Nat × List Byte) : Frame :=
    let g := s.lyr e.1
    let surf := s.mem.data.surface (s.mem.dies.look {} die).poisoned (g.addr.getD (u8 e.2 3) 0) (u8 e.2 2) (u32 e.2 0x1C) g.maxW g.maxH
    (s.overlay die colour surf e.2).laid cfg.chroma cfg.width cfg.height y0 f
  ((inZ layers).foldl lay (base.toBase sampling depth cfg.chroma)).toDepth cfg.bitDepth

/-! ### The rendition scaler (R90, R284, R287) -/

/-- Lines `y0` to `y0 + n − 1` of a rendition's picture, at 10 bits, from its parent's composed picture. -/
def State.renditionLines (s : State) (parent c : Channel) (img : Frame) (y0 n : Nat) : Frame :=
  let tv := c.set.scaleTaps
  let set := c.set.scaleSet
  let die := parent.die
  let ten (p : Plane) : Plane := tenBits parent.cfg.bitDepth p
  let plane (p : Plane) (sw sh dw dh y0 n : Nat) : Plane := Plane.tabulate dw n fun i j =>
    scaleSample (s.scaleCoef die set tv) (s.scaleCoef die set 8) tv 8 sw sh dw dh i (y0 + j) (fun x y => p.sample x y)
  let ch := c.cfg.chroma
  let chromaOf (p : Plane) : Plane :=
    plane (ten p) (parent.cfg.width / 2) (chromaLines ch parent.cfg.height) (c.cfg.width / 2) (chromaLines ch c.cfg.height)
      (chromaLines ch y0) (chromaLines ch n)
  { y := plane (ten img.y) parent.cfg.width parent.cfg.height c.cfg.width c.cfg.height y0 n
    cb := chromaOf img.cb, cr := chromaOf img.cr }

/-- Luma lines of the parent's picture that lines up to `y` of a rendition read. -/
def Channel.parentLines (parent c : Channel) (y : Nat) : Nat :=
  let n := (scalePos parent.cfg.height c.cfg.height y).1 + (c.set.scaleTaps / 2 : Nat) + 1
  min parent.cfg.height (n + 2).toNat

end Sys2Proof.Machine
end

