-- ==== Sys2Proof/Machine/Recipe.lean ====
section
/-!
DEFINITION. The functions of the coding data plane that the manual leaves to the recipes or to the codec standards, each a
function of exactly what its rules name and none with a body, and the descriptions they take: a row's job, its entropy coding,
its filtering, and NAL units (R109 to R111, R132, R150, R168, R169).
-/

namespace Sys2Proof.Machine

open Sys2Proof (Byte)

/-- What the coding of a row's CTUs on one half is a function of (R111, R150, R164). -/
structure RowJob where
  recipe : Nat := 0
  cfg : ChCfg := {}
  set : ChSettings := {}
  /-- preset, tools allowed, references searched, least luma CU (R132, R196) -/
  effort : Nat := 1
  tools : Nat := 0
  refCount : Nat := 1
  minCu : Nat := 8
  depQuant : Bool := false
  /-- maximum split or transform tree depth, intra modes tested, merge candidates (R132) -/
  depth : Nat := 1
  intraModes : Nat := 2
  mergeCands : Nat := 6
  type : PicType := .inter
  poc : Int := 0
  tid : Nat := 0
  half : Nat := 0
  row : Nat := 0
  /-- CTU columns that it covers: from, up to -/
  cols : Nat × Nat := (0, 0)
  /-- CTU columns that are coded intra (R163) -/
  band : Nat × Nat := (0, 0)
  /-- a row of the bin-rate jig pattern, or another pattern's number (R258) -/
  jig : Option Nat := none
  ctuQps : List Nat := []
  stage : RcStage := 0
  source : Frame := {}
  search : List SearchRow := []
  /-- the coding so far of the rows before, and of the columns to the left -/
  above : List RowOut := []
  left : RowOut := {}
  /-- reference pictures of lists 0 and 1, cut to what the job may read -/
  refs0 : List Frame := []
  refs1 : List Frame := []
  pocs0 : List Int := []
  pocs1 : List Int := []
deriving DecidableEq, Repr, Inhabited

/-- The entropy coding of a row on one half: what is coded, and from which checkpoint (R145). -/
structure EntJob where
  cfg : ChCfg := {}
  type : PicType := .inter
  row : Nat := 0
  ctuQps : List Nat := []
  out : RowOut := {}
  start : Checkpoint := {}
deriving DecidableEq, Repr, Inhabited

/-- The in-loop filtering of a row: the reconstructions of the row and of the one above on the half and, as far as the seam
band goes, beyond it, the QPs and decisions, and the statistics of the picture coded before (R151, R152, R154). -/
structure FilterJob where
  cfg : ChCfg := {}
  set : ChSettings := {}
  tools : Nat := 0
  row : Nat := 0
  last : Bool := false
  above : RowOut := {}
  out : RowOut := {}
  seamAbove : Frame := {}
  seam : Frame := {}
  qpsAbove : List Nat := []
  qps : List Nat := []
  source : Frame := {}
  /-- the ALF coefficient sets come from this picture's reconstruction and source, if any -/
  alfFrom : Option (Frame × Frame) := none
deriving DecidableEq, Repr, Inhabited

/-- A fill coding of a CTU row on one half (R198). -/
structure FillJob where
  cfg : ChCfg := {}
  type : PicType := .inter
  row : Nat := 0
  half : Nat := 0
  kinds : List FillKind := []
  above : List RowOut := []
  refs0 : List Frame := []
deriving DecidableEq, Repr, Inhabited

/-! ### NAL units (R168, R169, R182) -/

/-- What the parameter sets of a coded video sequence carry. -/
structure SeqParams where
  codec : Nat := 0
  /-- 0 Main, 1 Main 10, 2 Main 4:2:2 10, 3 Main 10 4:4:4 -/
  profile : Nat := 0
  level : Nat := 0
  highTier : Bool := false
  width : Nat := 0
  height : Nat := 0
  chroma : Nat := 0
  bitDepth : Nat := 8
  ctu : Nat := 64
  tileColumns : Nat := 1
  tileRows : Nat := 1
  /-- rows of a tile row or slice -/
  duRows : Nat := 1
  wavefront : Bool := true
  /-- every flag that lets loop filtering cross tile and slice boundaries -/
  filterAcross : Bool := true
  gdr : Bool := false
  sublayers : Nat := 1
  tools : Nat := 0
  /-- both quantisation modes, less those turned off -/
  depQuant : Bool := false
  signHiding : Bool := false
  dpb : Nat := 1
  /-- colour primaries, transfer characteristics, matrix coefficients; full range; chroma sample location type -/
  primaries : Nat := 1
  transfer : Nat := 1
  matrix : Nat := 1
  fullRange : Bool := false
  chromaLoc : Nat := 0
  /-- HRD: bit rate and CPB size as signalled, CBR, NAL HRD, VCL HRD, decoding-unit parameters, low delay, fixed rate -/
  bitRate : Nat := 0
  cpbSize : Nat := 0
  cbr : Bool := false
  nalHrd : Bool := true
  vclHrd : Bool := false
  duHrd : Bool := true
  lowDelay : Bool := false
  fixedRate : Bool := true
  /-- clock tick in seconds, as a fraction; sub-picture ticks in a tick -/
  tickNum : Nat := 1
  tickDen : Nat := 1
  subTicks : Nat := 1
deriving DecidableEq, Repr, Inhabited

/-- What picture and slice headers carry. -/
structure PicParams where
  codec : Nat := 0
  type : PicType := .inter
  poc : Int := 0
  tid : Nat := 0
  /-- reference lists as POCs -/
  list0 : List Int := []
  list1 : List Int := []
  /-- 0 B, 1 P, 2 I -/
  sliceType : Nat := 0
  isReference : Bool := true
  /-- `ph_recovery_poc_cnt` of a GDR picture -/
  recovery : Option Nat := none
  sliceQp : Nat := 0
  depQuant : Bool := false
  temporalMvp : Bool := true
  sao : Bool := true
  alf : Bool := true
deriving DecidableEq, Repr, Inhabited

/-- A NAL unit other than a slice. -/
inductive Nal where
  | aud (p : PicParams)
  | vps (p : SeqParams)
  | sps (p : SeqParams)
  | pps (p : SeqParams)
  /-- ALF coefficients from the statistics of a coded picture: its reconstruction and its source -/
  | alfAps (recon source : Frame)
  | lmcsAps (p : SeqParams) (picture : Frame)
  /-- initial CPB removal delay in 90 kHz units -/
  | bufferingPeriod (delay : Nat)
  /-- CPB removal delay and picture output delay in clock ticks, DU output delay in sub-picture ticks -/
  | pictureTiming (removal output duOutput : Nat)
  | recoveryPoint (count : Nat)
  /-- primaries, white point and luminances, as `CODING.SEI` holds them -/
  | masteringDisplay (fields : List Byte)
  | lightLevel (fields : List Byte)
  | captions (data : List (List Byte))
  | pictureHeader (p : PicParams)
  /-- decoding unit number, and its removal interval in sub-picture ticks -/
  | duInfo (du interval : Nat)
  /-- kind 1 MD5, 2 CRC, 3 checksum, of the reconstructed picture -/
  | pictureHash (kind : Nat) (recon : Frame)
  | endOfSequence
deriving DecidableEq, Repr, Inhabited

end Sys2Proof.Machine

namespace Sys2Proof.Config

open Sys2Proof (Byte)
open Sys2Proof.Machine (RowJob RowOut EntJob EntOut FilterJob Filtered FillJob Frame Nal PicParams)

/-- SATD of a block that the picture's edge cuts, which R113 does not state. -/
opaque cutSatd : List (List Nat) → Nat

/-- `ACT_PIC` as perceptual offsets take it before every row of the picture is analysed, from the `ACT` values so far: R113
makes it a mean over the whole picture, and R187 does not say what stands before that is known. -/
opaque actSoFar : List Nat → Nat

/-- λ of R120: recipe version, base QP. -/
opaque lambda : Nat → Nat → Nat

/-- The least-squares fit of R118: offsets from the picture centre and vectors, to tx, ty, zm, rt. -/
opaque gmLeastSquares : List (Int × Int × Int × Int) → Int × Int × Int × Int

/-- The residual of a block's vector less the fitted value (R118 names no measure). -/
opaque gmResidual : Int → Int → Nat

/-- Mode decision and reconstruction of a row under the recipes (R110, R132). -/
opaque decideRow : RowJob → RowOut

/-- CABAC coding of a row (H.265, H.266). -/
opaque entropyRow : EntJob → EntOut

/-- Context variables at the start of a slice or tile: codec, slice type, slice QP. -/
opaque initContexts : Nat → Nat → Nat → List Nat

/-- In-loop filtering of a row (H.265, H.266). -/
opaque filterRow : FilterJob → Filtered

/-- Reconstruction of a filled row where it is no plain copy, and the fill coding's syntax (R198). -/
opaque fillRow : FillJob → RowOut

/-- The bytes of a NAL unit (H.265, H.266, H.274). -/
opaque nalBytes : Nal → List Byte

/-- The bytes of a slice header: picture, first row, half, and of the slice NAL unit from its header and its rows. -/
opaque sliceHeader : PicParams → Nat → Nat → List Byte
opaque sliceNal : List Byte → List EntOut → List Byte

/-- PSNR in units of 1/256 dB from the sum of squared errors, the number of samples and the bit depth (R260 names no
rounding); the error is not zero. -/
opaque psnr : Nat → Nat → Nat → Nat

end Sys2Proof.Config
end

