-- ==== Sys2Proof/Machine/Search.lean ====
section
/-!
DEFINITION. Global motion and the hierarchical motion search of one CTU row against one reference (Pre-analysis and Hierarchical
Motion Search, R117 to R131). Vectors are in quarter-pel at full resolution throughout.
-/

namespace Sys2Proof.Machine

abbrev Vec := Int × Int

/-- A quotient rounded half away from zero (R128). -/
def roundHalf (a : Int) (b : Nat) : Int := if 0 ≤ a then (2 * a + b) / (2 * b : Nat) else -((-2 * a + b) / (2 * b : Nat))

/-- A vector on a grid of so many quarter-pels. -/
def onGrid (g : Nat) (v : Vec) : Vec := (g * roundHalf v.1 g, g * roundHalf v.2 g)

/-! ### Global motion (R117, R118) -/

/-- G at a position of a picture of size w × h. -/
def gmAt (g : List Int) (w h : Nat) (x y : Int) : Vec :=
  let dx := x - (w / 2 : Nat)
  let dy := y - (h / 2 : Nat)
  let zm := g.getD 2 0
  let rt := g.getD 3 0
  (g.getD 0 0 + (zm * dx - rt * dy) / 16384, g.getD 1 0 + (rt * dx + zm * dy) / 16384)

/-- The middle of a list of numbers in order; of two the lower. -/
def median (l : List Nat) : Nat := (l.mergeSort fun a b => a ≤ b).getD ((l.length - 1) / 2) 0

/-- The fit to block centres and vectors: two least-squares passes, the second without the blocks whose residual exceeds twice
the median; G and the percentage kept. G is zero under 25 %, or where no fit is asked for. -/
def gmFit (off : Bool) (w h : Nat) (blocks : List (Int × Int × Int × Int)) : List Int × Nat :=
  let rel : List (Int × Int × Int × Int) :=
    blocks.map fun b => (b.1 - ((w / 2 : Nat) : Int), b.2.1 - ((h / 2 : Nat) : Int), b.2.2.1, b.2.2.2)
  let g (f : Int × Int × Int × Int) : List Int := [f.1, f.2.1, f.2.2.1, f.2.2.2].map fun v => sgn 16 (twos 16 v)
  let first := g (Config.gmLeastSquares rel)
  let res := blocks.map fun b =>
    let v := gmAt first w h b.1 b.2.1
    Config.gmResidual (b.2.2.1 - v.1) (b.2.2.2 - v.2)
  let keep := (rel.zip res).filter fun e => decide (e.2 ≤ 2 * median res)
  if off ∨ blocks.isEmpty then ([0, 0, 0, 0], 0)
  else
    let share := 100 * keep.length / blocks.length
    if 4 * keep.length < blocks.length then ([0, 0, 0, 0], share) else (g (Config.gmLeastSquares (keep.map (·.1))), share)

/-! ### Cost and ranking (R120) -/

/-- Length of the signed Exp-Golomb code of a number. -/
def signedLen (v : Int) : Nat := 2 * Nat.log2 ((if 0 < v then 2 * v.toNat - 1 else 2 * (-v).toNat) + 1) + 1

def vecBits (v seed : Vec) : Nat := signedLen (v.1 - seed.1) + signedLen (v.2 - seed.2)

/-- A position evaluated, with its seed's place and its place in raster order. -/
structure Tried where
  hit : Hit
  seed : Nat
  raster : Nat
deriving DecidableEq, Repr

/-- Ahead in the four steps of the ranking. -/
def Tried.before (a b : Tried) : Bool :=
  let len (h : Hit) : Nat := h.x.natAbs + h.y.natAbs
  let key (t : Tried) : Nat × Nat × Nat × Nat := (t.hit.cost, len t.hit, t.seed, t.raster)
  let (a0, a1, a2, a3) := key a
  let (b0, b1, b2, b3) := key b
  decide (a0 < b0) || (a0 == b0 && (decide (a1 < b1) || (a1 == b1 && (decide (a2 < b2) || (a2 == b2 && decide (a3 < b3))))))

def bestTried (l : List Tried) : Option Tried :=
  l.foldl (fun o t => match o with | some b => if t.before b then some t else o | none => some t) none

/-- The best position, and the best of the others; with none evaluated, the zero vector. -/
def bestTwo (l : List Tried) : List Hit :=
  match bestTried l with
  | none => [{}]
  | some b =>
    let rest := l.filter fun t => t.hit.x != b.hit.x || t.hit.y != b.hit.y
    b.hit :: (match bestTried rest with | some c => [c.hit] | none => [])

def bestHit (l : List Tried) : Hit := (bestTwo l).headD {}

/-! ### One search (R119, R121) -/

/-- What the search of a row on one half works on. Levels are numbered by their scale: 3, 2, 1, 0. -/
structure SearchJob where
  /-- picture size, and the half's luma columns and the row's luma lines -/
  w : Nat
  h : Nat
  x0 : Nat
  x1 : Nat
  y0 : Nat
  y1 : Nat
  ctu : Nat
  lambda : Nat
  /-- samples of the source and of the reference at a level, at any position -/
  cur : Nat → Int → Int → Nat
  ref : Nat → Int → Int → Nat
  /-- the lowest L3 and L2 result rows of the CTU row above; none at the top -/
  l3Above : List (List Hit) := []
  l2Above : List Hit := []
  /-- the vector of a co-located L3 block of the half, by block column and row of the picture -/
  co : Nat → Nat → Option Vec := fun _ _ => none
  /-- G at a position, unless it is zero -/
  gm : Option (Nat → Nat → Vec) := none
  /-- candidates taken; or a full search (R131) -/
  count : Nat := 4
  full : Bool := false
  /-- the two L2 seeds of a block by its centre, from a parent's L3 field (R128) -/
  parent : Option (Nat → Nat → List Vec) := none

/-- A vector is within its limits for a block of `size` luma samples at (x, y). -/
def SearchJob.allows (j : SearchJob) (x y size : Nat) (v : Vec) : Bool :=
  let one (lim p n : Nat) (m : Int) : Bool :=
    decide (m.natAbs ≤ lim) && decide (-512 ≤ 4 * (p : Int) + m - 16) && decide (4 * ((p + size : Nat) : Int) + m + 16 ≤ 4 * (n : Int) + 512)
  one 3072 x j.w v.1 && one 1536 y j.h v.2

/-- SAD of the 8 × 8 block of a level at its position (x, y), moved by whole samples of the level. -/
def SearchJob.sad (j : SearchJob) (level : Nat) (x y dx dy : Int) : Nat :=
  ((List.range 8).map fun b => ((List.range 8).map fun a =>
    ((j.cur level (x + a) (y + b) : Int) - j.ref level (x + a + dx) (y + b + dy)).natAbs).sum).sum

/-- The luma interpolation filter at a quarter-pel phase (H.265 and H.266 use the same; PRESUMED, log entry 196). -/
def lumaTaps (phase : Nat) : List Int :=
  if phase = 1 then [-1, 4, -10, 58, 17, -5, 1, 0]
  else if phase = 2 then [-1, 4, -11, 40, 40, -11, 4, -1]
  else if phase = 3 then [0, 1, -5, 17, 58, -10, 4, -1]
  else [0, 0, 0, 64, 0, 0, 0, 0]

def tapSum (taps : List Int) (f : Int → Int) : Int := ((List.range 8).map fun i => taps.getD i 0 * f ((i : Int) - 3)).sum

/-- The reference at a quarter-pel position, at 10 bits. -/
def SearchJob.interp (j : SearchJob) (qx qy : Int) : Nat :=
  let hx := lumaTaps (qx % 4).toNat
  let hy := lumaTaps (qy % 4).toNat
  let row (dy : Int) : Int := tapSum hx (fun dx => j.ref 0 (qx / 4 + dx) (qy / 4 + dy)) / 4
  (clampI 0 1023 ((tapSum hy row / 64 + 8) / 16)).toNat

/-- SAD of the full-resolution 8 × 8 block at (x, y) at a quarter-pel vector. -/
def SearchJob.fineSad (j : SearchJob) (x y : Nat) (v : Vec) : Nat :=
  ((List.range 8).map fun b => ((List.range 8).map fun a =>
    ((j.cur 0 (x + a : Nat) (y + b : Nat) : Int) - j.interp (4 * (x + a : Nat) + v.1) (4 * (y + b : Nat) + v.2)).natAbs).sum).sum

/-- Positions around seeds: offsets of up to rx and ry steps of the level. -/
def SearchJob.around (j : SearchJob) (level x y : Nat) (seeds : List Vec) (rx ry : Nat) : List Tried :=
  let step : Nat := 4 * 2 ^ level
  let nx := 2 * rx + 1
  (seeds.zipIdx).flatMap fun e => ((List.range ((2 * ry + 1) * nx)).filterMap fun i =>
    let v : Vec := (e.1.1 + step * ((i % nx : Nat) - (rx : Int)), e.1.2 + step * ((i / nx : Nat) - (ry : Int)))
    if j.allows x y (8 * 2 ^ level) v then
      let sad := j.sad level (x / 2 ^ level : Nat) (y / 2 ^ level : Nat) (v.1 / step) (v.2 / step)
      some { hit := { x := v.1, y := v.2, cost := sad + j.lambda * vecBits v e.1 / 16 }, seed := e.2, raster := i }
    else none)

/-- The 8 neighbours of a vector at a quarter-pel step, and the vector itself. -/
def SearchJob.refine (j : SearchJob) (x y step : Nat) (seed : Vec) : Hit :=
  bestHit ((List.range 9).filterMap fun i =>
    let v : Vec := (seed.1 + step * ((i % 3 : Nat) - (1 : Int)), seed.2 + step * ((i / 3 : Nat) - (1 : Int)))
    if j.allows x y 8 v then
      some { hit := { x := v.1, y := v.2, cost := j.fineSad x y v + j.lambda * vecBits v seed / 16 }, seed := 0, raster := i }
    else none)

/-! ### Candidates (R122) -/

/-- Candidates taken in order, up to a count; zero replaces the last where it is missing. -/
def takeCandidates (count : Nat) (l : List (Option Vec)) : List Vec :=
  let took := l.foldl (fun acc c => match c with
    | some v => let v := onGrid 32 v
                if count ≤ acc.length ∨ acc.contains v then acc else acc ++ [v]
    | none => acc) []
  if took.contains (0, 0) then took else took.dropLast ++ [(0, 0)]

def Hit.vec (h : Hit) : Vec := (h.x, h.y)

/-- Number of blocks of a size on the half's width, and on the row's height. -/
def SearchJob.blocksAcross (j : SearchJob) (size : Nat) : Nat := cdiv (j.x1 - j.x0) size
def SearchJob.blocksDown (j : SearchJob) (size : Nat) : Nat := cdiv (j.y1 - j.y0) size

/-- The candidates of L3 block column `i`, whose left neighbour and row above have results. -/
def SearchJob.candidates (j : SearchJob) (i b : Nat) (left : Option (List Hit)) (above : List (List Hit)) : List Vec :=
  let best (o : Option (List Hit)) : Option Vec := o.bind fun l => l.head?.map Hit.vec
  let x := j.x0 + 64 * i
  let y := j.y0 + 64 * b
  let col := x / 64
  let row := y / 64
  takeCandidates j.count
    [j.co col row, best left, best above[i]?, if i + 1 < j.blocksAcross 64 then best above[i + 1]? else none,
     j.gm.map fun g => g (x + 32) (y + 32), some (0, 0), j.co (col + 1) (row + 1),
     if i = 0 ∨ left.isNone then none else best above[i - 1]?]

/-- A row of blocks from the left, each with the results to its left. -/
def rowOfBlocks {α : Type} (n : Nat) (f : Nat → List α → α) : List α :=
  (List.range n).foldl (fun acc i => acc ++ [f i acc]) []

/-- Rows of blocks from the top, each with the row above it. -/
def rowsOfBlocks {α : Type} (top : List α) (n : Nat) (f : Nat → List α → List α) : List (List α) :=
  ((List.range n).foldl (fun acc b => acc ++ [f b (acc.getLastD top)]) [])

/-- The L3 field of the row: the best two of each block. -/
def SearchJob.level3 (j : SearchJob) : List (List (List Hit)) :=
  rowsOfBlocks j.l3Above (j.blocksDown 64) fun b above => rowOfBlocks (j.blocksAcross 64) fun i done =>
    let x := j.x0 + 64 * i
    let y := j.y0 + 64 * b
    bestTwo (if j.full then j.around 3 x y [(0, 0)] 96 48 else j.around 3 x y (j.candidates i b done.getLast? above) 4 4)

/-- The L2 field: around the two L3 vectors; of a rendition, around its parent's and its own left and above results. -/
def SearchJob.level2 (j : SearchJob) (l3 : List (List (List Hit))) : Field :=
  rowsOfBlocks j.l2Above (j.blocksDown 32) fun b above => rowOfBlocks (j.blocksAcross 32) fun i done =>
    let x := j.x0 + 32 * i
    let y := j.y0 + 32 * b
    let seeds := match j.parent with
      | some f => f (x + 16) (y + 16) ++ (done.getLast?.map Hit.vec).toList ++ (above[i]?.map Hit.vec).toList
      | none => ((l3.getD (b / 2) []).getD (i / 2) []).map Hit.vec
    bestHit (j.around 2 x y seeds 8 8)

/-- A field of half the block size: around the results of the level above it. -/
def SearchJob.down (j : SearchJob) (level r : Nat) (up : Field) : Field :=
  let size := 8 * 2 ^ level
  let ratio := if level = 2 then 4 else 2
  (List.range (j.blocksDown size)).map fun b => (List.range (j.blocksAcross size)).map fun i =>
    bestHit (j.around level (j.x0 + size * i) (j.y0 + size * b) [((up.getD (b / ratio) []).getD (i / ratio) {}).vec] r r)

/-- The quarter-pel field. -/
def SearchJob.fine (j : SearchJob) (l0 : Field) : Field :=
  l0.mapIdx fun b r => r.mapIdx fun i h =>
    let x := j.x0 + 8 * i
    let y := j.y0 + 8 * b
    j.refine x y 1 (j.refine x y 2 h.vec).vec

/-- The member vector of a block of n × n 8 × 8 blocks whose cost over the whole block is least. -/
def SearchJob.member (j : SearchJob) (l0 fine : Field) (n i b : Nat) : Hit :=
  let cells := (List.range (n * n)).filterMap fun k =>
    let c := n * i + k % n
    let r := n * b + k / n
    (fine[r]?.bind fun l => l[c]?).map fun h => (c, r, h)
  let cost (v : Vec) : Nat := (cells.map fun e =>
    j.fineSad (j.x0 + 8 * e.1) (j.y0 + 8 * e.2.1) v + j.lambda * vecBits v ((l0.getD e.2.1 []).getD e.1 {}).vec / 16).sum
  bestHit (cells.mapIdx fun k e => { hit := { e.2.2 with cost := cost e.2.2.vec }, seed := 0, raster := k })

/-- The search of a CTU row (R119 to R126). -/
def SearchJob.run (j : SearchJob) : SearchRow :=
  let l3 := if j.parent.isSome then [] else j.level3
  let l2 := j.level2 l3
  let l0 := j.down 0 4 (j.down 1 8 l2)
  let fine := j.fine l0
  let sizes := if j.ctu = 128 then [2, 4, 8, 16] else [2, 4, 8]
  { l3, l2, l0, fine
    members := sizes.map fun n => (List.range (j.blocksDown (8 * n))).map fun b =>
      (List.range (j.blocksAcross (8 * n))).map fun i => j.member l0 fine n i b }

/-! ### Scene change (R115) -/

/-- Blocks of row 0 tested and changed: of the L3 lines `cur` of the row against the L3 lines of a reference, with G's vector
at a block's centre as an offset in L3 samples. -/
def sceneCounts (t : Nat) (cur ref : Plane) (x0 x1 : Nat) (offset : Nat → Nat → Vec) : Nat × Nat :=
  let blocks := (List.range (cur.length / 8)).flatMap fun b => ((List.range ((x1 - x0) / 64)).map fun i => (x0 / 8 + 8 * i, 8 * b))
  let changed (p : Nat × Nat) : Bool :=
    let blk := cur.part p.1 p.2 8 8
    let o := offset (8 * p.1 + 32) (8 * p.2 + 32)
    let sad (k : Nat) : Nat :=
      let dx : Int := o.1 + (k % 9 : Nat) - 4
      let dy : Int := o.2 + (k / 9 : Nat) - 4
      ((List.range 64).map fun a =>
        (((blk.getD (a / 8) []).getD (a % 8) 0 : Int) -
          ref.sample ((p.1 + a % 8 : Nat) + dx) ((p.2 + a / 8 : Nat) + dy)).natAbs).sum
    let dt := ((List.range 81).map sad).foldl min (sad 0)
    let m : Int := ((blk.flatten.sum + 32) / 64 : Nat)
    let di := (blk.flatten.map fun x => ((x : Int) - m).natAbs).sum
    decide (t * di + 4096 < 16 * dt)
  (blocks.length, (blocks.filter changed).length)

end Sys2Proof.Machine
end

