-- ==== Sys2Proof/Machine/RowCode.lean ====
section
/-!
DEFINITION. What a CTU row's tasks compute: its measures, its motion search, its coding and filtering, its checkpoints, its
fill coding, and the reference row that it leaves (Pre-analysis; Coding Core; Rate Control, R187, R196, R198).
-/

namespace Sys2Proof.Machine

open Sys2Proof (Byte)

/-! ### Reference rows (R112, R138, R152) -/

/-- A row of a picture as it lies in memory for reference; mid-grey where the die has none (R167). -/
def Channel.refRow (c : Channel) (m k : Nat) : Frame :=
  let (y0, y1) := c.cfg.lumaRows k
  let r := c.row m k
  if c.rows.has (c.rowKey m k) && r.ready then r.stored.load c.cfg.chroma c.cfg.width (y1 - y0)
  else Frame.grey c.cfg.chroma c.cfg.bitDepth c.cfg.width (y1 - y0)

/-- A whole reference picture, as far as its rows are there. -/
def Channel.refFrame (c : Channel) (m : Nat) : Frame :=
  (List.range c.cfg.rows).foldl (fun f k => f.append (c.refRow m k)) {}

/-- A level of a reference pyramid. -/
def Pyramid.level (p : Pyramid) (l : Nat) : Plane := if l = 3 then p.l3 else if l = 2 then p.l2 else p.l1

def Channel.refLevel (c : Channel) (m l : Nat) : Plane :=
  (List.range c.cfg.rows).flatMap fun k =>
    let r := c.row m k
    let (y0, y1) := c.cfg.lumaRows k
    if l = 0 then tenBits c.cfg.bitDepth (c.refRow m k).y
    else if c.rows.has (c.rowKey m k) && r.ready then r.refPyramid.level l
    else List.replicate ((y1 - y0) / 2 ^ l) (List.replicate (c.cfg.width / 2 ^ l) 512)

/-- A level of the source pyramid of a picture, as far as its rows are analysed. -/
def Channel.srcLevel (c : Channel) (n l : Nat) : Plane :=
  if l = 0 then tenBits c.cfg.bitDepth (c.pic n).img.y
  else (List.range c.cfg.rows).flatMap fun k => (c.row n k).pyramid.level l

/-- The references of a picture are ready for CTU row `k`: their rows up to k + n, which reach 384 + 4 lines below it, and on a
mitre half the partner's columns of them (R124). -/
def ChCfg.reach (c : ChCfg) : Nat := if c.ctu = 128 then 4 else 7

def Channel.refsReady (c : Channel) (refs : List Nat) (k half : Nat) : Bool :=
  refs.all fun m => (List.range (min (k + c.cfg.reach) (c.cfg.rows - 1) + 1)).all fun j =>
    !c.rows.has (c.rowKey m j) ||
      ((c.row m j).ready && (c.partnerPipe.isNone || bit (c.row m j).seamColumns (1 - half)))

/-- The most recent picture before `n` whose every row is reconstructed for reference. -/
def Channel.lastRecon (c : Channel) (n : Nat) : Option Nat :=
  ((c.pics.filter fun (e : Nat × Pic) => decide (e.1 < n) && (List.range c.cfg.rows).all fun k => (c.row e.1 k).ready).getLast?).map
    (·.1)

/-- Luma columns of a reference that a half's die holds: its own and the 896 exchanged columns (R112, R127). -/
def Channel.heldCols (c : Channel) (half : Nat) : Nat × Nat :=
  let (a, b) := c.cfg.lumaCols (c.halfCols half)
  if c.partnerPipe.isNone then (a, b) else (a - 896, min c.cfg.width (b + 896))

/-! ### Measures of a row (R113) -/

/-- `CPLX` of a CTU from its L1 area and its luma pixels (R113; log entry 195). -/
def ctuComplexity (l1 : Plane) (w h pixels : Nat) : Nat :=
  let whole := ((wholeBlocks l1 w h).map satd).sum
  let cut := ((cutBlocks l1 w h).map Config.cutSatd).sum
  min 65535 (16 * (whole + cut) / max 1 pixels)

/-- `ACT` and `CPLX` of each CTU of a row, from its luma at 10 bits. -/
def ChCfg.rowMeasures (c : ChCfg) (luma : Plane) (p : Pyramid) : List Nat × List Nat :=
  let h := luma.length
  let one (i : Nat) : Nat × Nat :=
    let (a, b) := c.lumaCols (i, i + 1)
    (ctuActivity (luma.part a 0 (b - a) h) (b - a) h,
      ctuComplexity (p.l1.part (a / 2) 0 ((b - a) / 2) (h / 2)) ((b - a) / 2) (h / 2) ((b - a) * h))
  let l := (List.range c.cols).map one
  (l.map (·.1), l.map (·.2))

/-! ### Motion search of a row (R119 to R131) -/

/-- The most recent picture before `n` whose search completed, with no history reset at or after the picture that follows
it (R130, R131). -/
def Channel.colocated (c : Channel) (n : Nat) : Option Nat :=
  let reset := ((c.pics.filter fun (e : Nat × Pic) => decide (e.1 ≤ n) && e.2.scene != 0).map (·.1)).foldl max 0
  ((c.pics.filter fun (e : Nat × Pic) => decide (e.1 < n ∧ reset ≤ e.1) && !e.2.list0.isEmpty &&
    (List.range c.cfg.rows).any fun k => !(c.row e.1 k).search.isEmpty).getLast?).map (·.1)

/-- A vector over one picture distance, scaled to another. -/
def scaleVec (v : Vec) (dist from_ : Int) : Vec :=
  if from_ = 0 then v
  else
    let one (a : Int) : Int := roundHalf (a * dist * from_.sign) from_.natAbs
    (one v.1, one v.2)

/-- The vector of the co-located field at an L3 block: its L0 vector at the block's centre (log entry 199). -/
def Channel.coVector (c : Channel) (n half idx : Nat) (ref : Nat) (col row : Nat) : Option Vec :=
  match c.colocated n with
  | none => none
  | some q =>
    let (x0, x1) := c.cfg.lumaCols (c.halfCols half)
    let x := min (64 * col + 32) (x1 - 1)
    let y := min (64 * row + 32) (c.cfg.height - 1)
    if 64 * col < x0 ∨ x1 ≤ 64 * col ∨ c.cfg.height ≤ 64 * row then none
    else
      let k := y / c.cfg.ctu
      let l := (c.row q k).search.look [] half
      let refs := (c.pic q).searched 8
      let i := if idx < l.length then idx else 0
      match l[i]? with
      | none => none
      | some s => match (s.l0[(y - k * c.cfg.ctu) / 8]?).bind fun r => r[(x - x0) / 8]? with
        | none => none
        | some h =>
          some (scaleVec h.vec ((c.pic n).poc - (c.pic ref).poc) ((c.pic q).poc - (c.pic (refs.getD i 0)).poc))

/-- G that serves a picture: the estimate of the picture before it (R118); none while history is reset. -/
def Channel.gmFor (c : Channel) (n : Nat) : List Int :=
  if (c.pic n).firstSearched || n = 0 then [0, 0, 0, 0]
  else match c.pics.find (n - 1) with
    | some p => if p.fitted then p.gm else [0, 0, 0, 0]
    | none => [0, 0, 0, 0]

/-- L3 candidates taken at a preset (R122). -/
def candidateCount (effort : Nat) : Nat := if effort = 1 then 4 else if effort = 2 then 6 else 8

/-- The job of the search of row `k` of picture `n` on a half against reference `ref`, the `idx`-th searched. -/
def Channel.searchJob (c : Channel) (recipe n k half idx ref : Nat) (parent : Option (Nat → Nat → List Vec)) : SearchJob :=
  let p := c.pic n
  let (x0, x1) := c.cfg.lumaCols (c.halfCols half)
  let (y0, y1) := c.cfg.lumaRows k
  let (lo, hi) := c.heldCols half
  let g := c.gmFor n
  let above := if k = 0 then ({} : SearchRow) else ((c.row n (k - 1)).search.look [] half).getD idx {}
  { w := c.cfg.width, h := c.cfg.height, x0, x1, y0, y1, ctu := c.cfg.ctu
    lambda := Config.lambda recipe (qpBase p.set.ql)
    cur := fun l x y => (c.srcLevel n l).sample x y
    ref := fun l x y => (c.refLevel ref l).sample (clampI (lo / 2 ^ l : Nat) ((hi / 2 ^ l : Nat) - 1) x) y
    l3Above := above.l3.getLastD [], l2Above := above.l2.getLastD []
    co := if p.firstSearched then fun _ _ => none else c.coVector n half idx ref
    gm := if g.all (· == 0) then none else some fun x y => gmAt g c.cfg.width c.cfg.height x y
    count := candidateCount p.effort, full := p.firstSearched, parent }

/-- L3 blocks of a picture with their centres and best vectors against its first reference: what the fit takes (R118). -/
def Channel.fieldBlocks (c : Channel) (n : Nat) : List (Int × Int × Int × Int) :=
  (List.range c.cfg.rows).flatMap fun k => c.halves.flatMap fun half =>
    let x0 := (c.cfg.lumaCols (c.halfCols half)).1
    let y0 := (c.cfg.lumaRows k).1
    let l3 := (((c.row n k).search.look [] half).headD {}).l3
    (l3.mapIdx fun b r => r.mapIdx fun i hits =>
      let h := hits.headD {}
      (((x0 + 64 * i + 32 : Nat) : Int), ((y0 + 64 * b + 32 : Nat) : Int), h.x, h.y)).flatten

/-! ### QPs of a row (R187, R196) -/

/-- `ACT_PIC` as a row's perceptual offsets take it: the picture's, or while rows of it are still to be analysed a value that
the manual does not state (log entry 200). -/
def Channel.actMean (c : Channel) (n : Nat) : Nat :=
  let p := c.pic n
  let acts := (List.range c.cfg.rows).map fun k => (c.row n k).acts
  if acts.any List.isEmpty then Config.actSoFar acts.flatten else p.actPic

/-- The QPs of a row's CTUs at its row QP and stage. -/
def Channel.ctuQps (c : Channel) (n k rowQp stage : Nat) : List Nat :=
  let c := c.at_ n
  let acts := (c.row n k).acts
  (List.range c.cfg.cols).map fun i =>
    if stage = 0 then c.qpCtu rowQp (acts.getD i 0) (c.actMean n) else if stage = 1 then c.set.qpMax else c.cfg.qpTop

/-! ### Mode decision (R132, R150, R164, R166, R167) -/

/-- Every tool of the tables of a codec. -/
def allTools (codec : Nat) : Nat := (toolBits codec 1 ++ toolBits codec 3).eraseDups.foldl setBit 0

/-- Tools of a picture's rows at a stage: in S2 those of E1; of the bits of R132, "Structure" tools only with references on both
sides, and the quantisation mode as the picture's header selects it. -/
def Channel.rowTools (c : Channel) (n stage : Nat) : Nat :=
  let c := c.at_ n
  let p := c.pic n
  let both := p.list1.any fun m => decide (p.poc < (c.pic m).poc)
  let on := if p.jig = some 1 then allTools c.cfg.codec else ({ c with effort := p.effort } : Channel).toolOn
  (((List.range 33).filter fun b => bit on b && (stage != 2 || (toolBits c.cfg.codec 1).contains b) && (both || (b != 13 && b != 14)) &&
    b != 19 && b != 27) ++ (if c.cfg.codec = 0 then (if bit on 27 then [27] else [])
      else if p.depQuant then [19] else if bit on 27 then [27] else [])).foldl setBit 0

/-- References that a row's coding takes: one in S2 (R196). -/
def rowRefs (refs stage : Nat) : Nat := if stage = 2 then min 1 refs else refs

/-- Clean CTU columns of a reference for a picture at index `i` of its refresh: those of the same refresh (R163, R164). -/
def Channel.cleanRef (c : Channel) (n i m : Nat) : Nat := if n ≤ m + i then c.cleanColumns (m + i - n) else 0

/-- A reference cut to its first luma columns; the rest mid-grey. -/
def Frame.cutTo (f : Frame) (cfg : ChCfg) (w : Nat) : Frame :=
  let h := f.y.length
  (f.part cfg.chroma 0 0 w h).beside (Frame.grey cfg.chroma cfg.bitDepth (cfg.width - w) h)

/-- The job of the CTU columns `cols` of a row on a half; `clean`: the refresh index whose clean area they lie in. -/
def Channel.rowJob (c : Channel) (recipe n k half : Nat) (cols : Nat × Nat) (clean : Option Nat) (left : RowOut)
    (jig : Option Nat) (b : RowBuf) (above : List RowOut) : RowJob :=
  let p := c.pic n
  let refs := rowRefs (refsOf p.effort p.set.maxRefs) b.stage
  let (y0, y1) := c.cfg.lumaRows k
  let (x0, x1) := c.cfg.lumaCols cols
  let frame (m : Nat) : Frame := match clean with
    | some i => (c.refFrame m).cutTo c.cfg (c.cleanRef n i m * c.cfg.ctu - 16)
    | none => c.refFrame m
  let preset {α : Type} (a b d : α) : α := if p.effort = 1 then a else if p.effort = 2 then b else d
  { recipe, cfg := c.cfg, set := p.set, effort := p.effort, tools := c.rowTools n b.stage, refCount := refs
    minCu := if b.stage = 2 then 32 else if c.cfg.codec = 0 then preset 16 8 8 else preset 8 8 4
    depQuant := p.depQuant, depth := preset 1 2 3, intraModes := preset 2 3 6, mergeCands := if c.cfg.codec = 0 then 5 else 6
    type := p.type, poc := p.poc, tid := p.tid, half, row := k, cols
    band := match clean with | some i => (c.cleanColumns i - c.bandColumns i, c.cleanColumns i) | none => (0, 0)
    jig, ctuQps := (b.ctuQps.drop cols.1).take (cols.2 - cols.1), stage := b.stage
    source := p.img.part c.cfg.chroma x0 y0 (x1 - x0) (y1 - y0)
    search := (c.row n k).search.look [] half, above, left
    refs0 := (p.list0.take refs).map frame, refs1 := (p.list1.take refs).map frame
    pocs0 := (p.list0.take refs).map fun m => (c.pic m).poc, pocs1 := (p.list1.take refs).map fun m => (c.pic m).poc }

/-- A plain copy of the same columns of reference 0, each CTU one skipped unit (R166). -/
def Channel.copyOut (c : Channel) (n k : Nat) (cols : Nat × Nat) : RowOut :=
  let p := c.pic n
  let (y0, y1) := c.cfg.lumaRows k
  let (x0, x1) := c.cfg.lumaCols cols
  let ref := match p.list0.head? with
    | some m => c.refRow m k
    | none => Frame.grey c.cfg.chroma c.cfg.bitDepth c.cfg.width (y1 - y0)
  let cu (i : Nat) : List Cu :=
    let (a, b) := c.cfg.lumaCols (cols.1 + i, cols.1 + i + 1)
    [{ area := (b - a) * (y1 - y0) }]
  { ctus := (List.range (cols.2 - cols.1)).map cu, recon := ref.part c.cfg.chroma x0 0 (x1 - x0) (y1 - y0) }

/-- Parts of a row side by side. -/
def RowOut.beside (a b : RowOut) : RowOut :=
  { ctus := a.ctus ++ b.ctus, syntaxes := a.syntaxes ++ b.syntaxes, recon := a.recon.beside b.recon }

/-- The area outside the clean one is zero-vector coded: in a refresh that a start or a fail-over began (R167). -/
def Channel.zeroRest (c : Channel) (n : Nat) : Bool :=
  match (c.pic n).refresh with
  | some i => [4, 5].contains (c.pic (n - i)).scene
  | none => false

/-- What a row's mode decision gives on a half, from one side of its buffers (R150). In a refresh, the clean area is coded from
clean samples only, the rest beside it. -/
def Channel.modeDecision (c : Channel) (recipe n k half : Nat) (b : RowBuf) : RowOut :=
  let p := c.pic n
  let jig := p.jig
  let cols := c.halfCols half
  let above := (List.range k).map fun j => (c.row n j).buf.outs.look {} half
  if p.kind = .repeat_ then c.copyOut n k cols
  else match p.refresh with
    | none => Config.decideRow (c.rowJob recipe n k half cols none {} jig b above)
    | some i =>
      let edge := clampN cols.1 cols.2 (c.cleanColumns i)
      let cut (o : RowOut) : RowOut :=
        { o with ctus := o.ctus.take (edge - cols.1)
                 recon := o.recon.part c.cfg.chroma 0 0 ((c.cfg.lumaCols (cols.1, edge)).2 - (c.cfg.lumaCols cols).1) c.cfg.ctu }
      let a := if cols.1 < edge then
          Config.decideRow (c.rowJob recipe n k half (cols.1, edge) (some i) {} jig b (above.map cut))
        else {}
      let r := if cols.2 ≤ edge then {}
        else if c.zeroRest n then c.copyOut n k (edge, cols.2)
        else Config.decideRow (c.rowJob recipe n k half (edge, cols.2) none a jig b above)
      a.beside r

/-! ### Entropy coding and checkpoints (R145) -/

/-- 0 B, 1 P, 2 I: P where one reference is searched (R161). -/
def Channel.sliceType (c : Channel) (n : Nat) : Nat :=
  let p := c.pic n
  if p.type == .idr || p.type == .cra then 2
  else if refsOf p.effort p.set.maxRefs = 1 then 1 else 0

/-- A row begins a slice or a tile. -/
def ChCfg.sliceStart (c : ChCfg) (k : Nat) : Bool := c.duStart k

/-- The row-start checkpoint of a row on a half, from the rows before it; none while they do not have it. -/
def Channel.checkpoint (c : Channel) (n k half : Nat) : Option Checkpoint :=
  let p := c.pic n
  let fresh : Checkpoint := { contexts := Config.initContexts c.cfg.codec (c.sliceType n) p.qpPic, qp := p.qpPic }
  if c.cfg.sliceStart k then some fresh
  else match (c.row n (k - 1)).buf.ents.find half with
    | none => none
    | some e =>
      if c.cfg.wavefront then some { fresh with contexts := if c.cfg.codec = 1 then e.after0 else e.after1 }
      else some { e.last with history := [] }

/-- A row's entropy coding on a half from a checkpoint. -/
def Channel.entropy (c : Channel) (n k half : Nat) (b : RowBuf) (start : Checkpoint) : EntOut :=
  let (lo, hi) := c.halfCols half
  Config.entropyRow { cfg := c.cfg, type := (c.pic n).type, row := k, ctuQps := (b.ctuQps.drop lo).take (hi - lo)
                      out := b.outs.look {} half, start }

/-! ### In-loop filtering (R151 to R154) -/

/-- The picture whose statistics give the ALF coefficients: the one coded before, unless history has been reset since. -/
def Channel.alfFrom (c : Channel) (n : Nat) : Option Nat :=
  if (c.pic n).scene ≠ 0 then none
  else ((c.pics.filter fun (e : Nat × Pic) => decide (e.1 < n) && e.2.kind != .hubFill).getLast?).map (·.1)

/-- The 16 luma columns of a half's row nearest the seam, before filtering. -/
def Channel.seamBandOf (c : Channel) (n k half : Nat) : Frame :=
  let f := ((c.row n k).buf.outs.look {} half).recon
  let (lo, hi) := c.cfg.lumaCols (c.halfCols half)
  if half = 0 then f.part c.cfg.chroma (hi - lo - 16) 0 16 c.cfg.ctu else f.part c.cfg.chroma 0 0 16 c.cfg.ctu

/-- What a row's filter tasks give on a half. A repeat picture's rows pass unchanged (R166). -/
def Channel.filterOut (c : Channel) (n k half : Nat) (b : RowBuf) : Filtered :=
  let p := c.pic n
  let (x0, x1) := c.cfg.lumaCols (c.halfCols half)
  let (y0, y1) := c.cfg.lumaRows k
  let last := k + 1 == c.cfg.rows
  let h := y1 - y0
  let ch := c.cfg.chroma
  let out := b.outs.look {} half
  let up := if k = 0 then {} else (c.row n (k - 1)).buf.outs.look {} half
  if p.kind = .repeat_ then
    { band := if k = 0 then {} else up.recon.part ch 0 (c.cfg.ctu - 16) (x1 - x0) 16
      body := if last then out.recon else out.recon.part ch 0 0 (x1 - x0) (h - 16) }
  else
    let other := 1 - half
    let mitre := c.partnerPipe.isSome
    let (lo, hi) := c.halfCols half
    let qps (j : Nat) : List Nat := ((c.row n j).buf.ctuQps.drop lo).take (hi - lo)
    let f := Config.filterRow {
      cfg := c.cfg, set := p.set, tools := c.rowTools n b.stage, row := k, last, above := up, out
      seamAbove := if mitre && k != 0 then c.seamBandOf n (k - 1) other else {}
      seam := if mitre then c.seamBandOf n k other else {}
      qpsAbove := if k = 0 then [] else qps (k - 1), qps := (b.ctuQps.drop lo).take (hi - lo)
      source := p.img.part ch x0 y0 (x1 - x0) h
      alfFrom := if p.alf then (c.alfFrom n).map fun m => (c.refFrame m, (c.pic m).img) else none }
    { band := if k = 0 then {} else f.band.fit ch (x1 - x0) 16
      body := f.body.fit ch (x1 - x0) (if last then h else h - 16) }

/-- The final samples of a row: the rest of the row, and for all but the last the band that belongs to the row below it. -/
def Channel.finalRow (c : Channel) (n k : Nat) : Frame :=
  let join (f : Nat → Frame) : Frame := c.halves.foldl (fun a half => a.beside (f half)) {}
  let body := join fun half => ((c.row n k).buf.filt.look {} half).body
  if k + 1 = c.cfg.rows then body
  else body.append (join fun half => ((c.row n (k + 1)).buf.filt.look {} half).band)

/-! ### Fill coding (R166, R198, R199) -/

/-- How each CTU of a filled row is coded. -/
def Channel.fillKinds (c : Channel) (n : Nat) (cols : Nat × Nat) : List FillKind :=
  let p := c.pic n
  (List.range (cols.2 - cols.1)).map fun i =>
    let x := cols.1 + i
    if p.kind = .repeat_ ∨ p.kind = .hubFill then .merge
    else if p.type = .idr ∨ p.type = .cra then .intra
    else match p.refresh with
      | some i =>
        if c.cleanColumns i - c.bandColumns i ≤ x ∧ x < c.cleanColumns i then .intra
        else if x < c.cleanColumns i then .zeroVec else .merge
      | none => .merge

/-- The fill coding of a row on a half with the reference pictures that it reads: a plain copy where every CTU is a zero-vector
one, or the picture a repeat; otherwise as a decoder reconstructs it. -/
def Channel.fillFrom (c : Channel) (n k half : Nat) (refs0 : List Frame) : RowOut :=
  let p := c.pic n
  let cols := c.halfCols half
  let kinds := c.fillKinds n cols
  if p.kind = .repeat_ || kinds.all (· == .zeroVec) then c.copyOut n k cols
  else Config.fillRow { cfg := c.cfg, type := p.type, row := k, half, kinds
                        above := (List.range k).map fun j => (c.row n j).buf.outs.look {} half, refs0 }

def Channel.fillOut (c : Channel) (n k half : Nat) : RowOut :=
  c.fillFrom n k half (((c.pic n).list0.take 1).map c.refFrame)

/-- Its substream, with every QP the picture's; it codes no residual, so that no sample bears on it. -/
def Channel.fillEnt (c : Channel) (n k half : Nat) : EntOut :=
  let cols := c.halfCols half
  Config.entropyRow { cfg := c.cfg, type := (c.pic n).type, row := k, ctuQps := List.replicate (cols.2 - cols.1) (c.pic n).qpPic
                      out := { c.fillFrom n k half [] with recon := {} }, start := (c.checkpoint n k half).getD {} }

/-- The buffers of a row that has just been filled: its reconstruction follows. -/
def Channel.fillBuf (c : Channel) (n k : Nat) : RowBuf := { ents := c.halves.map fun half => (half, c.fillEnt n k half) }

end Sys2Proof.Machine
end

