-- ==== Sys2Proof/Machine/Stream.lean ====
section
/-!
DEFINITION. The NAL units of an access unit: parameter sets with their HRD values, picture parameters, SEI, slices, and the
sizes that rate control counts (Coding Core, R161, R163, R166, R168 to R172; Rate Control, R181, R182, R184).
-/

namespace Sys2Proof.Machine

open Sys2Proof (Byte)

/-! ### Parameter sets (R140, R169, R182, R271) -/

/-- The least bit rate that the syntax can express and that is at least the cap: a multiple of 64 b/s (PRESUMED, log entry 201). -/
def signalledRate (bps : Nat) : Nat := 64 * cdiv bps 64

/-- Primaries, transfer characteristics and matrix coefficients of a colour system (R271). -/
def colourCodes (colour : Nat) : Nat × Nat × Nat :=
  if colour = 0 then (1, 1, 1) else if colour = 1 then (9, 14, 9) else if colour = 2 then (9, 16, 9) else (9, 18, 9)

/-- What the parameter sets of a channel carry, under the settings of picture `n`. -/
def Channel.seqParams (c : Channel) (n : Nat) : SeqParams :=
  let p := c.pic n
  let c := c.at_ n
  let g := c.cfg
  let (primaries, transfer, matrix) := colourCodes c.set.colour
  let on := ({ c with effort := g.effort } : Channel).toolOn
  let off (b : Nat) : Bool := bit c.set.toolOff b && !p.allTools
  { codec := g.codec
    profile := if g.codec = 1 then (if g.chroma = 1 then 3 else 1) else if g.chroma = 1 then 2 else if g.bitDepth = 8 then 0 else 1
    level := g.level % 128, highTier := g.highTier, width := g.width, height := g.height, chroma := g.chroma
    bitDepth := g.bitDepth, ctu := g.ctu, tileColumns := g.tiles
    tileRows := if g.codec = 0 ∧ g.tiles = 1 then 1 else cdiv g.rows g.duRows, duRows := g.duRows, wavefront := g.wavefront
    gdr := g.codec == 1 && c.set.refreshMode == 0
    sublayers := if c.set.struct = 0 then 1 else Nat.log2 (max 2 c.set.miniGop) + 1
    tools := if p.allTools then allTools g.codec else on, depQuant := g.codec == 1 && !off 19, signHiding := !off 27
    dpb := dpbNeed c.set.struct c.set.miniGop (refsOf g.effort c.set.maxRefs), primaries, transfer, matrix
    bitRate := signalledRate (c.capKbps * 1000), cpbSize := signalledCpb c.cpb
    tickNum := g.rateDen, tickDen := g.rateNum, subTicks := g.rows }

/-! ### Picture parameters (R161 to R163, R166) -/

/-- What the picture and slice headers of a picture carry. A repeat or hub-fill picture turns off temporal vector prediction, SAO
and ALF. -/
def Channel.picParams (c : Channel) (n : Nat) : PicParams :=
  let p := c.pic n
  let copy := p.kind == .repeat_ || p.kind == .hubFill
  let refs := refsOf p.effort p.set.maxRefs
  let pocs (l : List Nat) : List Int := (l.take refs).map fun m => (c.pic m).poc
  let st := if copy then 1 else c.sliceType n
  let tools := c.rowTools n 0
  { codec := c.cfg.codec, type := p.type, poc := p.poc, tid := p.tid
    list0 := if st = 2 then [] else pocs p.list0, list1 := if st = 0 then pocs p.list1 else [], sliceType := st
    isReference := c.topTid == 0 || p.tid != c.topTid
    recovery := if p.type = .refreshStart ∧ c.cfg.codec = 1 then some (p.set.refreshPics - 1) else none
    sliceQp := p.qpPic, depQuant := p.depQuant, temporalMvp := !copy && bit tools 25, sao := !copy && bit tools 24
    alf := !copy && bit tools 22 && p.alf }

/-! ### The head of an access unit (R168, R170, R172, R184) -/

/-- The picture carries the parameter sets. -/
def Pic.hasParams (p : Pic) : Bool := p.type.starts || p.set.psRepeat == 1

/-- Initial CPB removal delay: Φ_0 / R_cap in 90 kHz units, rounded down (R182). -/
def Channel.removalDelay (c : Channel) (n : Nat) : Nat :=
  let c' := c.at_ n
  (max 0 (c.pic n).phi0).toNat * 90000 / (65536 * (max 1 c'.capKbps * 1000))

/-- Picture output delay in clock ticks: 0, or the reordering distance under `STRUCT` = 1. -/
def Channel.outputDelay (c : Channel) (n : Nat) : Nat :=
  if c.structNow = 0 then 0 else c.outIndex n + Nat.log2 (max 2 c.set.miniGop) - n

/-- NAL units before the first decoding unit, with an ALF APS or without one and with so many caption constructs. -/
def Channel.headWith (c : Channel) (n : Nat) (alf : Bool) (captions : List (List Byte)) : List Nal :=
  let p := c.pic n
  let q := c.picParams n
  let s := c.seqParams n
  let vvc := c.cfg.codec == 1
  let sets := p.hasParams
  let flags := u8 p.set.sei 0
  let opt (b : Bool) (l : List Nal) : List Nal := if b then l else []
  [.aud q] ++ opt (sets && !vvc) [.vps s] ++ opt sets [.sps s, .pps s] ++
  opt (vvc && alf && q.alf) ((c.alfFrom n).toList.map fun m => .alfAps (c.refFrame m) (c.pic m).img) ++
  opt (vvc && bit (c.rowTools n 0) 21) [.lmcsAps s p.img] ++
  [.bufferingPeriod (c.removalDelay n), .pictureTiming 1 (c.outputDelay n) (c.outputDelay n * c.cfg.rows)] ++
  opt (!vvc && p.type == .refreshStart) [.recoveryPoint (p.set.refreshPics - 1)] ++
  opt (sets && bit flags 0) [.masteringDisplay (slice p.set.sei 8 24)] ++ opt (sets && bit flags 1) [.lightLevel (slice p.set.sei 0x20 4)] ++
  opt (!captions.isEmpty) [.captions captions] ++ opt vvc [.pictureHeader q]

/-- Size in bits of NAL units. -/
def nalSize (l : List Nal) : Nat := 8 * (l.map fun u => (Config.nalBytes u).length).sum

/-- The ALF APS fits before the first slice data (R184). -/
def Channel.alfFits (c : Channel) (n : Nat) : Bool := decide (nalSize (c.headWith n true []) ≤ hMax)

/-- The most caption constructs, of so many at hand, that fit. -/
def Channel.captionRoom (c : Channel) (n : Nat) (alf : Bool) (at_ : List (List Byte)) : Nat :=
  ((List.range (min 31 at_.length + 1)).filter fun m => decide (nalSize (c.headWith n alf (at_.take m)) ≤ hMax)).foldl max 0

/-- The head of a picture's access unit. -/
def Channel.head (c : Channel) (n : Nat) : List Nal := c.headWith n (c.pic n).alf (c.pic n).captions

/-- H: its size in bits, which is never above H_MAX (R181, R184). -/
def Channel.headBits (c : Channel) (n : Nat) : Nat := min hMax (nalSize (c.head n))

/-! ### Decoding units (R160, R168) -/

/-- The removal interval of a decoding unit in sub-picture ticks: its rows (R182). -/
def ChCfg.duInterval (c : ChCfg) (j : Nat) : Nat := min c.duRows (c.rows - j * c.duRows)

/-- The rows of a decoding unit. -/
def ChCfg.duRowList (c : ChCfg) (j : Nat) : List Nat :=
  (List.range (c.duInterval j)).map (j * c.duRows + ·)

/-- The whole reconstruction of a picture, for its hash. -/
def Channel.recon (c : Channel) (n : Nat) : Frame :=
  (List.range c.cfg.rows).foldl (fun f k => f.append (c.finalRow n k)) {}

/-- NAL units of a decoding unit around its slices: what goes before them and after them, on the even or only die. -/
def Channel.duBefore (c : Channel) (n j : Nat) : List Nal :=
  (if j = 0 then c.head n else []) ++ [.duInfo j (c.cfg.duInterval j)]

def Channel.duAfter (c : Channel) (n j : Nat) : List Nal :=
  if j + 1 = c.cfg.dus ∧ (c.pic n).set.hashSei ≠ 0 then [.pictureHash (c.pic n).set.hashSei (c.recon n)] else []

/-- The slice of a decoding unit on a half. -/
def Channel.sliceOf (c : Channel) (n j half : Nat) (rows : Nat → EntOut) : List Byte :=
  Config.sliceNal (Config.sliceHeader (c.picParams n) (j * c.cfg.duRows) half) ((c.cfg.duRowList j).map rows)

/-- The NAL units that the die of a half sends for a decoding unit: the even or only die those of the access unit too. -/
def Channel.duNals (c : Channel) (n j half : Nat) (rows : Nat → EntOut) : List (List Byte) :=
  if half = 1 then [c.sliceOf n j 1 rows]
  else (c.duBefore n j).map Config.nalBytes ++ [c.sliceOf n j 0 rows] ++ (c.duAfter n j).map Config.nalBytes

/-- What a row's size counts besides its substream on a half: the decoding-unit SEI and the slice header that begin in it, and
with the last row the hash SEI (R181), whose length is that of an empty picture's (log entry 204). -/
def Channel.rowOverhead (c : Channel) (n k half : Nat) : Nat :=
  let j := k / c.cfg.duRows
  (if c.cfg.duStart k then 8 * (Config.sliceHeader (c.picParams n) k half).length +
      (if half = 0 then nalSize [.duInfo j (c.cfg.duInterval j)] else 0) else 0) +
    (if half = 0 ∧ k + 1 = c.cfg.rows ∧ (c.pic n).set.hashSei ≠ 0 then
      nalSize [.pictureHash (c.pic n).set.hashSei {}] else 0)

/-- A row's size on a half. -/
def Channel.rowBits (c : Channel) (n k half : Nat) (e : EntOut) : Nat := e.bits + c.rowOverhead n k half

/-- Size in bits of a row's fill coding, which never exceeds its bound (R198, R199). -/
def Channel.fillBits (c : Channel) (n k : Nat) : Nat :=
  min (c.fillUnits (c.pic n) k / unitBits) ((c.halves.map fun half => c.rowBits n k half (c.fillEnt n k half)).sum)

/-- Bits of NAL units. -/
def nalBits (nals : List (List Byte)) : Nat := 8 * (nals.map List.length).sum

/-- The hub's decoding unit of a picture it makes from the repeat template, on every half; it sets the POC and the picture-level
SEI (R166, R493, R496). -/
def Channel.hubDu (c : Channel) (n j : Nat) : List (List Byte) :=
  c.halves.flatMap fun half => c.duNals n j half fun k => c.fillEnt n k half

end Sys2Proof.Machine
end

