-- ==== Sys2Proof/Machine/Life.lean ====
section
/-!
DEFINITION. The life of an encode channel: its states, start and stop, the arrival of rows and the assignment of source
pictures to slots (Channels, Pipes and Admission; Rate Control and Fixed Delay; Device Time and the Alignment Domain).
-/

namespace Sys2Proof.Machine

open Sys2Proof (Byte)

/-- A channel enters a state (R73). -/
def State.toChState (s : State) (h : Nat) (new : ChState) (pic : Nat) : State :=
  let old := (s.ch h).state
  if old = new then s
  else (s.modCh h fun c => { c with state := new }).raise evChannelState h (old.code + new.code * 256) (some pic)

/-- Start is applied to an encode channel: `PIC_SEQ` goes on from the saved count, and the run's state begins afresh
(R74, R75, R175, R188, R381). -/
def State.startChannel (s : State) (h : Nat) : State :=
  let n := (s.ch h).nextPic
  let s := s.modCh h fun c => { c with
    cond := .live, relPic := n, relDu := 0, lastPic := none, firstOfRun := true
    anchored := c.anchored && c.pipe == 3, source := if c.reference || c.pipe == 3 then c.source else []
    cur := if c.reference || c.pipe == 3 then c.cur else none, curRows := if c.reference || c.pipe == 3 then c.curRows else 0
    inAlignment := c.aligned, repeatRun := 0, lostPics := 0, goodPics := 0
    retimeBy := none, returning := false, blank := [], moves := [], pics := [], rows := [], order := none, modelStarted := false
    sinceRefresh := 0, refresh := none, refreshFail := false, captions := [], inFlightDus := [], hubDus := []
    crossing := [], au := [], auHub := false, auFilled := false, fillSets := [], failover := none
    policyDue := false, halted := false, gopBase := n + 1, seqStart := n, watched := [] }
  let c := s.ch h
  (s.openFlows h c.dies (n * c.cfg.rows) (n * c.cfg.dus)).toChState h .starting n

/-- A channel enters `IDLE` with its context saved (R74); its reference rows stay in memory (R129); a change of operating point that waited for a boundary of it begins
(R420). -/
def State.idleChannel (s : State) (h : Nat) : State :=
  let n := (s.ch h).lastReleased.getD (s.ch h).nextPic
  let s := (s.closeFlows h).modCh h fun c => { c with
    cond := .live, failover := none, rows := c.rows.sel fun _ r => r.ready, order := none, lastPic := none
    anchored := c.anchored && c.pipe != 3, curRows := if c.pipe = 3 then 0 else c.curRows
    source := if c.reference then c.source else [], cur := if c.reference then c.cur else none
    inFlightDus := [], hubDus := [], crossing := [], fillSets := [], au := [], gopBase := c.nextPic + 1 }
  let waits (t : Staged) : Bool := t.kind == .picture h && (match t.change with | .memFreq .. => true | _ => false)
  let freq := (s.eci.staged.filter waits).map (·.change)
  let s := s.modEci fun e => { e with staged := e.staged.filter fun t => !waits t }
  freq.foldl (fun s c => match c with | .memFreq d p => s.beginFreq d p | _ => s) (s.toChState h .idle n)

/-- A draining channel whose last decoding unit has left enters `IDLE` (R73). -/
def State.endDrain (s : State) (h : Nat) : State :=
  let c := s.ch h
  if c.state = .draining ∧ c.lastPic.all (fun n => decide (n < c.relPic)) then s.idleChannel h else s

/-- Stop is applied at a picture boundary: the picture before it is the last (R73). -/
def State.stopChannel (s : State) (h : Nat) : State :=
  let c := s.ch h
  if c.state = .starting ∨ c.state = .running then
    let last := c.nextPic - 1
    let s := s.modCh h fun c => { c with
      lastPic := if c.nextPic = 0 then none else some last, source := if c.reference then c.source else []
      cur := if c.reference then c.cur else none }
    (s.toChState h .draining last).endDrain h
  else s

/-- A channel stops at once: its context and its run are gone, as if it had never run (R254). -/
def State.haltChannel (s : State) (h : Nat) : State :=
  let n := (s.ch h).nextPic
  let s := (s.closeFlows h).modCh h fun c => { c with
    halted := true, nextPic := 0, lastReleased := none, relPic := 0, relDu := 0, firstOfRun := true
    history := false, searchHistory := false, modelStarted := false, anchored := false, anchor := 0, anchorPic := 0
    cond := .live, pics := [], rows := [], source := [], cur := none, order := none, lastPic := none, inFlightDus := []
    rcResult := {}, lastAnalysed := none, analysed := [0, 0, 0, 0, 0], analysedGm := [0, 0, 0, 0], hubDus := [], crossing := [], fillSets := [], failover := none, au := [], watched := [], gopBase := 1, seqStart := 0 }
  s.toChState h .idle n

/-- The slot table of a die changes (R86): channels it no longer names drain, and their pictures that are not coded are
discarded; those it names anew start at their next turn, a draining one once it is IDLE (R73). A picture whose last row is still
to come can be the first of a channel named anew. -/
def State.applySlotTable (s : State) (d : Nat) (slots : List Nat) : State :=
  let old := (s.chan.pipe3.look {} d).table
  let gone := old.filter fun h => !slots.contains h
  let new := slots.filter fun h => !old.contains h
  let s := gone.foldl (fun s h =>
    let lost := ((s.chan.pipe3.look {} d).eligible.filter fun e => e.chan == h && !e.missing).length
    let s := s.modCh h fun c => { c with discarded := c.discarded + lost }
    let s := s.modChan fun x => { x with pipe3 := x.pipe3.modD {} d fun p =>
      { p with eligible := p.eligible.filter fun e => e.chan != h, starting := p.starting.filter fun g => g != h } }
    s.stopChannel h) s
  let s := new.foldl (fun s h => s.modCh h fun c =>
    if c.state = .idle && (c.cur.isNone || c.curRows == c.cfg.rows) then
      { c with anchored := false, source := [], cur := none, curRows := 0 }
    else c) s
  let s := s.modChan fun x => { x with pipe3 := x.pipe3.modD {} d fun p =>
    { p with table := slots, eligible := p.eligible.filter (fun e => !new.contains e.chan)
             starting := p.starting ++ new.filter fun h => !p.starting.contains h } }
  s.raise evSlotTableApplied (dieHandle d) slots.length

/-- A picture becomes eligible: behind those that did so before, and among those of the same cycle in slot order (R83). -/
def Pipe3.enter (p : Pipe3) (e : Eligible) : Pipe3 :=
  let after (x : Eligible) : Bool := x.time == e.time && decide (p.table.idxOf e.chan < p.table.idxOf x.chan)
  { p with eligible := p.eligible.takeWhile (fun x => !after x) ++ e :: p.eligible.dropWhile fun x => !after x }

def State.enterEligible (s : State) (d : Nat) (e : Eligible) : State :=
  s.modChan fun x => { x with pipe3 := x.pipe3.modD {} d fun p => p.enter e }

/-! ### Assignment of source pictures to slots (R98 to R101, R175, R180, R381) -/

/-- Source pictures are numbered by output index, in slots (log entry 203): that of a slot begun live without its source, or of
one not begun, still wants a source picture. -/
def Channel.wants (c : Channel) (o : Nat) : Bool :=
  let n := c.slotOf o
  if n < c.nextPic then (match c.pics.find n with | some p => p.kind == .live && !p.assigned | none => false)
  else !c.source.has o && !c.blank.contains o

/-- The lowest output index that still wants a source picture. -/
def Channel.wantedSlot (c : Channel) : Nat :=
  ((List.range 96).map (c.nextPic - 32 + ·)).find? c.wants |>.getD c.nextPic

/-- An output index gets the source picture that arrives, with so many components of such samples. -/
def Channel.assignSlot (c : Channel) (o m sampling depth : Nat) : Channel :=
  let c := { c with cur := some o, curRows := 0, curCapture := m, curLate := false }
  let n := c.slotOf o
  if n < c.nextPic then c.modPic n fun p => { p with assigned := true, capture := m, same := c.curSame, sampling, depth }
  else { c with source := c.source.put o { capture := m, same := c.curSame, sampling, depth } }

/-- A source picture that no slot takes. -/
def Channel.passOver (c : Channel) (m : Nat) : Channel := { c with cur := none, curRows := 0, curCapture := m, curLate := false }

/-- A capture time in the channel's units. -/
def ChCfg.units (c : ChCfg) (t : Int) : Int := t * c.unit

/-- The anchor at the first picture: T_A = m − r, or the alignment point that puts e in its window (R175, R381). -/
def State.setAnchor (s : State) (h n m : Nat) : State :=
  let c := s.ch h
  let r : Int := c.cfg.rUnits
  let p : Int := c.cfg.pUnits
  let free : Int := c.cfg.units m - r
  if c.aligned then
    let base := c.cfg.units (s.tEp + c.alignOffset)
    let y := free - base
    let k := -((r - 2 * y) / (2 * p))
    s.modCh h fun c => { c with
      anchor := base + k * p, anchorPic := n, anchored := true, alignIndex := k.toNat, alignPic := n }
  else s.modCh h fun c => { c with anchor := free, anchorPic := n, anchored := true }

/-- The offset e of a source picture in a slot, in units (R180). -/
def Channel.offsetUnits (c : Channel) (n m : Nat) : Int := c.cfg.units m - (c.slotUnits n + c.cfg.rUnits)

/-- The slot that puts e in its window. -/
def Channel.windowSlot (c : Channel) (m : Nat) : Nat :=
  let y : Int := 2 * (c.cfg.units m - c.anchor) - 3 * (c.cfg.rUnits : Int)
  ((c.anchorPic : Int) - (-y) / (2 * c.cfg.pUnits : Nat)).toNat

/-- A slip: counted and reported with e in ns. -/
def State.slip (s : State) (h n kind : Nat) (e : Int) : State :=
  let ns := twos 32 (e / ((s.ch h).cfg.unit : Int))
  (s.modCh h fun c => { c with slips := c.slips + 1 }).raise evChannelSlip h (kind + ns * 2 ^ 32) (some n)

/-- A picture gets its place: picture order count, temporal identifier and reference lists, in a coded video sequence that it may
start (R161, R162). -/
def Channel.giveOrder (c : Channel) (n : Nat) (seq intra : Bool) : Channel :=
  let start := if seq then n else c.seqStart
  let poc : Int := (c.outIndex n : Int) - c.outIndex start
  let tid := c.tidOf n
  let p := c.pic n
  let (l0, l1) := if intra then ([], []) else c.refLists n start poc tid (refsOf p.effort p.set.maxRefs)
  { c with seqStart := start }.modPic n fun p => { p with poc, tid, list0 := l0, list1 := l1, seqStart := start }

/-- The structure is again what it was before picture `n` got its type. -/
def Channel.ungive (c : Channel) (n : Nat) : Channel :=
  let p := c.pic n
  { c with refresh := p.prevRefresh, sinceRefresh := p.prevSince, refreshFail := p.prevFail, newSequence := p.newSeq
           searchHistory := p.prevSearch, seqStart := p.prevStart }

/-- The picture of an output index that was begun live turns into a repeat picture; a refresh that it would have carried waits. -/
def Channel.asRepeat (c : Channel) (o : Nat) (slip : Bool) : Channel :=
  let n := c.slotOf o
  let c := if n + 1 = c.nextPic then c.ungive n else c
  let c := c.modPic n fun p => { p with
    kind := .repeat_, slip, assigned := true, type := .repeatPic, refresh := none, scene := 0, firstSearched := false, flag := true }
  { c.giveOrder n false false with repeats := c.repeats + 1 }

/-- Row 0 of a source picture has arrived with capture time `m` (R98, R100, R101, R175, R180). -/
def State.firstRow (s : State) (h m sampling depth : Nat) : State :=
  let c := s.ch h
  let o := c.wantedSlot
  let half : Int := c.cfg.rUnits
  let give (o : Nat) (c : Channel) : Channel := c.assignSlot o m sampling depth
  if c.reference then s.modCh h (give o)
  else if c.cond == .hubFill then
    match c.failover.bind (·.slot) with
    | some first =>
      let o := c.windowSlot m
      s.modCh h fun c => if first ≤ o then give o c else c.passOver m
    | none => s.modCh h fun c => c.passOver m
  else if c.cond != .live then
    let good := if c.curRows = c.cfg.rows then c.goodPics else 0
    let first := c.goodPics == 0 || good == 0
    let delta := (c.offsetUnits c.anchorPic m) % (c.cfg.pUnits : Int)
    let move := decide ((2000 : Int) * c.cfg.unit < delta)
    s.modCh h fun c => { c.passOver m with
      goodPics := good, retimeBy := if first then (if move then some delta.toNat else none) else c.retimeBy }
  else if !c.anchored then (s.setAnchor h o m).modCh h (give o)
  else
    let e := c.offsetUnits o m
    if half < 2 * e then
      let s := s.slip h o 1 e
      if c.slotOf o < c.nextPic then s.modCh h fun c => give (o + 1) (c.asRepeat o true)
      else s.modCh h fun c => { give (o + 1) c with blank := c.blank ++ [o] }
    else if 2 * e ≤ -2 * (c.cfg.pUnits : Int) + half then (s.slip h o 2 e).modCh h fun c => c.passOver m
    else s.modCh h (give o)

/-- The source picture is complete: it proves a returning input, or a pool channel's picture becomes eligible, unless no slot
table names its channel. -/
def State.lastRow (s : State) (h : Nat) : State :=
  let c := s.ch h
  if c.cond == .repeat_ || c.cond == .slate then
    s.modCh h fun c =>
      if c.curLate then { c with goodPics := 0 }
      else { c with goodPics := c.goodPics + 1, returning := c.returning || decide (1 ≤ c.goodPics) }
  else if c.pipe = 3 && (c.state != .idle || (s.chan.pipe3.look {} c.die).starting.contains h) then
    match c.cur with
    | some o => s.enterEligible c.die { chan := h, pic := o, time := s.now }
    | none => s
  else s

/-- Hardware posts an event of a row to the row task flows of the channel's dies; which bits it carries is the recipes'.
A post beyond the reorder window waits for it (R215). -/
def State.postRow (s : State) (h n row : Nat) (kind : Nat := 1) : State :=
  let c := s.ch h
  let q := (n * c.cfg.rows + row) % 2 ^ 24
  c.dies.foldl (fun s d =>
    if !s.schedRuns d then s
    else match (s.sd d).flowOf h 1 with
      | some fl =>
        let b := Config.eventBits kind % 2 ^ 32
        match s.seqPost d fl q b with
        | some s => s.settleSd d
        | none =>
          let x : Stalled := { producer := 0xFFF, bound := 3, post := (fl, q, b) }
          (s.noteBp d x).stall d x
      | none => s) s

/-- A channel takes source rows: it is being coded, or its start waits for a picture boundary, or it is of a pool: a picture
that is arriving when a slot table names it can be its first (R86). In reference mode it takes them in `IDLE` too. -/
def State.takesRows (s : State) (h : Nat) : Bool :=
  let c := s.ch h
  s.isEncoder h && s.planeRuns && (c.state == .starting || c.state == .running ||
    (c.state == .idle && (c.reference || c.pipe == 3)))

/-- A pool channel that no slot table names keeps no more than the picture that is arriving. -/
def State.poolRestart (s : State) (h : Nat) : State :=
  s.modCh h fun c =>
    if c.state == .idle && c.pipe == 3 && !c.reference && !(s.chan.pipe3.look {} c.die).starting.contains h then
      { c with anchored := false, source := [], cur := none, curRows := 0 }
    else c

/-- A CTU row of a source: its samples, with their chroma format and bit depth, whether these are the channel's, and the
invalid welt blocks of its picture so far as it is the first row (R268, R277). -/
structure SourceRow where
  data : Frame := {}
  sampling : Nat := 0
  depth : Nat := 8
  same : Bool := true
  badBlocks : Nat := 0
deriving DecidableEq, Repr

/-- A row reaches pre-analysis: it has its place in the order of the unit (R106). -/
def State.feed (s : State) (h n k : Nat) : State :=
  let place := s.chan.feeds
  let s := s.modCh h fun c => c.modRow n k fun r => { r with fed := if r.fed.isNone then some place else r.fed }
  s.modChan fun x => { x with feeds := place + 1 }

/-- A source row goes to the picture that takes it: as it is to a picture begun, which analysis and coding read at once where
composition is a pass-through; else it waits with the picture. -/
def State.storeRow (s : State) (h o k : Nat) (d : SourceRow) : State :=
  let c := s.ch h
  let n := c.slotOf o
  if n < c.nextPic then
    let p := c.pic n
    let thru := p.through && p.same
    let s := s.modCh h fun c => (c.modRow n k fun r => { r with arrived := true }).modPic n fun p =>
      { p with raw := p.raw.append d.data, img := if thru then p.img.append d.data else p.img, badBlocks := p.badBlocks + d.badBlocks }
    let s := if thru then s.feed h n k else s
    s.postRow h n k
  else
    (s.modCh h fun c => { c with source := c.source.upd o fun p =>
      { p with rows := k + 1, raw := p.raw.append d.data, badBlocks := p.badBlocks + d.badBlocks } }).postRow h n k

/-- A CTU row of the channel's source has become complete and its flag is posted (R325). -/
def State.rowArrives (s : State) (h row m : Nat) (d : SourceRow) : State :=
  let c := s.ch h
  if !s.takesRows h || decide (c.cfg.rows ≤ row) then s
  else
    let s := if row = 0 then ((s.poolRestart h).modCh h fun c => { c with curSame := d.same }).firstRow h m d.sampling d.depth else s
    let c := s.ch h
    if row != c.curRows then s
    else
      let s := s.modCh h fun c => { c with
        curRows := row + 1, curLate := c.curLate || decide (c.rowDeadlineNs c.curCapture row < s.now) }
      let s := match c.cur with
        | none => s
        | some o => s.storeRow h o row d
      if row + 1 = c.cfg.rows then s.lastRow h else s

end Sys2Proof.Machine
end

