-- ==== Sys2Proof/Machine/Picture.lean ====
section
/-!
DEFINITION. Pictures and CTU rows of an encode channel: how a picture begins, how rows leave WAITING, are judged, committed,
rewound or filled, and how a picture ends (Pre-analysis; Coding Core; Rate Control and Fixed Delay).
-/

namespace Sys2Proof.Machine

open Sys2Proof (Byte)

/-! ### Jig patterns (R258) -/

/-- The jig pattern of a picture: the enabled patterns in turn, each for `PERIOD` pictures, counted in `PIC_SEQ`. -/
def State.jigPattern (s : State) (h n : Nat) : Option Nat :=
  let p := s.dec.jigs.look [] h
  let on := (List.range 4).filter fun i => bit (u8 p 0) i
  if on.isEmpty then none else on[(n / max 1 (u16 p 2)) % on.length]?
def State.binRate (s : State) (h n : Nat) : Bool := s.jigPattern h n == some 0

/-! ### Picture types and scene changes (R116, R131, R163, R165, R167, R205) -/

/-- A refresh by intra columns, or by IRAP pictures. -/
def Channel.startRefresh (c : Channel) : PicType :=
  if c.set.refreshMode = 0 then .refreshStart else if c.set.struct = 1 then .cra else .idr

/-- Pictures between refresh starts: 0 selects ⌈f⌉, and 0xFFFF means none (R171). -/
def Channel.refreshEvery (c : Channel) : Option Nat :=
  if c.set.refreshPeriod = 0xFFFF then none
  else if c.set.refreshPeriod = 0 then some (cdiv c.cfg.rateNum c.cfg.rateDen) else some c.set.refreshPeriod

/-- The type of a picture by a scene-change cause (0: none) and the channel's history. -/
def Channel.typeOf (c : Channel) (cause : Nat) : PicType :=
  let gdr := c.cfg.codec == 1 && c.set.refreshMode == 0
  if cause = 5 then .refreshStart
  else if cause = 4 ∨ c.newSequence then (if gdr then .refreshStart else .idr)
  else if cause ≠ 0 ∧ c.set.refreshMode = 0 then .refreshStart
  else if cause ≠ 0 ∧ c.set.scIdr = 1 then .idr
  else if c.refreshEvery.any (fun p => decide (p ≤ c.sinceRefresh)) then c.startRefresh
  else .inter

/-- A picture gets its type: its place, the refresh position, the period and the search history follow (R131, R163, R167). -/
def Channel.giveType (c : Channel) (n cause : Nat) : Channel :=
  let t := c.typeOf cause
  let refresh : Option Nat :=
    if t = .refreshStart then some 0
    else if t.starts then none
    else match c.refresh with
      | some i => if i + 1 < c.set.refreshPics then some (i + 1) else none
      | none => none
  let fail := if t.starts then cause == 5 else c.refreshFail
  let old := c
  let on := ({ c with effort := (c.pic n).effort } : Channel).toolOn
  let c := c.giveOrder n (t == .idr || c.newSequence || cause == 4) (t == .idr || t == .cra)
  let searched := !(c.pic n).list0.isEmpty
  let had := c.searchHistory && cause == 0
  let c := c.modPic n fun p => { p with
    type := t, scene := cause, refresh, refreshFail := fail, firstSearched := searched && !had
    depQuant := c.cfg.codec == 1 && bit on 19
    prevRefresh := old.refresh, prevSince := old.sinceRefresh, prevFail := old.refreshFail, newSeq := old.newSequence
    prevSearch := old.searchHistory, prevStart := old.seqStart }
  let c := { c with refresh, refreshFail := fail, newSequence := false, sinceRefresh := if t.starts then 1 else c.sinceRefresh + 1
                    searchHistory := had || searched }
  { c with gopBase := if old.structNow = 0 ∧ c.structNow ≠ 0 then n + 1 else c.gopBase }

/-- A scene-change picture is reported (R116). -/
def State.sceneChange (s : State) (h n cause pct : Nat) : State := s.raise evSceneChange h (cause + pct * 256) (some n)

/-! ### Rows leave WAITING (R143, R144, R194) -/

def Row.judged (r : Row) : Bool := r.phase == .committed || r.phase == .filled || r.phase == .released

/-- The judged row: the oldest row that is neither committed nor filled. -/
def Channel.oldest (c : Channel) : Option Nat := (c.rows.find? fun e => !e.2.judged).map (·.1)

/-- The source of a row is there for coding: arrived, composed where it is composed, and analysed. -/
def Pic.inputs (p : Pic) (r : Row) : Bool :=
  match p.kind with
  | .live => r.arrived && (p.through && p.same || r.composed) && r.analysed
  | .slate => (p.through || r.composed) && r.analysed
  | _ => true

/-- A picture is searched: it has references, and is no repeat picture (R125, R130). -/
def Pic.isSearched (p : Pic) : Bool := !p.list0.isEmpty && (p.kind == .live || p.kind == .slate)

/-- The row's input flags are set: its source; for a repeat picture the reference row that it copies; of a searched picture its
search on every half, which has waited for the reference rows; and at row 0 the scene-change flag (R16, R116, R124, R143). -/
def Channel.inputsSet (c : Channel) (n k : Nat) (r : Row) : Bool :=
  let p := c.pic n
  p.inputs r && (k != 0 || p.flag || p.kind == .repeat_) &&
    (if p.isSearched then c.halves.all (bit r.msuDone)
     else (p.list0.take 1).all fun m => !c.rows.has (c.rowKey m k) || (c.row m k).ready)

/-- The row QP and stage with which a row begins (R194, log entry 40). -/
def Channel.beginWith (c : Channel) (n : Nat) (binRate : Bool) : Nat × Nat :=
  let p := c.pic n
  if p.rated then (p.rowQp, p.stage) else (c.qpPic n c.omega binRate, 0)

/-- A side of a row's buffers as the row begins at a row QP and stage. -/
def Channel.freshBuf (c : Channel) (n k qp stage : Nat) : RowBuf := { qp, stage, ctuQps := c.ctuQps n k qp stage }

/-- Rows begin as far as the window and their inputs allow. -/
def State.beginRows (s : State) (h : Nat) : State :=
  s.modCh h fun c =>
    match c.oldest with
    | none => c
    | some k0 =>
      let start (k : Nat) (r : Row) : Row :=
        let n := k / c.cfg.rows
        let row := k % c.cfg.rows
        let w := c.beginWith n (s.binRate h n)
        if r.phase == .waiting && decide (k ≤ k0 + c.sRows) && c.inputsSet n row r && decide (w.2 < 3) then
          { r with phase := .speculative, qp := w.1, stage := w.2, size := none, sizeOdd := none, buf := c.freshBuf n row w.1 w.2 }
        else r
      { c with rows := c.rows.mapV start }

/-- Rows from a key on return to WAITING at a new generation, their buffers flipped (R147). -/
def Row.squashed (r : Row) : Row :=
  { r with phase := .waiting, generation := r.generation + 1, size := none, sizeOdd := none, restoring := false
           seamBand := 0, bandSent := 0, sizeSent := false, sizeIn := false, ended := r.ended &&& 0xC, buf := {}, alt := r.buf }

def Channel.squashRows (c : Channel) (k : Nat) : Channel :=
  { c with rows := c.rows.mapV fun j r => if k ≤ j && !r.judged then r.squashed else r }

/-- The row task flow of a die of the channel is squashed at a row (R147, R159, R194). -/
def State.squashFlow (s : State) (h d k : Nat) : State :=
  if !s.schedRuns d then s
  else match (s.sd d).flowOf h 1 with
    | some fl => s.squash d fl (k % 2 ^ 24)
    | none => s

/-- A row's tasks on a die are squashed with those after it, and its own are enqueued again (R147 steps 1 and 4). -/
def State.squashRow (s : State) (h d k : Nat) : State :=
  if !s.schedRuns d then s
  else match (s.sd d).flowOf h 1 with
    | some fl => s.squashAgain d fl (k % 2 ^ 24)
    | none => s

/-- Something goes out on the partner link, from the half that sends it, with its die's token and the row's generation (R153). -/
def State.cross (s : State) (h half : Nat) (gen : Nat) (item : SeamItem) : State :=
  let c := s.ch h
  let token := (s.boot.health.look {} (c.dieOf half)).token
  if c.partnerPipe.isNone then s else s.modCh h fun c => { c with crossing := c.crossing ++ [{ half, token, gen, item }] }

/-- An order of the even die for a row goes to the odd one (R155). -/
def State.crossOrder (s : State) (h key kind : Nat) : State :=
  let c := s.ch h
  s.cross h 0 (c.rows.look {} key).generation (.order (key / c.cfg.rows) (key % c.cfg.rows) kind)

/-- Squash the channel's rows from a key on, on the die that judges. -/
def State.squashHere (s : State) (h k : Nat) : State :=
  (s.modCh h fun c => c.squashRows k).squashFlow h (s.ch h).die k

/-- Squash the channel's rows from a key on: the die that judges squashes at once, its partner with the order (R155). -/
def State.squashFrom (s : State) (h k : Nat) : State := (s.squashHere h k).crossOrder h k 3

/-! ### Rate control of a picture begins (R186, R188, R196, R197) -/

/-- The look-ahead of a picture is there: the pictures it looks at are analysed, or, at the end of the source or after input
loss, none is waited for (R186; log entry 152). -/
def Channel.looked (c : Channel) (n : Nat) : Bool :=
  c.lastPic.isSome || c.cond != .live ||
    (List.range c.cfg.lookahead).all fun i => (c.row (n + 1 + i) (c.cfg.rows - 1)).analysed

/-! ### Captions (R170, R184) -/

/-- The capture time of an output index: of the source picture that has it, else as scheduled. -/
def Channel.captureOf (c : Channel) (o : Nat) : Nat :=
  match c.pics.find (c.slotOf o) with
  | some p => if p.kind == .live && p.assigned then p.capture else c.captureNs o 0
  | none => c.captureNs o 0

/-- Packets get the first picture captured at or after their time-stamps, among the last 32 up to output index `o`; those later
than that wait. -/
def Channel.placeCaptions (c : Channel) (o : Nat) : List (Nat × Option Nat × List (List Byte)) :=
  c.captions.map fun e => match e.2.1 with
    | some _ => e
    | none => (e.1, ((List.range 33).map (o - 32 + ·)).find? (fun q => decide (q ≤ o ∧ e.1 ≤ c.captureOf q)), e.2.2)

/-- Constructs that a picture of output index `o` can carry, and whether one that waits has done so for more than 4 pictures. -/
def captionDue (o : Nat) (e : Nat × Option Nat × List (List Byte)) : Bool := e.2.1.any fun q => decide (q ≤ o)
def captionStale (o : Nat) (e : Nat × Option Nat × List (List Byte)) : Bool := e.2.1.any fun q => decide (q + 4 < o)

/-- So many constructs taken off the entries that are due. -/
def takeOff (o : Nat) : Nat → List (Nat × Option Nat × List (List Byte)) → List (Nat × Option Nat × List (List Byte))
  | _, [] => []
  | n, e :: r =>
    if !captionDue o e then e :: takeOff o n r
    else if e.2.2.length ≤ n then takeOff o (n - e.2.2.length) r
    else (e.1, e.2.1, e.2.2.drop n) :: takeOff o 0 r

/-- Captions go with a picture: those due, in order, as many as its head has room for, at most 31; what has waited for more than 4
pictures is discarded, which is reported at most once per second. -/
def State.captionsFor (s : State) (h n : Nat) : State :=
  let c := s.ch h
  let p := c.pic n
  if !bit (u8 p.set.sei 0) 2 then s.modCh h fun c => { c.modPic n (fun p => { p with captioned := true }) with captions := [] }
  else
    let o := c.outIndex n
    let all := c.placeCaptions o
    let old := all.filter (captionStale o)
    let left := all.filter fun e => !captionStale o e
    let due := (left.filter (captionDue o)).flatMap (·.2.2)
    let take := c.captionRoom n p.alf due
    let drops := c.captionDrops + (old.map (·.2.2.length)).sum
    let report := match c.captionSent with | some t => decide (t + 1000000000 ≤ s.now) | none => true
    let s := s.modCh h fun c =>
      { c.modPic n fun p => { p with captions := due.take take, captioned := true } with
        captions := takeOff o take left, captionDrops := drops }
    if drops != 0 && report then
      (s.modCh h fun c => { c with captionDrops := 0, captionSent := some s.now }).raise evCaptionDrop h drops (some n)
    else s

/-- Rate control of a picture is set up: the model, QP_pic, the head of its access unit with its captions, and row 0's stage
(R181, R184, R186, R188, R197). -/
def State.startRate (s : State) (h n : Nat) : State :=
  let s := s.modCh h fun c => ((if c.modelStarted then c else c.under n Channel.startModel).startQp n (s.binRate h n))
  let s := s.modCh h fun c => c.modPic n fun p => { p with alf := c.alfFits n }
  let s := if ((s.ch h).pic n).captioned then s else s.captionsFor h n
  s.modCh h fun c => c.startBits n (c.headBits n)

/-- Rows of a picture have begun with another row QP or stage than it has now. -/
def Channel.beganWrong (c : Channel) (n : Nat) : Bool :=
  let p := c.pic n
  c.rows.any fun e => e.1 / c.cfg.rows == n && e.2.phase == .speculative && (e.2.qp != p.rowQp || e.2.stage != p.stage)

/-- Rate control begins a picture once every earlier row is judged, its look-ahead is there, a live picture has its source and
its scene-change flag, and without rate history its row 0 is measured (R116, R188). -/
def State.rateBegin (s : State) (h n : Nat) : State :=
  let c := s.ch h
  let p := c.pic n
  let earlier := c.rows.any fun e => decide (e.1 < n * c.cfg.rows) && !e.2.judged
  let ready := c.looked n && (p.kind != .live || p.assigned) && (p.kind == .repeat_ || p.flag && (c.history || (c.row n 0).analysed))
  if !c.pics.has n || p.rated || p.kind == .hubFill || earlier || !ready then s
  else
    let s := s.startRate h n
    if (s.ch h).beganWrong n then s.squashFrom h (n * c.cfg.rows) else s

/-! ### Judgement (R189 to R195) -/

/-- The quantities of a row; under the bin-rate pattern the budget is filled to the hard cap (R258). -/
def State.rowBudget (s : State) (h n row : Nat) : Budget :=
  let q := (s.ch h).budget n row (s.ch h).omega
  if s.binRate h n then { q with b := q.h } else q

/-- Core 0 decides the order for the judged row (R191 to R193, R195). -/
def State.decide_ (s : State) (h n row size : Nat) : Judgement :=
  let c := (s.ch h).at_ n
  let p := c.pic n
  let q := s.rowBudget h n row
  let sz : Int := size * unitBits
  if p.stage = 3 then { pic := n, row, order := .fill, nextQp := p.rowQp, nextStage := 3, lowRun := 0 }
  else
    let (o, next) := judge p.stage (c.row n row).rewound (decide (c.set.qpMax ≤ p.rowQp)) q sz
    match o with
    | .rewind d =>
      let qp := min (p.rowQp + d) c.set.qpMax
      { pic := n, row, order := .rewind qp, nextQp := qp, nextStage := p.stage, lowRun := 0 }
    | .fill => { pic := n, row, order := .fill, nextQp := p.rowQp, nextStage := next, lowRun := 0 }
    | .commit =>
      if next ≠ p.stage then { pic := n, row, order := .commit, nextQp := p.rowQp, nextStage := next, lowRun := 0 }
      else if p.stage = 0 ∧ 2 * sz ≤ q.b then
        if p.lowRun + 1 < 4 then
          { pic := n, row, order := .commit, nextQp := p.rowQp, nextStage := 0, lowRun := p.lowRun + 1 }
        else { pic := n, row, order := .commit, nextQp := max p.qpPic (p.rowQp - 1), nextStage := 0, lowRun := 0 }
      else { pic := n, row, order := .commit, nextQp := p.rowQp, nextStage := next, lowRun := 0 }

/-! ### The end of a picture (R164, R200, R201) -/

/-- `EV_RC_DEADLINE_FILL` of a picture, once; a hole that comes later is reported by itself (R201). -/
def State.deadlineEvent (s : State) (h n : Nat) : State :=
  let p := (s.ch h).pic n
  if (p.dlRaised || p.dlFilled == 0) && (p.holeRaised || !p.hole) then s
  else
    let detail := (p.dlFirst.getD 0xFF) + p.dlFilled * 256 + b2n p.hole * 65536 + p.dlBits * 2 ^ 32
    (s.modCh h fun c => c.modPic n fun p => { p with dlRaised := true, holeRaised := p.hole }).raise evRcDeadlineFill h detail (some n)

/-- The last row of a picture has been committed or filled. -/
def State.endPicture (s : State) (h n : Nat) : State :=
  let c := s.ch h
  let p := c.pic n
  let first (i : Nat) : Nat := ((p.firstStage[i]?).bind id).getD 0xFF
  let detail := p.highStage + first 0 * 256 + first 1 * 65536 + first 2 * 2 ^ 24 + p.spent * 2 ^ 32
  let s := if p.highStage = 0 then s else s.raise evRcSkive h detail (some n)
  let s := s.deadlineEvent h n
  let s := match p.refresh with
    | some i =>
      if i + 1 = p.set.refreshPics then
        s.raise evRefreshDone h (p.set.refreshPics + b2n p.refreshFail * 65536) (some n)
      else s
    | none => s
  let result : RcResult :=
    { pic := n, bits := p.spent, phi0Next := (max 0 c.omega).toNat / unitBits, qpPic := p.qpPic
      qpAvg := if p.qpCount = 0 ∨ p.kind = .repeat_ then 0xFF else p.qpSum / p.qpCount
      stage := p.highStage, rewinds := p.rewinds, filled := p.filled, dlFilled := p.dlFilled }
  let coded := p.kind == .live || p.kind == .slate
  s.modCh h fun c => { c with
    rcResult := result, history := true
    lastBits := if coded then p.spent else c.lastBits
    lastCpx := if coded then p.cpxPic else c.lastCpx
    weights := if coded then (List.range c.cfg.rows).map (fun k => (c.row n k).cplx) else c.weights }

/-! ### Commit and fill of a row (R146, R152, R158, R159) -/

/-- A filled row is reconstructed from its fill coding and filtered, as far as the rows before it and the reference rows that it
reads are there, and on a mitre pair once the odd die has the fill order and the seam bands are there (R154, R155, R159). -/
def Channel.finishFill (c : Channel) (key : Nat) : Channel :=
  let n := key / c.cfg.rows
  let k := key % c.cfg.rows
  let r := c.row n k
  let refs := ((c.pic n).list0.take 1).all fun m => !c.rows.has (c.rowKey m k) || (c.row m k).ready
  let up := k == 0 || c.halves.all fun half => (c.row n (k - 1)).buf.outs.has half
  let ordered := c.crossing.any fun x => x.item == .order n k 2
  if !r.filled || r.ready || !refs || !up || ordered then c
  else
    let outs : Tab RowOut := if r.buf.outs.isEmpty then c.halves.map fun half => (half, c.fillOut n k half) else r.buf.outs
    let c := c.modRow n k fun r => { r with buf := { r.buf with outs } }
    if !(c.partnerPipe.isNone || (r.seamBand == 3 && (k == 0 || (c.row n (k - 1)).seamBand == 3))) || !r.buf.filt.isEmpty then c
    else
      let filt : Tab Filtered := c.halves.map fun half => (half, c.filterOut n k half (c.row n k).buf)
      c.modRow n k fun r => { r with buf := { r.buf with filt } }

/-- A row is filtered on every half. -/
def Channel.filtered (c : Channel) (r : Row) : Bool := c.halves.all r.buf.filt.has

/-- A reference row that has become ready: it is judged and filtered, and so is the row below it, whose band is its own last
lines (R152). It goes to memory, and its pyramid is built (R112, R274). -/
def Channel.markRow (c : Channel) (key : Nat) : Channel :=
  let n := key / c.cfg.rows
  let k := key % c.cfg.rows
  let done (r : Row) : Bool := r.judged && c.filtered r
  let r := c.row n k
  if r.ready || !done r || !(k + 1 == c.cfg.rows || done (c.row n (k + 1))) then c
  else
    let f := c.finalRow n k
    let (y0, y1) := c.cfg.lumaRows k
    c.modRow n k fun r => { r with
      ready := true, stored := f.store c.cfg.chroma c.cfg.bitDepth c.cfg.width (y1 - y0)
      refPyramid := pyramidOf (tenBits c.cfg.bitDepth f.y) }

/-! ### Stages of a row (R145, R147, R148, R151, R154) -/

/-- What a stage's tasks of a row write on a half, into a side of its buffers: of class 0 the decisions and the reconstruction, of
class 3 the row-start checkpoint and the substream, of class 2 the filtered samples. -/
def Channel.runStage (c : Channel) (recipe n k half cls : Nat) (b : RowBuf) : RowBuf :=
  if cls = 0 then { b with outs := b.outs.put half (c.modeDecision recipe n k half b) }
  else if cls = 2 then { b with filt := b.filt.put half (c.filterOut n k half b) }
  else match (b.points.find half).or (c.checkpoint n k half) with
    | some p => { b with points := b.points.put half p, ents := b.ents.put half (c.entropy n k half b p) }
    | none => b

/-- A stage of a row can take effect: what it reads is there, and it is still to come. Filter tasks need the partner's bands of the
row and of the row above (R154); entropy tasks of a rewound row its checkpoint (R147). -/
def Channel.mayStage (c : Channel) (n k half cls : Nat) : Bool :=
  let r := c.row n k
  let up := k == 0 || (c.row n (k - 1)).buf.outs.has half
  let seam (r : Row) : Bool := c.partnerPipe.isNone || bit r.seamBand (1 - half)
  if cls = 0 then r.phase == .speculative && up && !r.buf.outs.has half
  else if cls = 2 then
    (r.phase == .speculative || r.phase == .committed || r.phase == .released) && !r.filled && r.buf.outs.has half && up && seam r &&
      (k == 0 || seam (c.row n (k - 1))) && !r.buf.filt.has half
  else r.phase == .speculative && r.buf.outs.has half && !r.restoring && !r.buf.ents.has half

/-- A row as far as its tasks and the rows before it allow: its fill coding is reconstructed, the stages whose tasks have ended
take effect, and it and the row above become reference rows. -/
def Channel.advanceRow (recipe : Nat) (c : Channel) (key : Nat) : Channel :=
  let n := key / c.cfg.rows
  let k := key % c.cfg.rows
  let stage (half : Nat) (c : Channel) (cls : Nat) : Channel :=
    if bit (c.row n k).ended (2 * cls + half) && c.mayStage n k half cls then
      c.modRow n k fun r => { r with buf := c.runStage recipe n k half cls r.buf }
    else c
  let c := c.halves.foldl (fun c half => [0, 3, 2].foldl (stage half) c) (c.finishFill key)
  (c.markRow (key - 1)).markRow key

/-- What the halves of a mitre pair owe each other goes out: a band with the reconstruction of a row, the odd die's size, and with
a reference row its columns and its temporal motion column (R153). -/
def State.sendSeam (s : State) (h : Nat) : State :=
  let c := s.ch h
  if c.partnerPipe.isNone then s
  else c.rows.foldl (fun s (e : Nat × Row) =>
    let r := e.2
    let n := e.1 / c.cfg.rows
    let k := e.1 % c.cfg.rows
    let bands := [0, 1].filter fun half => r.buf.outs.has half && !bit r.bandSent half
    let size := r.phase == .speculative && r.buf.ents.has 1 && !r.sizeSent
    let columns := [0, 1].filter fun half => r.ready && !bit r.columnsSent half
    let s := bands.foldl (fun s half => s.cross h half r.generation (.band n k)) s
    let s := if size then s.cross h 1 r.generation (.size n k) else s
    let s := columns.foldl (fun s half => s.cross h half r.generation (.columns n k)) s
    s.modCh h fun c => c.modRow n k fun r => { r with
      bandSent := bands.foldl setBit r.bandSent, columnsSent := columns.foldl setBit r.columnsSent, sizeSent := r.sizeSent || size }) s

/-- Rows go as far as they can. Reference rows that have become ready post their flags to the tasks that wait for them (R124, R152),
and with the last the picture's reconstruction is whole (R262). -/
def State.advance (s : State) (h : Nat) : State :=
  let before := s.ch h
  let s := s.modCh h fun c => c.rows.keys.foldl (Channel.advanceRow s.boot.recipeVersion) c
  let c := s.ch h
  let fresh := (c.rows.filter fun e => e.2.ready && !(before.rows.look {} e.1).ready).map (·.1)
  let whole (n : Nat) : Bool := (List.range c.cfg.rows).all fun k => (c.row n k).ready
  let s := ((fresh.map (· / c.cfg.rows)).eraseDups.filter whole).foldl
    (fun s n => s.checkFrame h n 2 (c.recon n) c.cfg.chroma c.cfg.bitDepth) s
  (fresh.foldl (fun s key => s.postRow h (key / c.cfg.rows) (key % c.cfg.rows) 6) s).sendSeam h

/-- A row has got its final coding: `phase` committed or filled, of `size` bits; the model and the picture's counts follow. -/
def Channel.settleRow (c : Channel) (n row size : Nat) (phase : RowPhase) (deadline : Bool) : Channel :=
  let r := c.row n row
  let filled := phase == .filled
  let p := c.pic n
  let st := p.stage
  let buf := if filled then c.fillBuf n row else r.buf
  let c := c.modRow n row fun r => { r with phase, size := some size, filled, byDeadline := deadline, restoring := false, buf }
  let c := if !filled then c else c.modRow n row fun r => { r with
    generation := r.generation + 1, seamBand := 0, bandSent := 0, sizeIn := false, ended := r.ended &&& 0xC }
  let c := c.under n fun c => c.removeRow size
  let firsts := p.firstStage.mapIdx fun i f => if i + 1 = st then f.or (some row) else f
  let c := c.modPic n fun p => { p with
    spent := p.spent + size, judged := p.judged + 1, omega := c.omega
    highStage := max p.highStage st, firstStage := firsts
    filled := p.filled + b2n (filled && !deadline), dlFilled := p.dlFilled + b2n deadline
    dlFirst := if deadline then p.dlFirst.or (some row) else p.dlFirst
    dlBits := p.dlBits + (if deadline then size else 0)
    qpSum := p.qpSum + (if filled then 0 else r.qpSum), qpCount := p.qpCount + (if filled then 0 else r.qpCtus)
    qpMin := if filled then p.qpMin else min p.qpMin r.qpMin, qpMax := if filled then p.qpMax else max p.qpMax r.qpMax }
  { c with order := none }

/-- After a row has its final coding: the row QP and stage of the rows that follow, the end of the picture and of its rate
control; its order goes to the partner. -/
def State.rowSettled (s : State) (h n row qp stage lowRun : Nat) (fill : Bool) : State :=
  let c := s.ch h
  let s := s.crossOrder h (n * c.cfg.rows + row) (if fill then 2 else 0)
  if row + 1 < c.cfg.rows then
    let s := s.modCh h fun c => c.modPic n fun p => { p with rowQp := qp, stage, lowRun }
    let thr := (s.rowBudget h n (row + 1)).threshold
    s.modCh h fun c => c.modPic n fun p => { p with stage := max p.stage thr, lowRun := if p.stage < thr then 0 else p.lowRun }
  else (s.endPicture h n).rateBegin h (n + 1)

/-- What follows: squashes after a fill, or of rows that have begun with another row QP or stage; reference rows; rows that may
begin (R159, R194). -/
def State.afterRow (s : State) (h n row qp stage lowRun : Nat) (fill : Bool) : State :=
  let k := n * (s.ch h).cfg.rows + row
  let s := s.rowSettled h n row qp stage lowRun fill
  let s := if fill then s.squashHere h (k + 1) else if (s.ch h).beganWrong n then s.squashFrom h (k + 1) else s
  (s.advance h).beginRows h

/-! ### A picture begins -/

/-- The rows of a picture that begins, with the source rows that arrived before its boundary. -/
def Channel.freshRows (c : Channel) (n : Nat) (kind : PicKind) (arrived : Nat) : Tab Row :=
  (List.range c.cfg.rows).map fun k => (n * c.cfg.rows + k, { arrived := kind == .live && decide (k < arrived) })

/-- The slate of a channel, as it lies on the channel's die (R102). -/
def State.slateFrame (s : State) (h : Nat) : Surface :=
  let c := s.ch h
  let g := s.chan.slates.look {} c.cfg.slate
  s.mem.data.surface (s.mem.dies.look {} c.die).poisoned (g.addr.look 0 c.die) g.format 0 g.width g.height

/-- A picture begins in slot `nextPic`; `cause` is the cause of a scene change known at its boundary. A repeat picture needs no
scene-change test (R115). -/
def State.beginPicture (s : State) (h : Nat) (kind : PicKind) (cause : Nat) : State :=
  let c := s.ch h
  let n := c.nextPic
  let o := c.outIndex n
  let src := if kind = .live then c.source.find o else none
  let layers := (s.comp.layers.filter fun e => e.2.chan == h && u8 e.2.applied 0 == 1).map fun e => (e.1, e.2.applied)
  let same := src.all (·.same)
  let through := layers.isEmpty && handleType c.cfg.source != tChannel
  let x := src.getD {}
  let p : Pic := { kind, set := c.set, effort := c.effort, assigned := src.isSome || kind != .live, layers, through, same
                   capture := x.capture, raw := x.raw, sampling := x.sampling, depth := x.depth, badBlocks := x.badBlocks
                   img := if kind = .slate && through then (s.slateFrame h).frame else if through && same then x.raw else {}
                   flag := kind == .repeat_ || kind == .hubFill
                   jig := s.jigPattern h n, allTools := bit (u8 (s.dec.jigs.look [] h) 0) 1 }
  let copies := kind == .repeat_ || kind == .hubFill
  let s := s.modCh h fun c => { c with
    pics := c.pics.put n p
    rows := if kind = .hubFill then c.rows else c.rows ++ c.freshRows n kind x.rows
    source := c.source.del o, nextPic := n + 1, firstOfRun := c.firstOfRun && kind != .live
    repeats := c.repeats + b2n copies, slates := c.slates + b2n (kind == .slate)
    lostPics := c.lostPics + b2n (kind != .live)
    repeatRun := if kind = .repeat_ then c.repeatRun + 1 else if kind = .live then 0 else c.repeatRun }
  let s := if copies then s.modCh h fun c => (c.giveOrder n false false).modPic n fun p => { p with type := .repeatPic }
    else s.modCh h fun c => c.giveType n cause
  let s := if cause = 0 then s else s.sceneChange h n cause 0
  let fed := if kind = .slate ∧ through then c.cfg.rows else if kind = .live ∧ through ∧ same then x.rows else 0
  let s := (List.range fed).foldl (fun s k => s.feed h n k) s
  (s.rateBegin h n).beginRows h

end Sys2Proof.Machine
end

