-- ==== Sys2Proof/Machine/DieFault.lean ====
section
/-!
DEFINITION. Encode-die faults: the fence, fail-over to a standby, hub-fill, and the fault policies of a die above capacity
(Start-up, Recovery, Fail-over and Self-test, R493 to R499; Channels, R93 to R96).
-/

namespace Sys2Proof.Machine

open Sys2Proof (Byte)

/-! ### The hub's model of a picture it makes (R204) -/

/-- The model runs through a picture by the sizes of its decoding units: each is removed at its first row. -/
def Channel.runDus (c : Channel) (bits : Nat → Nat) : Channel :=
  (List.range c.cfg.rows).foldl
    (fun c k => c.removeRow (if k % c.cfg.duRows = 0 then bits (k / c.cfg.duRows) else 0)) c

/-- The NAL units of a decoding unit in a picture's fill set, of one tile or of each in order (R493). -/
def Channel.fillSetNals (c : Channel) (n j : Nat) (tiles : List Nat) : List (List Byte) :=
  tiles.flatMap fun t => ((c.fillSets.find? fun f => f.1 == n && f.2.1 == t).map fun f => f.2.2.getD j []).getD []

/-- Size in bits of a decoding unit of a picture in its fill set, over its tiles. -/
def Channel.fillSetBits (c : Channel) (n j : Nat) : Nat := nalBits (c.fillSetNals n j [0, 1, 2])

/-- The tiles of the channel's decoding units: the whole picture, or left and right (R160). -/
def Channel.tileList (c : Channel) : List Nat := if c.partnerPipe.isSome then [1, 2] else [0]

/-- A decoding unit has reached the hub whole. -/
def Channel.atHub (c : Channel) (n j : Nat) : Bool :=
  decide (n < c.relPic) || (n == c.relPic && decide (j < c.relDu)) ||
    c.tileList.all fun t => c.hubDus.any fun u => u.pic == n && u.du == j && u.tile == t

/-- The release time of a decoding unit has come (R496). -/
def Channel.dueBy (c : Channel) (now n j : Nat) : Bool :=
  decide (n < c.relPic) || (n == c.relPic && decide (j < c.relDu)) || decide (c.releaseNs n j ≤ now)

/-- The first decoding unit that does not leave as the dies coded it: it falls due after detection, or has not reached the hub whole
(R496; log entry 209). -/
def Channel.firstFilled (c : Channel) (now : Nat) : Nat × Nat :=
  let at_ (i : Nat) : Nat × Nat := (c.relPic + i / c.cfg.dus, i % c.cfg.dus)
  let total := (c.nextPic + 1 - c.relPic) * c.cfg.dus
  match (List.range total).find? fun i => !(c.atHub (at_ i).1 (at_ i).2 && c.dueBy now (at_ i).1 (at_ i).2) with
  | some i => at_ i
  | none => (c.nextPic, 0)

/-- The first picture whose decoding unit 0 has not reached the hub: it and the later ones are hub-fill pictures. -/
def Channel.firstHubPic (c : Channel) : Nat :=
  (((List.range (c.nextPic - c.relPic)).map (c.relPic + ·)).find? fun m => !c.atHub m 0).getD c.nextPic

/-- What a fail-over reports of what it touches first: the picture, and the first filled unit if it is an interrupted one. -/
def Channel.touched (c : Channel) (now : Nat) : Nat × Option Nat :=
  let (n, j) := c.firstFilled now
  (n, if n < c.firstHubPic then some j else none)

/-- The first standby slot: T(n) ≥ t_det + 5 ms (R497). -/
def Channel.firstSlot (c : Channel) (now : Nat) : Nat :=
  let late : Int := c.cfg.units (now + 5000000) - c.anchor
  ((c.anchorPic : Int) - (-late) / (c.cfg.pUnits : Int)).toNat

/-- What a channel that stays on its schedule keeps after its die is gone: the decoding units that have fallen due, and interrupted
pictures that the fill sets complete; every later picture is the hub's (R496). The model runs from the last fail-over state, whose
rate history the standby carries on (R204). -/
def Channel.afterFault (c : Channel) (now : Nat) : Channel :=
  let (n, _) := c.firstFilled now
  let whole := max n c.firstHubPic
  let f := c.failState
  let from_ := if f.valid then f.picSeq + 1 else n
  let gone := ((c.pics.filter fun e => decide (from_ ≤ e.1)).map fun e => e.2.judged).sum
  let base := if f.valid then { c with omega := f.phi0, modelRows := c.modelRows - gone } else c.startModel
  let sizes (m i : Nat) : Nat :=
    if c.dueBy now m i then (match (c.pic m).duBits.find i with | some b => b | none => c.fillSetBits m i) else c.fillSetBits m i
  let c' := ((List.range (whole - from_)).map (from_ + ·)).foldl (fun x m => x.under m fun x => x.runDus (sizes m)) base
  let settle (m : Nat) (p : Pic) : Pic :=
    if m < n then p else { p with judged := c.cfg.rows, rated := true, duBits := p.duBits.sel fun i _ => c.dueBy now m i }
  { c with
    omega := c'.omega, modelRows := c'.modelRows, modelStarted := true
    lastBits := if f.valid then f.lastBits else c.lastBits, lastCpx := if f.valid then f.lastCpx else c.lastCpx
    weights := if f.valid then f.weights else c.weights
    nextPic := whole
    rows := c.rows.filter fun e => decide (e.1 < n * c.cfg.rows)
    pics := (c.pics.sel fun m _ => decide (m < whole)).mapV settle
    hubDus := c.hubDus.filter fun u => c.dueBy now u.pic u.du
    source := [], cur := none, order := none, inFlightDus := [], crossing := [], watched := [], retimeBy := none, returning := false }

/-! ### Fail-over of one channel (R93 to R96, R495, R497, R498) -/

/-- The standby dies of a channel. -/
def ChCfg.standby (c : ChCfg) : List Nat :=
  if c.standbyDie = 0xFF then [] else if c.mitre then [c.standbyDie, c.standbyDie + 1] else [c.standbyDie]

/-- The place of a channel on its standby, if the standby runs and has the capacity: pipe or pool place, and the partner's
pipe. Dedicated
reservations of other channels count; a shared one covers one faulted die at a time (R95). -/
def State.standbyPlace (s : State) (h : Nat) : Option (Nat × Option Nat) :=
  let c := s.ch h
  let dies := c.cfg.standby
  let others := (s.charges.filter fun g => g.chan != h).map fun g => if g.shared then { g with standby := [] } else g
  let me := (c.cfg.charge h c.effort c.capKbps dies []).dram
  let up := dies.all fun d => bit s.boot.diesReady d && !bit s.boot.diesFenced d
  let pool := c.pipe == 3
  let slot := if pool then slotPpm c.cfg.rateNum c.cfg.rateDen else 0
  let ppm := (c.cfg.charge h c.effort c.capKbps dies []).ppm + slot
  let fits := dies.all fun d => decide (s.dieLoad others d + ppm ≤ 1000000) && decide (s.dramUsed others d + me ≤ dramPool)
  let pipe (d : Nat) : Option Nat := if pool then (if poolPlaces others d < 32 then some 3 else none) else freePipe others d
  if dies.isEmpty || !c.reserving || !up || !fits then none
  else match dies with
    | [d, e] => match pipe d, pipe e with
      | some p, some q => some (p, some q)
      | _, _ => none
    | d :: _ => (pipe d).map fun p => (p, none)
    | [] => none

/-- The channel runs on as hub-fill, with no die of its own (R95); its reservation is released (log entry 192). -/
def State.toHubFill (s : State) (h : Nat) : State :=
  let c := s.ch h
  let (n, j) := c.touched s.now
  let f : Failover := match c.failover with
    | some f => { f with slot := none }
    | none => { firstPic := n, firstDu := j }
  let now := s.now
  let s := (s.closeFlows h).modCh h fun c => { c.afterFault now with
    cond := .hubFill, failover := some { f with newDie := 0xFF, reported := true }, reserving := false
    kept := c.kept }
  s.raise evDieFailover h (f.hubPics + f.firstDu.getD 0xFF * 2 ^ 32 + 0xFF * 2 ^ 40) (some f.firstPic)

/-- The channel moves to its standby: its first picture there is the first slot 5 ms after detection. -/
def State.toStandby (s : State) (h pipe : Nat) (partner : Option Nat) (faulted : Bool := true) : State :=
  let c := s.ch h
  let (n, j) := c.touched s.now
  let slot := if c.anchored then max (c.firstSlot s.now) (max n c.firstHubPic) else c.nextPic
  let now := s.now
  let new := c.cfg.standbyDie
  let cond := if c.cond = .hubFill then .live else c.cond
  let f : Failover := { slot := some slot, firstPic := n, firstDu := j, newDie := new, cond }
  let s := (s.closeFlows h).modCh h fun c => { c.afterFault now with
    kept := if faulted then c.kept ++ c.dies else c.kept
    reserving := false, die := new, pipe, partnerPipe := partner
    cond := .hubFill, failover := some f }
  let s := s.modChan fun x => { x with pipe3 := if pipe = 3 then x.pipe3.modD {} new fun p =>
    { p with table := if p.table.contains h then p.table else p.table ++ [h] } else x.pipe3 }
  s.openFlows h (s.ch h).dies (slot * c.cfg.rows) (slot * c.cfg.dus)

/-- A decode channel enters `IDLE`: its coded buffer and its picture buffer are gone (R249, R495). -/
def State.idleDecoder (s : State) (h : Nat) : State :=
  let n := (s.dec.decoders.look {} h).order
  let s := s.modDec fun d => { d with decoders := d.decoders.upd h fun g =>
    { g with coded := [], submitted := [], outQueue := [], dpb := [], rejecting := false, sps := none, order := 0, recoverAt := none } }
  s.toChState h .idle n

/-- A channel of a die that has faulted (R495). `halt` is the cause that `EV_REF_HALT` gives. -/
def State.failChannel (s : State) (h halt : Nat) : State :=
  let c := s.ch h
  if c.state = .idle then s
  else if s.isDecoder h then s.idleDecoder h
  else if c.reference then (s.haltChannel h).raise evRefHalt h halt c.lastReleased
  else if c.cond = .hubFill ∧ (c.failover.bind (·.slot)).isNone then s
  else match s.standbyPlace h with
    | some (p, q) => s.toStandby h p q
    | none => s.toHubFill h

/-- Channels in the order of R96 and R498: `PRIORITY`, then handle index. -/
def insertChannel (x : Nat × Channel) : List (Nat × Channel) → List (Nat × Channel)
  | [] => [x]
  | y :: r =>
    if x.2.cfg.priority < y.2.cfg.priority ||
        (x.2.cfg.priority == y.2.cfg.priority && decide (handleIndex x.1 < handleIndex y.1)) then x :: y :: r
    else y :: insertChannel x r

def State.channelsOf (s : State) (d : Nat) : List Nat :=
  ((s.chan.chans.filter fun e => e.2.dies.contains d).foldr insertChannel []).map (·.1)

/-! ### The fault of a die (R494, R495, R421) -/

/-- A die leaves service: its scheduler, its pipe 3, a change of its DRAM's frequency and starts not yet applied are gone. -/
def State.fenceDie (s : State) (d : Nat) : State :=
  let s := s.modHealth d fun g => { g with token := g.token + 1, sliceStart := none }
  let s := s.modBoot fun b => { b with
    diesFenced := setBit b.diesFenced d, diesFaulted := setBit b.diesFaulted d, diesReady := clearBit b.diesReady d }
  let s := s.modDie d fun m => { m with
    point := 0, tset := 0, tsetA := 0, tsetB := 0, pending := none, changing := none, nrReg := 0 }
  let s := s.modEci fun e => { e with
    staged := e.staged.filter fun t => match t.change with
      | .memFreq g _ => g != d | .slotTable g _ => g != d | .start h => !(s.ch h).dies.contains d | _ => true }
  let stop (_ : Nat) (t : Trace) : Trace := { t with running := t.running && t.sched != d }
  let s := s.modSched fun x => { scheds := x.scheds.del d, traces := x.traces.mapV stop }
  let s := s.modChan fun x => { x with pipe3 := x.pipe3.del d }
  s.completeRunning (fun r => match r.await with | .pipe3Boundary g _ => g == d | _ => false)
    fun r => { r.reply with status := .eHwFault, boundary := none }

/-- A die has faulted: it is fenced and reported, and every channel that ran on it, or on its pair, is handled (R495). -/
def State.dieFault (s : State) (d cause : Nat) (halt : Nat := 1) : State :=
  if decide (s.dies ≤ d) || bit s.boot.diesFenced d || !s.planeRuns then s
  else
    let hs := s.channelsOf d
    let s := (s.fenceDie d).raise evDieFault (dieHandle d) (cause + d * 256)
    hs.foldl (fun s h => s.failChannel h halt) s

/-! ### Fault policies (R96) -/

/-- A die's load exceeds its capacity. -/
def State.overloaded (s : State) (d : Nat) : Bool := decide (1000000 < s.dieLoad s.charges d)

/-- A fence took a die above capacity: each live channel's policy is due at its next picture boundary. -/
def State.policiesDue (s : State) (d : Nat) : State :=
  if !s.overloaded d then s
  else
    let s := s.modHealth d fun g => { g with policyPending := true }
    let due (h : Nat) (c : Channel) : Channel :=
      if c.dies.contains d && !s.isDecoder h && !c.reference && c.state != .idle then { c with policyDue := true } else c
    s.modChan fun x => { x with chans := x.chans.mapV due }

/-- After every channel has been taken, or where there is none to take, a die still above capacity faults (R96). -/
def State.policiesDone (s : State) (d : Nat) : State :=
  let g := s.boot.health.look {} d
  let left := s.chan.chans.any fun e => e.2.policyDue && e.2.state != .idle && e.2.dies.contains d
  if !g.policyPending || left then s
  else
    let s := s.modHealth d fun g => { g with policyPending := false }
    if s.overloaded d then s.dieFault d 3 else s

def State.policiesSettled (s : State) : State := (List.range 8).foldl State.policiesDone s

/-- A channel's policy at its picture boundary, in its turn. -/
def State.applyPolicy (s : State) (h : Nat) : State :=
  let c := s.ch h
  let ahead := c.dies.any fun d => (((s.channelsOf d).filter fun g =>
    (s.ch g).policyDue && (s.ch g).state != .idle).head?).any (· != h)
  if !c.policyDue || ahead then s
  else
    let s := s.modCh h fun c => { c with policyDue := false }
    let s :=
      if !(c.dies.any s.overloaded) then s
      else if c.cfg.faultPolicy = 0 then
        match s.standbyPlace h with
        | some (p, q) => s.toStandby h p q false
        | none => s
      else if c.cfg.faultPolicy = 1 ∧ 1 < c.effort then
        (s.modCh h fun c => { c with effort := c.effort - 1 }).raise evEffortLowered h
          (c.effort + (c.effort - 1) * 256) (some c.nextPic)
      else s
    c.dies.foldl State.policiesDone s

end Sys2Proof.Machine
end

