-- ==== Sys2Proof/Machine/Packets.lean ====
section
/-!
DEFINITION. What network packets hold, and what is read from them: RTP packets and their extensions, payload encryption, NAL unit
packets, PES and TS packets, UDP checksums (Ingest, Egress and Traffic, R327 to R331, R340 to R343).
-/

namespace Sys2Proof.Machine

open Sys2Proof (Byte)

/-- A value in big-endian bytes, and back. -/
def be (n v : Nat) : List Byte := (le n v).reverse
def ofBe (l : List Byte) : Nat := ofLe l.reverse

/-! ### RTP (R330, R340, R343) -/

/-- An RTP packet: header, extension, payload. -/
structure RtpHead where
  marker : Bool := false
  pt : Nat := 96
  seq : Nat := 0
  time : Nat := 0
  ssrc : Nat := 0
deriving DecidableEq, Repr

/-- Elements of a header extension in its two-byte form: ID and data. -/
abbrev Elements := List (Nat × List Byte)

/-- The header extension of some elements, padded to whole words; none where there is no element. -/
def extension (l : Elements) : List Byte :=
  let b := l.flatMap fun e => be 1 e.1 ++ be 1 e.2.length ++ e.2
  let words := cdiv b.length 4
  if l.isEmpty then [] else be 2 0x1000 ++ be 2 words ++ slice b 0 (4 * words)

/-- The 12-byte header and the extension. -/
def RtpHead.bytes (r : RtpHead) (l : Elements) : List Byte :=
  be 1 (128 + 16 * b2n (!l.isEmpty)) ++ be 1 (128 * b2n r.marker + r.pt) ++ be 2 (r.seq % 65536) ++ be 4 (r.time % 2 ^ 32) ++
    be 4 r.ssrc ++ extension l

/-- What is read from a received RTP packet: sequence number, marker, timestamp, payload. -/
structure RtpRead where
  seq : Nat
  marker : Bool
  time : Nat
  payload : List Byte
deriving DecidableEq, Repr

/-- Reads an RTP packet of version 2: contributing sources, extension and padding are passed over. -/
def readRtp (d : List Byte) : Option RtpRead :=
  let b0 := u8 d 0
  let head := 12 + 4 * bits b0 0 4
  let ext := if bit b0 4 then 4 + 4 * ofBe (slice d (head + 2) 2) else 0
  let pad := if bit b0 5 then (d.getLastD 0).toNat else 0
  if d.length < 12 ∨ bits b0 6 2 ≠ 2 then none
  else some { seq := ofBe (slice d 2 2), marker := bit (u8 d 1) 7, time := ofBe (slice d 4 4)
              payload := (d.take (d.length - pad)).drop (head + ext) }

/-! ### Encryption (R341, R342) -/

/-- Parts of a payload: bytes that stay in clear, and bytes that are encrypted. -/
abbrev Parts := List (Bool × List Byte)

/-- The key stream of a packet: AES-256 over its counter blocks, of salt, packet index and block index. -/
def keyStream (key salt : List Byte) (index n : Nat) : List Byte :=
  ((List.range (cdiv n 16)).flatMap fun i =>
    slice (Config.aesBlock key (slice salt 0 8 ++ be 6 index ++ be 2 i)) 0 16).take n

/-- The parts of a payload under a key stream that runs over what is encrypted. -/
def encryptParts : Parts → List Byte → List Byte
  | [], _ => []
  | (secret, b) :: r, k =>
    if secret then List.zipWith (· ^^^ ·) b k ++ encryptParts r (k.drop b.length) else b ++ encryptParts r k

def Parts.bytes (p : Parts) : List Byte := p.flatMap (·.2)

/-- A payload encrypted under key material of 32 bytes of key and 8 of salt, if there is a key. -/
def Parts.sealed (p : Parts) (material : Option (List Byte)) (index : Nat) : List Byte :=
  match material with
  | none => p.bytes
  | some m =>
    let n := ((p.filter (·.1)).map (·.2.length)).sum
    encryptParts p (keyStream (slice m 0 32) (slice m 32 8) index n)

/-! ### NAL unit packets (R329, R341; the payload headers of RFC 7798 and RFC 9328, PRESUMED, log entry 212) -/

/-- The NAL unit header of an aggregation or fragmentation packet: codec (0 HEVC, 1 VVC), whether fragmentation, and the least
temporal field of the units. -/
def packetHeader (codec : Nat) (fragment : Bool) (tid : Nat) : List Byte :=
  if codec = 0 then be 1 (2 * (48 + b2n fragment)) ++ be 1 tid else be 1 0 ++ be 1 (8 * (28 + b2n fragment) + tid)

/-- Low three bits of a NAL unit's header: temporal ID plus 1. -/
def nalTid (b : List Byte) : Nat := u8 b 1 % 8

/-- The payload of some NAL units that share a packet: one alone goes as it is. -/
def aggregate (codec : Nat) : List (List Byte) → Parts
  | [] => []
  | [b] => [(false, b.take 2), (true, b.drop 2)]
  | l => (false, packetHeader codec false ((l.map nalTid).foldl min 7)) ::
      l.flatMap fun b => [(false, be 2 b.length ++ b.take 2), (true, b.drop 2)]

/-- A NAL unit cut into fragmentation units of equal size, except the last; `final` where it is the last of its picture. -/
def fragments (codec limit : Nat) (final : Bool) (b : List Byte) : List Parts :=
  let part := max 1 (limit - 3)
  let body := b.drop 2
  let n := cdiv body.length part
  let type := if codec = 0 then bits (u8 b 0) 1 6 else bits (u8 b 1) 3 5
  (List.range n).map fun i =>
    let ends := i + 1 == n
    let head := 128 * b2n (i == 0) + 64 * b2n ends + (if codec = 1 then 32 * b2n (ends && final) else 0) + type
    [(false, packetHeader codec true (nalTid b) ++ be 1 head), (true, (body.drop (i * part)).take part)]

/-- Bytes of an aggregation packet of some NAL units. -/
def aggregateSize (l : List (List Byte)) : Nat := 2 + (l.map fun b => 2 + b.length).sum

/-- The payloads of a decoding unit's NAL units: consecutive ones that fit share a packet, one that fits alone goes alone, a larger
one is cut. `acc` is the open aggregate; `last` where the unit is its picture's last. -/
def nalPayloads (codec limit : Nat) (last : Bool) : List (List Byte) → List (List Byte) → List Parts
  | [], acc => if acc.isEmpty then [] else [aggregate codec acc]
  | b :: r, acc =>
    let close : List Parts := if acc.isEmpty then [] else [aggregate codec acc]
    if limit < b.length then close ++ fragments codec limit (last && r.isEmpty) b ++ nalPayloads codec limit last r []
    else if !acc.isEmpty ∧ aggregateSize (acc ++ [b]) ≤ limit then nalPayloads codec limit last r (acc ++ [b])
    else close ++ nalPayloads codec limit last r [b]

/-- NAL units of an aggregation packet behind its header; `n` bounds them. -/
def splitAggregate : Nat → List Byte → List (List Byte)
  | 0, _ => []
  | n + 1, b =>
    let size := ofBe (slice b 0 2)
    if b.length < 2 ∨ size = 0 then [] else (b.drop 2).take size :: splitAggregate n (b.drop (2 + size))

/-- One payload of a codec enters. -/
def Depacket.take (d : Depacket) (codec : Nat) (b : List Byte) : Depacket :=
  let type := if codec = 0 then bits (u8 b 0) 1 6 else bits (u8 b 1) 3 5
  let ap := if codec = 0 then 48 else 28
  if b.length < 3 then d
  else if type = ap then { d with nals := d.nals ++ splitAggregate b.length (b.drop 2), frag := none, lost := d.lost || d.frag.isSome }
  else if type = ap + 1 then
    let head := u8 b 2
    let inner := if codec = 0 then bits head 0 6 else bits head 0 5
    let hdr := if codec = 0 then be 1 (u8 b 0 / 128 * 128 + 2 * inner + u8 b 0 % 2) else b.take 1
    let second := if codec = 0 then (b.drop 1).take 1 else be 1 (8 * inner + u8 b 1 % 8)
    let body := b.drop 3
    let whole : Option (List Byte) := if bit head 7 then some (hdr ++ second ++ body) else d.frag.map (· ++ body)
    match whole with
    | none => { d with lost := true }
    | some x => if bit head 6 then { d with nals := d.nals ++ [x], frag := none } else { d with frag := some x }
  else { d with nals := d.nals ++ [b], frag := none, lost := d.lost || d.frag.isSome }

/-- A packet was lost: the NAL unit whose fragments were under way is lost with it. -/
def Depacket.gap (d : Depacket) : Depacket := { d with frag := none, lost := true }

/-! ### PES and TS packets (R327, R331; ISO/IEC 13818-1, PRESUMED, log entry 212) -/

/-- A time-stamp of 33 bits behind its four-bit prefix. -/
def pesTime (mark t : Nat) : List Byte :=
  be 1 (16 * mark + 2 * bits t 30 3 + 1) ++ be 2 (2 * bits t 15 15 + 1) ++ be 2 (2 * bits t 0 15 + 1)

/-- A PES header: stream ID, PTS, DTS where it differs, and the bytes that follow (0 for a video PES, whose length is left open). -/
def pesHeader (id pts : Nat) (dts : Option Nat) (len : Nat) : List Byte :=
  let times := match dts with | some d => pesTime 3 pts ++ pesTime 1 d | none => pesTime 2 pts
  let size := if len = 0 then 0 else 3 + times.length + len
  be 3 1 ++ be 1 id ++ be 2 (if 65535 < size then 0 else size) ++ be 1 0x84 ++
    be 1 (if dts.isSome then 0xC0 else 0x80) ++ be 1 times.length ++ times

/-- The TS packets of a PES, or of a table with its pointer field, on a PID; the first `clear` bytes stay in clear, and `key` is
the key of the rest: its material and phase. -/
def tsParts (pid clear pic : Nat) (key : Option (List Byte × Bool)) (b : List Byte) : List TsPart :=
  (List.range (cdiv b.length 184)).map fun i =>
    { pid, start := i == 0, data := (b.drop (184 * i)).take 184, clear := clear - 184 * i, key, pic, last := i + 1 == cdiv b.length 184 }

/-- A TS packet of 188 bytes with its continuity counter and packet index; a part shorter than 184 bytes is filled up with an
adaptation field (R341 to R343). -/
def TsPart.packet (p : TsPart) (cc index : Nat) : List Byte :=
  let room := 184 - p.data.length
  let secret := p.key.isSome && decide (p.clear < p.data.length)
  let scramble := match p.key with | some (_, odd) => if secret then (if odd then 3 else 2) else 0 | none => 0
  let fill : List Byte := if room = 0 then [] else be 1 (room - 1) ++ (if room = 1 then [] else be 1 0 ++ List.replicate (room - 2) 0xFF)
  let body : Parts := [(false, p.data.take p.clear), (true, p.data.drop p.clear)]
  be 1 0x47 ++ be 2 (16384 * b2n p.start + p.pid) ++ be 1 (64 * scramble + 16 + 32 * b2n (room != 0) + cc % 16) ++ fill ++
    body.sealed (if secret then p.key.map (·.1) else none) index

/-- A null packet. -/
def tsNull : List Byte := be 1 0x47 ++ be 2 0x1FFF ++ be 1 16 ++ List.replicate 184 0xFF

/-- A packet with a PCR and nothing else; its 6 bytes of PCR, from byte 6 on, are stamped on departure. -/
def tsPcr (pid cc : Nat) : List Byte :=
  be 1 0x47 ++ be 2 pid ++ be 1 (32 + cc % 16) ++ be 1 183 ++ be 1 16 ++ List.replicate 6 0 ++ List.replicate 176 0xFF

/-- The PCR field of a count of 27 MHz. -/
def pcrField (v : Nat) : List Byte :=
  let base := v / 300 % 2 ^ 33
  be 6 (base * 32768 + 63 * 512 + v % 300)

/-- The access unit of a PES: what follows its header. -/
def pesPayload (b : List Byte) : List Byte := b.drop (9 + u8 b 8)

/-- One TS packet enters: a PES that ends with the next one's start is answered, with whether something of it was lost. -/
def PesRead.take (d : PesRead) (pid : Nat) (b : List Byte) : PesRead × Option (List Byte × Bool) :=
  let head := ofBe (slice b 1 2)
  let ctl := u8 b 3
  let skip := if bit ctl 5 then 1 + u8 b 4 else 0
  let body := b.drop (4 + skip)
  if b.length ≠ 188 ∨ u8 b 0 ≠ 0x47 ∨ head % 8192 ≠ pid ∨ !bit ctl 4 then (d, none)
  else
    let cc := ctl % 16
    if d.cc = some cc then (d, none)
    else
      let lost := d.lost || d.cc.any fun c => (c + 1) % 16 != cc
      if bit head 14 then
        ({ pes := some body, cc := some cc, lost := false }, d.pes.map fun p => (pesPayload p, lost))
      else ({ pes := d.pes.map (· ++ body), cc := some cc, lost }, none)

/-- The TS packets of a datagram. -/
def tsSplit (d : List Byte) : List (List Byte) := (List.range (d.length / 188)).map fun i => slice d (188 * i) 188

/-! ### UDP (R322) -/

/-- The sum of the 16-bit words of some bytes. -/
def wordSum (b : List Byte) : Nat := ((List.range (cdiv b.length 2)).map fun i => ofBe (slice b (2 * i) 2)).sum

/-- A sum with its carries folded in. -/
def foldSum (v : Nat) : Nat := let w := v % 65536 + v / 65536; w % 65536 + w / 65536

/-- The UDP checksum of a datagram: addresses (16 bytes each, IPv4 in mapped form), ports, payload (RFC 768 and RFC 8200, PRESUMED,
log entry 212). -/
def udpChecksum (src dst : List Byte) (sport dport : Nat) (d : List Byte) : Nat :=
  let v4 (a : List Byte) : List Byte := if a.take 12 = List.replicate 10 0 ++ [255, 255] then a.drop 12 else a
  let len := 8 + d.length
  let c := 65535 - foldSum (wordSum (v4 src ++ v4 dst) + 17 + len + sport + dport + len + wordSum d)
  if c = 0 then 65535 else c

end Sys2Proof.Machine
end

