-- ==== Sys2Proof/Machine/NetOps.lean ====
section
/-!
DEFINITION. The egress path: packets, pacers, impairments, class queues, shapers, gates, transmission selection, and the
provenance segments of a stream (Ingest, Egress and Traffic, R329 to R353).
-/

namespace Sys2Proof.Machine

open Sys2Proof (Byte PtpSend)

def State.eg (s : State) (h : Nat) : Egress := s.net.egress.look {} h
def State.modEg (s : State) (h : Nat) (f : Egress → Egress) : State :=
  s.modNet fun n => { n with egress := n.egress.upd h f }
def State.np (s : State) (i : Nat) : NetPort := s.net.ports.look {} i
def State.modNp (s : State) (i : Nat) (f : NetPort → NetPort) : State :=
  s.modNet fun n => { n with ports := n.ports.modD {} i f }
def State.shp (s : State) (i : Nat) : Shaper := s.net.shapers.look {} i
def State.modShp (s : State) (i : Nat) (f : Shaper → Shaper) : State :=
  s.modNet fun n => { n with shapers := n.shapers.modD {} i f }

/-- Wire bytes of a frame, in tokens of 2^-16 byte (R344): preamble and inter-frame gap count. -/
def wireTokens (bytes : Nat) : Nat := (bytes + 20) * 65536

/-- Tokens that a rate in kb/s gains in one refill tick of 100 ns. -/
def tickTokens (kbps : Nat) : Nat := kbps * 8192 / 10000

/-! ### Gates (R349 to R351) -/

/-- The span of a cycle at a time into it: its gates and the nanoseconds left in it. -/
def spanAt : List (Nat × Nat) → Nat → Nat × Nat
  | [], _ => (255, 1000000000)
  | (g, d) :: r, t => if t < d then (g, d - t) else spanAt r (t - d)

/-- Nanoseconds into its cycle at a device time. -/
def GateList.into (l : GateList) (t : Nat) : Nat := ((t - l.start + l.stepped : Int) % (max 1 (u32 l.payload 8) : Nat)).toNat

/-- A list's gates at a device time, and how long they hold. -/
def GateList.gatesAt (l : GateList) (t : Nat) : Nat × Nat :=
  if u16 l.payload 0x0C = 0 then (255, 1000000000) else spanAt (gateSpans l.payload) (l.into t)

/-- A port's gates at a device time, by the list in force at that instant, and how long they hold. -/
def NetPort.gatesAt (p : NetPort) (t : Nat) : Nat × Nat :=
  let now := match p.gates with | some l => l.gatesAt t | none => (255, 1000000000)
  match p.gatesNext with
  | some n => if n.start ≤ t then n.gatesAt t else (now.1, min now.2 (n.start - t))
  | none => now

/-- A class's gate stays open for a time from an instant on; the first number bounds the spans. -/
def NetPort.staysOpen (p : NetPort) (c : Nat) : Nat → Nat → Nat → Bool
  | 0, _, _ => false
  | fuel + 1, t, need =>
    let (g, left) := p.gatesAt t
    bit g c && (decide (need ≤ left) || p.staysOpen c fuel (t + left) (need - left))

/-- `GUARD_NS` of the list in force. -/
def NetPort.guardNs (p : NetPort) : Nat := match p.gates with | some l => u16 l.payload 0x0E | none => 0

/-! ### Shapers and transmission selection (R346, R347, R350, R356, R371) -/

/-- Nanoseconds that a number of bytes takes on a port. -/
def State.byteNs (s : State) (port bytes : Nat) : Nat := cdiv (bytes * 8000000) (max 1 (s.portKbps port))

/-- A class shaper allows a frame. -/
def Shaper.allows (g : Shaper) : Bool := g.mode == 0 || decide (0 ≤ g.level)

/-- The highest class whose first frame is eligible. -/
def State.eligibleClass (s : State) (port : Nat) : Option Nat :=
  let p := s.np port
  ((List.range 8).map (7 - ·)).find? fun c =>
    match p.queues.look [] c with
    | [] => false
    | f :: _ => p.staysOpen c 600 s.now (s.byteNs port (f.bytes + 8) + p.guardNs) && (c == 7 || (s.shp (8 * port + c)).allows)

/-- The port's link can carry a frame: it is up, and not under test (R408). -/
def State.portUp (s : State) (port : Nat) : Bool :=
  s.portKbps port != 0 && (s.ln (s.portLane port)).up && (s.ln (s.portLane port)).test == 0

/-- What the inserter writes into a message as it enters the MAC: the origin of a one-step Sync, and the turnaround of a one-step
Pdelay_Resp (R371). -/
def PtpSend.inserted (m : PtpSend) (twoStep : Bool) (t ref : Int) : Option Int :=
  if twoStep then none else match m with | .sync => some t | .pdelayResp => some (t - ref) | _ => none

/-- The follow-up that a two-step event message owes. -/
def PtpSend.follows : PtpSend → Option PtpSend
  | .sync => some .followUp
  | .pdelayResp => some .pdelayFollowUp
  | _ => none

/-- A PTP message enters the MAC: the inserted time is that of its departure, and a two-step event message owes its follow-up
(R369 to R371). -/
def State.stampPtp (s : State) (port : Nat) (m : PtpSend) (ref : Int) : State :=
  let t := s.txStamp port
  let c := s.time.ptp
  let sent : PtpSent := {
    kind := m, time := t, inserted := PtpSend.inserted m c.twoStep t ref, frac := s.time.frac, ref, domain := c.domainNum
    clockClass := if m = .announce then s.time.clockClass else 0, body := if m = .metadata then c.smTlv else [] }
  let owed := if c.twoStep then (PtpSend.follows m).toList.map fun x => (x, t) else []
  s.modPtp port fun q => { q with
    sent := sent :: q.sent, due := q.due ++ owed, announced := if m = .announce then s.time.clockClass else q.announced
    reqSent := if m = .delayReq ∨ m = .pdelayReq then t else q.reqSent }

/-- Bytes of the IP header towards an address: IPv4 for a mapped one. -/
def ipBytes (d : List Byte) : Nat := if d.take 12 = List.replicate 10 0 ++ [255, 255] then 20 else 40

/-- Ethernet header, tag and check sequence of a stream's frames. -/
def Egress.ethBytes (g : Egress) : Nat := 18 + (if u16 g.payload 0x1A = 0xFFFF then 0 else 4)

/-- Destination address and UDP port of a packet. -/
def State.destOf (s : State) (f : Packet) : List Byte × Nat :=
  let p := (s.eg f.stream).payload
  f.dest.getD (if bit f.paths 1 then (slice p 0x34 16, u16 p 0x20) else (slice p 0x24 16, u16 p 0x1E))

/-- A port's own address towards a destination. -/
def NetPort.ownAddr (p : NetPort) (dest : List Byte) : List Byte :=
  if ipBytes dest = 20 then List.replicate 10 0 ++ [255, 255] ++ slice p.addr 8 4 else slice p.addr 0x10 16

/-- A time as a count of 27 MHz on the PTP epoch, with an offset in ns that is rounded to the count (R331, R353). -/
def State.count27 (s : State) (t : Nat) (jitter : Int) : Nat :=
  (((t : Int) - s.tEp) * 27 / 1000 + roundHalfUp (jitter * 27) 1000).toNat

/-- A packet of a stream as it leaves: its PCR is stamped with the time at which the byte that ends the PCR base leaves, and its UDP
checksum is computed (R322, R331). -/
def State.departing (s : State) (port : Nat) (f : Packet) : Packet :=
  if f.ptp.isSome then f
  else
    let g := s.eg f.stream
    let (dest, dport) := s.destOf f
    let data := match f.pcr with
      | some (at_, j) =>
        let t := s.now + s.byteNs port (8 + (g.ethBytes - 4) + ipBytes dest + 8 + at_ + 5)
        f.data.take at_ ++ pcrField (s.count27 t j) ++ f.data.drop (at_ + 6)
      | none => f.data
    { f with data, sum := udpChecksum ((s.np port).ownAddr dest) dest (u16 g.payload 0x1C) dport data }

/-- Frames start while the wire is free: the first of the highest eligible class. A frame that reaches the MAC of a down
port is discarded and counted (R395). The number bounds the frames. -/
def State.select (s : State) (port : Nat) : Nat → State
  | 0 => s
  | n + 1 =>
    let p := s.np port
    if p.wire.isSome || (s.ln port).lpiTx then s
    else match s.eligibleClass port with
      | none => s
      | some c =>
        match p.queues.look [] c with
        | [] => s
        | f :: rest =>
          let s := s.modNp port fun p => { p with queues := p.queues.put c rest }
          let s := s.modShp (8 * port + c) fun g => if g.mode = 1 then { g with level := g.level - wireTokens f.bytes } else g
          if !s.portUp port then (s.modNp port fun p => { p with downDropped := p.downDropped + 1 }).select port n
          else
            let s := s.modNp port fun p => { p with wire := some (s.departing port f), wireEnd := s.now + s.byteNs port (f.bytes + 20) }
            match f.ptp with
            | some (m, ref) => s.stampPtp port m ref
            | none => s

/-- Frames of a port that wait in its class queues. -/
def NetPort.waiting (p : NetPort) : Nat := (p.queues.map fun q => q.2.length).sum

/-- Transmission selection runs on a port. -/
def State.trySend (s : State) (port : Nat) : State := s.select port ((s.np port).waiting + 1)

/-- Transmission selection runs on every port, with every frame that entered a queue in this cycle before it (R346). -/
def State.sendAll (s : State) : State := s.net.ports.keys.foldl State.trySend s

/-- A frame enters a class queue; in low-power idle it starts the wake (R392). -/
def State.enqueueFrame (s : State) (port : Nat) (f : Packet) : State :=
  let s := s.modNp port fun p => { p with queues := p.queues.modD [] f.cls (· ++ [f]), lastQueued := s.now }
  if (s.ln port).lpiTx then s.modLn port fun l => { l with waking := true } else s

/-! ### Impairment (R353) -/

/-- What the enabled kinds do to one packet, and the register after them. -/
structure Draw where
  reg : Nat
  lose : Bool := false
  twice : Bool := false
  hold : Bool := false
  corrupt : Option (Nat × Nat) := none
  continuity : Bool := false
  jitter : Option Int := none
deriving DecidableEq, Repr

/-- What is XORed with a corrupted byte: the low 8 bits of a value, or `0x01` when those are 0. -/
def xorByte (v : Nat) : Nat := if v % 256 = 0 then 1 else v % 256

/-- One kind takes its next value for a packet of so many payload bytes. Corruption takes two more values when it fires, and
PCR jitter one more, whatever its `PROB`, for a packet with a PCR (R353; log entry 111). -/
def Draw.kind (p : List Byte) (f : Packet) (d : Draw) (k : Nat) : Draw :=
  if !bit (u8 p 0) k then d
  else
    let v := lfsrNext d.reg
    let w := lfsrNext v
    let fires := decide (v / 256 < u32 p (8 + 4 * k))
    let d := { d with reg := v }
    if k = 5 then
      (if f.pcr.isNone then d
       else { d with jitter := some (((w % (2 * u32 p 0x20 + 1) : Nat) : Int) - u32 p 0x20), reg := w })
    else if !fires then d
    else if k = 0 then { d with lose := true }
    else if k = 1 then { d with twice := true }
    else if k = 2 then { d with hold := true }
    else if k = 3 then { d with corrupt := some (w % max 1 (f.data.length - f.head), xorByte (lfsrNext w)), reg := lfsrNext w }
    else { d with continuity := true }

/-- A byte of some bytes XORed. -/
def xorAt (l : List Byte) (i v : Nat) : List Byte := l.mapIdx fun k b => if k = i then b ^^^ BitVec.ofNat 8 v else b

/-- The continuity counter of the first non-null TS packet of a datagram raised by 1; its packets start at `at_`. -/
def raiseCounter (at_ : Nat) (l : List Byte) : List Byte :=
  match (List.range 7).find? fun i => ofBe (slice l (at_ + 188 * i + 1) 2) % 8192 != 0x1FFF with
  | none => l
  | some i =>
    let k := at_ + 188 * i + 3
    let v := u8 l k
    l.mapIdx fun j b => if j = k then BitVec.ofNat 8 (v / 16 * 16 + (v + 1) % 16) else b

/-- A packet on the paths that are impaired. -/
def Packet.hit (f : Packet) (paths : Nat) (d : Draw) : Packet :=
  let data := match d.corrupt with | some (i, v) => xorAt f.data (f.head + i) v | none => f.data
  { f with paths, corrupt := d.corrupt, continuity := d.continuity
           data := if d.continuity then raiseCounter f.head data else data
           pcr := match d.jitter with | some x => f.pcr.map fun e => (e.1, x) | none => f.pcr }

/-- Packets that leave for one that reaches the pacer output, and the stream's impairment after it. A held packet counts those
that are sent after it. -/
def Impair.apply (g : Impair) (f : Packet) : Impair × List Packet × Bool :=
  let p := g.payload
  if u8 p 0 = 0 then (g, [f], false)
  else
    let d := (List.range 6).foldl (Draw.kind p f) { reg := g.reg }
    let g := { g with reg := d.reg }
    let drop := d.lose || decide (0 < g.dropping)
    let g := { g with dropping := max (g.dropping - 1) (if d.lose then u8 p 2 - 1 else 0) }
    let mine := f.paths &&& u8 p 1
    let plain := f.paths - mine
    let rest : List Packet := if plain = 0 then [] else [{ f with paths := plain }]
    let hit := List.replicate (if d.twice then 2 else 1) (f.hit mine d)
    let hurt := drop || d.twice || d.hold || d.corrupt.isSome || d.continuity || d.jitter.any (· != 0)
    if mine = 0 then (g, rest, false)
    else if drop then (g, rest, true)
    else if d.hold then ({ g with held := g.held ++ hit.map fun x => (x, u8 p 3) }, rest, true)
    else
      let held := g.held.map fun e => (e.1, e.2 - 1)
      let out := (held.filter fun e => e.2 == 0).map (·.1)
      ({ g with held := held.filter fun e => e.2 != 0 }, rest ++ hit ++ out, hurt)

/-- Every held packet. -/
def Impair.flush (g : Impair) : List Packet := g.held.map (·.1)

/-! ### Pacers (R332, R345) -/

/-- A packet enters the class queues of its paths in one cycle, a copy on each. -/
def State.toPorts (s : State) (h : Nat) (f : Packet) : State :=
  let p := (s.eg h).payload
  let s := if bit f.paths 0 then s.enqueueFrame (u8 p 8) { f with paths := 1 } else s
  if bit f.paths 1 then s.enqueueFrame (u8 p 9) { f with paths := 2 } else s

/-- A packet passes its pacer, is impaired and counted. -/
def State.leavePacer (s : State) (h : Nat) (f : Packet) : State :=
  let (g, out, hurt) := (s.eg h).impair.apply f
  let s := s.modEg h fun e => { e with
    impair := g, impaired := e.impaired + b2n hurt, packets := e.packets + 1, bytes := e.bytes + f.bytes }
  out.foldl (fun s f => s.toPorts h f) s

/-- `PACE_BURST`, in tokens. -/
def Egress.burst (g : Egress) : Nat := (if u32 g.payload 0x10 = 0 then 6152 else u32 g.payload 0x10) * 65536

/-- A stream is a TS multiplex. -/
def Egress.ts (g : Egress) : Bool := g.kind == 7 || g.kind == 8

/-- The rate of a stream's pacer. -/
def State.paceKbps (s : State) (h : Nat) : Nat :=
  let g := s.eg h
  if g.ts then u32 g.payload 0x44
  else if u32 g.payload 0x0C = 0 then s.minPace g.kind g.source (u16 g.payload 0x0A) else u32 g.payload 0x0C

/-- Packets pass the pacer while its count is at least 0; the number bounds them. -/
def State.runPacer (s : State) (h : Nat) : Nat → State
  | 0 => s
  | n + 1 =>
    let g := s.eg h
    match g.queue with
    | [] => s
    | f :: rest =>
      if g.tokens < 0 then s
      else
        let cost : Nat := if g.ts then 1316 * 65536 else wireTokens f.bytes
        ((s.modEg h fun g => { g with queue := rest, tokens := g.tokens - cost }).leavePacer h f).runPacer h n

/-! ### Packets of a stream (R322, R329, R330, R340, R341) -/

/-- The stream's packets carry a header extension: a key identifier, or manifests in band. -/
def Egress.extended (g : Egress) : Bool := !g.ts && (g.encrypting || (g.prov.on && bit (u8 g.prov.payload 1) 0))

/-- The payload limit of R329. -/
def Egress.limit (g : Egress) : Nat :=
  u16 g.payload 0x0A - ipBytes (slice g.payload 0x24 16) - 20 - (if g.extended then 256 else 0)

/-- `KEY_ID` of a KEY object. -/
def State.keyId (s : State) (key : Nat) : Nat := (s.boot.sec.keys.look (0, []) key).1

/-- The key in use. -/
def Egress.keyNow (g : Egress) : Nat := if g.odd then g.keyOdd else g.keyEven

/-- Its material, and the phase. -/
def State.keyMaterial (s : State) (h : Nat) : Option (List Byte × Bool) :=
  let g := s.eg h
  if g.encrypting then some ((s.boot.sec.keys.look (0, []) g.keyNow).2, g.odd) else none

/-- The next manifest fragment of a stream as an extension element with its numbers, if one waits, and the stream after it is
taken (R340). -/
def Egress.takeFragment (g : Egress) : Option ((Nat × Nat × Nat) × (Nat × List Byte)) × Egress :=
  if g.ts then (none, g)
  else match g.prov.inBand with
    | [] => (none, g)
    | m :: rest =>
      let i := m.total - m.left
      let q := if m.left ≤ 1 then rest else { m with left := m.left - 1 } :: rest
      let data := le 2 (m.segment % 65536) ++ le 2 i ++ le 2 m.total ++ le 2 0 ++ (m.bytes.drop (240 * i)).take 240
      (some ((m.segment % 65536, i, m.total), (u8 g.prov.payload 2, data)), { g with prov := { g.prov with inBand := q } })

/-- A packet of a stream with a payload, an RTP timestamp and a marker enters the pacer's queue; a wiped stream discards it
(R330, R341 to R343, R466). -/
def State.queuePacket (s : State) (h : Nat) (payload : Parts) (time pic : Nat) (marker last : Bool) : State :=
  let g := s.eg h
  if g.wiped then s.modEg h fun g => { g with discarded := g.discarded + 1 }
  else
    let key := s.keyMaterial h
    let (fragment, g) := g.takeFragment
    let elements : Elements :=
      (if key.isSome && !g.ts then [(g.keyExt, le 4 (s.keyId g.keyNow))] else []) ++ (fragment.map (·.2)).toList
    let head := if g.kind = 8 then []
      else RtpHead.bytes { marker, pt := u8 g.payload 0x18, seq := g.seq, time, ssrc := u32 g.payload 0x14 } elements
    let body := if g.ts then payload.bytes else payload.sealed (key.map (·.1)) (g.seq % 2 ^ 48)
    let data := head ++ body
    let f : Packet := {
      stream := h, seq := g.seq, cls := u8 g.payload 6, pic, last, paths := g.paths, fragment := fragment.map (·.1)
      data, head := head.length, bytes := max 64 (g.ethBytes + ipBytes (slice g.payload 0x24 16) + 8 + data.length)
      key := if key.isSome then some (g.keyNow, g.odd) else none }
    s.modEg h fun _ => { g with queue := g.queue ++ [f], seq := g.seq + 1 }

/-! ### Multiplexes (R331, R340) -/

/-- The minimum, or the set, PTS delay in ms. -/
def State.ptsDelay (s : State) (h : Nat) : Nat :=
  let g := s.eg h
  if u16 g.payload 0x4E = 0 then s.leastPtsDelay g.source else u16 g.payload 0x4E

def Egress.videoPid (g : Egress) : Nat := u16 g.payload 0x4A
def Egress.provPid (g : Egress) : Nat := u16 g.prov.payload 8

/-- The tables of a multiplex as TS packets. -/
def State.tsTables (s : State) (h : Nat) : List TsPart :=
  let g := s.eg h
  let video := if (s.ch g.source).cfg.codec = 1 then 0x33 else 0x24
  let audio := (audioOf g.payload).mapIdx fun i a =>
    (if (s.audio.programs.look {} a).kind = 1 then 0x0F else 0x06, g.videoPid + 1 + i)
  let prov := if g.prov.on && bit (u8 g.prov.payload 1) 0 then some g.provPid else none
  let table (pid : Nat) (b : List Byte) : List TsPart := tsParts pid b.length 0 none b
  table 0 (Config.patSection (u16 g.payload 0x48)) ++
    table (u16 g.payload 0x48) (Config.pmtSection g.videoPid ((video, g.videoPid) :: audio) prov)

/-- TS packets take their continuity counters and indices. -/
def Egress.number (g : Egress) : List TsPart → List (List Byte) × Tab Nat
  | l => l.zipIdx.foldl (fun acc e =>
      let cc := acc.2.look 0 e.1.pid
      (acc.1 ++ [e.1.packet cc (g.tsPackets + e.2)], acc.2.put e.1.pid ((cc + 1) % 16))) ([], g.counters)

/-- A datagram of 7 TS packets of a multiplex: tables every 100 ms, a PCR every `PCR_MS`, what waits, and null packets. -/
def State.tsDatagram (s : State) (h : Nat) : State :=
  let g := s.eg h
  let now := s.now
  let due (last : Option Nat) (ns : Nat) : Bool := match last with | some t => decide (t + ns ≤ now) | none => true
  let pcr := due g.lastPcr ((if u16 g.payload 0x4C = 0 then 20 else u16 g.payload 0x4C) * 1000000)
  let tables := if due g.lastTables 100000000 then s.tsTables h else []
  let room := 7 - b2n pcr
  let queue := tables ++ g.tsQueue
  let rest := queue.drop room
  let (packets, counters) := g.number (queue.take room)
  let all := packets ++ (if pcr then [tsPcr g.videoPid (counters.look 0 g.videoPid + 15)] else [])
  let data := all ++ List.replicate (7 - all.length) tsNull
  let last := !g.tsQueue.isEmpty && rest.isEmpty
  let pic := ((queue.find? fun x => x.pid == g.videoPid).map (·.pic)).getD (g.nextPic - 1)
  let sent (m : InBand) : InBand := { m with left := (rest.filter fun x => x.pid == g.provPid && x.pic == m.segment).length }
  let s := s.modEg h fun g => { g with
    tsQueue := rest, tsPackets := g.tsPackets + 7, counters
    prov := { g.prov with inBand := (g.prov.inBand.map sent).filter fun m => m.left != 0 }
    lastTables := if tables.isEmpty then g.lastTables else some now, lastPcr := if pcr then some now else g.lastPcr }
  let time := (s.count27 now 0) / 300 % 2 ^ 32
  let s := s.queuePacket h [(false, data.flatten)] time pic false last
  let mark (f : Packet) : Packet := if pcr then { f with pcr := some (f.head + 188 * packets.length + 6, 0) } else f
  s.modEg h fun g => { g with queue := g.queue.mapIdx fun i f => if i + 1 = g.queue.length then mark f else f }

/-- A PES enters a multiplex behind its header, which stays in clear. -/
def State.pesInto (s : State) (e pid id pts : Nat) (dts : Option Nat) (open_ : Bool) (pic : Nat) (b : List Byte) : State :=
  let head := pesHeader id (pts % 2 ^ 33) (dts.map (· % 2 ^ 33)) (if open_ then 0 else b.length)
  s.modEg e fun g => { g with tsQueue := g.tsQueue ++ tsParts pid head.length pic (s.keyMaterial e) (head ++ b) }

/-! ### Provenance (R336 to R340) -/

/-- A stream closes its segment, if it holds a unit: it waits for its signature. -/
def State.closeSegment (s : State) (h : Nat) : State :=
  s.modEg h fun g =>
    let p := g.prov
    match p.firstPic with
    | none => g
    | some first =>
      let special := p.auFlags.any (· != 0)
      let x : Segment := {
        number := p.segment, firstPic := first, tFirst := p.tFirst, durationUs := (p.releaseLast - p.releaseFirst) / 1000
        flags := b2n (p.segment == 0) + 2 * b2n special + 4 * b2n g.encrypting + 8 * b2n (!s.time.memberOf)
        digest := p.digest, hashes := p.hashes, auFlags := p.auFlags }
      { g with prov := { p with segment := p.segment + 1, toSign := p.toSign ++ [x], firstPic := none, hashes := [], auFlags := [] } }

/-- An access unit is covered: its hash and flags; a full segment, or one whose time has passed, closes at this boundary. -/
def State.coverUnit (s : State) (h pic : Nat) (hash : List Byte) (flags started : Nat) : State :=
  let g := s.eg h
  if !g.prov.on then s
  else
    let new := g.prov.firstPic.isNone
    let s := s.modEg h fun g =>
      let p := g.prov
      { g with prov := { p with
        firstPic := some (p.firstPic.getD pic), hashes := p.hashes ++ [hash], auFlags := p.auFlags ++ [flags]
        digest := if new then s.configDigest else p.digest
        tFirst := if new then (s.ptpNow - (s.now - started : Nat)).toNat else p.tFirst
        releaseFirst := if new then started else p.releaseFirst, releaseLast := started } }
    let p := (s.eg h).prov
    let byPics := u16 p.payload 4 != 0 && decide (u16 p.payload 4 ≤ p.hashes.length)
    let byMs := u16 p.payload 6 != 0 && decide (p.releaseFirst + u16 p.payload 6 * 1000000 ≤ s.now)
    if byPics || byMs then s.closeSegment h else s

/-! ### The end of a stream (R358) -/

/-- A packet of a stream is still queued or on a wire. -/
def State.streamQueued (s : State) (h : Nat) : Bool :=
  let g := s.eg h
  !g.queue.isEmpty || !g.tsQueue.isEmpty || !g.impair.held.isEmpty || !g.prov.toSign.isEmpty ||
    s.net.ports.any fun p => (p.2.wire.any fun f => f.stream == h) || p.2.queues.any fun q => q.2.any fun f => f.stream == h

/-- A stream that has ended and whose last packet has left: its keys and pending binds are unbound and its handle becomes
invalid. -/
def State.endStream (s : State) (h : Nat) : State :=
  if !(s.net.egress.has h && (s.eg h).ending) || s.streamQueued h then s
  else
    let s := s.modEci fun e => { e with staged := e.staged.filter fun t =>
      match t.change with
      | .egress g _ | .provenance g _ | .egressKey g _ _ | .impair g _ | .egressEnd g => g != h
      | _ => true }
    (s.modNet fun n => { n with egress := n.egress.del h }).freeObject h

/-- The stream has no further access unit: what impairment holds is sent, the open segment closes. -/
def State.stopStream (s : State) (h : Nat) : State :=
  let s := if (s.eg h).prov.on then s.closeSegment h else s
  let out := (s.eg h).impair.flush
  let s := s.modEg h fun g => { g with ending := true, started := false, impair := { g.impair with held := [] } }
  (out.foldl (fun s f => s.toPorts h f) s).endStream h

end Sys2Proof.Machine
end

