-- ==== Sys2Proof/Machine/Apply.lean ====
section
/-!
DEFINITION. Staged sets: where each lands when it reaches its unit, and what each changes at its boundary (Architecture and
Data Flow, R19 to R21; R541; and the rule of each command that stages one).
-/

namespace Sys2Proof.Machine

open Sys2Proof (Byte)

/-! ### What the changes do -/

/-- `ANALYSIS.SET` (R136). -/
def ChSettings.withAnalysis (t : ChSettings) (p : List Byte) : ChSettings :=
  { t with scMode := u8 p 0, scT := if u8 p 1 = 0 then t.scT else u8 p 1, scP := if u8 p 2 = 0 then t.scP else u8 p 2
           gmMode := u8 p 3 }

/-- `RC.SET` (R205): a new cap or CPB starts a coded video sequence. -/
def Channel.withRc (c : Channel) (p : List Byte) : Channel :=
  let t := c.set.withRc p
  let moved := t.rCapKbps != c.set.rCapKbps || t.cpbMs != c.set.cpbMs
  { c with set := t, newSequence := c.newSequence || (moved && c.state != .idle) }

/-- `STATS.SET` (R260): the new ring takes the old one's place. -/
def State.applyStats (s : State) (h : Nat) (p : List Byte) : State :=
  let a := u64 p 8
  let old := s.dec.stats.find h
  let same := u8 p 0 != 0 && (old.map (·.base)) == some a
  let s := match old with
    | some r => if same then s else (s.unmapAt r.base).modDec fun d => { d with stats := d.stats.del h }
    | none => s
  if u8 p 0 = 0 then s
  else
    let base : HubRing := if same then old.getD {} else { base := a, log2 := u8 p 0 }
    s.putRing false h { base with ctuEn := u8 p 1 == 1, keep := u8 p 2 == 1 }

/-- `CHECK.BIND` (R266): the unit starts anew, at the boundary or at `START` when that is later. -/
def State.applyCheckBind (s : State) (u : Nat) (p : List Byte) (pic : Option Nat) : State :=
  let unit : CheckUnit := {
    target := u32 p 0, bound := true, point := u8 p 4, poly := u8 p 5, tile := u8 p 6
    start := if u64 p 8 = 2 ^ 64 - 1 then pic else some (max (u64 p 8) (pic.getD 0)) }
  s.modDec fun d => { d with checks := d.checks.put u unit }

/-- `LAYER.COMMIT` (R289): states taken and layers removed; `pic` is the boundary, or none on an `IDLE` channel. -/
def State.applyLayers (s : State) (h : Nat) (sets : Tab (List Byte)) (removed : List Nat) (pic : Option Nat) : State :=
  let s := sets.foldl (fun s e => s.modLayer e.1 fun g => { g with applied := e.2 }) s
  let freed := removed.flatMap fun l => (s.lyr l).addr
  let s := removed.foldl (fun s l =>
    (s.modComp fun c => { c with layers := c.layers.del l }).freeObject l) s
  let enabled := (s.comp.layers.filter fun e => e.2.chan == h && u8 e.2.applied 0 == 1).length
  s.modComp fun c => { c with reports := c.reports ++ [{ chan := h, pic, enabled, freed }] }

/-- `EGRESS.SET` (R335): the pacer's count is clamped to the new burst; a port that the stream moves to leaves
low-power idle (R392). -/
def State.applyEgress (s : State) (h : Nat) (p : List Byte) : State :=
  (s.endLpi (egressPorts (s.eg h).paths p)).modEg h fun g =>
    let g := { g with payload := p }
    { g with tokens := min g.tokens g.burst }

/-- `EGRESS.PROVENANCE` (R336, R338): turning it on starts a chain, turning it off closes the partial segment. -/
def State.applyProvenance (s : State) (h : Nat) (p : List Byte) : State :=
  let on := u8 p 0 == 1
  let was := (s.eg h).prov.on
  if on && !was then
    s.modEg h fun g => { g with prov := { on := true, payload := p, toSign := g.prov.toSign, inBand := g.prov.inBand } }
  else
    let s := if was && !on then s.closeSegment h else s
    s.modEg h fun g => { g with prov := { g.prov with on, payload := p } }

/-- `EGRESS.KEY` (R343): the key of the other phase comes into use and the old key is unbound; 0 stops encryption. -/
def State.applyKey (s : State) (h key ext : Nat) (pic : Option Nat) : State :=
  let g := s.eg h
  let odd := if key = 0 then g.odd else g.encrypting && !g.odd
  let s := s.modEg h fun g => { g with
    keyEven := if key ≠ 0 ∧ !odd then key else 0, keyOdd := if key ≠ 0 ∧ odd then key else 0, odd
    encrypting := key != 0, keyExt := ext, wiped := false }
  s.raise evKeyApplied h ((if key = 0 then 0 else s.keyId key) + b2n odd * 2 ^ 32 + b2n (key == 0) * 2 ^ 33)
    (if g.kind < 5 then none else some (pic.getD g.nextPic))

/-- `EGRESS.IMPAIR` (R353, R354): the register takes the seed; with no kind on, what is held is sent. -/
def State.applyImpair (s : State) (h : Nat) (p : List Byte) : State :=
  let out := if u8 p 0 = 0 then (s.eg h).impair.flush else []
  let s := s.modEg h fun g => { g with
    impair := { payload := p, reg := u32 p 4, dropping := 0, held := if u8 p 0 = 0 then [] else g.impair.held } }
  out.foldl (fun s f => s.toPorts h f) s

/-- `SHAPER.SET` (R348). -/
def Shaper.withSet (g : Shaper) (p : List Byte) : Shaper :=
  let mode := u8 p 0
  let hi : Int := u32 p 8 * 65536
  let lo : Int := if mode = 2 then s32 p 0x0C * 65536 else 0
  let level := if mode ≠ g.mode then 0 else if mode = 1 then min g.level hi else clampI lo hi g.level
  { mode, rate := u32 p 4, burst := u32 p 8, lo := s32 p 0x0C, level }

/-- `POLICER.SET` (R352). -/
def Policer.withSet (g : Policer) (p : List Byte) : Policer :=
  { g with rate := u32 p 4, burst := u32 p 8, action := u8 p 0x0C, tokens := min g.tokens (u32 p 8 * 65536 : Nat) }

/-- Positions and payload bytes of the packets of an audio stream: 1 ms, or 125 µs where 1 ms does not fit; 3 bytes a sample,
or 4 a subframe (log entry 41). -/
def State.audioPacket (s : State) (h : Nat) : Nat × Nat :=
  let e := s.eg h
  let g := s.audio.programs.look {} e.source
  let size := g.channels * (if e.kind = 3 then 4 else 3)
  let ms := rateHz g.rate / 1000
  if ms * size ≤ e.limit then (ms, ms * size) else (rateHz g.rate / 8000, rateHz g.rate / 8000 * size)

/-- Slots set in the first mask and clear in the second. -/
def newSlots (a b : Nat) : List Nat := (List.range 32).filter fun k => bit a k && !bit b k

/-- A program fed by input slots: channels of slots newly disabled fade out, those of slots newly enabled ramp in with their
first sample (R297). -/
def Program.slotsMoved (g : Program) (off on : List Nat) : Program :=
  { g with chans := g.chans.mapIdx fun i c =>
      let slot := (g.map.getD i 0).toNat
      if off.contains slot then g.dropChan c
      else if on.contains slot then { c with under := true, fresh := true, good := 0 } else c }

/-- `AUDIO_PORT.SLOTS` (R297): masks and map together; an output slot that is newly enabled, or that changes its
channel (R298), ramps in. -/
def State.applySlots (s : State) (i : Nat) (p : List Byte) : State :=
  let q := s.audio.ports.look {} i
  let inM := u32 p 0
  let outM := u32 p 4
  let map := mapWords p
  let n (k : Nat) : Nat := (s.audio.programs.look {} (programHandle (map.getD k 0 % 65536))).fadeN
  let same (k : Nat) : Bool := bit q.outMask k && map.getD k 0 == q.map.getD k 0
  let ramps : Tab Gain := ((List.range 32).filter fun k => bit outM k && !same k).map fun k => (k, Gain.ramping 0 (n k))
  let kept := q.outGains.sel fun k _ => bit outM k && same k
  let gains := ramps.foldl (fun t e => t.put e.1 e.2) kept
  let h := mkHandle tAudioPort 0xFF i
  let off := newSlots q.inMask inM
  let on := newSlots inM q.inMask
  let moved (_ : Nat) (g : Program) : Program := if g.source = h then g.slotsMoved off on else g
  let s := s.modAudio fun a => { a with
    ports := a.ports.upd i fun q => { q with inMask := inM, outMask := outM, map, outGains := gains }
    programs := a.programs.mapV moved }
  s.raise evSlotsApplied h (inM + outM * 2 ^ 32)

/-- `AUDIO_PROGRAM.SET` (R310, R318): newly muted channels fade out; unmuted ones ramp in unless they are faded. -/
def Program.withSet (g : Program) (p : List Byte) : Program :=
  let g := { g with fadeUs := if u16 p 2 = 0 then g.fadeUs else u16 p 2 }
  { g with chans := g.chans.mapIdx fun i c =>
      let mute := bit (u16 p 0) i
      if mute && !c.muted then { c with muted := true, gain := if g.nonPcm then .silent else c.gain.fadeOut g.fadeN }
      else if !mute && c.muted then
        { c with muted := false, gain := if c.under then c.gain else if g.nonPcm then .full else c.gain.rampIn g.fadeN }
      else c }

/-- An SDI input is received: its lane is up with a format. -/
def State.sdiLocked (s : State) (h : Nat) : Bool :=
  let l := s.ln (handleIndex h)
  l.up && l.format.isSome && l.test == 0

/-- `SDI_OUT.SET` (R402): a decode channel's pictures output so far are not shown. -/
def State.applySdiOut (s : State) (h : Nat) (p : List Byte) : State :=
  let src := u32 p 0
  let carrying := if src = 0 then 0 else if handleType src = tLane ∧ s.sdiLocked src then 1 else 2
  s.modLane fun l => { l with outs := l.outs.put h {
    source := src, offset := u32 p 4, carrying, shown := (s.dec.decoders.look {} src).output } }

/-- A change is applied; `pic` is the picture or access unit of its boundary, or none. -/
def State.applyChange (s : State) (pic : Option Nat) : Change → State
  | .start h => if s.chan.chans.has h ∧ (s.ch h).state = .idle then s.startChannel h else s
  | .stop h =>
    if !s.isDecoder h then s.stopChannel h
    else if (s.ch h).state = .idle then s
    else (s.toChState h .draining (s.dec.decoders.look {} h).order).idleDecoder h
  | .slotTable d slots => s.applySlotTable d slots
  | .analysis h p => s.modCh h fun c => { c with set := c.set.withAnalysis p }
  | .sei h p => s.modCh h fun c => { c with set := { c.set with sei := p } }
  | .rc h p => s.modCh h fun c => c.withRc p
  | .stats h p => s.applyStats h p
  | .checkBind u p => s.applyCheckBind u p pic
  | .checkUnbind u => s.modDec fun d => { d with checks := d.checks.upd u fun c => { c with bound := false, until_ := pic } }
  | .layers h sets removed => s.applyLayers h sets removed pic
  | .egress h p => s.applyEgress h p
  | .provenance h p => s.applyProvenance h p
  | .egressKey h key ext => s.applyKey h key ext pic
  | .egressEnd h => s.stopStream h
  | .impair h p => s.applyImpair h p
  | .shaper port cls p => s.modShp (8 * port + cls) fun g => g.withSet p
  | .policer h p => s.modNet fun n => { n with policers := n.policers.upd h fun g => g.withSet p }
  | .gates port p => s.modNp port fun n => { n with gatesNext := some { payload := p, start := s.now } }
  | .audioSlots i p => s.applySlots i p
  | .audioProgram h p => s.modProg h fun g => g.withSet p
  | .pps p => s.modTime fun t => { t with pps := parsePps p }
  | .embed h p => s.modAudio fun a => { a with
      embeds := if u8 p 0 = 0 then a.embeds.del h else a.embeds.put h p
      embedded := if u8 p 0 = 0 then a.embedded.del h else a.embedded }
  | .sdiOut h p => s.applySdiOut h p
  | .memFreq d p => s.beginFreq d p

/-- The staged sets that a test picks take effect in submission order. -/
def State.applyStaged (s : State) (pic : Option Nat) (due : Staged → Bool) : State :=
  let ready := (s.eci.staged.filter due).mergeSort fun a b => a.seq ≤ b.seq
  let s := s.modEci fun e => { e with staged := e.staged.filter fun t => !due t }
  ready.foldl (fun s t => s.applyChange pic t.change) s

/-! ### Where a staged set lands (R20) -/

/-- What a unit answers to a staged set. -/
inductive Landing where
  /-- it applies at once, with the boundary reported -/
  | now (b : Option Boundary)
  /-- it waits for a boundary -/
  | later (b : Boundary)
  /-- the boundary, and so the completion, is still to come -/
  | hold
deriving DecidableEq, Repr

/-- An egress stream's channel runs: its access units have boundaries. -/
def State.egressRuns (s : State) (h : Nat) : Bool :=
  let g := s.eg h
  decide (5 ≤ g.kind) && (s.ch g.source).state != .idle

/-- The index of the last alignment point, plus the output's offset, that has passed (R379). -/
def State.outIndex (s : State) (o : SdiOut) : Nat :=
  let c := (s.ch o.source).cfg
  ((s.ptpNow - o.offset) * c.rateNum / (1000000000 * max 1 c.rateDen : Nat)).toNat

/-- The next picture boundary of an SDI output: the next alignment point of R379 plus `OUT_OFFSET`, in device time, where it
shows a decode channel; where it follows an input, that input's own (R402; log entry 183). -/
def State.outBoundary (s : State) (h : Nat) : Nat :=
  let o := s.lane.outs.look {} h
  let c := (s.ch o.source).cfg
  if s.isDecoder o.source then
    ((s.now : Int) + ((s.outIndex o + 1) * 1000000000 * c.rateDen / max 1 c.rateNum : Nat) + o.offset - s.ptpNow).toNat
  else Config.sdiBoundary h s.now

/-- The first boundary of the named kind that has not begun. -/
def State.landing (s : State) : BoundaryKind → Landing
  | .now => .now none
  | .source h =>
    if s.isDecoder h then .now (some (.pic 0)) else if s.chan.chans.has h then .later (.pic (s.ch h).nextPic) else .now none
  | .picture h =>
    let c := s.ch h
    if s.isDecoder h then
      let d := s.dec.decoders.look {} h
      if c.state = .idle then .now none
      else if d.coded.isEmpty then .now (some (.pic d.order)) else .later (.pic (d.order + 1))
    else if c.state = .idle then .now none else .later (.pic c.nextPic)
  | .pipe3 d => if (s.chan.pipe3.look {} d).coding.isNone then .now (some (.time s.stamp)) else .hold
  | .accessUnit h =>
    let g := s.eg h
    if s.egressRuns h then .later (.pic g.nextPic)
    else if g.kind = 2 ∨ g.kind = 3 then
      (let a := s.audio.programs.look {} g.source
       let q := (s.audioPacket h).1
       .later (.time (s.positionTime a (cdiv a.next q * q))))
    else if g.kind < 5 then .now (some (.time s.stamp)) else .now none
  | .accessUnitAt h n => if s.egressRuns h then .later (.pic (max n (s.eg h).nextPic)) else .now none
  | .tdm i =>
    let q := s.audio.ports.look {} i
    if q.mode = 0 then .now none
    else .later (.time (match q.lastFsync with | some t => t + 1000000000 / rateHz q.rate | none => s.now))
  | .position h =>
    let g := s.audio.programs.look {} h
    .later (.time (s.positionTime g g.next))
  | .sdiOut h => if (s.lane.outs.look {} h).source = 0 ∨ (s.ln (handleIndex h)).mode = 0 then .now none
    else .later (.time (s.outBoundary h))
  | .refill => .later (.time ((s.net.tick + 1) * 100))
  | .timeAt t => .later (.time t)

/-- The start of a gate list: the first cycle start 2 µs ahead, and the cycles by which it is later than `BASE_TIME`
(R351). -/
def State.gateStart (s : State) (p : List Byte) : Nat × Nat :=
  let lead : Int := s.ptpNow + 2000
  let base : Int := u64 p 0
  let cycle := max 1 (u32 p 8)
  let n := if lead ≤ base then 0 else cdiv (lead - base).toNat cycle
  ((s.now + (base + (n * cycle : Nat) - s.ptpNow)).toNat, n)

/-- Pipe 3 has other channels' pictures to take before the turn of a pool channel (R20, R83; log entry 182). -/
def State.turnAhead (s : State) (h : Nat) : Bool :=
  let c := s.ch h
  c.pipe == 3 && !s.isDecoder h && (((s.chan.pipe3.look {} c.die).eligible.head?).any fun e => e.chan != h)

/-- A boundary later than the first one, which the completion reports with `W_APPLIED_LATER` (R20): a bind whose `START` is
later (R266), a set of a pool channel whose turn pipe 3 has not reached. -/
def State.deferred (s : State) (kind : BoundaryKind) (c : Change) (l : Landing) (r : Reply) : Landing × Reply :=
  match c, kind, l with
  | .checkBind _ p, _, .later (.pic m) =>
    let n := u64 p 8
    if n ≠ 2 ^ 64 - 1 ∧ m < n then (.later (.pic n), { r with status := .wAppliedLater })
    else if s.turnAhead (u32 p 0) then (l, { r with status := .wAppliedLater }) else (l, r)
  | _, .picture h, .later (.pic _) => if s.turnAhead h then (l, { r with status := .wAppliedLater }) else (l, r)
  | _, _, _ => (l, r)

/-- The landing of a change, with the reply that it gives the command (R343, R351, R377). -/
def State.land (s : State) (kind : BoundaryKind) (c : Change) (r : Reply) : Landing × Reply :=
  match c with
  | .gates _ p =>
    let (t, n) := s.gateStart p
    (.later (.time t), if n = 0 then r else { r with status := .wStartAdvanced, detail := t })
  | .pps _ => (.later (.time s.nextSecond), r)
  | .egressKey h _ _ =>
    let l := s.landing kind
    match kind, l with
    | .accessUnitAt _ n, .later (.pic m) =>
      if n < m then (l, { r with status := .wStartAdvanced, detail := (s.ch (s.eg h).source).releaseNs m 0 })
      else if (s.eg h).nextPic < m then (l, { r with status := .wAppliedLater }) else (l, r)
    | _, _ => (l, r)
  | _ => s.deferred kind c (s.landing kind) r

/-- A later set that takes the place of one that waits: a bind to a later access unit (R343), a change of a die's operating
point (R420). -/
def replaces (new : Change) (b : Boundary) (old : Staged) : Bool :=
  match new, old.change with
  | .egressKey h _ _, .egressKey g _ _ =>
    h == g && (match b, old.boundary with | .pic m, .pic n => decide (n < m) | _, _ => false)
  | .memFreq d _, .memFreq e _ => d == e
  | _, _ => false

/-- A set that waits for its boundary is noted by its unit. A gate list waits at its port (R351). -/
def State.noteStaged (s : State) (k : BoundaryKind) (b : Boundary) (seq : Nat) (c : Change) : State :=
  match c, b with
  | .gates port p, .time t => s.modNp port fun n => { n with gatesNext := some { payload := p, start := t } }
  | _, _ =>
    let s := match c with
      | .memFreq d p => s.modDie d fun m => { m with pending := some p }
      | _ => s
    s.modEci fun e => { e with
      staged := (e.staged.filter fun t => !replaces c b t) ++ [{ kind := k, boundary := b, seq, change := c }] }

/-- The running commands whose staged set is still on its way. -/
def Running.onItsWay (r : Running) : Bool := match r.await with | .arrival .. => true | _ => false

/-- The boundary that a completion reports: of a stop, the last picture (R105). -/
def Change.reported : Change → Boundary → Option Boundary
  | .stop _, .pic n => if n = 0 then none else some (.pic (n - 1))
  | _, b => some b

/-- The oldest staged set on its way reaches its unit, which fixes the boundary and acknowledges; the command completes, but
for a set that waits for pipe 3's boundary. A die that has been fenced takes no set. A set that a fail-over of the management
processors finds unacknowledged is delivered by the standby, after its replay (R22). -/
def execStagedSetArrival (s : State) : Out :=
  match s.eci.running.find? Running.onItsWay with
  | none => .next s
  | some r =>
    if s.boot.fencedAt.isSome then .next s else
    let drop (s : State) : State := s.modEci fun e => { e with running := e.running.filter (· != r) }
    match r.await with
    | .arrival kind c =>
      let lost := match kind with
        | .pipe3 d => bit s.boot.diesFenced d
        | .source h => (s.ch h).dies.any (bit s.boot.diesFenced)
        | _ => false
      if lost then .next ((drop s).complete r.cmd { r.reply with status := .eHwFault })
      else
        let (l, reply) := s.land kind c r.reply
        match l with
        | .now b => .next (((drop s).applyChange none c).complete r.cmd { reply with boundary := b.bind c.reported })
        | .later b =>
          .next (((drop s).noteStaged kind b r.cmd.tok.seq c).complete r.cmd
            { reply with boundary := c.reported b })
        | .hold =>
          let wait (d : Nat) : State := s.modEci fun e => { e with
            running := e.running.map fun x => if x = r then { x with await := .pipe3Boundary d c } else x }
          .next (match kind with | .pipe3 d => wait d | _ => s)
    | _ => .next s

end Sys2Proof.Machine
end

