-- ==== Sys2Proof/Machine/PictureData.lean ====
section
/-!
DEFINITION. Picture boundaries and input loss of encode channels (Channels, Pipes and Admission).
-/

namespace Sys2Proof.Machine

open Sys2Proof (Byte DieNo)

/-! ### The condition of a channel (R97 to R101) -/

/-- The input's condition, also while the channel reads `HUB_FILL`. -/
def Channel.inCond (c : Channel) : Condition :=
  if c.cond = .hubFill then (c.failover.map (·.cond)).getD .live else c.cond

def Channel.setCond (c : Channel) (x : Condition) : Channel :=
  if c.cond = .hubFill then { c with failover := c.failover.map fun f => { f with cond := x } } else { c with cond := x }

/-- Renditions that follow their parent's condition: running ones with a timeline (R97). -/
def State.followers (s : State) (h : Nat) : List Nat :=
  ((s.renditions h).filter fun e => (e.2.state == .starting || e.2.state == .running) && e.2.anchored && !e.2.reference).map (·.1)

/-- A rendition whose running parent decides the condition for both (R97). -/
def State.led (s : State) (h : Nat) : Bool :=
  let c := s.ch h
  let parent := s.ch c.cfg.source
  handleType c.cfg.source == tChannel && (parent.state == .starting || parent.state == .running) && !parent.reference

/-- The timeline moves later by δ at a boundary (R101, R383). -/
def State.retime (s : State) (h n d : Nat) : State :=
  let s := s.modCh h fun c => { c with
    anchor := c.slotUnits n + d, anchorPic := n
    moves := (n, (d : Int)) :: c.moves.filter fun m => decide (c.relPic < m.1)
    retimes := c.retimes + 1 }
  let s := s.raise evChannelRetime h (d / (s.ch h).cfg.unit) (some n)
  if (s.ch h).inAlignment then
    (s.modCh h fun c => { c with inAlignment := false }).raise evAlignLost h 1 (some n)
  else s

/-- The channel returns to `LIVE` at picture `n` (R100). -/
def State.restoreOne (s : State) (h n : Nat) : State :=
  let c := s.ch h
  let s := s.raise evInputRestored h c.lostPics (some n)
  let s := match c.retimeBy with
    | some d => s.retime h n d
    | none => s
  s.modCh h fun c => ({ c with goodPics := 0, lostPics := 0, repeatRun := 0, retimeBy := none, returning := false } : Channel).setCond .live

/-- The renditions of the channel return with it, by the same δ (R97, R101). -/
def State.restoreInput (s : State) (h n : Nat) : State :=
  let d := (s.ch h).retimeBy
  (s.followers h).foldl (fun s r =>
    if (s.ch r).inCond == .live then s
    else (s.modCh r fun c => { c with retimeBy := d }).restoreOne r (s.ch r).nextPic) (s.restoreOne h n)

/-- The channel enters `SLATE` (R99). -/
def State.enterSlate (s : State) (h n : Nat) : State :=
  (s.modCh h fun c => c.setCond .slate).raise evSlateOn h (s.ch h).repeatRun (some n)

/-- The slate's turn has come. -/
def Channel.slateDue (c : Channel) : Bool :=
  c.inCond == .repeat_ && c.cfg.slate != 0 && c.cfg.holdPics != 0 && decide (c.cfg.holdPics ≤ c.repeatRun)

/-- Every begun picture whose rate control can begin does so, in order; rows begin. -/
def State.goOn (s : State) (h : Nat) : State :=
  ((((s.ch h).pics.filter fun e => !e.2.rated).map (·.1)).foldl (fun s n => s.rateBegin h n) s).beginRows h

/-- The input of a channel is lost at slot `n`; a live picture begun without its source becomes a repeat picture (R98). -/
def State.loseInput (s : State) (h n : Nat) : State :=
  let c := s.ch h
  let s := s.raise evInputLost h (c.captureNs n 0 % 2 ^ 32) (some n)
  let s := s.modCh h fun c =>
    ({ c with lostPics := 0, repeatRun := 0, goodPics := 0, retimeBy := none, returning := false } : Channel).setCond .repeat_
  if c.slotOf n < c.nextPic then (s.modCh h fun c => { c.asRepeat n false with lostPics := 1, repeatRun := 1 }).goOn h else s.goOn h

/-! ### A picture begins (R9, R73, R95 to R101, R116, R497) -/

/-- The hub makes the picture of the slot from the channel's repeat template, and runs the model through its decoding units, each
held to its fill bound (R95, R204, R496). -/
def State.hubPicture (s : State) (h : Nat) : State :=
  let n := (s.ch h).nextPic
  let s := s.beginPicture h .hubFill 0
  s.modCh h fun c =>
    let c := (if c.modelStarted then c else c.startModel).modPic n fun p => { p with phi0 := c.omega }
    let p := c.pic n
    let top (j : Nat) : Nat :=
      ((List.range c.cfg.duRows).map fun i => c.fillUnits p (min (c.cfg.rows - 1) (j * c.cfg.duRows + i)) / unitBits).sum
    let bits : Tab Nat := (List.range c.cfg.dus).map fun j => (j, min (nalBits (c.hubDu n j)) (top j + hMax))
    let c := c.under n fun c => c.runDus fun j => bits.look 0 j
    let c := c.modPic n fun p => { p with judged := c.cfg.rows, rated := true, duBits := bits, spent := (bits.map (·.2)).sum }
    { c with failover := c.failover.map fun f => { f with hubPics := f.hubPics + 1 } }

/-- The next picture of a channel begins: policy, return of the input, slate, then the picture itself. A rendition's condition
follows its parent's (R97). -/
def State.beginNext (s : State) (h : Nat) : State :=
  let s := s.applyPolicy h
  let c := s.ch h
  let n := c.nextPic
  let slot := c.failover.bind (·.slot)
  if c.cond == .hubFill && slot.all (fun f => decide (n < f)) then s.hubPicture h
  else
    let led := s.led h
    let back := c.returning && c.inCond != .live && c.pipe != 3 && !led
    let s := if back then s.restoreInput h n else s
    let slate := (s.ch h).slateDue && !led
    let s := if slate then (s.followers h).foldl (fun s r => if (s.ch r).inCond == .repeat_ && (s.ch r).cfg.slate != 0 then s.enterSlate r (s.ch r).nextPic else s)
        (s.enterSlate h n) else s
    let c := s.ch h
    let o := c.outIndex n
    let cond := c.inCond
    let blank := c.blank.contains o
    let kind : PicKind := if c.source.has o then .live else if cond = .slate then .slate
      else if cond = .repeat_ ∨ blank then .repeat_ else .live
    let lost := c.pics.any fun e => e.1 + 1 == n && (e.2.kind == .repeat_ || e.2.kind == .slate) && !e.2.slip
    let missing := (s.chan.pipe3.look {} c.die).eligible.any fun e => e.chan == h && e.pic == o && e.missing
    let s := s.modCh h fun c => { c with blank := c.blank.filter (· != o) }
    let firstSlate := kind == .slate && !(c.pics.any fun e => e.1 + 1 == n && e.2.kind == .slate)
    let cause := if c.cond == .hubFill && slot == some n then 5
      else if kind = .live ∧ (back ∨ lost) then 2 else if firstSlate then 3
      else if kind = .live ∧ c.firstOfRun then 4 else 0
    let s := s.beginPicture h kind cause
    if kind = .repeat_ ∧ blank ∧ !missing then s.modCh h fun c => c.modPic n fun p => { p with slip := true } else s

/-- The staged sets of a channel whose boundary picture `n` begins (R19, R21). -/
def State.applyAt (s : State) (h n : Nat) : State :=
  s.applyStaged (some n) fun t => (t.kind == .picture h || t.kind == .source h) &&
    (match t.boundary with | .pic m => decide (m ≤ n) | _ => false)

/-- A reference-mode channel waits for room in its access-unit ring or its statistics ring (R257, R261). -/
def State.ringWaits (s : State) (h : Nat) : Bool :=
  ((s.dec.auRings.find h).any fun r => !r.waiting.isEmpty) || ((s.dec.stats.find h).any fun r => !r.waiting.isEmpty)

/-- The next picture may begin: its slot has come, or its source has. -/
def State.pictureDue (s : State) (h : Nat) : Bool :=
  let c := s.ch h
  let n := c.nextPic
  c.lastPic.isNone && !c.halted &&
    (if c.reference then c.source.has (c.outIndex n) && !s.ringWaits h
     else c.anchored && (decide (c.cfg.ns (c.slotUnits n) ≤ s.now) || c.source.has (c.outIndex n)))

/-- A stop waits for the channel's next boundary. -/
def State.stopWaits (s : State) (h : Nat) : Bool :=
  s.eci.staged.any fun t => match t.change with | .stop g => g == h | _ => false

/-- A picture boundary of a channel that is not on pipe 3. In reference mode, where no source picture is there, it is that of
a stop, which makes the picture in progress the last (R73; log entry 153). An `IDLE` channel's boundary applies a start that waits for it; a
pool channel without a die has boundaries of its own. -/
def execPictureBoundary (chan : BitVec 32) (s : State) : Out :=
  let h := chan.toNat
  let c := s.ch h
  if !s.isEncoder h || !s.planeRuns || (c.pipe == 3 && c.cond != .hubFill) then .next s
  else if c.state = .idle then .next (s.applyAt h c.nextPic)
  else if !s.pictureDue h then .next (if c.reference && s.stopWaits h then ((s.applyAt h c.nextPic).goOn h).policiesSettled else s)
  else
    let s := s.applyAt h c.nextPic
    let live := (s.ch h).state == .starting || (s.ch h).state == .running
    let s := if live then s.beginNext h else s
    .next ((c.dies.foldl State.swapSpares s).goOn h).policiesSettled

/-- Every row of a picture is committed or filled. -/
def Channel.picJudged (c : Channel) (n : Nat) : Bool :=
  decide (c.cfg.rows ≤ (c.pic n).judged) || !c.pics.has n

/-- Pipe 3 ends a picture or could begin one: held slot tables apply, the last submitted one entire (R85, R86). -/
def State.endPipe3 (s : State) (d : Nat) : State :=
  let s := s.modChan fun x => { x with pipe3 := x.pipe3.upd d fun p => { p with coding := none } }
  let held := s.eci.running.filterMap fun r => match r.await with
    | .pipe3Boundary g c => if g = d then some (r.cmd.tok.seq, c) else none
    | _ => none
  let last := (held.mergeSort fun a b => a.1 ≤ b.1).getLast?
  let s := match last with | some x => s.applyChange none x.2 | none => s
  s.completeRunning (fun r => match r.await with | .pipe3Boundary g _ => g == d | _ => false)
    fun r => { r.reply with boundary := some (.time s.stamp) }

/-- An eligible picture can have its turn: its channel runs or is to start, and the source that the channel's next slot codes is
there, or is known to be missing. -/
def State.turnReady (s : State) (d : Nat) (e : Eligible) : Bool :=
  let c := s.ch e.chan
  let o := c.outIndex c.nextPic
  (c.state == .starting || c.state == .running ||
    (c.state == .idle && (s.chan.pipe3.look {} d).starting.contains e.chan)) &&
    (c.structNow == 0 || e.missing || c.source.has o || c.blank.contains o)

/-- An eligible picture has its turn: a channel's start, its staged sets, then the picture of its next slot. Where slots before it
got no source, each has a turn of its own first (R86, R98). -/
def State.takeTurn (s : State) (d : Nat) (e : Eligible) : State :=
  let h := e.chan
  let s := if (s.ch h).state = ChState.idle then
      (s.modChan fun x => { x with pipe3 := x.pipe3.upd d fun p => { p with starting := p.starting.filter (· != h) } }).startChannel h
    else s
  let m := (s.ch h).nextPic
  let s := s.applyAt h m
  let before := (s.ch h).structNow = 0 ∧ m < e.pic
  let s := if before then s.modCh h fun c => { c with blank := if c.blank.contains m then c.blank else c.blank ++ [m] } else s
  let s := s.beginNext h
  s.modChan fun x => { x with pipe3 := x.pipe3.upd d fun p =>
    { p with coding := some (h, m), eligible := if before then p.eligible else p.eligible.erase e } }

/-- Pipe 3 ends a picture or could begin one: held slot tables apply; then the oldest eligible picture begins (R83, R85, R86). -/
def execPipe3PictureBoundary (die : DieNo) (s : State) : Out :=
  let d := die.val
  let busy := match (s.chan.pipe3.look {} d).coding with | some (h, n) => !(s.ch h).picJudged n | none => false
  if !s.planeRuns || busy || bit s.boot.diesFenced d || decide (s.dies ≤ d) then .next s
  else
    let s := s.endPipe3 d
    let s := match (s.chan.pipe3.look {} d).eligible.find? (s.turnReady d) with
      | none => s
      | some e => s.takeTurn d e
    .next (s.swapSpares d).policiesSettled

/-! ### Input loss (R98) -/

/-- Row 0 of the next wanted source picture has not come one row period after its expected capture. The renditions of the
channel follow; a rendition whose parent runs does not decide for itself (R97). On pipe 3 the slot then waits for its turn. -/
def execSourcePictureMissing (chan : BitVec 32) (s : State) : Out :=
  let h := chan.toNat
  let c := s.ch h
  let n := c.wantedSlot
  let led := s.led h
  let standby := match c.failover.bind (·.slot) with | some f => decide (f ≤ n) | none => c.cond != .hubFill
  if !s.isEncoder h || !s.planeRuns || !(c.state == .starting || c.state == .running) || c.reference || !c.anchored || led ||
      !standby || c.lastPic.isSome || decide (s.now < c.captureNs n 1) then .next s
  else
    let lost := c.inCond == .live
    let s := if lost then
        (s.followers h).foldl (fun s r => if (s.ch r).inCond == .live then s.loseInput r (s.ch r).wantedSlot else s) (s.loseInput h n)
      else s
    if c.pipe == 3 && decide (c.nextPic ≤ c.slotOf n) then
      .next ((s.modCh h fun c => { c with blank := c.blank ++ [n] }).enterEligible c.die
        { chan := h, pic := n, time := s.now, missing := true })
    else .next s

end Sys2Proof.Machine
end

