-- ==== Sys2Proof/Machine/SourceData.lean ====
section
/-!
DEFINITION. Source rows, submitted and generated pictures, and composition (Composition; Ingest; Decode, Reference Mode and
Verification, R256, R259).
-/

namespace Sys2Proof.Machine

open Sys2Proof (Byte RowSamples LostRun)

/-! ### Sources (R16, R268, R270, R325) -/

/-- Chroma format and bit depth of what a channel's source gives: an ingress stream, an SDI input, or a parent channel, whose
scaled rows have 10 bits. -/
def State.sourceFormat (s : State) (h : Nat) : Nat × Nat :=
  let c := s.ch h
  let src := c.cfg.source
  if handleType src = tIngress then
    let p := (s.net.ingress.look {} src).payload
    if u8 p 0 = 0 then (u8 p 0x5C, u8 p 0x5D) else (1, 10)
  else if handleType src = tLane then
    match (s.lane.lanes.look {} (handleIndex src)).format with
    | some f => (f.sampling, f.depth)
    | none => (1, 10)
  else (c.cfg.chroma, 10)

/-- A source posts rows to a channel: of an SDI input, its format suits the channel and its quad is whole (R398, R399, R401). -/
def State.lanePosts (s : State) (src : Nat) (c : ChCfg) : Bool :=
  handleType src != tLane ||
    (let l := s.lane.lanes.look {} (handleIndex src)
     l.posting && l.test == 0 && l.fits c)

/-- A pool channel whose input is good again returns at the first slot that still wants a source picture. -/
def State.poolReturn (s : State) (h : Nat) : State :=
  let c := s.ch h
  if c.returning && c.inCond != .live && !s.led h then s.restoreInput h c.wantedSlot else s

/-- A source row is there; what it makes possible follows. -/
def State.takeRow (s : State) (h row m : Nat) (d : SourceRow) : State :=
  let t := s.rowArrives h row m d
  (if (s.ch h).pipe = 3 then t.poolReturn h else t).goOn h

/-! ### Renditions (R90, R97, R128, R129) -/

/-- The picture of a rendition's parent with a capture time: one that is coded from its source, or one that is not. -/
def State.parentAt (s : State) (h m : Nat) : Option (Option Nat × Pic) :=
  let parent := s.ch (s.ch h).cfg.source
  match parent.pics.find? fun e => e.2.capture == m && e.2.kind == .live && e.2.assigned with
  | some e => some (some e.1, e.2)
  | none => (parent.watched.find? fun p => p.capture == m).map fun p => (none, p)

/-- The parent's picture of the same source picture. -/
def State.parentPic (s : State) (h n : Nat) : Option (Option Nat × Pic) :=
  let c := s.ch h
  let p := c.pic n
  if handleType c.cfg.source = tChannel ∧ p.kind = .live ∧ p.assigned then s.parentAt h p.capture else none

/-- Renditions of the channel that run. -/
def State.runningRenditions (s : State) (h : Nat) : List Nat :=
  ((s.renditions h).filter fun e => e.2.state == .starting || e.2.state == .running).map (·.1)

/-- Row `k` of a rendition as its parent's die scales it, where the lines of the parent that it reads are composed (R90). -/
def State.scaledRow (s : State) (h k m : Nat) : Option SourceRow :=
  let c := s.ch h
  let parent := s.ch c.cfg.source
  let (y0, y1) := c.cfg.lumaRows k
  match s.parentAt h m with
  | none => none
  | some (_, p) =>
    if p.img.y.length < parent.parentLines c (y1 - 1) then none
    else some { data := s.renditionLines parent c p.img y0 (y1 - y0), sampling := c.cfg.chroma, depth := 10 }

/-! ### Rows from ingest (R259, R324, R325) -/

/-- The time of the picture that a stream of kind 0 gives, where its lines take theirs from it: by `TIMING`, and not far from its
arrival (R324). -/
def Ingress.pictureAt (g : Ingress) : Option Int :=
  if u8 g.payload 0 = 0 ∧ u8 g.payload 4 = 0 ∧ g.fallback = false ∧ g.rtpTime.isSome then some g.picTime else none

/-- A row of an ingress stream comes: a row that is not below the last one is of a new picture. -/
def Feed.next (f : Feed) (k : Nat) (time : Option Int) : Feed :=
  if k ≤ f.row ∨ (f.rows.isEmpty ∧ f.before.isEmpty) then { row := k, time, rows := [], before := f.rows } else { f with row := k }

/-- Capture time of the last line of row `k`, where the picture's time gives it (R324). -/
def Feed.capture (f : Feed) (g : Ingress) (c : ChCfg) (k m : Nat) : Nat :=
  match f.time with
  | none => m
  | some t =>
    let (_, y1) := c.lumaRows k
    (t + ((y1 * (1000000000 * u32 g.payload 0x58) / (c.height * u32 g.payload 0x54) : Nat) : Int)).toNat

/-- Lost samples of a row take the values at the same place of the stream's picture before, or mid-grey (R325). -/
def Frame.restore (f : Frame) (runs : List LostRun) (before : Option Frame) (depth : Nat) : Frame :=
  let old (p : Frame → Plane) (x y : Nat) : Nat :=
    match before with
    | some b => ((p b).getD y []).getD x (2 ^ (depth - 1))
    | none => 2 ^ (depth - 1)
  let lost (i x y : Nat) : Bool := runs.any fun r =>
    r.comp.val == i && r.line.toNat == y && decide (r.first.toNat ≤ x ∧ x < r.first.toNat + r.count.toNat)
  let mend (i : Nat) (p : Frame → Plane) : Plane :=
    (p f).mapIdx fun y l => l.mapIdx fun x v => if lost i x y then old p x y else v
  if runs.isEmpty then f else { y := mend 0 (·.y), cb := mend 1 (·.cb), cr := mend 2 (·.cr) }

/-- The samples of a row as ingest writes them, each held to the bit depth. -/
def RowSamples.frame (r : RowSamples) (c : ChCfg) (sampling depth k : Nat) : Frame :=
  let plane (l : List (List (BitVec 16))) : Plane := l.map fun x => x.map fun v => v.toNat % 2 ^ depth
  let (y0, y1) := c.lumaRows k
  ({ y := plane r.y, cb := plane r.cb, cr := plane r.cr } : Frame).fit sampling c.width (y1 - y0)

/-- A row from ingest, or from the parent's die, and its capture time. -/
def State.sourceRow (s : State) (h k m : Nat) (r : RowSamples) : Option (SourceRow × Nat) :=
  let c := s.ch h
  if handleType c.cfg.source = tChannel then (s.scaledRow h k m).map fun d => (d, m)
  else
    let (sampling, depth) := s.sourceFormat h
    let g := s.net.ingress.look {} c.cfg.source
    let feed := c.feed.next k g.pictureAt
    let streamed := handleType c.cfg.source == tIngress
    let f := RowSamples.frame r c.cfg sampling depth k
    let f := if streamed then f.restore r.lost (feed.before.find k) depth else f
    some ({ data := f, sampling, depth, same := sampling == c.cfg.chroma && depth == c.cfg.bitDepth },
          if streamed then feed.capture g c.cfg k m else m)

/-- What an ingress stream wrote is kept: lost samples of its next picture take their values from it. -/
def State.keepFed (s : State) (h k : Nat) (f : Frame) : State :=
  let source := (s.ch h).cfg.source
  if handleType source = tIngress then
    s.modCh h fun c =>
      let feed := c.feed.next k (s.net.ingress.look {} source).pictureAt
      { c with feed := { feed with rows := feed.rows.put k f } }
  else s

/-! ### Source pictures that are not coded, for renditions (R91, R129) -/

/-- The layers of a channel as they are applied. -/
def State.layersApplied (s : State) (h : Nat) : Tab (List Byte) :=
  (s.comp.layers.filter fun e => e.2.chan == h && u8 e.2.applied 0 == 1).map fun e => (e.1, e.2.applied)

/-- The composed lines of a base row. -/
def State.composedRow (s : State) (h : Nat) (p : Pic) (base : Frame) (sampling depth y0 : Nat) : Frame :=
  let c := s.ch h
  if p.through && p.same then base else s.composeLines c.cfg c.die p.set.colour p.layers base sampling depth y0

/-- A source row that the channel does not code, while renditions of it run, goes to a picture that they read. -/
def State.watchRow (s : State) (h k m : Nat) (d : SourceRow) : State :=
  let c := s.ch h
  let lines (p : Pic) : Pic :=
    { p with raw := p.raw.append d.data, img := p.img.append (s.composedRow h p d.data d.sampling d.depth (k * c.cfg.ctu)) }
  if k = 0 then
    let layers := s.layersApplied h
    let p : Pic := { kind := .watched, capture := m, assigned := true, set := c.set, effort := c.effort, layers
                     through := layers.isEmpty, same := d.same, sampling := d.sampling, depth := d.depth
                     fieldRef := c.lastRecon c.nextPic }
    s.modCh h fun c => { c with watched := (c.watched ++ [lines p]).drop (c.watched.length - 3) }
  else match c.watched.getLast? with
    | some p =>
      if p.raw.y.length = k * c.cfg.ctu then s.modCh h fun c => { c with watched := c.watched.dropLast ++ [lines p] } else s
    | none => s

/-- The row that has just come is coded. -/
def State.codesRow (s : State) (h : Nat) : Bool := s.takesRows h && (s.ch h).cur.isSome

end Sys2Proof.Machine
end

