-- ==== Sys2Proof/Machine/AnalysisData.lean ====
section
/-!
DEFINITION. Pre-analysis and motion search as they come about: measures, the scene-change flag, global motion, search, and what
renditions take from their parent (Pre-analysis and Hierarchical Motion Search, R107 to R131).
-/

namespace Sys2Proof.Machine

open Sys2Proof (Byte)

/-- What `ANALYSIS.QUERY` gives of the picture analysed last follows that picture (R136). -/
def Channel.keepAnalysis (c : Channel) (n : Nat) : Channel :=
  if c.lastAnalysed ≠ some n then c
  else
    let p := c.pic n
    { c with analysed := [p.actPic, p.cpxPic, p.scene, p.gmKept, b2n p.firstSearched], analysedGm := p.gm }

/-! ### Scene changes (R115, R116, R128) -/

/-- Picture `n` becomes a scene change of a cause: its type, and those of the pictures begun after it, are given again. -/
def Channel.retype (c : Channel) (n cause : Nat) : Channel :=
  let later := (c.pics.filter fun e => decide (n < e.1) && (e.2.kind == .live || e.2.kind == .slate)).map fun e => (e.1, e.2.scene)
  later.foldl (fun c e => c.giveType e.1 e.2) ((c.ungive n).giveType n cause)

/-- A picture is a scene change: of the test, or of its parent's flag. -/
def State.applyScene (s : State) (h n cause pct : Nat) : State :=
  (s.modCh h fun c => ((c.retype n cause).modPic n fun p => { p with scenePct := pct }).keepAnalysis n).sceneChange h n cause pct

/-- The scene-change flag falls, with the cause and percentage that a test or the parent gives, if any. -/
def State.dropFlag (s : State) (h n : Nat) (found : Option (Nat × Nat)) : State :=
  let s := match found with
    | some (cause, pct) => if ((s.ch h).pic n).scene = 0 then s.applyScene h n cause pct else s
    | none => s
  (s.modCh h fun c => c.modPic n fun p => { p with flag := true }).postRow h n 0 7

/-- The counts of both halves decide (R115). -/
def Pic.testResult (p : Pic) : Option (Nat × Nat) :=
  let tested := p.tested.sum
  let changed := p.changed.sum
  if tested = 0 ∨ 100 * changed ≤ p.set.scP * tested then none else some (1, 100 * changed / tested)

/-- A picture with the counts of its halves and, where they say so, its scene change. -/
def Pic.withCounts (p : Pic) (counts : List (Nat × Nat)) : Pic :=
  let p := { p with tested := counts.map Prod.fst, changed := counts.map Prod.snd, flag := true }
  match p.testResult with
  | some (cause, pct) => { p with scene := cause, scenePct := pct }
  | none => p

/-- Blocks of row 0 tested and found changed on a half, against the most recent reconstructed picture `ref`. -/
def Channel.rowCounts (c : Channel) (p : Pic) (gm : List Int) (half ref : Nat) (l3 : Plane) : Nat × Nat :=
  let (x0, x1) := c.cfg.lumaCols (c.halfCols half)
  let offset (x y : Nat) : Vec :=
    let v := gmAt gm c.cfg.width c.cfg.height x y
    (roundHalf v.1 32, roundHalf v.2 32)
  sceneCounts p.set.scT l3 (c.refLevel ref 3) x0 x1 offset

/-- The test is asked for: of a live or slate picture that no cause makes a scene change already. -/
def Pic.isTested (p : Pic) : Bool := (p.kind == .live || p.kind == .slate || p.kind == .watched) && p.scene == 0 && p.set.scMode == 0

/-- What a parent's picture says to its rendition. -/
def Pic.says (p : Pic) : Option (Nat × Nat) := if p.scene = 0 then none else some (p.scene, p.scenePct)

/-- The flag of a picture whose row 0 has been measured on every half falls: a rendition's is its parent's, and waits for it. -/
def State.decideScene (s : State) (h n : Nat) : State :=
  let c := s.ch h
  let p := c.pic n
  let measured := c.halves.all (bit (c.row n 0).measured) && (c.partnerPipe.isNone || p.countsIn)
  if p.flag || !measured then s
  else match s.parentPic h n with
    | some (_, q) => if q.flag then s.dropFlag h n q.says else s
    | none => s.dropFlag h n p.testResult

/-- A parent's flag reaches the renditions that wait for it. -/
def State.passFlag (s : State) (h : Nat) (q : Pic) : State :=
  (s.renditions h).foldl (fun s e =>
    ((s.ch e.1).pics.filter fun (x : Nat × Pic) => x.2.kind == .live && x.2.capture == q.capture).foldl
      (fun s (x : Nat × Pic) => s.decideScene e.1 x.1) s) s

/-! ### Global motion (R118, R128) -/

/-- A parent's G as its rendition has it: the translations scaled by the ratios of the sizes (R128). -/
def Channel.scaleGm (c parent : Channel) (g : List Int) : List Int :=
  [roundHalf (g.getD 0 0 * c.cfg.width) (max 1 parent.cfg.width), roundHalf (g.getD 1 0 * c.cfg.height) (max 1 parent.cfg.height),
    g.getD 2 0, g.getD 3 0]

/-- A picture has its G. -/
def Channel.setMotion (c : Channel) (n : Nat) (g : List Int) (kept : Nat) : Channel :=
  (c.modPic n fun p => { p with gm := g, gmKept := kept, fitted := true }).keepAnalysis n

/-- A source picture's G goes to the same picture of the channel's renditions (R128, R129). -/
def State.passGm (s : State) (h capture : Nat) (g : List Int) (kept : Nat) : State :=
  let c := s.ch h
  (s.renditions h).foldl (fun s e => s.modCh e.1 fun r =>
    ((r.pics.filter fun (x : Nat × Pic) => x.2.kind == .live && x.2.capture == capture).map (·.1)).foldl
      (fun r n => r.setMotion n (r.scaleGm c g) kept) r) s

/-- The fit of a picture over the whole of its L3 field, once its last row is there on both halves; on a mitre pair G goes back to
the odd die (R118). A rendition has its parent's. -/
def State.fitMotion (s : State) (h n : Nat) : State :=
  let c := s.ch h
  let p := c.pic n
  let done := (List.range c.cfg.rows).all fun k => bit (c.row n k).msuDone 0 && (c.partnerPipe.isNone || (c.row n k).fieldIn)
  if p.fitted || !p.isSearched || !done || (s.parentPic h n).isSome then s
  else
    let (g, kept) := gmFit (p.set.gmMode == 1) c.cfg.width c.cfg.height (c.fieldBlocks n)
    let s := ((s.modCh h fun c => c.setMotion n g kept).cross h 0 (c.row n 0).generation (.motion n))
    if p.kind = .live then s.passGm h p.capture g kept else s

/-! ### The field of a parent's picture that coding does not search (R129) -/

/-- The search of row `k` of a half of such a picture, whose levels are `cur`, against the picture's own choice; its candidates are
those of R122 but for the co-located ones. -/
def Channel.fieldRow (c : Channel) (recipe : Nat) (p : Pic) (gm : List Int) (cur : Nat → Plane) (k half m : Nat) : SearchRow :=
  let (x0, x1) := c.cfg.lumaCols (c.halfCols half)
  let (y0, y1) := c.cfg.lumaRows k
  let (lo, hi) := c.heldCols half
  let above := if k = 0 then ({} : SearchRow) else p.field.look {} (2 * (k - 1) + half)
  let j : SearchJob := {
    w := c.cfg.width, h := c.cfg.height, x0, x1, y0, y1, ctu := c.cfg.ctu, lambda := Config.lambda recipe (qpBase p.set.ql)
    cur := fun l x y => (cur l).sample x y
    ref := fun l x y => (c.refLevel m l).sample (clampI (lo / 2 ^ l : Nat) ((hi / 2 ^ l : Nat) - 1) x) y
    l3Above := above.l3.getLastD [], gm := if gm.all (· == 0) then none else some fun x y => gmAt gm c.cfg.width c.cfg.height x y
    count := candidateCount p.effort }
  { l3 := j.level3 }

/-- A picture with its field's rows of CTU row `k`. -/
def Channel.withField (c : Channel) (recipe : Nat) (p : Pic) (gm : List Int) (cur : Nat → Plane) (k : Nat) : Pic :=
  match p.fieldRef with
  | none => p
  | some m => c.halves.foldl (fun p half => { p with field := p.field.put (2 * k + half) (c.fieldRow recipe p gm cur k half m) }) p

/-- Blocks of a field by their centres and best vectors. -/
def Channel.ownBlocks (c : Channel) (p : Pic) : List (Int × Int × Int × Int) :=
  (List.range c.cfg.rows).flatMap fun k => c.halves.flatMap fun half =>
    let x0 := (c.cfg.lumaCols (c.halfCols half)).1
    let y0 := (c.cfg.lumaRows k).1
    (((p.field.look {} (2 * k + half)).l3).mapIdx fun b r => r.mapIdx fun i hits =>
      let h := hits.headD {}
      (((x0 + 64 * i + 32 : Nat) : Int), ((y0 + 64 * b + 32 : Nat) : Int), h.x, h.y)).flatten

/-- G that serves the next source picture of a channel: that of the newest picture fitted. -/
def Channel.gmLast (c : Channel) : List Int :=
  match c.watched.getLast?, c.pics.getLast? with
  | some p, some e => if e.2.capture ≤ p.capture then p.gm else if e.2.fitted then e.2.gm else [0, 0, 0, 0]
  | some p, none => p.gm
  | none, some e => if e.2.fitted then e.2.gm else [0, 0, 0, 0]
  | none, none => [0, 0, 0, 0]

/-- Row `k` of a watched picture is there: its part of the field, at row 0 the scene-change test, and at the last row the fit. -/
def State.watchedRow (s : State) (h k : Nat) : State :=
  let c := s.ch h
  match c.watched.getLast? with
  | none => s
  | some p =>
    let pyr := pyramidOf (tenBits c.cfg.bitDepth p.img.y)
    let level (l : Nat) : Plane := if l = 0 then tenBits c.cfg.bitDepth p.img.y else pyr.level l
    let prev : Channel := { c with watched := c.watched.dropLast }
    let gm := prev.gmLast
    let p := c.withField s.boot.recipeVersion p gm level k
    let p := if k = 0 then
        let counts : List (Nat × Nat) := match p.fieldRef with
          | some m => if p.isTested then c.halves.map fun half => c.rowCounts p gm half m pyr.l3 else []
          | none => []
        p.withCounts counts
      else p
    let last := k + 1 = c.cfg.rows
    let p := if last then
        let (g, kept) := gmFit (p.set.gmMode == 1) c.cfg.width c.cfg.height (c.ownBlocks p)
        { p with gm := g, gmKept := kept, fitted := true }
      else p
    let s := s.modCh h fun c => { c with watched := c.watched.dropLast ++ [p] }
    let s := if k = 0 then s.passFlag h p else s
    if last then s.passGm h p.capture p.gm p.gmKept else s

/-! ### Row measures (R107, R112 to R116) -/

/-- The luma of a row as analysis reads it: of a repeat picture, of the picture that it copies. -/
def Channel.analysedLuma (c : Channel) (n k : Nat) : Plane :=
  let p := c.pic n
  let (y0, y1) := c.cfg.lumaRows k
  if p.kind = .repeat_ then
    match p.list0.head? with
    | some m => (c.refRow m k).y
    | none => (Frame.grey c.cfg.chroma c.cfg.bitDepth c.cfg.width (y1 - y0)).y
  else p.img.y.part 0 y0 c.cfg.width (y1 - y0)

/-- A row has its pyramid and its measures (R112, R113). -/
def Channel.measureRow (c : Channel) (n k half : Nat) : Channel :=
  let luma := tenBits c.cfg.bitDepth (c.analysedLuma n k)
  let pyr := pyramidOf luma
  let (acts, cplxs) := c.cfg.rowMeasures luma pyr
  c.modRow n k fun r => { r with measured := setBit r.measured half, pyramid := pyr, acts, cplxs, act := acts.sum, cplx := cplxs.sum }

/-- The picture is analysed: its means (R113), its scene flag and its place in `ANALYSIS.QUERY` (R136). A scene change found
later shows there too. -/
def Channel.measurePic (c : Channel) (n : Nat) : Channel :=
  let ctus := c.cfg.cols * c.cfg.rows
  let sum (f : Row → Nat) : Nat := ((List.range c.cfg.rows).map fun j => f (c.row n j)).sum
  let act := sum (·.act) / ctus
  let cpx := sum (·.cplx) / ctus
  let c := c.modPic n fun p => { p with actPic := act, cpxPic := cpx }
  ({ c with lastAnalysed := some n } : Channel).keepAnalysis n

/-- `EV_WELT_ERROR`, once per picture and surface with invalid blocks: the base as read, the slate and the layers as they
lie in device memory (R277). -/
def State.weltEvents (s : State) (h n : Nat) : State :=
  let p := (s.ch h).pic n
  let found : List (Nat × Nat × Nat) :=
    (if p.kind = .slate then [(h, 2, s.slateWelt h)] else [(h, 0, p.badBlocks)]) ++ p.layers.map fun e => (e.1, 1, s.layerWelt e.1 e.2)
  (found.filter fun x => x.2.2 != 0).foldl (fun s x =>
    s.raise evWeltError x.1 (x.2.2 % 2 ^ 32 + x.2.1 * 2 ^ 32) (some n)) s

/-- Composition makes the picture's rows: not a pass-through, and not a repeat or hub-fill picture. -/
def Pic.composes (p : Pic) : Bool := (p.kind == .live && !(p.through && p.same)) || (p.kind == .slate && !p.through)

/-- A row is measured on every half, and the halves' sums have crossed: its analysis-done flag (R107, R114). With the last row
the picture is analysed; the values at snoop points 0 and 1 are there (R262). -/
def State.rowMeasured (s : State) (h n k : Nat) : State :=
  let c := s.ch h
  let r := c.row n k
  if r.analysed || !(c.halves.all (bit r.measured)) || !(c.partnerPipe.isNone || r.sums == 3) then s
  else
    let s := (s.modCh h fun c => c.modRow n k fun r => { r with analysed := true }).postRow h n k 3
    let c := s.ch h
    if !((List.range c.cfg.rows).all fun j => (c.row n j).analysed) then s
    else
      let p := c.pic n
      let s := s.modCh h fun c => c.measurePic n
      let s := if p.kind = .live then s.checkFrame h n 0 p.raw p.sampling p.depth else s
      let s := if p.kind = .repeat_ then s else s.checkFrame h n 1 p.img c.cfg.chroma c.cfg.bitDepth
      if p.composes || p.kind == .repeat_ then s else s.weltEvents h n

/-- A row whose turn it is at a die's pre-analysis unit: no row that reached the unit before it, of any channel of the die, is
still to be done (R106). -/
def State.feedTurn (s : State) (d place : Nat) : Bool :=
  s.chan.chans.all fun e => e.2.rows.all fun x =>
    !(e.2.dies.contains d) || bit x.2.measured (e.2.halfOn d) || match x.2.fed with | some q => decide (place ≤ q) | none => true

/-- Pre-analysis of a row may complete on a half. -/
def State.mayMeasure (s : State) (h n k half : Nat) : Bool :=
  let c := s.ch h
  let p := c.pic n
  let r := c.row n k
  let fed := if p.kind = .repeat_ then p.list0.head?.all fun m => !c.rows.has (c.rowKey m k) || (c.row m k).ready
    else r.fed.any fun q => s.feedTurn (c.dieOf half) q
  c.pics.has n && c.rows.has (c.rowKey n k) && c.halves.contains half && !bit r.measured half && fed &&
    (k == 0 || bit (c.row n (k - 1)).measured half)

/-! ### Search (R119 to R131) -/

/-- The two L2 seeds of a rendition's block by its centre, from a parent's L3 vectors (R128). -/
def Channel.seedsFrom (c parent : Channel) (l3 : Nat → Nat → List Hit) (x y : Nat) : List Vec :=
  (l3 (x * parent.cfg.width / c.cfg.width) (y * parent.cfg.height / c.cfg.height)).map fun v =>
    onGrid 16 (roundHalf (v.x * c.cfg.width) parent.cfg.width, roundHalf (v.y * c.cfg.height) parent.cfg.height)

/-- The L3 vectors of a parent's picture at a position, from its search or its field. -/
def Channel.l3At (parent : Channel) (n : Option Nat) (p : Pic) (x y : Nat) : List Hit :=
  let k := y / parent.cfg.ctu
  let half := if parent.halves.length = 2 ∧ (parent.halfCols 0).2 * parent.cfg.ctu ≤ x then 1 else 0
  let l3 := match n with
    | some m => if p.isSearched then (((parent.row m k).search.look [] half).headD {}).l3 else (p.field.look {} (2 * k + half)).l3
    | none => (p.field.look {} (2 * k + half)).l3
  (l3.getD ((y - k * parent.cfg.ctu) / 64) []).getD ((x - (parent.cfg.lumaCols (parent.halfCols half)).1) / 64) []

/-- A parent's field of a CTU row is there. -/
def Channel.fieldThere (parent : Channel) (n : Option Nat) (p : Pic) (k : Nat) : Bool :=
  parent.halves.all fun half => match n with
    | some m => if p.isSearched then bit (parent.row m k).msuDone half else p.field.has (2 * k + half)
    | none => p.field.has (2 * k + half)

/-- What a rendition's search takes from its parent: none while it waits for the field; within, none where it searches L3 itself
(R128, R129). -/
def State.parentSeeds (s : State) (h n k : Nat) : Option (Option (Nat → Nat → List Vec)) :=
  let c := s.ch h
  match s.parentPic h n with
  | none => some none
  | some (m, q) =>
    let parent := s.ch c.cfg.source
    if !q.isSearched && q.fieldRef.isNone then some none
    else
      let (y0, y1) := c.cfg.lumaRows k
      let row (y : Nat) : Nat := y * parent.cfg.height / c.cfg.height / parent.cfg.ctu
      if (List.range (row (y1 - 1) - row y0 + 1)).all fun i => parent.fieldThere m q (row y0 + i) then
        some (some (c.seedsFrom parent (parent.l3At m q)))
      else none

/-- G of the picture before is settled: it has been fitted and is at the half's die, or no fit of it will come (R118). -/
def Channel.motionSettled (c : Channel) (n half : Nat) : Bool :=
  match c.pics.find (n - 1) with
  | some p => n == 0 || !p.isSearched || (p.fitted && (half == 0 || p.motionIn)) || decide (c.cfg.rows ≤ p.judged)
  | none => true

/-- The search tasks of a row on a half have their flags: the half's analysis, the row above, the scene-change flag and G at
row 0, and the reference rows (R116, R118, R124). -/
def Channel.maySearch (c : Channel) (n k half : Nat) : Bool :=
  let p := c.pic n
  let r := c.row n k
  c.pics.has n && c.rows.has (c.rowKey n k) && p.isSearched && c.halves.contains half && bit r.measured half &&
    !bit r.msuDone half && (if k = 0 then p.flag && c.motionSettled n half else bit (c.row n (k - 1)).msuDone half) &&
    c.refsReady (p.searched (refsOf p.effort p.set.maxRefs)) k half

/-- The search of a row on a half takes effect once it may: its results stand; of the odd half its L3 field goes to the even die. -/
def State.searchDone (s : State) (h n k half : Nat) : State :=
  let c := s.ch h
  let p := c.pic n
  match s.parentSeeds h n k with
  | none => s
  | some parent =>
    if !c.maySearch n k half then s
    else
      let refs := p.searched (refsOf p.effort p.set.maxRefs)
      let run (idx ref : Nat) : SearchRow := (c.searchJob s.boot.recipeVersion n k half idx ref parent).run
      let s := s.modCh h fun c => c.modRow n k fun r => { r with
        msuDone := setBit r.msuDone half, search := r.search.put half (refs.mapIdx run) }
      let s := if half = 1 then s.cross h 1 (c.row n k).generation (.field n k) else s
      s.fitMotion h n

/-- Searches whose tasks have ended and that could not take effect before. -/
def State.searches (s : State) (h : Nat) : State :=
  (s.ch h).rows.foldl (fun s (e : Nat × Row) =>
    let c := s.ch h
    c.halves.foldl (fun s half =>
      if bit e.2.ended (2 + half) && !bit e.2.msuDone half then s.searchDone h (e.1 / c.cfg.rows) (e.1 % c.cfg.rows) half else s) s) s

/-- What a change of a channel makes possible: searches, stages of rows, rate control of pictures, rows that begin. -/
def State.proceedOne (s : State) (h : Nat) : State := ((s.searches h).advance h).goOn h

/-- The same of the channel, and of the renditions that wait for it. -/
def State.proceed (s : State) (h : Nat) : State := (s.runningRenditions h).foldl State.proceedOne (s.proceedOne h)

/-! ### The end of pre-analysis of a row -/

/-- Row 0 of a picture is measured on a half: its changed blocks are counted against the last reconstruction, the odd half's counts
cross, and the scene-change test is made once the counts are there (R115, R116). -/
def State.countScene (s : State) (h n half gen : Nat) : State :=
  let c := s.ch h
  let p := c.pic n
  let last := c.lastRecon n
  let (tested, changed) := match last with
    | some m => if p.isTested then c.rowCounts p (c.gmFor n) half m (c.row n 0).pyramid.l3 else (0, 0)
    | none => (0, 0)
  let s := s.modCh h fun c => c.modPic n fun p => { p with
    tested := p.tested.set half tested, changed := p.changed.set half changed, fieldRef := last }
  let s := if half = 1 then s.cross h 1 gen (.counts n) else s
  s.decideScene h n

/-- A row of a parent's picture that is not searched otherwise gets its field once it is measured, and with the last row the
picture's G goes to the renditions (R129). -/
def State.ownField (s : State) (h n k : Nat) : State :=
  let c := s.ch h
  let p := c.pic n
  if p.kind == .live && !p.isSearched && !(s.runningRenditions h).isEmpty && c.halves.all (bit (c.row n k).measured) then
    let s := s.modCh h fun c => c.modPic n fun p => c.withField s.boot.recipeVersion p (c.gmFor n) (c.srcLevel n) k
    if k + 1 = c.cfg.rows then
      let c := s.ch h
      let p := c.pic n
      let (g, kept) := gmFit (p.set.gmMode == 1) c.cfg.width c.cfg.height (c.ownBlocks p)
      (s.modCh h fun c => c.setMotion n g kept).passGm h p.capture g kept
    else s
  else s

/-- The unit of a half's die completes a row's pyramid and measures, whose sums cross; at row 0 the scene is tested, and its flag
goes to the renditions (R107, R112 to R116, R128). -/
def execAnalysisRowDone (chan : BitVec 32) (pic : BitVec 64) (row : BitVec 8) (odd : Bool) (s : State) : Out :=
  let h := chan.toNat
  let n := pic.toNat
  let k := row.toNat
  let half := b2n odd
  if !s.mayMeasure h n k half then .next s
  else
    let s := s.modCh h fun c => c.measureRow n k half
    let gen := ((s.ch h).row n k).generation
    let s := s.cross h half gen (.sums n k)
    let s := if k = 0 then s.countScene h n half gen else s
    let s := s.rowMeasured h n k
    let s := if k = 0 && ((s.ch h).pic n).flag then s.passFlag h ((s.ch h).pic n) else s
    .next ((s.ownField h n k).proceed h)

end Sys2Proof.Machine
end

