-- ==== Sys2Proof/Machine/AudioData.lean ====
section
/-!
DEFINITION. Audio in the data plane: frame edges of ports, samples that reach a program's buffer, delivery of grid positions
to every sink, rate measurement, converters and the DSPs (Audio Ports, Sample Clocks and Alignment).
-/

namespace Sys2Proof.Machine

open Sys2Proof (Byte AudioSamples)

/-! ### Ports (R294, R297) -/

def State.modAp (s : State) (i : Nat) (f : AudioPort → AudioPort) : State :=
  s.modAudio fun a => { a with ports := a.ports.modD {} i f }

/-- `EV_AUDIO_PORT`, with the framing errors since the last one. -/
def State.portEvent (s : State) (i kind : Nat) : State :=
  let n := (s.audio.ports.look {} i).framingSince
  (s.modAp i fun q => { q with framingSince := 0 }).raise evAudioPort (mkHandle tAudioPort 0xFF i) (kind + n * 2 ^ 32)

/-- The program that an output slot carries, and its channel there. -/
def State.slotSource (s : State) (q : AudioPort) (slot : Nat) : Program × Nat :=
  let w := q.map.getD slot 0
  (s.audio.programs.look {} (programHandle (w % 65536)), bits w 16 4)

/-- The ramp of an output slot goes on by one frame; a slot enabled while its channel is faded is silent until the channel
returns (R310). -/
def State.slotRamp (s : State) (q : AudioPort) (slot : Nat) (g : Gain) : Option Gain :=
  let (p, i) := s.slotSource q slot
  if (p.chans.getD i {}).under then some .silent
  else match g.next with
    | .full | .silent => none
    | x => some x

/-- The words of an output frame (R292, R296): the samples that the slots' channels carry, most significant bit first and
left-justified, at the slots' ramps; a disabled slot is zeros, or at high impedance. -/
def State.outFrame (s : State) (q : AudioPort) : List (Option Nat) :=
  (List.range q.slots).map fun slot =>
    if !bit q.outMask slot then (if bit q.timing 4 then none else some 0)
    else
      let (p, i) := s.slotSource q slot
      let v := ((q.outGains.look .full slot).times ((p.outs.getLastD []).getD i 0)) / (2 ^ (32 - q.sampleBits) : Nat)
      some (twos q.sampleBits v * 2 ^ (q.slotBits - q.sampleBits))

/-- The sample of a captured slot, left-justified in 32 bits: bits beyond `SAMPLE_BITS` are ignored (R292). -/
def AudioPort.sample (q : AudioPort) (w : Nat) : Int :=
  (BitVec.ofNat 32 (w % 2 ^ q.slotBits / 2 ^ (q.slotBits - q.sampleBits) * 2 ^ (32 - q.sampleBits))).toInt

/-- Staged masks and map take effect at this frame, and a port that has been set to disabled ends. -/
def State.frameBoundary (s : State) (i : Nat) : State :=
  let q := s.audio.ports.look {} i
  if q.ending then (s.applySlots i (List.replicate 0x88 0)).modAp i fun q => { q with ending := false, lastFsync := none }
  else s.applyStaged none fun t => t.kind == .tdm i

/-- An edge of `FSYNC` starts a frame. A master port makes its own edges, one sample period apart. -/
def execAudioFsyncEdge (port : Fin 8) (goodLength : Bool) (s : State) : Out :=
  let i := port.val
  let q := s.audio.ports.look {} i
  let early := q.role == 0 && q.lastFsync.any fun t => decide (s.now < t + 1000000000 / rateHz q.rate)
  if !s.planeRuns || (q.mode == 0 && !q.ending) || early then .next s
  else
    let s := if q.clockLost then (s.modAp i fun q => { q with clockLost := false }).portEvent i 2 else s
    let bad := !goodLength && q.role == 1 && q.lastFsync.isSome && !q.clockLost
    let s := if bad then
        (s.modAp i fun q => { q with framingErrors := q.framingErrors + 1, framingSince := q.framingSince + 1 }).portEvent i 3
      else s
    let ramps := q.outGains.filterMap fun e => (s.slotRamp q e.1 e.2).map fun g => (e.1, g)
    let s := s.modAp i fun q => { q with
      outGains := ramps, frames := if q.lastFsync.isSome then q.frames + 1 else q.frames, lastFsync := some s.now }
    let s := s.frameBoundary i
    .next (s.modAp i fun q => { q with sdout := if q.mode = 0 then [] else s.outFrame q })

/-- The runs of good instants of a program's channels end. -/
def Program.breakRuns (g : Program) : Program := { g with chans := g.chans.map fun c => { c with good := 0 } }

/-- A slave port has seen no edge for 4 sample periods. -/
def execAudioClockLoss (port : Fin 8) (s : State) : Out :=
  let i := port.val
  let q := s.audio.ports.look {} i
  let early := q.lastFsync.any fun t => decide (s.now < t + 4000000000 / rateHz q.rate)
  if !s.planeRuns || q.mode == 0 || q.role != 1 || q.clockLost || early then .next s
  else
    let h := mkHandle tAudioPort 0xFF i
    let s := s.modAudio fun a => { a with
      ports := a.ports.upd i fun q => { q with clockLost := true }
      programs := a.programs.mapV fun _ g => if g.source = h then g.breakRuns else g }
    .next (s.portEvent i 1)

/-! ### Samples that arrive (R304, R307, R308, R311) -/

/-- A source whose samples are numbered from lock: an SDI input or an ST 2022-6 stream. -/
def State.embedded (s : State) (h : Nat) : Bool :=
  handleType h == tLane || (handleType h == tIngress && u8 (s.net.ingress.look {} h).payload 0 == 1)

/-- t_e of an embedded source is fixed at the first sample after lock. -/
def State.fixTe (s : State) (h n : Nat) : State :=
  if s.embedded h && !s.audio.te.has h then s.modAudio fun a => { a with te := a.te.put h (s.now, n) } else s

/-- The grid position of a program's source sample: that of its instant t_e + n × 10^9 / fs for an embedded source without an
ASRC, and otherwise the position that is given. -/
def State.samplePosition (s : State) (g : Program) (n : Nat) : Nat :=
  match s.audio.te.find g.source with
  | some (t, m) =>
    if s.embedded g.source && g.asrc.isNone then
      (roundHalfUp (((t : Int) - s.tEp) * rateHz g.rate) 1000000000 + (n : Int) - (m : Int)).toNat
    else n
  | none => n

/-- The channels of a program that a sample of its source reaches: mapped ones, and of a port those of captured slots. `mask` has
the source channels that are there. -/
def State.fedChannels (s : State) (g : Program) (mask : Nat) : List Nat :=
  let q := s.audio.ports.look {} (handleIndex g.source)
  (List.range g.channels).filter fun c =>
    let i := (g.map.getD c 0xFF).toNat
    bit mask i && i != 0xFF && (handleType g.source != tAudioPort || ((q.mode != 0 || q.ending) && !q.clockLost && bit q.inMask i))

/-- The rate of a program's source is not what the program needs: it was lost, or another class has been recognised. -/
def State.rateLost (s : State) (g : Program) : Bool :=
  let r := s.audio.rates.look {} g.source
  g.asrc.isNone && (if r.cls.isNone then r.lost else r.cls != some g.rate)

/-- A sample lies more than 2 ms ahead. -/
def State.tooEarly (s : State) (g : Program) (k : Nat) : Bool :=
  if s.portAudio g.source then decide ((s.audio.ports.look {} (handleIndex g.source)).frames + 2 * rateHz g.rate / 1000 < k)
  else decide ((s.ptpNow + 2000000) * rateHz g.rate < ((k * 1000000000 : Nat) : Int))

/-- A row of source words as samples by source channel. -/
def State.sourceSamples (s : State) (g : Program) (row : List (BitVec 32)) : List Int :=
  let q := s.audio.ports.look {} (handleIndex g.source)
  row.map fun w => if handleType g.source = tAudioPort ∧ !g.nonPcm then q.sample w.toNat else w.toInt

/-- Samples of position `k`, by channel. -/
def State.takeSample (s : State) (g : Program) (vals : Tab Int) (k : Nat) : Program :=
  if k < g.next || s.positionDue g k then { g with late := g.late + 1 }
  else if s.tooEarly g k then { g with overrun := g.overrun + 1, overrunSince := g.overrunSince + 1 }
  else
    { g with
      buffer := g.buffer.put k (vals.foldl (fun t e => t.put e.1 e.2) (g.buffer.look [] k))
      chans := g.chans.mapIdx fun i c =>
        if vals.has i then { c with good := if c.goodNext = k then c.good + 1 else 1, goodNext := k + 1 } else c }

/-- An ASRC loses lock: its output fades out. -/
def State.unlockAsrc (s : State) (a : Nat) : State :=
  let x := s.audio.asrcs.look {} a
  if !x.locked then s
  else
    let s := s.modAudio fun u => { u with
      asrcs := u.asrcs.upd a fun x => { x with locked := false }
      programs := u.programs.upd x.program (·.dropAll) }
    s.raise evAsrcLock a 0

/-- `EV_AUDIO_OVERRUN`, at most once a second. -/
def State.reportOverrun (s : State) (h : Nat) : State :=
  let g := s.audio.programs.look {} h
  let due := match g.lastOverrun with | some t => decide (t + 1000000000 ≤ s.now) | none => true
  if g.overrunSince = 0 || !due then s
  else (s.modProg h fun g => { g with overrunSince := 0, lastOverrun := some s.now }).raise evAudioOverrun h (g.overrunSince % 2 ^ 32)

/-- The samples of a position for the channels that its source feeds: as they are, or as an ASRC computes them. -/
def State.positionValues (s : State) (g : Program) (chans : List Nat) (row : List Int) (k : Nat) : Tab Int :=
  chans.map fun c =>
    let i := (g.map.getD c 0xFF).toNat
    if g.asrc.isSome then
      (c, Config.resample (((s.audio.rates.look {} g.source).cls).getD 0xFF) g.rate (g.input.map fun r => r.getD i 0) k)
    else (c, row.getD i 0)

/-- Samples of a program's source arrive: each is the sample of a position, or, behind an ASRC, they let it compute positions. An
ASRC keeps the last 4,096 rows (log entry 211). -/
def execAudioSampleArrival (prog : BitVec 32) (samples : AudioSamples) (s : State) : Out :=
  let h := prog.toNat
  if !s.planeRuns || !s.audio.programs.has h then .next s
  else
    let g := s.audio.programs.look {} h
    let first := samples.first.toNat
    let s := s.fixTe g.source first
    let s := match g.asrc with
      | some a => if samples.inRange then s else s.unlockAsrc a
      | none => s
    let g := s.audio.programs.look {} h
    let chans := s.fedChannels g samples.present.toNat
    if chans.isEmpty || s.rateLost g || (g.asrc.isSome && !samples.inRange) then .next s
    else
      let base := s.samplePosition g first
      let rows := samples.rows.map (s.sourceSamples g)
      let input := g.input ++ rows
      let g : Program := if g.asrc.isSome then { g with input := input.drop (input.length - 4096) } else g
      let n := if g.asrc.isSome then samples.positions.toNat else rows.length
      let g := (List.range n).foldl (fun g i => s.takeSample g (s.positionValues g chans (rows.getD i []) (base + i)) (base + i)) g
      .next ((s.modProg h fun _ => g).reportOverrun h)

/-! ### Delivery (R300, R305, R306, R309, R310) -/

/-- A channel may sound again at position `k`, whose sample is there. -/
def State.mayReturn (s : State) (g : Program) (c : AudioChan) : Bool :=
  !s.rateLost g && (match g.asrc with | some a => (s.audio.asrcs.look {} a).locked | none => true) &&
    (c.fresh || decide (2 * rateHz g.rate ≤ 1000 * c.good))

/-- What delivery of a position does to a channel. -/
inductive Happening where
  | none | underrun | restored (missing : Nat)
deriving DecidableEq, Repr

/-- A channel at a position, with its sample if it is there. -/
def State.deliverChan (s : State) (g : Program) (c : AudioChan) (mapped : Bool) (v : Option Int) : AudioChan × Happening :=
  let c' : AudioChan := { c with held := v.getD c.held }
  if !mapped then (c, .none)
  else if !c.under then (if v.isSome then (c', .none) else ({ g.dropChan c with missing := 1 }, .underrun))
  else if v.isSome && s.mayReturn g c then
    let gain := if c.muted then c.gain else if g.nonPcm then .full else c.gain.rampIn g.fadeN
    ({ c' with under := false, fresh := false, missing := 0, gain }, if c.fresh then .none else .restored c.missing)
  else ({ c with missing := c.missing + 1 }, .none)

/-- An AES3 subframe of zero data with the validity bit set (R313), the bit in its place of ST 2110-31 (PRESUMED, log entry 211). -/
def nullSubframe : Int := 2 ^ 28

/-- What a channel carries at a position: its sample, or while it is faded the last one held, at its gain; a pass-through program's
subframe unchanged. -/
def Program.carried (g : Program) (c : AudioChan) : Int :=
  if g.nonPcm then (if c.under ∨ c.muted then nullSubframe else c.held) else c.gain.times c.held

/-- A DSP's ramp-in begins at this position (R316). -/
def Program.restartRamp (g : Program) (c : AudioChan) : AudioChan :=
  if g.rampAt = some g.next ∧ !c.under ∧ !c.muted then { c with gain := .ramping 0 g.fadeN } else c

/-- Channels of a program to which something happened, as a mask. -/
def maskOf (l : List Bool) : Nat := (l.zipIdx.filter (·.1)).foldl (fun m e => setBit m e.2) 0

/-- Every channel at the next position; the gains then move on by one. -/
def State.deliverChans (s : State) (h : Nat) : State :=
  let g := s.audio.programs.look {} h
  let k := g.next
  let vals := g.buffer.look [] k
  let out := g.chans.mapIdx fun i c => s.deliverChan g (g.restartRamp c) ((g.map.getD i 0xFF).toNat != 0xFF) (vals.find i)
  let under := maskOf (out.map fun e => e.2 == .underrun)
  let back := maskOf (out.map fun e => match e.2 with | .restored _ => true | _ => false)
  let missing := (out.map fun e => match e.2 with | .restored n => n | _ => 0).foldl max 0
  let silent := out.all fun e => e.1.gain == .silent
  let tell := under != 0 && (match g.lastUnderrun with | some t => decide (t + 100000000 ≤ s.now) | none => true)
  let s := s.modProg h fun g => { g with
    chans := out.map fun e => { e.1 with gain := e.1.gain.next }
    outs := (g.outs ++ [out.map fun e => g.carried e.1]).drop (g.outs.length - 1023)
    buffer := g.buffer.sel fun n _ => decide (k < n)
    next := k + 1, silent := g.silent + b2n silent
    lastUnderrun := if tell then some s.now else g.lastUnderrun }
  let s := if tell then s.raise evAudioUnderrun h (under + k % 2 ^ 32 * 2 ^ 32) else s
  if back = 0 then s
  else
    let s := s.raise evAudioRestored h (back + missing % 2 ^ 32 * 2 ^ 32)
    if bit g.flags 1 then s.modAudio fun a => { a with te := a.te.del g.source } else s

/-- Streams of kinds 2 and 3 that a program feeds. -/
def State.audioStreams (s : State) (h : Nat) : List Nat :=
  (s.net.egress.filter fun e => e.2.source == h && (e.2.kind == 2 || e.2.kind == 3) && !e.2.ending).map (·.1)

/-- The first position of a stream's packet: sets of its boundary take effect, and the packet begins (R333, R335). -/
def State.beginPacket (s : State) (h k : Nat) : State :=
  if k % (s.audioPacket h).1 ≠ 0 then s
  else (s.applyStaged none fun t => t.kind == .accessUnit h || (match t.kind with | .accessUnitAt x _ => x == h | _ => false)).modEg h
    fun e => { e with started := !e.ending }

/-- The last positions of a program as packet bytes: 3 bytes a sample, or AES3 subframes of 4. -/
def Program.packetBytes (g : Program) (kind q : Nat) : List Byte :=
  (g.outs.drop (g.outs.length - q)).flatMap fun row => row.flatMap fun v =>
    if kind = 3 then be 4 (twos 32 v) else be 3 (twos 24 (v / 256))

/-- The last position of a stream's packet: it leaves the pacer as its count allows, with the grid index of its first position. -/
def State.endPacket (s : State) (h k : Nat) : State :=
  let q := (s.audioPacket h).1
  let g := s.audio.programs.look {} (s.eg h).source
  if !(s.eg h).started || (k + 1) % q ≠ 0 then s
  else
    (s.queuePacket h [(true, g.packetBytes (s.eg h).kind q)] ((k + 1 - q) % 2 ^ 32) 0 false true).runPacer h ((s.eg h).queue.length + 1)

/-- Multiplexes that carry a program, and send (R331). -/
def State.muxesOf (s : State) (h : Nat) : List Nat :=
  (s.net.egress.filter fun e => e.2.ts && e.2.started && !e.2.ending && (audioOf e.2.payload).contains h).map (·.1)

/-- A PES whose first position is `k` enters every multiplex of a program: AAC-LC, or ST 302M as a private stream. -/
def State.pesOut (s : State) (h k : Nat) (b : List Byte) : State :=
  let p := s.audio.programs.look {} h
  (s.muxesOf h).foldl (fun s e =>
    let g := s.eg e
    let pid := g.videoPid + 1 + ((audioOf g.payload).findIdx? (· == h)).getD 0
    s.pesInto e pid (if p.kind = 1 then 0xC0 else 0xBD) (k * 90000 / rateHz p.rate + 90 * s.ptsDelay e) none false 0 b) s

/-- A program's access units are replaced by silent ones: its DSP restarts, or has not yet resumed (R316). -/
def State.auSilent (s : State) (g : Program) : Bool :=
  (match g.dsp with | some d => (s.audio.dsps.look {} d).restarting.isSome | none => false) ||
    g.rampAt.any fun k => decide (1024 * g.aus < k)

/-- The hub emits a silent access unit for a due position. -/
def State.silentAu (s : State) (h : Nat) : State :=
  let g := s.audio.programs.look {} h
  if g.kind = 1 ∧ 1024 * g.aus + g.playout ≤ g.next + g.lag ∧ s.auSilent g then
    (s.modProg h fun g => { g with aus := g.aus + 1, silentAus := g.silentAus + 1 }).pesOut h (1024 * g.aus)
      (Config.silentAac g.channels g.rate g.kbps)
  else s

/-- A program's DSP owes an access unit whose positions have all been taken. -/
def Program.owes (g : Program) : Bool := g.kind == 1 && decide (1024 * g.aus + 1024 ≤ g.next)

/-- Programs on a DSP. -/
def State.onDsp (s : State) (d : Nat) : Tab Program := s.audio.programs.sel fun _ g => g.dsp == some d

/-- From now the DSP of a program owes an access unit. -/
def State.noteOwed (s : State) (h : Nat) : State :=
  let g := s.audio.programs.look {} h
  match g.dsp with
  | some d =>
    let first := g.next == 1024 * g.aus + 1024 && ((s.onDsp d).filter fun e => e.2.owes).length == 1
    if first then s.modAudio fun a => { a with dsps := a.dsps.modD {} d fun x => { x with lastAu := s.now } } else s
  | none => s

/-- The samples that a program's groups give an SDI output: 4 channels a group, 24 bits each (R312). -/
def State.embedWords (s : State) (h : Nat) (p : List Byte) (was : List Nat) : List Nat :=
  let outs := ((s.audio.programs.look {} h).outs).getLastD []
  (List.range 32).map fun i =>
    let g := i / 4
    if !bit (u8 p 0) g then 0
    else if u32 p (8 + 8 * g) ≠ h then was.getD i 0
    else twos 24 ((outs.getD (u8 p (0x0C + 8 * g) + i % 4) 0) / 256)

/-- A position reaches the SDI outputs that embed the program. -/
def State.embedOut (s : State) (h : Nat) : State :=
  let names (p : List Byte) : Bool := (List.range 8).any fun g => bit (u8 p 0) g && u32 p (8 + 8 * g) == h
  let mine := s.audio.embeds.filter fun e => names e.2
  mine.foldl (fun (s : State) (e : Nat × List Byte) =>
    s.modAudio fun a => { a with embedded := a.embedded.put e.1 (s.embedWords h e.2 (a.embedded.look [] e.1)) }) s

/-- The next position of a program is delivered to every sink. -/
def execAudioPositionDelivery (prog : BitVec 32) (s : State) : Out :=
  let h := prog.toNat
  let g := s.audio.programs.look {} h
  if !s.planeRuns || !s.audio.programs.has h || !s.positionDue g g.next then .next s
  else
    let k := g.next
    let s := s.applyStaged none fun t => t.kind == .position h
    let s := (s.audioStreams h).foldl (fun s e => s.beginPacket e k) s
    let s := (s.deliverChans h).embedOut h
    let s := (s.audioStreams h).foldl (fun s e => s.endPacket e k) s
    let pcm := g.kind == 0 && g.rate == 2 && (k + 1) % 240 == 0
    let rows (g : Program) : List (List Nat) := (g.outs.drop (g.outs.length - 240)).map fun r => r.map fun v => twos 24 (v / 256)
    let s := if pcm then s.pesOut h (k + 1 - 240) (Config.st302m (rows (s.audio.programs.look {} h))) else s
    .next ((s.silentAu h).noteOwed h).sendAll

/-! ### Rates and converters (R303, R304) -/

/-- A rate in µHz lies within 1,000 ppm of a class. -/
def rateClass (f : Nat) : Option Nat :=
  (List.range 6).find? fun c =>
    let n := rateHz c * 1000000
    decide (1000 * (max f n - min f n) ≤ n)

/-- Offset of a rate in µHz from a class, in 0.01 ppm. -/
def rateOffset (f c : Nat) : Int := ((f : Int) - (rateHz c * 1000000 : Nat)) * 100 / (rateHz c : Nat)

/-- A source whose rate the hub measures. -/
def State.measured (s : State) (h : Nat) : Bool :=
  let kind := u8 (s.net.ingress.look {} h).payload 0
  if handleType h = tAudioPort then (s.audio.ports.look {} (handleIndex h)).mode != 0
  else if handleType h = tLane then decide (64 ≤ handleIndex h ∧ handleIndex h < 80)
  else handleType h == tIngress && s.net.ingress.has h && decide (1 ≤ kind ∧ kind ≤ 3)

/-- A source has a new class: programs that need the old one fade out, and ASRCs that track it unlock. -/
def State.classChanged (s : State) (h : Nat) (c : Option Nat) (offset : Int) : State :=
  let s := s.raise evAudioRate h (c.getD 0xFF + twos 32 offset * 2 ^ 32)
  let s := s.modAudio fun a => { a with programs := a.programs.mapV fun _ g =>
    if g.source = h ∧ g.asrc = none ∧ c ≠ some g.rate then g.dropAll else g }
  let asrcs := s.audio.programs.filterMap fun e =>
    match e.2.asrc with
    | some x => if e.2.source = h ∧ (s.audio.asrcs.look {} x).inRate ≠ c then some x else none
    | none => none
  asrcs.foldl (fun s x => s.unlockAsrc x) s

/-- A window of 100 ms ends with the rate that it measured. -/
def execRateWindowEnd (source : BitVec 32) (microHz : BitVec 64) (samples : BitVec 32) (s : State) : Out :=
  let h := source.toNat
  let r := s.audio.rates.look {} h
  let early := r.windowEnd != 0 && decide (s.now < r.windowEnd + 100000000)
  if !s.planeRuns || !s.measured h || early then .next s
  else
    let c := rateClass microHz.toNat
    let offset := match c with | some x => rateOffset microHz.toNat x | none => r.offset
    let moved := c == r.last && c != r.cls
    let s := s.modAudio fun a => { a with rates := a.rates.put h { r with
      offset, samples := r.samples + samples.toNat, last := c, windowEnd := s.now
      cls := if moved then c else r.cls, lost := r.lost || (moved && r.cls.isSome) } }
    .next (if moved then s.classChanged h c offset else s)

/-- An ASRC has tracked its input within ±2 ppm for 4 ms: it locks, and ramps in at the next position. -/
def execAsrcLock (asrc : Fin 64) (ratio : BitVec 64) (s : State) : Out :=
  let a := mkHandle tAsrc 0xFF asrc.val
  let x := s.audio.asrcs.look {} a
  if !s.planeRuns || !s.audio.asrcs.has a || x.locked then .next s
  else
    let g := s.audio.programs.look {} x.program
    let cls := (s.audio.rates.look {} g.source).cls
    let s := s.modAudio fun u => { u with
      asrcs := u.asrcs.put a { x with locked := true, ratio := ratio.toNat, locks := x.locks + 1, inRate := cls }
      programs := u.programs.upd x.program fun g => { g with chans := g.chans.map fun c => { c with fresh := c.under } } }
    .next (s.raise evAsrcLock a 1)

/-! ### AAC-LC (R315, R316) -/

/-- A DSP completes the next access unit of a program. -/
def execAacAuDone (prog : BitVec 32) (data : List Byte) (s : State) : Out :=
  let h := prog.toNat
  let g := s.audio.programs.look {} h
  match g.dsp with
  | none => .next s
  | some d =>
    if !s.planeRuns || !g.owes || s.auSilent g then .next s
    else
      let s := s.modProg h fun g => { g with aus := g.aus + 1 }
      let s := s.modAudio fun a => { a with dsps := a.dsps.modD {} d fun x => { x with lastAu := s.now } }
      .next (s.pesOut h (1024 * g.aus) data)

/-- A DSP that owes an access unit has completed none for 5 ms: it is restarted. -/
def execDspWatchdog (dsp : Fin 4) (s : State) : Out :=
  let d := dsp.val
  let x := s.audio.dsps.look {} d
  let ps := s.onDsp d
  if !s.planeRuns || x.restarting.isSome || !ps.any (fun e => e.2.owes && !s.auSilent e.2) ||
      decide (s.now < x.lastAu + 5000000) then .next s
  else
    let s := s.modAudio fun a => { a with dsps := a.dsps.put d { x with restarting := some s.now } }
    .next (ps.foldl (fun s e => s.raise evAudioDspRestart e.1 (d + ps.length % 256 * 256)) s)

/-- A restarted DSP encodes again, from the next access unit on. -/
def execDspRestartDone (dsp : Fin 4) (s : State) : Out :=
  let d := dsp.val
  let x := s.audio.dsps.look {} d
  if !s.planeRuns || x.restarting.isNone then .next s
  else
    .next ((s.unitReset 2).modAudio fun a => { a with
      dsps := a.dsps.put d { x with restarting := none, lastAu := s.now }
      programs := a.programs.mapV fun _ g =>
        if g.dsp = some d then { g with rampAt := some (1024 * cdiv g.next 1024) } else g })

end Sys2Proof.Machine
end

