-- ==== Sys2Proof/Machine/DecodeOut.lean ====
section
/-!
DEFINITION. Decoded pictures that go out: the surfaces the device writes in every picture format, and `DECODE.RETURN` (Decode,
Reference Mode and Verification, R246; Composition, R272 to R276).
-/

namespace Sys2Proof.Machine

open Sys2Proof (Byte Submission)

/-! ### Surfaces that the device writes -/

/-- Values of given widths as a bit stream, least significant bit first (R275). -/
def packBits : List (Nat × Nat) → Nat
  | [] => 0
  | (v, w) :: r => v % 2 ^ w + 2 ^ w * packBits r

/-- A block's header. -/
def WeltBlock.header (b : WeltBlock) : Nat :=
  b.mode + 256 * b.len + 65536 * packBits (b.consts.map fun v => (v, 12))

/-- A block's payload. -/
def WeltBlock.payload (depth : Nat) (b : WeltBlock) : List Byte :=
  let width (i : Nat) : Nat := if b.mode = 2 then (b.descs.getD (i / 128) (0, 0)).2 else depth
  let descs := if b.mode = 2 then b.descs.flatMap fun d => le 2 (d.1 + 1024 * d.2) else []
  if b.mode = 1 then []
  else descs ++ le (32 * b.len - descs.length) (packBits (b.values.mapIdx fun i v => (v, width i)))

/-- Runs of bytes, by the address at which they go. -/
abbrev Writes := List (Nat × List Byte)

/-- A welt plane: its headers, then the payload of each block in its slot (R274). -/
def weltPlaneWrites (base depth comps : Nat) (rows : List (List WeltBlock)) : Writes :=
  let blocks := rows.flatten
  let pay := base + 4096 * cdiv (8 * blocks.length) 4096
  (base, blocks.flatMap fun b => le 8 b.header) ::
    blocks.mapIdx fun i b => (pay + 128 * comps * depth * i, b.payload depth)

/-- Lines of samples in containers, each line padded to the pitch. -/
def linearLines (pitch bytes : Nat) (lines : List (List Nat)) : List Byte :=
  lines.flatMap fun l =>
    let b := l.flatMap (le bytes)
    b ++ List.replicate (pitch - b.length) 0

/-- Two chroma lines as pairs. -/
def pairs (a b : List Nat) : List Nat := (List.zipWith (fun x y => [x, y]) a b).flatten

/-- A picture of the size and format of a surface at an address. -/
def surfaceWrites (base fmt w h : Nat) (f : Frame) : Writes :=
  let (chroma, depth) := (pictureFormat fmt).getD (0, 8)
  if fmt < 0x20 then
    let pitch := leastPitch fmt w
    let bytes := if depth = 8 then 1 else 2
    [(base, linearLines pitch bytes f.y), (base + pitch * h, linearLines pitch bytes (List.zipWith pairs f.cb f.cr))]
  else
    let r := f.store chroma depth w h
    weltPlaneWrites base depth 1 r.luma ++ weltPlaneWrites (base + weltPlane w h 1 depth) depth 2 r.chroma

/-! ### Output (R246, R402) -/

/-- A decoded picture in a chroma format and bit depth that it goes out in. -/
def DpbPic.outFrame (p : DpbPic) (chroma depth : Nat) : Frame :=
  if p.sps.chroma.val = chroma ∧ p.sps.bitDepth.val = depth then p.frame
  else match Config.outputFormat p.sps.chroma.val p.sps.bitDepth.val chroma depth [p.frame.y, p.frame.cb, p.frame.cr] with
    | [y, cb, cr] => { y, cb, cr }
    | _ => {}

/-- A picture is output: its surface is written, as one of the picture's size, and check units at `DECOUT` have its value. -/
def State.showPicture (s : State) (h : Nat) (d : Decoder) (o : Shown) : State :=
  let g := o.pic.sps
  let (chroma, depth) := (pictureFormat d.outFormat).getD (0, 8)
  let s := match o.surface with
    | some i =>
      (surfaceWrites (d.outAddr + i * d.outStride) d.outFormat g.width.toNat g.height.toNat (o.pic.outFrame chroma depth)).foldl
        (fun (s : State) (e : Nat × List Byte) => s.bufStore e.1 e.2) s
    | none => s
  let queue (x : SdiOut) : SdiOut := if x.source = h then { x with waiting := x.waiting ++ [o.pic.outFrame 1 10] } else x
  let s := s.modLane fun l => { l with outs := l.outs.mapV fun _ x => queue x }
  s.checkFrame h o.pic.seq 3 o.pic.frame g.chroma.val g.bitDepth.val

/-- Every waiting picture that a free surface allows is output. -/
def State.showPictures (s : State) (h : Nat) : State :=
  let d := s.dec.decoders.look {} h
  let r := d.outputs (d.outQueue.length + 1)
  r.2.foldl (fun (s : State) o => s.showPicture h d o) (s.modDecoder h fun _ => r.1)

/-- `DECODE.RETURN` frees surfaces; pictures that wait for one are output. -/
def specDecodeReturn : EciSpec where
  opcode := 0x0503
  target := .object [tChannel]
  run k s :=
    let h := k.tok.handle
    let d := s.dec.decoders.look {} h
    let m := u32 k.payload 0
    checked s [(!s.isDecoder h, { status := .eState }), (decide (2 ^ d.outCount ≤ m), { status := .eBadParam, detail := 0 })]
      fun _ =>
        ok ((s.modDecoder h fun d => { d with
          held := ((List.range 32).filter fun i => bit d.held i && !bit m i).foldl setBit 0 }).showPictures h)

def execDecodeReturn (c : Submission) (s : State) : Out := runEci specDecodeReturn c s

end Sys2Proof.Machine
end

