-- ==== Sys2Proof/Machine/DecodeData.lean ====
section
/-!
DEFINITION. Decode channels, check units and SDI outputs in the data plane (Decode, Reference Mode and Verification, R242 to
R250 and R262 to R266; Serial Lanes, R402).
-/

namespace Sys2Proof.Machine

open Sys2Proof (Byte ArrivedAu DecodedPicture StreamSps)

/-! ### Access units that arrive (R242, R243, R246) -/

/-- A decode channel takes input. -/
def State.decodes (s : State) (h : Nat) : Bool :=
  let c := s.ch h
  s.isDecoder h && s.planeRuns && (c.state == .starting || c.state == .running)

/-- A sequence is one of the decodable streams of R242 and within the channel's limits, its level and tier among them. -/
def ChCfg.decodes (c : ChCfg) (g : StreamSps) : Bool :=
  let profile := if g.codec.val = 0 then decide (g.profile.val ≤ 2) else g.profile == 3 || g.profile == 4
  profile && g.codec.val == c.codec && (g.bitDepth == 8 || g.bitDepth == 10) && decide (g.chroma.val ≤ min 1 c.chroma) &&
    decide (g.bitDepth.val ≤ c.bitDepth ∧ g.width.toNat ≤ c.width ∧ g.height.toNat ≤ c.height ∧
      g.level.toNat % 128 ≤ min 62 (c.level % 128) ∧ g.level.toNat / 128 ≤ c.level / 128)

/-- An access unit is discarded: it is counted, and where `kind` says so reported. -/
def State.discardAu (s : State) (h kind : Nat) : State :=
  let s := s.modDecoder h fun d => { d with discarded := d.discarded + 1 }
  if kind = 0 then s else s.raise evDecError h (kind + 2 ^ 32) (some (s.dec.decoders.look {} h).order)

/-- A coded access unit reaches the decoder: the next one of `DECODE.SUBMIT`, stream assembly or ingest. Units before the first
SPS, and those of a sequence that does not fit, are discarded up to the next IRAP or GDR picture whose SPS fits (R243; log entry
210). -/
def execDecoderAuArrival (chan : BitVec 32) (au : ArrivedAu) (s : State) : Out :=
  let h := chan.toNat
  let d := s.dec.decoders.look {} h
  match d.submitted with
  | [] => .next s
  | fed :: rest =>
    if !s.decodes h then .next s
    else
    let c := s.ch h
    let data := fed.data
    let sps := au.sps.or d.sps
    let fits := sps.any c.cfg.decodes
    let s := s.modDecoder h fun d => { d with submitted := rest, sps }
    if au.sps.isSome && !fits then
      .next ((s.modDecoder h fun d => { d with rejecting := true }).discardAu h 4)
    else if !fits || (d.rejecting && !au.randomAccess) then .next (s.discardAu h 0)
    else
      let s := s.modDecoder h fun d => { d with rejecting := false }
      if c.cfg.codedBuffer < (d.coded.map (·.data.length)).sum + data.length then .next (s.discardAu h 5)
      else .next (s.modDecoder h fun d => { d with coded := d.coded ++ [{ data, arrival := s.stamp, sps := sps.getD {}, lost := fed.lost }] })

/-! ### Decoded pictures (R246 to R250) -/

def signed (l : List (BitVec 32)) : List Int := l.map (·.toInt)

/-- The DPB picture whose POC is nearest, the lower on a tie (R247). -/
def nearestPoc (dpb : List DpbPic) (x : Int) : Option DpbPic :=
  dpb.foldl (fun best p => match best with
    | none => some p
    | some b =>
      let d := (p.poc - x).natAbs
      let e := (b.poc - x).natAbs
      if d < e ∨ (d = e ∧ p.poc < b.poc) then some p else best) none

/-- The picture ends `CONCEALED_DEP` (R248). -/
def Decoder.recovers (d : Decoder) (p : DecodedPicture) : Bool :=
  decide (p.picType.val ≤ 2) || d.recoverAt.any (fun x => decide (x ≤ p.poc.toInt)) || (p.recovery.any fun r => r == 0)

/-- Pictures that its reference list names and the DPB lacks. -/
def Decoder.missing (d : Decoder) (p : DecodedPicture) : List Int :=
  (signed p.refs).filter fun x => !(d.dpb.any fun q => q.poc == x)

/-- A picture that it uses as a reference is concealed or depends on one that is. -/
def Decoder.depends (d : Decoder) (p : DecodedPicture) : Bool :=
  (signed p.refs).any fun x =>
    match d.dpb.find? fun q => q.poc == x with
    | some q => q.tainted
    | none => (nearestPoc d.dpb x).any (·.tainted)

/-- The samples of the picture that stands for a POC in a reference list: the DPB picture of that POC, else the nearest, else
mid-grey (R247). -/
def Decoder.refFrame (d : Decoder) (g : StreamSps) (x : Int) : Frame :=
  match nearestPoc d.dpb x with
  | some q => q.frame
  | none => Frame.grey g.chroma.val g.bitDepth.val g.width.toNat g.height.toNat

/-- CTUs that are concealed, by raster address. -/
def concealedCtus (p : DecodedPicture) : List Nat := ((p.damaged.flatMap (·.ctus)).map (·.toNat)).eraseDups

/-- The picture as it is decoded, each concealed CTU copied from the co-located one of the picture that stands for reference index
0, or mid-grey without one (R249). -/
def Decoder.frameOf (d : Decoder) (au : CodedAu) (p : DecodedPicture) : Frame :=
  let g := au.sps
  let refs := (signed p.refs).map fun x => let f := d.refFrame g x; [f.y, f.cb, f.cr]
  let out : Frame := match Config.decodePicture au.data refs with
    | [y, cb, cr] => { y, cb, cr }
    | _ => {}
  let w := g.width.toNat
  let out := out.fit g.chroma.val w g.height.toNat
  let from_ : Frame := match signed p.refs with
    | x :: _ => d.refFrame g x
    | [] => Frame.grey g.chroma.val g.bitDepth.val w g.height.toNat
  let ctus := concealedCtus p
  let at_ (x y : Nat) : Bool := ctus.contains (y / max 1 g.ctu.val * cdiv w g.ctu.val + x / max 1 g.ctu.val)
  let mix (a b : Plane) (dx dy : Nat) : Plane := a.mapIdx fun y l => l.mapIdx fun x v =>
    if at_ (dx * x) (dy * y) then b.sample x y else v
  let dx := if g.chroma.val = 2 then 1 else 2
  let dy := if g.chroma.val = 0 then 2 else 1
  { y := mix out.y from_.y 1 1, cb := mix out.cb from_.cb dx dy, cr := mix out.cr from_.cr dx dy }

/-- The flags of a picture's conformance record. The HRD checks and `ARRIVAL_LATE` need `HRD_CHECK`, the last also a network
source; the hash flags `HASH_CHECK`. -/
def Decoder.flagsOf (d : Decoder) (au : CodedAu) (p : DecodedPicture) : Nat :=
  let f := p.found.toNat
  let missing := !(d.missing p).isEmpty
  let hrd := bit d.flags 1
  let hash := bit d.flags 2
  let late := handleType d.source == tIngress && p.removal.any fun t => decide (t.toNat < au.arrival)
  b2n (missing || !p.damaged.isEmpty) + 2 * b2n (d.depends p && !d.recovers p) + 4 * b2n missing +
    8 * b2n (bit f 3 || au.lost || p.damaged.any (·.lost)) + 16 * b2n (bit f 4 || p.damaged.any fun x => !x.lost) +
    32 * b2n (hash && bit f 5) + 64 * b2n (hash && bit f 5 && bit f 6) +
    128 * b2n (hrd && bit f 7 && !bit f 9) + 256 * b2n (hrd && bit f 8 && !bit f 9) + 512 * b2n (hrd && bit f 9) +
    1024 * b2n (bit f 10) + 2048 * b2n (bit f 11) + 4096 * b2n (hrd && late && !bit f 9) + 8192 * b2n (bit f 13)

/-- The DPB once the picture's reference picture set is applied, with what goes out before the picture is stored. -/
def Decoder.makeRoom (d : Decoder) (p : DecodedPicture) : Decoder :=
  let keeps := signed p.keeps
  let dpb := (d.dpb.map fun q => { q with reference := keeps.contains q.poc }).filter fun q => q.reference || q.toOutput
  let out := (signed p.before).filter fun x => dpb.any fun q => q.poc == x && q.toOutput
  { d with dpb, outQueue := d.outQueue ++ out.filter fun x => !d.outQueue.contains x }

/-- The picture enters the DPB, with what then goes out. -/
def Decoder.store (d : Decoder) (au : CodedAu) (p : DecodedPicture) (flags : Nat) : Decoder :=
  let dpb := if d.recovers p then d.dpb.map fun q => { q with tainted := false } else d.dpb
  let new : DpbPic := {
    poc := p.poc.toInt, tainted := decide (flags % 4 ≠ 0), reference := true, toOutput := !bit flags 13, seq := d.order
    frame := d.frameOf au p, sps := au.sps }
  let dpb := dpb ++ [new]
  let out := (signed p.after).filter fun x => dpb.any fun q => q.poc == x && q.toOutput
  let recoverAt := match p.recovery with
    | some r => some (p.poc.toInt + r.toInt)
    | none => if d.recovers p then none else d.recoverAt
  { d with dpb, outQueue := d.outQueue ++ out, recoverAt }

/-- CTU records of a decoded picture: `ACT` and `CPLX` read 0 (R260). -/
def decodedCtus (l : List Byte) : List Byte :=
  (List.range (l.length / 16)).flatMap fun i => List.replicate 4 0 ++ slice l (16 * i + 4) 12

/-- The conformance record of a picture, with its CTU records. -/
def conformance (h n : Nat) (au : CodedAu) (p : DecodedPicture) (surface : Option Nat) (flags : Nat) (missing : List Int)
    (ctus : List Byte) : List Byte :=
  le 2 3 ++ le 2 (4 + ctus.length / 16) ++ le 4 h ++ le 8 n ++ le 8 au.arrival ++ le 4 p.poc.toNat ++ le 1 p.picType.val ++ le 1 p.tid.val ++
    le 1 (surface.getD 0xFF) ++ le 1 p.qpAvg.toNat ++ le 4 (8 * au.data.length) ++ le 4 flags ++
    le 4 (match missing with | [] => 0x7FFFFFFF | x :: _ => twos 32 x) ++ le 4 (concealedCtus p).length ++ List.replicate 16 0 ++
    ctus

/-- Events of a concealed picture (R247, R249). -/
def State.concealEvents (s : State) (h n : Nat) (dpb : List DpbPic) (missing : List Int) (flags : Nat) : State :=
  let s := missing.foldl (fun s x =>
    let used := match nearestPoc dpb x with | some q => twos 32 q.poc | none => 0x80000000
    s.raise evDecRefMissing h (twos 32 x + used * 2 ^ 32) (some n)) s
  [(4, 1), (3, 2), (11, 3)].foldl (fun s e => if bit flags e.1 then s.raise evDecError h (e.2 + 2 ^ 32) (some n) else s) s

/-- `EV_DEC_NONCONFORM`, at most once a second, with the flags seen since the last. -/
def State.nonconform (s : State) (h n flags : Nat) : State :=
  let d := s.dec.decoders.look {} h
  let seen := (List.range 14).foldl (fun m i => if bit flags i then setBit m i else m) d.seen
  let bad := [5, 9, 13].foldl clearBit seen
  let due := match d.lastNonconform with | some t => decide (t + 1000000000 ≤ s.now) | none => true
  if bad != 0 && due then
    (s.modDecoder h fun d => { d with seen := 0, lastNonconform := some s.now }).raise evDecNonconform h seen (some n)
  else s.modDecoder h fun d => { d with seen }

/-- The decoder completes the picture of the oldest access unit in its coded buffer; while its DPB is full, it takes none.
The boundary after it applies sets that wait for the channel. -/
def execDecodePictureDone (chan : BitVec 32) (p : DecodedPicture) (s : State) : Out :=
  let h := chan.toNat
  let was := (s.dec.decoders.look {} h).output
  match (s.dec.decoders.look {} h).coded with
  | [] => .next s
  | au :: rest =>
    let s0 := (s.modDecoder h fun d => d.makeRoom p).showPictures h
    let d := s0.dec.decoders.look {} h
    if !s.decodes h then .next s
    else if au.sps.dpb.val ≤ d.dpb.length then .next s0
    else
      let n := d.order
      let flags := d.flagsOf au p
      let missing := d.missing p
      let e := d.store au p flags
      let shown := (e.outputs (e.outQueue.length + 1)).2
      let surface := (shown.find? fun o => o.pic.seq == n).bind (·.surface)
      let s := (s0.modDecoder h fun _ => { e with
        coded := rest, order := n + 1, decoded := d.decoded + 1, concealed := d.concealed + flags % 2 }).showPictures h
      let ctus := if ((s.ringOf false h).getD {}).ctuEn then decodedCtus p.ctuRecords else []
      let s := s.offerRing false h (conformance h n au p surface flags missing ctus)
      let s := (s.concealEvents h n d.dpb missing flags).nonconform h n flags
      let s := if (s.ch h).state = .starting ∧ was < (s.dec.decoders.look {} h).output then s.toChState h .running n else s
      let due (t : Staged) : Bool :=
        t.kind == .picture h && (match t.boundary with | .pic m => decide (m ≤ n + 1) | .time _ => false)
      .next (s.applyStaged (some (n + 1)) due)

/-! ### Check units (R263, R265) -/

/-- What a value met: the tags of entries missed, and whether it was compared, differed, or met an empty queue. -/
structure Tested where
  missed : List Nat := []
  compared : Bool := false
  differs : Bool := false
  empty : Bool := false
  queue : List (Option Nat × Nat) := []
deriving DecidableEq, Repr

/-- The value of picture `q` against the expected values, from the head. -/
def testValue (q v : Nat) : List (Option Nat × Nat) → Tested
  | [] => { empty := true }
  | (none, x) :: r => { compared := true, differs := x != v, queue := r }
  | (some t, x) :: r =>
    if t = q then { compared := true, differs := x != v, queue := r }
    else if q < t then { queue := (some t, x) :: r }
    else
      let u := testValue q v r
      { u with missed := t :: u.missed }

/-- A check unit's value for a picture is complete. -/
def execCheckValueComplete (unit : BitVec 32) (pic : BitVec 64) (value : BitVec 64) (s : State) : Out :=
  let h := unit.toNat
  let u := s.checkUnit h
  let q := pic.toNat
  let checks := (u.bound || u.until_.any (fun n => decide (q < n))) && u.start.all (fun n => decide (n ≤ q))
  -- a message of a fenced die carries its old epoch token, and the hub discards it (R26)
  let stale := handleDie h != 0xFF && bit s.boot.diesFenced (handleDie h)
  if !s.planeRuns || stale || !checks then .next s
  else
    let v := s.checkValue u q value.toNat
    let t := testValue q v u.queue
    let u' : CheckUnit := { u with
      queue := t.queue, compared := u.compared + b2n t.compared, mismatched := u.mismatched + b2n t.differs
      missed := u.missed + t.missed.length, unchecked := u.unchecked + b2n (!t.compared)
      lastPic := q, lastValue := v, ready := u.ready.sel fun n _ => decide (q < n), emptyRaised := u.emptyRaised || t.empty }
    let s := s.modDec fun d => { d with checks := d.checks.put h u' }
    let s := t.missed.foldl (fun s m => s.raise evCheckMismatch h (2 * 2 ^ 32) (some m)) s
    let s := if t.differs then s.raise evCheckMismatch h (v % 2 ^ 32 + 2 ^ 32) (some q) else s
    .next (if t.empty && !u.emptyRaised then s.raise evCheckEmpty h 0 (some q) else s)

/-! ### SDI outputs (R402) -/

/-- What an output shows from this boundary on. -/
def State.showNext (s : State) (o : SdiOut) : SdiOut :=
  if s.isDecoder o.source then
    (if o.shown < (s.dec.decoders.look {} o.source).output then
      { o with shown := o.shown + 1, carrying := 3, boundaries := s.outIndex o, frame := o.waiting.headD {}, waiting := o.waiting.drop 1 }
    else { o with boundaries := s.outIndex o })
  else if o.source = 0 then o
  else { o with carrying := if s.sdiLocked o.source then 1 else 2 }

/-- An SDI output reaches a picture boundary: a set that waits takes effect, and it shows its next picture. -/
def execSdiOutPictureBoundary (lane : Fin 8) (s : State) : Out :=
  let h := laneHandle (96 + lane.val)
  let o := s.lane.outs.look {} h
  let early := s.isDecoder o.source && s.outIndex o == o.boundaries
  if !s.planeRuns || !s.lane.outs.has h || (s.ln (96 + lane.val)).mode == 0 || (s.ln (96 + lane.val)).test != 0 || early then .next s
  else
    let s := s.applyStaged none fun t => t.kind == .sdiOut h
    .next (s.modLane fun l => { l with outs := l.outs.upd h s.showNext })

end Sys2Proof.Machine
end

