-- ==== Sys2Proof/Machine/SourceRows.lean ====
section
/-!
DEFINITION. The rows that sources give: of ingest, of submitted pictures, of the jig generator; composition; and the report of a
layer commit (Decode, Reference Mode and Verification, R256 and R259; Composition, R268 to R270 and R289; Ingest, R325).
-/

namespace Sys2Proof.Machine

open Sys2Proof (Byte RowSamples)

/-! ### Rows of a source (R259, R325) -/

/-- A row of the channel's source is there. One that the channel does not code goes to the picture that its renditions read. -/
def State.sourceRowIn (s : State) (h k m : Nat) (d : SourceRow) : State :=
  let t := s.takeRow h k m d
  if (s.runningRenditions h).isEmpty || t.codesRow h || (s.ch h).reference then t else (t.watchRow h k m d).watchedRow h k

/-- A CTU row is complete and its flag is posted. -/
def execRowArrivalPost (chan : BitVec 32) (row : BitVec 8) (capture : BitVec 64) (samples : RowSamples) (s : State) : Out :=
  let h := chan.toNat
  let c := s.ch h
  let k := row.toNat
  if !s.isEncoder h || !s.planeRuns || c.cfg.source == 0 || !s.lanePosts c.cfg.source c.cfg || decide (c.cfg.rows ≤ k) then .next s
  else match s.sourceRow h k capture.toNat samples with
    | none => .next s
    | some (d, m) => .next ((s.keepFed h k d.data).sourceRowIn h k m d)

/-! ### Submitted pictures (R256) -/

/-- A command that waits for a copy into a channel. -/
def Running.copies (h : Nat) (r : Running) : Bool := match r.await with | .pictureCopy g _ => g == h | _ => false

/-- The picture that a submission names, and its invalid welt blocks: of host memory, as the bytes at its two addresses. -/
def State.submitted (s : State) (c : ChCfg) (p luma chroma : List Byte) : Surface × Nat :=
  let fmt := u8 p 1
  let n := max (surfaceBytes fmt c.width c.height) (2 * u32 p 4 * c.height)
  let rd (a : Nat) : List Byte := s.mem.data.loadClean (s.mem.dies.flatMap fun e => e.2.poisoned) a n
  if u8 p 0 = 1 then hostSurface (rd (u64 p 8)) (rd (u64 p 0x10)) fmt (u32 p 4) c.width c.height
  else hostSurface luma chroma fmt (u32 p 4) c.width c.height

/-- Caption constructs from a run of bytes. -/
def captionGroups (b : List Byte) : List (List Byte) := (List.range (b.length / 3)).map fun i => slice b (3 * i) 3

/-- The copy of the oldest submitted picture is in device memory: its rows are posted with its captions, and the command completes
with the `PIC_SEQ` of its slot. -/
def execPictureCopyDone (chan : BitVec 32) (luma chroma captions : List Byte) (s : State) : Out :=
  let h := chan.toNat
  let c := s.ch h
  match s.eci.running.find? (Running.copies h) with
  | none => .next s
  | some r =>
    let p := r.cmd.payload
    let m := if c.reference then s.now else u64 p 0x18
    let (surf, bad) := s.submitted c.cfg p luma chroma
    let same := surf.sampling == c.cfg.chroma && surf.depth == c.cfg.bitDepth
    let rowOf (k : Nat) : SourceRow :=
      let (y0, y1) := c.cfg.lumaRows k
      { data := surf.frame.part surf.sampling 0 y0 c.cfg.width (y1 - y0), sampling := surf.sampling, depth := surf.depth, same
        badBlocks := if k = 0 then bad else 0 }
    let s := (List.range c.cfg.rows).foldl (fun s k => s.sourceRowIn h k m (rowOf k)) s
    let slot := (s.ch h).cur
    let s := match slot with
      | some o => if u64 p 0x20 = 0 then s else s.modCh h fun c =>
          { c with captions := c.captions ++ [(m, some o, captionGroups (slice captions 0 (u16 p 0x28)))] }
      | none => s
    let reply := match slot with
      | some o => { r.reply with result := (s.ch h).slotOf o % 2 ^ 32 }
      | none => r.reply
    .next ((s.modEci fun e => { e with running := e.running.erase r }).complete r.cmd reply)

/-! ### The jig generator (R259) -/

/-- A row of the picture of the generator of an output index. -/
def State.generatedRow (s : State) (h o k : Nat) : SourceRow :=
  let c := s.ch h
  let (y0, y1) := c.cfg.lumaRows k
  match c.cfg.jigPicture (u32 (s.dec.jigs.look [] h) 4) o with
  | [y, cb, cr] => { data := ({ y, cb, cr } : Frame).part c.cfg.chroma 0 y0 c.cfg.width (y1 - y0), sampling := c.cfg.chroma, depth := c.cfg.bitDepth }
  | _ => {}

/-- The generator's next row: in live mode at its scheduled capture time. -/
def execGeneratedRowAvailable (chan : BitVec 32) (row : BitVec 8) (s : State) : Out :=
  let h := chan.toNat
  let c := s.ch h
  let k := row.toNat
  let o := if k = 0 then c.wantedSlot else c.cur.getD c.wantedSlot
  let timed := c.anchored && !c.reference
  let m := if timed then c.captureNs o 0 else if k = 0 then s.now else c.curCapture
  if !s.isEncoder h || !s.planeRuns || !s.generates h || c.cfg.source != 0 || decide (c.cfg.rows ≤ k) ||
      (timed && decide (s.now < c.captureNs o k)) then .next s
  else .next (s.sourceRowIn h k m (s.generatedRow h o k))

/-! ### Composition (R268 to R270) -/

/-- The base of a row of a picture, with its chroma format and bit depth: its source or scaled rows, or the slate. -/
def State.baseRow (s : State) (h n k : Nat) : SourceRow :=
  let c := s.ch h
  let p := c.pic n
  let (y0, y1) := c.cfg.lumaRows k
  let cut (f : Frame) (sampling : Nat) : Frame := f.part sampling 0 y0 c.cfg.width (y1 - y0)
  if p.kind = .slate then
    let g := s.slateFrame h
    { data := cut g.frame g.sampling, sampling := g.sampling, depth := g.depth }
  else { data := cut p.raw p.sampling, sampling := p.sampling, depth := p.depth }

/-- The composition unit completes a row: the raw row is there and the rows above are composed. The composed row is the row that
analysis and coding read; with the last, invalid welt blocks are reported (R277). -/
def execCompositionRowDone (chan : BitVec 32) (pic : BitVec 64) (row : BitVec 8) (s : State) : Out :=
  let h := chan.toNat
  let n := pic.toNat
  let k := row.toNat
  let c := s.ch h
  let p := c.pic n
  let r := c.row n k
  let above := k == 0 || (c.row n (k - 1)).composed
  if !s.planeRuns || !c.pics.has n || !c.rows.has (c.rowKey n k) || decide (c.cfg.rows ≤ k) || !p.composes || r.composed || !above ||
      !(p.kind == .slate || r.arrived) then .next s
  else
    let d := s.baseRow h n k
    let f := s.composeLines c.cfg c.die p.set.colour p.layers d.data d.sampling d.depth (k * c.cfg.ctu)
    let s := s.modCh h fun c =>
      (c.modRow n k fun r => { r with composed := true }).modPic n fun p => { p with img := p.img.append f }
    let s := s.feed h n k
    let s := if k + 1 = c.cfg.rows then s.weltEvents h n else s
    .next ((s.postRow h n k 2).goOn h)

/-! ### The report of a layer commit (R289) -/

/-- Row 0 of a picture stands under the state of its boundary: it is composed, or it needs no composition, or it has left. -/
def Channel.shows (c : Channel) (n : Nat) : Bool :=
  decide (n < c.relPic) || (c.pics.has n && (!(c.pic n).composes || (c.row n 0).composed))

/-- Firmware reports the channel's oldest commit that has taken effect; the buffers of removed layers are freed. -/
def execCommitAppliedReport (chan : BitVec 32) (s : State) : Out :=
  let h := chan.toNat
  match s.comp.reports.find? fun r => r.chan == h with
  | none => .next s
  | some r =>
    let c := s.ch h
    if c.state != .idle && !r.pic.all c.shows then .next s
    else
      let s := s.modComp fun x => { x with reports := x.reports.erase r }
      let s := r.freed.foldl State.unmapAt s
      .next (s.raise evCommitApplied h r.enabled r.pic)

end Sys2Proof.Machine
end

