-- ==== Sys2Proof/Machine/RowData.lean ====
section
/-!
DEFINITION. The ends of row tasks, judgements, orders, the mitre seam and what a die keeps on the hub against its own fault (Coding
Core; Rate Control and Fixed Delay; Start-up, Recovery, Fail-over and Self-test).
-/

namespace Sys2Proof.Machine

open Sys2Proof (Byte DieNo)

/-! ### The ends of row tasks (R142, R148, R153) -/

/-- Orders that the odd die has still to apply make what its tasks do for a row void. -/
def Channel.orderAhead (c : Channel) (half key : Nat) : Bool :=
  half == 1 && c.crossing.any fun x => match x.item with
    | .order n k kind => kind != 0 && decide (c.rowKey n k ≤ key)
    | _ => false

/-- A task of a channel has ended on a die. With the last live one of its class for the row, that stage of the row has ended on the
die's half (log entry 206): of the row task flow under the row's present generation, or the search of the row. -/
def State.taskDone (s : State) (d : Nat) (t : Task) : State :=
  let others := (s.sd d).tasks.any fun e => e.2.flow == t.flow && e.2.seq == t.seq && e.2.cls == t.cls
  match s.taskRow d t.flow t.seq with
  | none => s
  | some (h, role, key) =>
    let c := s.ch h
    let n := key / c.cfg.rows
    let k := key % c.cfg.rows
    let r := c.row n k
    let half := c.halfOn d
    let search := role = 3 ∧ t.cls = 1
    let stage := role = 1 ∧ t.cls ≠ 1 ∧ r.phase ≠ .waiting ∧ t.rowGen = r.generation ∧ !c.orderAhead half key
    if !others ∧ (search ∨ stage) then
      let s := s.modCh h fun c => c.modRow n k fun r => { r with ended := setBit r.ended (2 * t.cls + half) }
      s.proceed h
    else s

/-- The report of a task that was squashed in service: what it wrote lies in the buffer side that was flipped away (R148). -/
def State.lateWrite (s : State) (d : Nat) (g : HeldSlot) : State :=
  match s.taskRow d g.flow g.seq with
  | none => s
  | some (h, role, key) =>
    let c := s.ch h
    let n := key / c.cfg.rows
    let k := key % c.cfg.rows
    if role = 1 ∧ g.rowGen + 1 = (c.row n k).generation then
      s.modCh h fun c => c.modRow n k fun r => { r with alt := c.runStage s.boot.recipeVersion n k (c.halfOn d) g.cls r.alt }
    else s

/-! ### Judgement (R146, R155, R191, R203) -/

/-- Core 0 holds the keeper lock of the channel's rate-control state on the die that runs it (R203). -/
def State.rateHeld (s : State) (h : Nat) : Bool :=
  (((s.sd (s.ch h).die).locks.look {} (handleIndex h + 1)).owner).any fun o => o.1 == 2560

/-- Entropy coding of a row is complete on both halves, and the odd die's size has crossed. -/
def Channel.coded (c : Channel) (r : Row) : Bool := c.halves.all r.buf.ents.has && (c.partnerPipe.isNone || r.sizeIn)

/-- Core 0 judges the oldest row that is neither committed nor filled, once its coding is complete on both halves; in S3 it
is filled without one. Every judgement is made under the channel's rate-control lock. -/
def execRowJudgement (chan : BitVec 32) (s : State) : Out :=
  let h := chan.toNat
  let c := s.ch h
  match c.oldest with
  | none => .next s
  | some key =>
    let n := key / c.cfg.rows
    let k := key % c.cfg.rows
    let p := c.pic n
    let r := c.row n k
    if !s.isEncoder h || !s.planeRuns || !p.rated || c.order.isSome || !s.rateHeld h ||
        (p.stage != 3 && (r.phase != .speculative || r.restoring || !c.coded r)) then .next s
    else if p.stage = 3 then .next (s.modCh h fun c => { c with order := some (s.decide_ h n k 0) })
    else
      let part (half : Nat) : Nat := c.rowBits n k half (r.buf.ents.look {} half)
      let size := (c.halves.map part).sum
      let qps := r.buf.ctuQps
      .next (s.modCh h fun c =>
        let c := c.modRow n k fun r => { r with
          size := some size, sizeOdd := if c.partnerPipe.isSome then some (part 1) else none
          qpSum := qps.sum, qpCtus := qps.length, qpMin := qps.foldl min 0xFF, qpMax := qps.foldl max 0 }
        { c with order := some (s.decide_ h n k size) })

/-! ### Orders (R143, R146, R147, R149, R159, R194) -/

/-- An order that names another row than the judged one, or comes too early, is discarded and counted (R146). -/
def State.badOrder (s : State) (h : Nat) : State :=
  if s.isEncoder h && s.planeRuns then
    s.modChan fun x => { x with orderFaults := x.orderFaults.modD 0 (s.ch h).die (· + 1) }
  else s

/-- The decision that an order for a row carries out. -/
def Channel.orderFor (c : Channel) (n k : Nat) : Option Judgement :=
  c.order.filter fun j => j.pic == n && j.row == k

/-- The stitch deadline of a row's decoding unit has come: it wins against an order for the row (R201). -/
def State.deadlineWins (s : State) (h n k : Nat) : Bool :=
  let c := s.ch h
  !c.reference && decide (c.deadlineNs n (k / c.cfg.duRows) ≤ s.now)

/-- An order for a row that carries out the decision of a judgement, if it may. -/
def State.carryOut (s : State) (h n k : Nat) (f : Judgement → Option State) : State :=
  match (s.ch h).orderFor n k with
  | none => s.badOrder h
  | some j => if s.deadlineWins h n k then s else ((f j).map fun t => t.proceed h).getD (s.badOrder h)

def execCommitOrder (chan : BitVec 32) (pic : BitVec 64) (row : BitVec 8) (s : State) : Out :=
  let h := chan.toNat
  let n := pic.toNat
  let k := row.toNat
  .next (s.carryOut h n k fun j =>
    if j.order = .commit then
      let size := ((s.ch h).row n k).size.getD 0
      some ((s.modCh h fun c => c.settleRow n k size .committed false).afterRow h n k j.nextQp j.nextStage j.lowRun false)
    else none)

/-- The judged row is squashed and coded again from its checkpoint at a raised QP, in the other side of its buffers; the rows after
it begin again. The order goes to the partner. -/
def State.rewindRow (s : State) (h n k qp : Nat) : State :=
  let key := (s.ch h).rowKey n k
  let s := s.modCh h fun c =>
    let stage := (c.pic n).stage
    let c := (c.squashRows (key + 1)).modRow n k fun r => { r.squashed with
      phase := .speculative, rewound := true, restoring := true, qp, stage, buf := c.freshBuf n k qp stage }
    let c := c.modPic n fun p => { p with rewinds := p.rewinds + 1, rowQp := qp, lowRun := 0 }
    { c with order := none }
  ((s.squashRow h (s.ch h).die key).crossOrder h key 1).beginRows h

def execRewindOrder (chan : BitVec 32) (pic : BitVec 64) (row : BitVec 8) (s : State) : Out :=
  let h := chan.toNat
  let n := pic.toNat
  let k := row.toNat
  .next (s.carryOut h n k fun j => match j.order with
    | .rewind qp => some (s.rewindRow h n k qp)
    | _ => none)

def execFillOrder (chan : BitVec 32) (pic : BitVec 64) (row : BitVec 8) (s : State) : Out :=
  let h := chan.toNat
  let n := pic.toNat
  let k := row.toNat
  .next (s.carryOut h n k fun j =>
    if j.order = .fill then
      some ((s.modCh h fun c => c.settleRow n k (c.fillBits n k) .filled false).afterRow h n k j.nextQp j.nextStage j.lowRun true)
    else none)

/-- The checkpoint of the other buffer side is in place and its flag is posted: the rewound row may be coded (R147, R149). -/
def execCheckpointRestoreDone (chan : BitVec 32) (s : State) : Out :=
  let h := chan.toNat
  let c := s.ch h
  match c.rows.find? fun e => e.2.restoring with
  | none => .next s
  | some (key, _) =>
    let n := key / c.cfg.rows
    let k := key % c.cfg.rows
    let s := s.modCh h fun c => c.modRow n k fun r => { r with restoring := false, buf := { r.buf with points := r.alt.points } }
    .next ((s.postRow h n k 5).proceed h)

/-! ### The mitre pair (R153 to R155) -/

/-- An item of the partner link is void: its sender's token is old, or its row's coding has a newer generation. What pre-analysis
and search send is touched by no squash (R142; log entry 207). -/
def State.staleItem (s : State) (h : Nat) (x : Crossing) : Bool :=
  let c := s.ch h
  let coding (n k : Nat) : Bool := decide (x.gen < (c.row n k).generation)
  (s.boot.health.look {} (c.dieOf x.half)).token != x.token ||
    (match x.item with
      | .band n k | .columns n k | .size n k | .order n k _ => coding n k
      | _ => false)

/-- The oldest item that a half has sent leaves the link. -/
def State.takeItem (s : State) (h : Nat) (x : Crossing) : State := s.modCh h fun c => { c with crossing := c.crossing.erase x }

/-- The odd die applies the oldest order of the even die, once it is the oldest item on its way: a rewind squashes at the row, whose
tasks are enqueued again, a fill squashes after it, a squash at it. -/
def execPartnerOrder (chan : BitVec 32) (s : State) : Out :=
  let h := chan.toNat
  let c := s.ch h
  let odd := c.die + 1
  match c.crossing.find? fun x => x.half == 0 with
  | none => .next s
  | some x =>
    match x.item with
    | .order n k kind =>
      let key := c.rowKey n k
      let stale := s.staleItem h x
      let s := s.takeItem h x
      let s := if stale || kind == 0 then s else if kind = 1 then s.squashRow h odd key
        else if kind = 2 then s.squashFlow h odd (key + 1) else s.squashFlow h odd key
      .next (s.proceed h)
    | _ => .next s

/-- What an item gives the half that receives it. -/
def State.keepItem (s : State) (h : Nat) (x : Crossing) : State :=
  let row (n k : Nat) (f : Row → Row) : State := s.modCh h fun c => c.modRow n k f
  match x.item with
  | .band n k => (row n k fun r => { r with seamBand := setBit r.seamBand x.half }).postRow h n k 4
  | .columns n k => (row n k fun r => { r with seamColumns := setBit r.seamColumns x.half }).postRow h n k 4
  | .size n k => (row n k fun r => { r with sizeIn := true }).postRow h n k 4
  | .sums n k => ((row n k fun r => { r with sums := setBit r.sums x.half }).rowMeasured h n k).postRow h n k 4
  | .counts n =>
    let s := (s.modCh h fun c => c.modPic n fun p => { p with countsIn := true }).decideScene h n
    (if ((s.ch h).pic n).flag then s.passFlag h ((s.ch h).pic n) else s).postRow h n 0 4
  | .field n k => ((row n k fun r => { r with fieldIn := true }).fitMotion h n).postRow h n k 4
  | .motion n => (s.modCh h fun c => c.modPic n fun p => { p with motionIn := true }).postRow h n 0 4
  | .order .. => s

/-- The oldest item that a die of the pair has sent, if it is no order, arrives at the other: of an older generation, or under an
old token, it is discarded. -/
def execSeamDataArrival (chan : BitVec 32) (odd : Bool) (s : State) : Out :=
  let h := chan.toNat
  match (s.ch h).crossing.find? fun x => x.half == b2n odd with
  | none => .next s
  | some x =>
    if (match x.item with | .order .. => true | _ => false) then .next s
    else
      let stale := s.staleItem h x
      let s := s.takeItem h x
      .next (if stale then s else (s.keepItem h x).proceed h)

/-! ### What the hub keeps (R493) -/

/-- Core 1 sends the state after the latest picture whose rows are all committed or filled. -/
def execFailoverStateUpdate (chan : BitVec 32) (s : State) : Out :=
  let h := chan.toNat
  let c := s.ch h
  let done := c.pics.filter fun e => e.2.kind != .hubFill && decide (c.cfg.rows ≤ e.2.judged) &&
    (!c.failState.valid || decide (c.failState.picSeq < e.1))
  match done.getLast? with
  | none => .next s
  | some (n, p) =>
    if !s.planeRuns || c.dies.any (bit s.boot.diesFenced) then .next s
    else
      let next := c.pics.find (n + 1)
      let phi0 := match next with
        | some q => if q.rated then q.phi0 else c.omega
        | none => c.omega
      let streams := s.net.egress.filter fun e => e.2.source == h
      let transport := streams.map fun e => (e.1, (e.2.counters, e.2.prov.prevHash))
      let by_ := ((s.sd 8).locks.look {} (handleIndex h + 1)).owner
      .next (s.modCh h fun c => { c with failPrev := c.failState, failBy := by_, failState := {
        valid := true, phi0, qpPic := p.qpPic, lastBits := c.lastBits, lastCpx := c.lastCpx, weights := c.weights, picSeq := n
        refresh := p.refresh, slips := c.slips, stage := p.highStage, poc := p.poc, list0 := p.list0, list1 := p.list1
        gopBase := c.gopBase, set := p.set, transport, anchor := c.anchor, anchorPic := c.anchorPic, cond := c.inCond, repeatRun := c.repeatRun } })

/-- A die sends a picture's fill set, before it codes row 0: every decoding unit of its tile as fill coding, with its slice
headers. -/
def execFillSetUpdate (chan : BitVec 32) (pic : BitVec 64) (tile : Fin 3) (s : State) : Out :=
  let h := chan.toNat
  let n := pic.toNat
  let c := s.ch h
  let p := c.pic n
  if !s.planeRuns || !c.pics.has n || p.kind == .hubFill || p.judged != 0 || !c.tileList.contains tile.val ||
      c.dies.any (bit s.boot.diesFenced) then .next s
  else
    let half := b2n (tile.val == 2)
    let units := (List.range c.cfg.dus).map fun j => c.duNals n j half fun k => c.fillEnt n k half
    .next (s.modCh h fun c => { c with
      fillSets := (c.fillSets.filter fun f => !(f.1 == n && f.2.1 == tile.val)) ++ [(n, tile.val, units)] })

end Sys2Proof.Machine
end

