-- ==== Sys2Proof/Machine/PicStats.lean ====
section
/-!
DEFINITION. The statistics block of a picture (Decode, Reference Mode and Verification, R260 and R261; Pre-analysis, R133).
-/

namespace Sys2Proof.Machine

open Sys2Proof (Byte)

/-! ### CTU records (R133, R260) -/

/-- Luma area of a CTU's coding units that a test picks. -/
def cuArea (cus : List Cu) (p : Cu → Bool) : Nat := ((cus.filter p).map (·.area)).sum

/-- The value below `n` that covers the most area, the lowest of several. -/
def mostArea (cus : List Cu) (key : Cu → Nat) (n : Nat) : Nat :=
  (List.range n).foldl (fun b v => if cuArea cus (key · == b) < cuArea cus (key · == v) then v else b) 0

/-- Inter-coded classes: skip, merge, inter with coded vector, affine, geometric or combined. -/
def Cu.inter (u : Cu) : Bool := decide (u.cls < 5)

/-- Area-weighted mean, rounded down, of a component of the first-list vectors of the inter area. -/
def meanVector (cus : List Cu) (f : Cu → Int) : Int :=
  let l := cus.filter Cu.inter
  (l.map fun u => (u.area : Int) * f u).sum / ((max 1 (cuArea cus Cu.inter) : Nat) : Int)

/-- One CTU record: `ACT`, `CPLX`, coding units, bits, QP, whether its row was filled or rewound. -/
def ctuRecord (act cplx : Nat) (cus : List Cu) (bits qp : Nat) (filled rewound : Bool) : List Byte :=
  let inter := cuArea cus Cu.inter
  let ref := if inter = 0 then 15 else mostArea (cus.filter Cu.inter) (·.ref) 15
  let pct := 100 * inter / max 1 (cuArea cus fun _ => true)
  le 2 (min 65535 act) ++ le 2 (min 65535 cplx) ++ le 2 (twos 16 (meanVector cus (·.mvx))) ++ le 2 (twos 16 (meanVector cus (·.mvy))) ++
    le 3 (min (2 ^ 24 - 1) bits) ++ le 1 qp ++ le 1 (mostArea cus (·.cls) 6 + 8 * b2n filled + 16 * ref) ++
    le 1 (pct + 128 * b2n rewound) ++ le 2 0

/-- The CTU records of a picture, in raster order of the whole picture. -/
def Channel.ctuRecords (c : Channel) (n : Nat) : List Byte :=
  (List.range c.cfg.rows).flatMap fun k =>
    let r := c.row n k
    c.halves.flatMap fun half =>
      let (lo, hi) := c.halfCols half
      let out := r.buf.outs.look {} half
      let ent := r.buf.ents.look {} half
      (List.range (hi - lo)).flatMap fun i =>
        ctuRecord (r.acts.getD (lo + i) 0) (r.cplxs.getD (lo + i) 0) (out.ctus.getD i []) (ent.ctuBits.getD i 0)
          (if r.filled then (c.pic n).qpPic else r.buf.ctuQps.getD (lo + i) 0) r.filled r.rewound

/-! ### The picture record (R260) -/

/-- Average, least and greatest CTU QP of a picture, with its QP_pic. -/
def Pic.qpField (p : Pic) : Nat :=
  (if p.qpCount = 0 ∨ p.kind = .repeat_ then 0xFFFFFF else p.qpSum / p.qpCount + p.qpMin * 256 + p.qpMax * 65536) + p.qpPic * 2 ^ 24

/-- The type code of a picture. -/
def PicType.code (codec : Nat) : PicType → Nat
  | .idr => 0
  | .cra => 1
  | .refreshStart => if codec = 1 then 3 else 6
  | .inter | .repeatPic => 6

/-- The condition bits. -/
def Pic.condBits (p : Pic) : Nat :=
  let cond := match p.kind with
    | .live | .watched => 0 | .repeat_ => if p.slip then 0 else 1 | .slate => 2 | .hubFill => 3
  cond + 4 * b2n (p.kind == .repeat_) + 8 * b2n p.slip + 16 * b2n p.firstSearched + 32 * b2n p.type.starts +
    64 * b2n p.recovered + 128 * b2n p.jig.isSome

/-- The squared error of a plane. -/
def planeError (a b : Plane) : Nat :=
  ((List.zipWith (fun x y => ((List.zipWith (fun (p q : Nat) => (((p : Int) - q) * ((p : Int) - q)).toNat) x y).sum)) a b)).sum

/-- PSNR in units of 1/256 dB: `0xFFFF` without error, at most `0xFFFE`. -/
def psnrField (depth : Nat) (a b : Plane) : Nat :=
  let e := planeError a b
  if e = 0 then 0xFFFF else min 0xFFFE (Config.psnr e (b.map List.length).sum depth)

/-- PSNR of the reconstruction against the composed source, of Y, Cb and Cr. -/
def Channel.psnrOf (c : Channel) (n : Nat) : List Nat :=
  let r := c.recon n
  let o := (c.pic n).img
  [psnrField c.cfg.bitDepth r.y o.y, psnrField c.cfg.bitDepth r.cb o.cb, psnrField c.cfg.bitDepth r.cr o.cr]

/-- The statistics block of a picture whose access unit has so many bits. -/
def State.statsBlock (s : State) (h n auBits : Nat) : List Byte :=
  let c := s.ch h
  let p := c.pic n
  let ring := (s.ringOf false h).getD {}
  let ctus := if ring.ctuEn && p.kind != .hubFill then c.cfg.cols * c.cfg.rows else 0
  let head := le 2 1 ++ le 2 (6 + ctus) ++ le 4 h ++ le 8 n
  let poc := le 4 (twos 32 p.poc)
  if p.kind = .hubFill then
    head ++ List.replicate 12 0 ++ le 4 auBits ++ List.replicate 15 0 ++ le 1 3 ++ List.replicate 16 0 ++ poc ++ List.replicate 28 0
  else
    let rel := if c.reference then 0 else c.releaseNs n 0
    let psnr := if p.kind = .repeat_ then List.replicate 6 0 else (c.psnrOf n).flatMap (le 2)
    head ++ le 8 rel ++ le 4 s.boot.recipeVersion ++ le 4 auBits ++ le 4 p.qpField ++ psnr ++
      le 1 p.highStage ++ le 1 p.rewinds ++ le 1 p.filled ++ le 1 p.dlFilled ++ le 1 (p.dlFirst.getD 0xFF) ++
      le 1 p.condBits ++ le 2 p.actPic ++ le 2 p.cpxPic ++ le 1 p.scene ++ le 1 p.gmKept ++
      le 1 (p.type.code c.cfg.codec) ++ le 1 p.tid ++ p.gm.flatMap (fun x => le 2 (twos 16 x)) ++ poc ++ le 2 ctus ++
      le 1 (b2n c.reference) ++ le 1 0 ++ le 8 (if c.reference then 0 else c.cfg.ns (c.slotUnits n)) ++ List.replicate 16 0 ++
      (if ctus = 0 then [] else c.ctuRecords n)

end Sys2Proof.Machine
end

