-- ==== Sys2Proof/Machine/Release.lean ====
section
/-!
DEFINITION. The stitch unit, records on their way to the hub, and release at the hub (Coding Core, R156 to R160; Rate Control
and Fixed Delay, R176 to R178, R201; the packets, hashes and statistics of a released picture).
-/

namespace Sys2Proof.Machine

open Sys2Proof (Byte)

/-! ### The stitch unit (R157, R158, R160, R253) -/

/-- Decoding units that the stitch unit of a half has released, of a picture. -/
def Pic.stitchedOf (p : Pic) (tile : Nat) : Nat := if tile = 2 then p.stitchedOdd else p.stitched

/-- At a stitch deadline the rows of a unit that are not committed are filled, each from its fill coding; the row flow is squashed
once, at the first row after them (R158, R159, R201). -/
def State.fillRows (s : State) (h n : Nat) (rows : List Nat) : State :=
  let fill (s : State) (k : Nat) : State :=
    let s := if ((s.ch h).pic n).rated then s else s.startRate h n
    let s := s.modCh h fun c => c.settleRow n k (c.fillBits n k) .filled true
    let p := (s.ch h).pic n
    s.rowSettled h n k p.rowQp p.stage 0 true
  let s := rows.foldl fill s
  (s.squashHere h ((s.ch h).rowKey n (rows.getLastD 0 + 1))).proceed h

/-- The deadline cancels the release task of a decoding unit in the stitch flow of each die, if it has not been dispatched: the flow
has a hole in its place (R158, R222; log entry 208). -/
def State.cancelRelease (s : State) (h n j : Nat) : State :=
  let c := s.ch h
  let q := (n * c.cfg.dus + j) % 2 ^ 24
  c.dies.foldl (fun s d =>
    if !s.schedRuns d then s
    else match (s.sd d).flowOf h 2 with
      | some fl =>
        let hit := ((s.sd d).tasks.sel fun _ t => t.flow == fl && t.seq == q && t.agent.isNone).map (·.1)
        hit.foldl (fun s i => s.cancelTask d i false (if ((s.sd d).tasks.look {} i).ready.isSome then 2 else 0)) s
      | none => s) s

/-- The deadline of a decoding unit: its rows that are not committed become filled; where every row is committed and the unit
has not left, the deadline cancels its release task and leaves a hole. -/
def execStitchDeadline (chan : BitVec 32) (pic : BitVec 64) (du : BitVec 8) (s : State) : Out :=
  let h := chan.toNat
  let n := pic.toNat
  let j := du.toNat
  let c := s.ch h
  let p := c.pic n
  let earlier := c.rows.any fun e => decide (e.1 < c.rowKey n (j * c.cfg.duRows)) && !e.2.judged
  if !s.isEncoder h || !s.planeRuns || c.reference || !c.pics.has n || p.kind == .hubFill || decide (c.cfg.dus ≤ j) ||
      decide (s.now < c.deadlineNs n j) || earlier || p.holes.contains j then .next s
  else
    let rows := c.cfg.duRowList j
    let open_ := rows.filter fun k => !(c.row n k).judged
    if open_.isEmpty then
      let filled := rows.any fun k => (c.row n k).phase == .filled
      if filled || c.tileList.all (fun t => decide (j < p.stitchedOf t)) then .next s
      else
        let s := (s.cancelRelease h n j).modCh h fun c => c.modPic n fun p => { p with hole := true, holes := p.holes ++ [j] }
        .next (if c.cfg.rows ≤ p.judged then s.deadlineEvent h n else s)
    else .next ((s.cancelRelease h n j).fillRows h n open_)

/-- The picture whose next decoding unit a half's stitch unit is to release. -/
def Channel.stitchPic (c : Channel) (tile : Nat) : Option Nat :=
  (c.pics.find? fun e => e.2.kind != .hubFill && decide (c.relPic ≤ e.1) && decide (e.2.stitchedOf tile < c.cfg.dus)).map (·.1)

/-- A decoding unit of a half may leave: its rows are committed or filled, on the odd die its orders are applied, in
reference mode the whole picture is judged, and a hash that goes with it is there. -/
def Channel.mayStitch (c : Channel) (n j tile : Nat) : Bool :=
  let rows := c.cfg.duRowList j
  let hash := decide (j + 1 = c.cfg.dus) && tile != 2 && (c.pic n).set.hashSei != 0
  let waits (x : Crossing) : Bool := match x.item with
    | .order m k kind => m == n && rows.contains k && kind != 3
    | _ => false
  rows.all (fun k => (c.row n k).judged) && (!c.reference || decide (c.cfg.rows ≤ (c.pic n).judged)) &&
    !(tile == 2 && c.crossing.any waits) && (!hash || (List.range c.cfg.rows).all fun k => (c.row n k).ready)

/-- A reference-mode channel waits: a block of one of its rings has no room (R257, R261). -/
def State.ringsFull (s : State) (h : Nat) : Bool :=
  (s.ch h).reference && [false, true].any fun au => (s.ringOf au h).any fun r => !r.waiting.isEmpty

/-- The stitch unit of a half sends the next decoding unit, with its NAL units, towards the hub: the substreams of its committed
rows and the fill codings of its filled ones, in row order (R157, R158, R168). -/
def execStitchRelease (chan : BitVec 32) (tile : Fin 3) (s : State) : Out :=
  let h := chan.toNat
  let c := s.ch h
  let t := tile.val
  match c.stitchPic t with
  | none => .next s
  | some n =>
    let p := c.pic n
    let j := p.stitchedOf t
    if !s.planeRuns || !c.tileList.contains t || !c.mayStitch n j t || s.ringsFull h then .next s
    else
      let rows := c.cfg.duRowList j
      let half := b2n (t == 2)
      let die := c.die + half
      let nals := c.duNals n j half fun k => (c.row n k).buf.ents.look {} half
      let u : DuRecord := {
        pic := n, du := j, tile := t, first := j == 0, last := j + 1 == c.cfg.dus
        filledFrom := rows.find? fun k => (c.row n k).filled
        hole := p.holes.contains j, repeatPic := p.kind == .repeat_
        bytes := (nals.map fun b => b.length + 4).sum, token := (s.boot.health.look {} die).token, nals }
      .next (s.modCh h fun c =>
        let c := c.modPic n fun p => if t = 2 then { p with stitchedOdd := j + 1 } else { p with stitched := j + 1 }
        let whole := c.tileList.all fun t => decide (j < (c.pic n).stitchedOf t)
        let c := if whole then rows.foldl (fun c k => c.modRow n k fun r => { r with phase := .released }) c else c
        { c with inFlightDus := c.inFlightDus ++ [u] })

/-! ### Records at the hub (R26, R160, R178) -/

/-- The die that sends the records of a half. -/
def Channel.sender (c : Channel) (tile : Nat) : Nat := c.die + b2n (tile == 2)

/-- A record reaches the hub. Under a fenced die's old token, or after its release time, it is discarded. -/
def execDuRecordArrival (chan : BitVec 32) (s : State) : Out :=
  let h := chan.toNat
  let c := s.ch h
  match c.inFlightDus with
  | [] => .next s
  | u :: rest =>
    let s := s.modCh h fun c => { c with inFlightDus := rest }
    let current := (s.boot.health.look {} (c.sender u.tile)).token == u.token
    let late := decide (u.pic < c.relPic) || (u.pic == c.relPic && decide (u.du < c.relDu)) ||
      (!c.reference && decide (c.releaseNs u.pic u.du < s.now))
    if !current || late then .next s
    else .next (s.modCh h fun c => { c with hubDus := c.hubDus ++ [u] }.modPic u.pic fun p =>
      { p with duBits := p.duBits.modD 0 u.du (· + nalBits u.nals) })

/-! ### What a released picture leaves behind (R257, R260, R261) -/

/-- The access unit as the access-unit ring holds it. -/
def auBlock (n : Nat) (nals : List (List Byte)) : List Byte :=
  let b := byteStream nals
  le 4 b.length ++ le 4 0 ++ le 8 n ++ slice b 0 (16 * cdiv b.length 16)

/-! ### Packets of a released decoding unit (R329, R331, R345) -/

/-- A decoding unit is released before the one ahead of it has left: reported at most once per second per stream. -/
def State.paceQueue (s : State) (g n : Nat) : State :=
  let e := s.eg g
  let due := match e.lastPace with | some t => decide (t + 1000000000 ≤ s.now) | none => true
  if (e.queue.isEmpty && e.tsQueue.isEmpty) || !due then s
  else
    (s.modEg g fun e => { e with lastPace := some s.now }).raise evPaceQueue g
      ((e.queue.map (·.bytes)).sum + 188 * e.tsQueue.length) (some n)

/-- The scheduled capture time of a picture's output position as a 90 kHz count on the PTP epoch; in reference mode a count of
pictures (R330). -/
def State.time90 (s : State) (h n : Nat) : Nat :=
  let c := s.ch h
  if c.reference then n * 90000 * c.cfg.rateDen / max 1 c.cfg.rateNum
  else ((c.slotUnits (c.outIndex n) - s.tEp * c.cfg.unit) * 9 / (100000 * c.cfg.unit : Nat)).toNat

/-- DTS of a picture from its PTS: less the picture output delay; none where they are equal (R331). -/
def Channel.dts (c : Channel) (n pts : Nat) : Option Nat :=
  let d := c.outputDelay n * 90000 * c.cfg.rateDen / max 1 c.cfg.rateNum
  if d = 0 then none else some (pts - d)

/-- A stream takes a decoding unit of an access unit that it has begun: RTP packets at once; a multiplex takes the access unit as
one PES with its last unit. -/
def State.packetise (s : State) (g n : Nat) (nals au : List (List Byte)) (last : Bool) : State :=
  if (s.eg g).ending || !(s.eg g).started then s
  else
    let s := s.paceQueue g n
    let e := s.eg g
    let c := s.ch e.source
    let t := s.time90 e.source n
    if e.ts then
      (if last then
        let pts := t + 90 * s.ptsDelay g
        s.pesInto g e.videoPid 0xE0 pts (c.dts n pts) true n (byteStream au)
       else s)
    else
      let ps := nalPayloads c.cfg.codec e.limit last nals []
      let s := (List.range ps.length).foldl (fun (s : State) i =>
        let ends := last && i + 1 == ps.length
        s.queuePacket g (ps.getD i []) t n ends ends) s
      s.runPacer g (s.eg g).queue.length

/-- Streams that a channel feeds. -/
def State.streamsOf (s : State) (h : Nat) : List Nat :=
  (s.net.egress.filter fun e => e.2.source == h && decide (5 ≤ e.2.kind)).map (·.1)

/-- Provenance flags of an access unit. -/
def Channel.auFlags (c : Channel) (n : Nat) : Nat :=
  let p := c.pic n
  b2n (p.kind == .repeat_) + 2 * b2n (p.dlFilled != 0) + 4 * b2n (p.kind == .hubFill || c.auHub) + 8 * b2n (p.kind == .slate) +
    16 * b2n p.slip

/-! ### Release (R73, R74, R176, R178, R497) -/

/-- The hub makes what is missing of a picture: before the first standby slot, or with no standby (R496). -/
def Channel.hubMakes (c : Channel) (n : Nat) : Bool :=
  match c.failover with
  | some f => f.slot.all fun m => decide (n < m)
  | none => (c.pic n).kind == .hubFill

/-- The first tile of a decoding unit that is not at the hub. -/
def Channel.missingTile (c : Channel) (n j : Nat) : Option Nat :=
  if (c.pic n).kind = .hubFill then some 0
  else c.tileList.find? fun t => !(c.hubDus.any fun u => u.pic == n && u.du == j && u.tile == t)

/-- The first decoding unit of an access unit is about to leave: sets of the streams' access-unit boundary apply, a channel
that starts runs, and the standby's first unit ends a fail-over. -/
def State.openUnit (s : State) (h n : Nat) : State :=
  let mine (g : Nat) (t : Staged) : Bool :=
    (match t.kind with | .accessUnit x => x == g | .accessUnitAt x _ => x == g | _ => false) &&
      (match t.boundary with | .pic m => decide (m ≤ n) | _ => false)
  let s := (s.streamsOf h).foldl (fun s g =>
    (s.applyStaged (some n) (mine g)).modEg g fun e => { e with nextPic := n + 1, started := true }) s
  let s := if (s.ch h).state = .starting then s.toChState h .running n else s
  match (s.ch h).failover with
  | some f =>
    if f.slot.any fun m => decide (m ≤ n) then
      let s := s.modCh h fun c => { c with cond := f.cond, failover := none }
      s.raise evDieFailover h (f.hubPics + f.firstDu.getD 0xFF * 2 ^ 32 + f.newDie * 2 ^ 40) (some f.firstPic)
    else s
  | none => s

/-- A whole access unit goes to the decode channels that take it from stream assembly, before encryption (R245). -/
def State.toDecoders (s : State) (h : Nat) (nals : List (List Byte)) : State :=
  let fed (g : Decoder) : Bool := handleType g.source == tEgress && (s.streamsOf h).contains g.source
  let take (g : Decoder) : Decoder := if fed g then { g with submitted := g.submitted ++ [{ data := byteStream nals }] } else g
  s.modDec fun d => { d with decoders := d.decoders.mapV fun _ g => take g }

/-- The access unit is complete: statistics, the access-unit ring, provenance, and what the channel keeps of the picture. Pictures
and rows that later ones may still refer to stay. -/
def State.closeUnit (s : State) (h n : Nat) : State :=
  let c := s.ch h
  let nals := c.au
  let bits := nalBits nals
  let s := s.offerRing false h (s.statsBlock h n bits)
  let s := (s.offerRing true h (auBlock n nals)).checkAu h n nals
  let s := s.toDecoders h nals
  let hash := sha3 (byteStream nals)
  let started := if c.reference then s.now else c.releaseNs n 0
  let s := (s.streamsOf h).foldl (fun s g => s.coverUnit g n hash (c.auFlags n) started) s
  let s := s.modCh h fun c => { c with
    lastReleased := some n, relPic := n + 1, relDu := 0, au := [], auHub := false, auFilled := false
    pics := c.pics.sel fun m _ => decide (n < m + 24)
    rows := c.rows.sel fun k _ => decide (n * c.cfg.rows < k + 24 * c.cfg.rows)
    hubDus := c.hubDus.filter fun u => u.pic != n
    fillSets := c.fillSets.filter fun x => decide (n < x.1) }
  (s.endDrain h).policiesSettled

/-- The NAL units of a decoding unit as the hub joins them: the records that have reached it, from the fill sets what is missing of
an interrupted picture, and its own for a hub-fill picture; the last unit of a run ends the sequence (R74, R160, R496). -/
def Channel.joined (c : Channel) (n j : Nat) : List (List Byte) :=
  let one (t : Nat) : List (List Byte) := match c.hubDus.find? fun u => u.pic == n && u.du == j && u.tile == t with
    | some u => u.nals
    | none => c.fillSetNals n j [t]
  (if (c.pic n).kind = .hubFill then c.hubDu n j else c.tileList.flatMap one) ++
    (if j + 1 = c.cfg.dus ∧ c.lastPic = some n then [Config.nalBytes .endOfSequence] else [])

/-- The next decoding unit leaves the hub. -/
def State.releaseDu (s : State) (h n j : Nat) : State :=
  let c := s.ch h
  let miss := (c.missingTile n j).isSome
  let recs := c.tileList.filterMap fun t => c.hubDus.find? fun u => u.pic == n && u.du == j && u.tile == t
  let nals := c.joined n j
  let last := j + 1 == c.cfg.dus
  let s := if j = 0 then s.openUnit h n else s
  let s := s.modCh h fun c => { c with
    au := c.au ++ nals, auHub := c.auHub || miss, auFilled := c.auFilled || recs.any (·.filledFrom.isSome), relDu := j + 1 }
  let s := s.modCh h fun c => c.modPic n fun p => { p with released := j + 1, bytes := p.bytes + nalBits nals / 8 }
  let au := (s.ch h).au
  let s := ((s.streamsOf h).foldl (fun s g => s.packetise g n nals au last) s).sendAll
  if last then s.closeUnit h n else s

/-- The release timer frees the next decoding unit, at its time; in reference mode as soon as it is at the hub. A unit that is
absent at its time is a fault of the die that owes it (R178): the hub makes what is missing. -/
def execDuRelease (chan : BitVec 32) (s : State) : Out :=
  let h := chan.toNat
  let c := s.ch h
  let n := c.relPic
  let j := c.relDu
  let t := c.releaseNs n j
  let early := !c.reference && decide (s.now + 1000 < t)
  let running := c.state == .starting || c.state == .running || c.state == .draining
  if !s.isEncoder h || !s.planeRuns || !running || !c.pics.has n || early || decide (c.cfg.dus ≤ j) then .next s
  else match c.missingTile n j with
    | none => .next (s.releaseDu h n j)
    | some tile =>
      if c.hubMakes n then .next (s.releaseDu h n j)
      else if c.reference || decide (s.now < t) then .next s
      else
        let s := s.dieFault (c.sender tile) 5
        .next (if (s.ch h).pics.has n && (s.ch h).hubMakes n then s.releaseDu h n j else s)

end Sys2Proof.Machine
end

