-- ==== Sys2Proof/Machine/SchedRows.lean ====
section
/-!
DEFINITION. What happens at the schedulers: enqueues, posts, dispatch, completion, cancels, squashes, deadlines, keeper
locks and the task watchdog (Hardware Task Scheduling, R210 to R236).
-/

namespace Sys2Proof.Machine

open Sys2Proof (Byte SchedNo AgentId Descriptor)

/-! ### A self-test failure (R232, R434, R502) -/

/-- Element code and index of `EV_ISST_FAIL`. -/
def elementCode : Element → Nat × Nat
  | .pixelEngine n => (0, n.val)
  | .msu n => (1, n.val)
  | .filterUnit n => (2, n.val)
  | .sramBank n => (3, n.val)
  | .schedulerRam n => (4, n.val)

/-- An element has failed: it is fenced and reported, and the table of R501 says what follows. -/
def State.elementFails (s : State) (d : Nat) (e : Element) : State :=
  let (code, i) := elementCode e
  let s := (s.raise evIsstFail (dieHandle d) (code + i * 256)).fenceElement d e
  match e with
  | .filterUnit _ | .schedulerRam _ => s.dieFault d 3
  | _ => (s.policiesDue d).policiesDone d

/-! ### Recovery of state behind a broken lock (R203, R230, R253) -/

/-- The encode channel whose rate-control state a lock of a die guards. -/
def State.rateChannel (s : State) (k l : Nat) : Option Nat :=
  (s.chan.chans.find? fun e => handleIndex e.1 + 1 == l && e.2.die == k && !s.isDecoder e.1).map (·.1)

/-- The model is rebuilt from the picture checkpoint and the sizes of the rows that have their final coding; a picture whose rate
control has not begun has the model as it stands. -/
def Channel.rebuild (c : Channel) (n : Nat) : Channel :=
  let p := c.pic n
  if !p.rated then c
  else
    let base := { c with omega := p.phi0 - p.header * unitBits, modelRows := c.modelRows - p.judged }
    (List.range p.judged).foldl (fun x k => x.under n fun x => x.removeRow ((c.row n k).size.getD 0)) base

/-- A row as if its picture began: in reference mode a picture is coded again from its start (R253). -/
def Row.startedAgain (r : Row) : Row := { r.squashed with rewound := false, filled := false, byDeadline := false, ready := false, stored := {} }

/-- Rate control recovers (R203); a reference-mode channel then codes the picture again from its start (R253). -/
def State.rateRecover (s : State) (h : Nat) : State :=
  let c := s.ch h
  match c.oldest with
  | none => s
  | some k =>
    let n := k / c.cfg.rows
    if c.reference then
      let first := n * c.cfg.rows
      let back (j : Nat) (r : Row) : Row := if first ≤ j then r.startedAgain else r
      let s := s.modCh h fun c =>
        let p := c.pic n
        let c := { c with rows := c.rows.mapV back, order := none, recoveries := c.recoveries + 1
                          omega := if p.rated then p.phi0 else c.omega, modelRows := c.modelRows - p.judged }
        c.modPic n fun p => { p with judged := 0, rated := false, lowRun := 0, spent := 0, recovered := true }
      let s := (s.squashFrom h first).raise evRcRecovered h 0 (some n)
      s.proceed h
    else
      let row := k % c.cfg.rows
      let s := s.modCh h fun c =>
        let c := { c.rebuild n with order := none, recoveries := c.recoveries + 1 }
        c.modPic n fun p => { p with rowQp := p.qpPic, lowRun := 0, stage := max 1 p.stage, recovered := true }
      ((s.squashFrom h k).raise evRcRecovered h row (some n)).proceed h

/-- The hub's fail-over state of a channel, behind its keeper lock (R230): an update that was made under the hold that broke is
partial, and the state of the previous picture stands. -/
def State.failRecover (s : State) (l : Nat) : State :=
  let by_ := (((s.sd 8).locks.look {} l).brokenBy).map fun f => (f.agent, f.task)
  let back (h : Nat) (c : Channel) : Channel :=
    if handleIndex h + 1 == l && c.failBy.isSome && c.failBy == by_ then { c with failState := c.failPrev, failBy := none } else c
  s.modChan fun x => { x with chans := x.chans.mapV back }

/-- Every lock of a scheduler that was received `BROKEN` has its recovery run by its holder. -/
def State.recoverLocks (s : State) (k : Nat) : State :=
  ((s.sd k).locks.sel fun _ g => g.recover && g.owner.isSome).keys.foldl (fun s l =>
    let s := s.modSd k fun d => { d with locks := d.locks.upd l fun g => { g with recover := false } }
    if k = 8 then s.failRecover l
    else match s.rateChannel k l with
      | some h => s.rateRecover h
      | none => s) s

/-- A hole in a channel's flow of decoding units reaches the stitch unit, which releases the unit in its place and marks its record
(R158, R222). -/
def State.noteHoles (s : State) (k : Nat) : State :=
  let holes := (s.sd k).flows.flatMap fun (e : Nat × Flow) =>
    if e.2.role = 2 then (e.2.delivered.filter (·.2.hole)).map fun x => (e.2.chan, x.1) else []
  holes.foldl (fun s (x : Nat × Nat) => s.modCh x.1 fun c =>
    let mark (n : Nat) (p : Pic) : Pic :=
      match (List.range c.cfg.dus).find? fun j => (n * c.cfg.dus + j) % 2 ^ 24 == x.2 with
      | some j =>
        if p.holes.contains j || decide (j < min p.stitched (if c.partnerPipe.isSome then p.stitchedOdd else p.stitched)) ||
            (c.cfg.duRowList j).any (fun i => (c.row n i).filled) then p
        else { p with hole := true, holes := p.holes ++ [j] }
      | none => p
    { c with pics := c.pics.mapV mark }) s

/-- What follows every happening at a scheduler. -/
def State.afterSched (s : State) (k : Nat) : State := (s.recoverLocks k).noteHoles k

/-! ### Enqueue and back-pressure (R210, R211, R234, R235) -/

/-- A firmware or host enqueue is answered (R211, R235). -/
def State.answerEnqueue (s : State) (k : Nat) (st : Status) (detail : Nat) : State :=
  s.modSd k fun d => { d with answers := d.answers ++ [(st, detail)] }

/-- A bound holds a producer: a hardware producer stalls; firmware and host are answered `E_BUSY` and go on (R235). -/
def State.holdBack (s : State) (k : Nat) (x : Stalled) : State :=
  let s := s.noteBp k x
  if x.producer = 0xFFF && x.task.isSome then
    (s.answerEnqueue k .eBusy ((s.sd k).retryHint s.now)).trace k (x.event 9)
  else s.stall k x

def execDescriptorEnqueue (sched : SchedNo) (producer : AgentId) (d : Descriptor) (s : State) : Out :=
  let k := sched.val
  let a := producer.toNat
  if !s.schedRuns k then .next s
  else if !descriptorOk d then
    .next (if a = 0xFFF then s.answerEnqueue k .eBadParam 0
      else s.modSd k fun g => { g with faults := g.faults + 1 })
  else
    let (t, last) := taskOf d
    match (s.sd k).bpBound t with
    | some b =>
      if (s.sd k).passed t then .next ((s.enqueue k t last).afterSched k)
      else .next (s.holdBack k { producer := a, bound := b, task := some (t, last) })
    | none => .next ((s.enqueue k t last).afterSched k)

/-- The first held-back producer that can proceed: its place and what it holds. -/
def State.firstFree (s : State) (k : Nat) : List Stalled → Option Stalled
  | [] => none
  | x :: r =>
    let d := s.sd k
    let free := match x.task with
      | some (t, _) => d.passed t || (d.bpBound t).isNone
      | none => (s.seqPost k x.post.1 x.post.2.1 x.post.2.2).isSome
    if free then some x else State.firstFree s k r

/-- A bound has cleared: the longest-held producer that can proceed does so. -/
def execBackpressureEnd (sched : SchedNo) (s : State) : Out :=
  let k := sched.val
  if !s.schedRuns k then .next s
  else match s.firstFree k (s.sd k).stalled with
    | none => .next s
    | some x =>
      let s := s.modSd k fun d => { d with stalled := d.stalled.erase x }
      let s := s.trace k (x.event 9)
      match x.task with
      | some (t, last) => .next ((s.enqueue k t last).afterSched k)
      | none =>
        .next ((((s.seqPost k x.post.1 x.post.2.1 x.post.2.2).getD s).settleSd k).afterSched k)

/-! ### Posts (R214, R215) -/

def execTaskPost (sched : SchedNo) (task : BitVec 16) (bits : BitVec 32) (s : State) : Out :=
  let k := sched.val
  if s.schedRuns k then .next (((s.taskPost k task.toNat bits.toNat).settleSd k).afterSched k) else .next s

def execSequencePost (sched : SchedNo) (flow : BitVec 12) (seq : BitVec 24) (bits : BitVec 32) (s : State) : Out :=
  let k := sched.val
  if !s.schedRuns k then .next s
  else match s.seqPost k flow.toNat seq.toNat bits.toNat with
    | some s => .next ((s.settleSd k).afterSched k)
    | none => .next (s.holdBack k { producer := 0xFFF, bound := 3, post := (flow.toNat, seq.toNat, bits.toNat) })

def execFlowPost (sched : SchedNo) (flow : BitVec 12) (bits : BitVec 32) (s : State) : Out :=
  let k := sched.val
  if s.schedRuns k then .next (((s.flowPost k flow.toNat bits.toNat).settleSd k).afterSched k) else .next s

/-! ### Dispatch and completion (R216, R217, R221) -/

def execTaskDispatch (sched : SchedNo) (agent : AgentId) (s : State) : Out :=
  let k := sched.val
  if s.schedRuns k then .next ((s.dispatch k agent.toNat).afterSched k) else .next s

def execTaskComplete (sched : SchedNo) (agent : AgentId) (task : BitVec 16) (s : State) : Out :=
  let k := sched.val
  let a := agent.toNat
  let i := task.toNat % 2048
  let gen := task.toNat / 2048
  let live := (s.sd k).tasks.find i |>.filter fun t => t.gen == gen && t.agent == some a
  let late := (s.sd k).held.find i |>.filter fun g => g.gen == gen && g.agent == a
  if !s.schedRuns k then .next s
  else
    let s := s.completeTask k a task.toNat
    let s := match live, late with
      | some t, _ => s.taskDone k t
      | none, some g => s.lateWrite k g
      | none, none => s
    .next (s.afterSched k)

/-! ### Cancels (R219, R224, R225) -/

def execTaskCancel (sched : SchedNo) (task : BitVec 16) (s : State) : Out :=
  let k := sched.val
  let id := task.toNat
  if !s.schedRuns k then .next s
  else
    let live := match (s.sd k).tasks.find (id % 2048) with | some t => t.gen == id / 2048 | none => false
    .next ((if live then s.cancelTask k (id % 2048) false else s.stale k).afterSched k)

def execFlowSquash (sched : SchedNo) (flow : BitVec 12) (seq : BitVec 24) (s : State) : Out :=
  let k := sched.val
  if s.schedRuns k then .next ((s.squash k flow.toNat seq.toNat).afterSched k) else .next s

/-- Every task with `DL_CANCEL` that has not been dispatched and whose deadline device time has reached expires. -/
def execDeadlineExpiry (sched : SchedNo) (s : State) : Out :=
  let k := sched.val
  if !s.schedRuns k then .next s
  else
    let hit := ((s.sd k).tasks.sel fun _ t => t.dlCancel && t.agent.isNone && s.reached t.deadline).keys
    .next ((hit.foldl (fun s i => s.cancelTask k i true) s).afterSched k)

/-! ### Keeper locks taken directly (R228, R229) -/

/-- An agent that may take a lock outside a task: a controller or an external agent. -/
def directAgent (k a : Nat) : Bool := agentExists k a && (a / 512 == 5 || a / 512 == 6)

def execDirectLockAcquire (sched : SchedNo) (agent : AgentId) (lock : BitVec 8) (s : State) : Out :=
  let k := sched.val
  let a := agent.toNat
  let l := lock.toNat
  let g := (s.sd k).locks.look {} l
  if !s.schedRuns k || !directAgent k a || g.owner == some (a, 0) || g.direct.any (·.agent == a) then .next s
  else
    let s := s.modSd k fun d => { d with
      clock := d.clock + 1
      locks := d.locks.modD {} l fun g => { g with direct := g.direct ++ [{ agent := a, order := d.clock + 1 }] } }
    .next ((s.settleSd k).afterSched k)

def execDirectLockRelease (sched : SchedNo) (agent : AgentId) (lock : BitVec 8) (s : State) : Out :=
  let k := sched.val
  let a := agent.toNat
  let l := lock.toNat
  if s.schedRuns k && ((s.sd k).locks.look {} l).owner == some (a, 0) then
    let ev : TraceEvent := { type := 6, agent := a, detail := l, direct := true }
    .next (((s.releaseLock k l ev).settleSd k).afterSched k)
  else .next s

/-! ### The task watchdog (R231 to R233) -/

/-- An abort is counted and reported at most once per 1 ms per scheduler. -/
def State.noteAbort (s : State) (k a id : Nat) : State :=
  let s := s.modSd k fun d => { d with
    aborted := d.aborted + 1, abortsSince := d.abortsSince + 1
    firstAbort := if d.abortsSince = 0 then (a, id) else d.firstAbort
    aborts := d.aborts.modD [] a fun l => (l.filter fun t => decide (s.now < t + 1000000000)) ++ [s.now] }
  let d := s.sd k
  let due := match d.lastAbortEvent with | some t => decide (t + 1000000 ≤ s.now) | none => true
  if due then
    (s.modSd k fun d => { d with abortsSince := 0, lastAbortEvent := some s.now }).raise evTaskAborted (schedHandle k)
      (d.firstAbort.1 + d.firstAbort.2 * 65536 + d.abortsSince * 2 ^ 32)
  else s

/-- An agent that has aborted 3 tasks within 1 s is fenced (R232). -/
def State.fenceAgent (s : State) (k a : Nat) : State :=
  if ((s.sd k).aborts.look [] a).length < 3 || (s.sd k).fenced.contains a then s
  else
    let s := (s.modSd k fun d => { d with fenced := d.fenced ++ [a] }).raise evAgentFenced (schedHandle k) a
    if k = 8 then s
    else if h : a < 256 then s.elementFails k (.pixelEngine ⟨a, h⟩)
    else if h : a - 512 < 16 then (if a / 512 = 1 then s.elementFails k (.msu ⟨a - 512, h⟩) else s)
    else if a / 512 = 2 ∨ a / 512 = 3 then s.dieFault k 3
    else s

/-- A row begins again after an abort on a die, with those after it; on a mitre pair on both dies (R233; log entry 205). -/
def State.abortRow (s : State) (k h key : Nat) : State :=
  let s := s.modCh h fun c => c.squashRows key
  let s := ((s.ch h).dies.filter (· != k)).foldl (fun s d => s.squashRow h d key) s
  s.proceed h

/-- The coding core gets the `ABORTED` record of a row's task: the row's tasks are made ready again, with the same row QP and
stage (R233). -/
def State.rowAborted (s : State) (k : Nat) (t : Task) : State :=
  match (s.sd k).flows.find t.flow with
  | none => s
  | some f =>
    if f.role != 1 then s
    else
      let s := s.modSd k fun d => { d with flows := d.flows.upd t.flow fun f =>
        { f with ends := f.ends.filter fun e => !seqAfter t.seq e } }
      let s := s.squashAgain k t.flow t.seq
      let c := s.ch f.chan
      match c.rows.find? fun e => e.1 % 2 ^ 24 == t.seq && !e.2.judged with
      | some (key, _) => s.abortRow k f.chan key
      | none => s

/-- A task outlasts its class watchdog: it is aborted and its agent reset. Watchdogs pause while the die's DRAM changes its
operating point (R420). -/
def execTaskWatchdog (sched : SchedNo) (agent : AgentId) (s : State) : Out :=
  let k := sched.val
  let a := agent.toNat
  let late (cls started : Nat) : Bool := decide (started + watchdogNs cls < s.now)
  let ctrl (s : State) : State := if k != 8 && a / 512 == 5 then s.dieFault k 1 else s
  if !s.schedRuns k || (s.mem.dies.look {} k).changing.isSome then .next s
  else match (s.sd k).tasks.find? fun e => e.2.agent == some a && late e.2.cls e.2.started with
    | some (i, t) =>
      let s := s.finishTask k i t .aborted
      let s := (s.noteAbort k a (taskIdOf i t.gen)).rowAborted k t
      let s := ((s.freePort k a).noteOccupancy k).settleSd k
      .next (ctrl ((s.fenceAgent k a).afterSched k))
    | none => match (s.sd k).held.find? fun e => e.2.agent == a && late e.2.cls e.2.started with
      | some (i, g) =>
        let s := s.modSd k fun d => ({ d with held := d.held.del i } : Sched).freeIndex i s.now
        let s := match g.lock with | some l => s.breakLock k l 3 { type := 7, flow := g.flow, seq := g.seq, prio := g.prio } | none => s
        let s := s.noteAbort k a (taskIdOf i g.gen)
        let s := ((s.freePort k a).noteOccupancy k).settleSd k
        .next (ctrl ((s.fenceAgent k a).afterSched k))
      | none => .next s

end Sys2Proof.Machine
end

