-- ==== Sys2Proof/Machine/Health.lean ====
section
/-!
DEFINITION. Heartbeats, in-service self-test, die repair, uncorrectable errors, link stalls and thermal limits (Start-up,
Recovery, Fail-over and Self-test, R494 to R504; Memory, R415; Architecture, R25).
-/

namespace Sys2Proof.Machine

open Sys2Proof (Byte Submission DieNo DramNo ErrorRegion SliceResult Junctions Element)

/-- An encode die in service: not fenced or held, and it has reported READY. -/
def State.dieServes (s : State) (d : Nat) : Bool :=
  !s.boot.held && decide (d < s.dies) && !bit s.boot.diesFenced d && bit s.boot.diesReady d

/-! ### Heartbeats (R494) -/

def execDieHeartbeat (d : DieNo) (core : Fin 2) (s : State) : Out :=
  if s.dieServes d.val then
    .next (s.modHealth d.val fun h => if core.val = 0 then { h with beat0 := s.now } else { h with beat1 := s.now })
  else .next s

/-- Four heartbeats of a core have been missed: 1 ms without one. -/
def execHeartbeatTimeout (d : DieNo) (s : State) : Out :=
  let h := s.boot.health.look {} d.val
  if s.dieServes d.val && (decide (h.beat0 + 1000000 ≤ s.now) || decide (h.beat1 + 1000000 ≤ s.now)) then .next (s.dieFault d.val 1)
  else .next s

/-! ### In-service self-test (R500 to R502) -/

/-- Slices of one cycle. -/
def cycleSlices : Nat := 572

/-- The element that a slice tests: pixel engines, MSUs, filter units, four slices for each SRAM bank, scheduler RAM. -/
def sliceElement (i : Nat) : Element :=
  if i < 256 then .pixelEngine (Fin.ofNat 256 i)
  else if i < 272 then .msu (Fin.ofNat 16 (i - 256))
  else if i < 276 then .filterUnit (Fin.ofNat 4 (i - 272))
  else if i < 540 then .sramBank (Fin.ofNat 66 ((i - 276) / 4))
  else .schedulerRam (Fin.ofNat 32 (i - 540))

/-- The element is fenced already. -/
def DieHealth.fenced (h : DieHealth) (e : Element) : Bool :=
  match e with
  | .pixelEngine n => h.enginesFenced.contains n.val
  | .msu n => h.msusFenced.contains n.val
  | .filterUnit n => h.filtersFenced.contains n.val
  | .sramBank n => h.banksFenced.contains n.val
  | .schedulerRam n => h.ramsFenced.contains n.val

/-- A die starts its slice of the next 50 ms period; one still in progress is deferred and counted. -/
def execIsstSliceStart (d : DieNo) (s : State) : Out :=
  let h := s.boot.health.look {} d.val
  if !s.dieServes d.val || decide (s.now < h.period + 50000000) then .next s
  else .next (s.modHealth d.val fun h => { h with
    period := s.now, sliceStart := some s.now, deferred := h.deferred + b2n h.sliceStart.isSome })

/-- The slice in progress ends. A deferred element is tried again at the next period. -/
def execIsstSliceEnd (d : DieNo) (result : SliceResult) (s : State) : Out :=
  let h := s.boot.health.look {} d.val
  if !s.dieServes d.val || h.sliceStart.isNone then .next s
  else if result = .deferred then
    .next (s.modHealth d.val fun h => { h with sliceStart := none, deferred := h.deferred + 1 })
  else
    let e := sliceElement h.slice
    let wrap := h.slice + 1 == cycleSlices
    let s := s.modHealth d.val fun h => { h with
      sliceStart := none, slices := h.slices + 1, slice := if wrap then 0 else h.slice + 1
      fails := h.fails + b2n (result == .fail)
      lastCycleMs := if wrap then (s.now - h.cycleStart) / 1000000 else h.lastCycleMs
      cycleStart := if wrap then s.now else h.cycleStart }
    .next (if result = .fail ∧ !h.fenced e then s.elementFails d.val e else s)

/-! ### Die repair (R499) -/

/-- `DIE.REPAIR`: the boot BIST of a fenced die. -/
def specDieRepair : EciSpec where
  opcode := 0x0D03
  target := .object [tDie]
  pf0Only := true
  run k s :=
    let d := handleDie k.tok.handle
    checked s [(d == 0xFF, { status := .eBadHandle }),
        (!bit s.boot.diesFenced d || s.boot.repairing.contains d, { status := .eState })] fun _ =>
      .wait (.dieRepair d) {} (s.modBoot fun b => { b with repairing := b.repairing ++ [d] })

def execDieRepair (c : Submission) (s : State) : Out := runEci specDieRepair c s

/-- The die has reloaded its firmware and recipes and returns to service, with nothing fenced and no channel. -/
def State.dieReturns (s : State) (d : Nat) : State :=
  let s := s.modBoot fun b => { b with
    diesFenced := clearBit b.diesFenced d, diesFaulted := clearBit b.diesFaulted d, diesReady := setBit b.diesReady d }
  let s := s.modHealth d fun h => { token := h.token, beat0 := s.now, beat1 := s.now, period := s.now, cycleStart := s.now }
  let s := s.modDie d fun m => { m with spares := 0 }
  s.modChan fun x => { x with msuServing := x.msuServing.sel fun k _ => k / 16 != d }

/-- The repair BIST ends. -/
def execDieRepairBistDone (d : DieNo) (pass : Bool) (s : State) : Out :=
  if !s.boot.repairing.contains d.val then .next s
  else
    let s := s.modBoot fun b => { b with repairing := b.repairing.filter (· != d.val) }
    let s := if pass then s.dieReturns d.val else s
    .next (s.completeRunning (fun r => r.await == .dieRepair d.val)
      fun r => if pass then r.reply else { r.reply with status := eRepair })

/-! ### Uncorrectable errors (R415, R433 to R435) -/

/-- Region codes of `EV_MEM_UNCORR`. -/
def regionCode : ErrorRegion → Nat
  | .workingSet _ => 0
  | .code => 1
  | .journal => 2
  | .failoverState _ => 3
  | .hostBuffer => 4
  | .sram _ => 5
  | .mailbox _ => 6
  | .packetBuffer => 7

/-- The packet concerned is dropped and counted: the first of the lowest class that holds one, at the port. -/
def NetPort.dropFirst (p : NetPort) : NetPort :=
  match p.queues.find? fun q => !q.2.isEmpty with
  | some (c, q) => { p with queues := p.queues.put c q.tail, pbDropped := p.pbDropped + 1 }
  | none => { p with pbDropped := p.pbDropped + 1 }

def State.dropPacket (s : State) (port : Nat) : State :=
  s.modNet fun n => { n with ports := n.ports.modD {} port NetPort.dropFirst }

/-- A line that cannot be corrected is reported, and its region says what follows. The journal, the fail-over states, the
mailbox and the packet buffer are the hub's; code there is hub firmware. `line` is its address divided by 64: for a
host-visible buffer its BAR2 line, for the mailbox its SRAM word. -/
def execDramUncorrectable (die : DramNo) (region : ErrorRegion) (line : BitVec 32) (s : State) : Out :=
  let d := match region with
    | .journal | .failoverState _ | .mailbox _ | .packetBuffer => 0xFF
    | _ => dramKey die
  if !s.dramRuns d then .next s
  else
    let at_ := match region with | .mailbox _ => line.toNat / 16 | _ => line.toNat
    let s := (s.modDie d fun m => { m with uncorrected := m.uncorrected + 1 }).raise evMemUncorr (memHandle d)
      (regionCode region + at_ * 2 ^ 32)
    match region with
    | .workingSet _ | .sram _ => .next (if d = 0xFF then s else s.dieFault d 2)
    | .code => .next (if d != 0xFF then s.dieFault d 2 else if s.firmwareRuns then s.fencePrimary else s)
    | .journal => .next (if s.firmwareRuns then s.fencePrimary else s)
    | .failoverState ch => .next (s.modCh ch.toNat fun c => { c with failState := c.failPrev })
    | .hostBuffer => .next (s.modDie d fun m => { m with
        poisoned := if m.poisoned.contains line.toNat then m.poisoned else m.poisoned ++ [line.toNat] })
    | .mailbox _ => .next (s.mbxStore (4 * (line.toNat % 16384)) (le 4 0))
    | .packetBuffer => .next (s.dropPacket (line.toNat % 18))

/-! ### Link stalls (R25) -/

/-- A direction of a link makes no progress for 50 µs: the die that should send there is faulted. -/
def execDowelStall (link : Fin 16) (s : State) : Out :=
  let l := link.val
  let d := linkDie l
  if s.dieServes d then .next (s.dieFault d 4 (if l % 2 = 1 then 2 else 1)) else .next s

/-! ### Thermal limits (R503, R504) -/

/-- The thermal alert's threshold in 0.1 °C. -/
def Boot.alertAt (b : Boot) : Int := if b.fuses.grade = 0 then 950 else 1000

/-- The hottest junction and whose it is: a die, or 0xFF for the hub. -/
def hottest (js : List Int) : Nat × Int :=
  let best := (List.range js.length).foldl (fun b i => if js.getD b 0 < js.getD i 0 then i else b) 0
  (if best = 8 then 0xFF else best, js.getD best 0)

def execThermalSample (junctions : Junctions) (s : State) : Out :=
  let dies := (junctions.dies ++ List.replicate 8 250).take 8
  let s := s.modBoot fun b => { b with junctions := dies ++ [junctions.hub] }
  if !s.planeRuns then .next s
  else
    let seen := dies.mapIdx fun i t => if i < s.dies ∧ !bit s.boot.diesFenced i then t else -2000
    let (who, t) := hottest (seen ++ [junctions.hub])
    let detail := who * 256 + twos 16 t * 65536
    if !s.boot.thermAlert && decide (s.boot.alertAt ≤ t) then
      .next ((s.modBoot fun b => { b with thermAlert := true }).raise evThermAlert deviceHandle (1 + detail))
    else if s.boot.thermAlert && decide (t ≤ s.boot.alertAt - 50) then
      .next ((s.modBoot fun b => { b with thermAlert := false }).raise evThermAlert deviceHandle detail)
    else .next s

/-- The comparator of a die or of the hub (8) trips. -/
def execThermTrip (die : Fin 9) (s : State) : Out :=
  if die.val != 8 && decide (s.dies ≤ die.val) then .next s
  else
    let s := s.modBoot fun b => { b with thermTripLatch := true }
    .next (if s.boot.held ∨ s.boot.stage = .safe then s else s.enterSafe 0x50)

end Sys2Proof.Machine
end

