-- ==== Sys2Proof/Machine/Sessions.lean ====
section
/-!
DEFINITION. The network command channel: connections, the handshake, protected frames and the session commands (R63, R64,
R71, R459 to R461).
-/

namespace Sys2Proof.Machine

open Sys2Proof (Byte Submission)

/-- Change a session. -/
def State.modSession (s : State) (n : Nat) (f : Session → Session) : State :=
  s.modEci fun e => { e with sessions := e.sessions.upd n f }

/-- A connection is rejected: it closes without a reply, `EV_SESSION_REJECTED` is raised, and the eighth rejection within
60 s refuses connections for 10 s (R459). -/
def State.rejectSession (s : State) (n code : Nat) : State :=
  let now := s.now
  let s := s.modEci fun e =>
    let times := now :: e.rejections.filter fun t => decide (now < t + 60000000000)
    { e with sessions := e.sessions.del n
             rejections := if 8 ≤ times.length then [] else times
             lockoutUntil := if 8 ≤ times.length then some (now + 10000000000) else e.lockoutUntil }
  s.raise evSessionRejected deviceHandle code

/-- A TCP connection reaches the ECI port: refused during a lockout, and beside four sessions (log entry 38). -/
def execSessionConnect (conn : Fin 5) (port : BitVec 16) (s : State) : Out :=
  let n := conn.val
  if !s.firmwareRuns || port.toNat != s.eci.sessionPort then .next s
  else if s.eci.lockoutUntil.isSome then .next (s.raise evSessionRejected deviceHandle 5)
  else if 4 ≤ s.eci.sessions.length then .next (s.rejectSession 4 4)
  else if s.eci.sessions.has n || decide (4 ≤ n) then .next s
  else .next (s.modEci fun e => { e with sessions := e.sessions.put n { since := s.now } })

/-- H1 has the form of the handshake table. -/
def h1Ok (f : List Byte) : Bool :=
  u32 f 0 == 0x48535856 && u16 f 4 == 1 && zeros f 6 2 && decide (f.length = 0x7CA + u16 f 0x7C8)

/-- The controller's key and certificate of an H1. -/
def h1Key (f : List Byte) : List Byte := slice f 0x28 1952
def h1Cert (f : List Byte) : List Byte := slice f 0x7CA (u16 f 0x7C8)

/-- H1 is received: the device answers with H2, signed by IDK. A malformed H1 is rejected; its event code is open. -/
def execHandshakeH1 (conn : Fin 5) (frame : List (BitVec 8)) (s : State) : Out :=
  let n := conn.val
  match s.eci.sessions.find n with
  | none => .next s
  | some c =>
    if c.phase != .connected || !s.firmwareRuns || !s.boot.sec.spUp then .next s
    else if !h1Ok frame then .next (s.useFree.rejectSession n (Config.freeNat s.free % 256))
    else
      let body := slice (Config.trng s.free) 0 32 ++ s.idkCert ++ s.kdkCert
      let h2 := body ++ s.signIdk (sha3 (frame ++ body))
      .next ((s.modSession n fun c => { c with phase := .h2Sent, h1 := frame, h2 }).useFree)

/-- The function and the credential number of a controller key: an enabled entry of the credential table, or a kind 5
certificate of an owner slot (R460). -/
def State.credentialOf (s : State) (key cert : List Byte) : Option (Nat × Nat) :=
  match s.boot.flash.credentials.find? fun e => e.2.2.2 && e.2.1 == sha3 key with
  | some (i, _, f, _) => some (f, i + 1)
  | none =>
    let u := s.boot.fuses
    let body := slice cert 0 (0x60 + 1952)
    let good := u32 cert 0 == 0x54435856 && u8 cert 4 == 5 && u8 cert 5 == 1 &&
      (u64 cert 8 == 0 || u64 cert 8 == u.serial) && decide (u32 cert 0x10 ≤ 32) && slice cert 0x60 1952 == key
    let signer := [4, 5].any fun i => u.programmed i && !u.revoked i && slice cert 0x20 32 == u.hash i &&
      Config.mlDsaVerify 65 (Config.ownerKey (u.hash i)) body (slice cert (0x60 + 1952) 3309)
    if good && signer then some (u32 cert 0x10, 0) else none

/-- H3 is received: the controller's key and signature are checked and the session keys derived. -/
def execHandshakeH3 (conn : Fin 5) (frame : List (BitVec 8)) (s : State) : Out :=
  let n := conn.val
  match s.eci.sessions.find n with
  | none => .next s
  | some c =>
    if c.phase != .h2Sent || !s.firmwareRuns || !s.boot.sec.spUp then .next s
    else
      let ct := slice frame 0 1088
      match s.credentialOf (h1Key c.h1) (h1Cert c.h1) with
      | none => .next (s.rejectSession n 1)
      | some (f, cred) =>
        if frame.length ≠ 1088 + 3309 ∨
            !Config.mlDsaVerify 65 (h1Key c.h1) (sha3 (c.h1 ++ c.h2 ++ ct)) (slice frame 1088 3309) then
          .next (s.rejectSession n 2)
        else
          let ss := slice (Config.mlKemDecaps s.kemD s.kemZ ct) 0 32
          let k := sha3 (ss ++ sha3 (c.h1 ++ c.h2 ++ frame))
          .next (s.modSession n fun c => { c with
            phase := .established, fn := f, credential := cred, lastRecord := s.now
            rxKey := sha3 (label "C2D" ++ k), txKey := sha3 (label "D2C" ++ k) })

/-- The handshake has not completed within 5 s. -/
def execHandshakeTimeout (conn : Fin 5) (s : State) : Out :=
  match s.eci.sessions.find conn.val with
  | some c =>
    if c.phase != .established && decide (c.since + 5000000000 ≤ s.now) then .next (s.rejectSession conn.val 3) else .next s
  | none => .next s

def execConnectionLockoutEnd (s : State) : Out :=
  match s.eci.lockoutUntil with
  | some t => if t ≤ s.now then .next (s.modEci fun e => { e with lockoutUntil := none }) else .next s
  | none => .next s

/-- The records of a frame, each with its type and body; `n` bounds them (R63). -/
def recordsOf : Nat → List Byte → List (Nat × List Byte)
  | 0, _ => []
  | n + 1, f =>
    if f.length < 4 then []
    else (u8 f 0, (f.drop 4).take (u16 f 2)) :: recordsOf n (f.drop (4 + u16 f 2))

/-- The submission entry that 64 bytes hold. -/
def parseEntry (b : List Byte) : Submission :=
  { port := .ring 0 0
    flags := BitVec.ofNat 8 (u8 b 2), reserved03 := BitVec.ofNat 8 (u8 b 3), cmdId := BitVec.ofNat 16 (u16 b 4)
    reserved06 := BitVec.ofNat 16 (u16 b 6), handle := BitVec.ofNat 32 (u32 b 8), payloadLen := BitVec.ofNat 32 (u32 b 0xC)
    payloadAddr := BitVec.ofNat 64 (u64 b 0x10), responseAddr := BitVec.ofNat 64 (u64 b 0x18)
    responseLen := BitVec.ofNat 32 (u32 b 0x20), reserved24 := BitVec.ofNat 32 (u32 b 0x24)
    inlineBytes := slice b 0x28 24 }

/-- Submissions of a session that are not complete (R64). -/
def State.outstanding (s : State) (n : Nat) : Nat :=
  let mine (t : Token) : Bool := match t.via with | .session m _ => m == n && !t.mute | _ => false
  (s.eci.fetched.filter mine).length + (s.eci.running.filter fun r => mine r.cmd.tok).length

/-- A submission entry of a session is taken in: at most 64 are outstanding, and an unknown opcode completes at once. -/
def State.takeSubmit (s : State) (n : Nat) (e : List Byte) : State :=
  let c := s.eci.sessions.look {} n
  let t : Token := { via := .session n c.fn, seq := s.eci.nextSeq, opcode := u16 e 0, cmdId := u16 e 4, handle := u32 e 8
                     fence := bit (u8 e 2) 1, entry := some (parseEntry e) }
  let s := s.modEci fun x => { x with nextSeq := x.nextSeq + 1
                                      sessions := x.sessions.upd n fun c => { c with lastSubmit := some t.seq } }
  let k : Cmd := { tok := t, sub := parseEntry e }
  if 64 ≤ s.outstanding n then (s.hint { status := .eBusy }).1.complete k (s.hint { status := .eBusy }).2
  else if !knownOpcodes.contains t.opcode then s.complete k { status := .eBadOpcode }
  else s.modEci fun x => { x with fetched := x.fetched ++ [t] }

/-- A PAYLOAD record carries on the payload of the submission before it (R63). -/
def State.takePayload (s : State) (n : Nat) (b : List Byte) : State :=
  let mine := (s.eci.sessions.look {} n).lastSubmit
  let more (t : Token) : Token :=
    if mine = some t.seq then { t with entry := t.entry.map fun e => { e with extBytes := e.extBytes ++ b } } else t
  s.modEci fun x => { x with fetched := x.fetched.map more }

/-- A record from the controller: SUBMIT or PAYLOAD; the other types go the other way (R63). -/
def State.takeRecord (s : State) (n : Nat) (r : Nat × List Byte) : State :=
  if r.1 = 1 then s.takeSubmit n (slice r.2 0 64) else if r.1 = 2 then s.takePayload n r.2 else s

/-- A protected frame: its tag is checked, its counter advances, and its records are taken in order (R460). The session
closes when the tag fails and when either counter reaches 2^40. -/
def execProtectedFrame (n : Fin 4) (frame : List (BitVec 8)) (s : State) : Out :=
  match s.eci.sessions.find n.val with
  | none => .next s
  | some c =>
    if c.phase != .established || !s.firmwareRuns then .next s
    else match Config.gcmOpen c.rxKey (le 4 0 ++ le 8 c.rxCount) (le 4 frame.length) frame with
      | none => .next (s.closeSession n.val 2)
      | some plain =>
        let s := s.modSession n.val fun c => { c with rxCount := c.rxCount + 1, lastRecord := s.now }
        let s := (recordsOf plain.length plain).foldl (fun s e => s.takeRecord n.val e) s
        let spent := decide (2 ^ 40 ≤ c.rxCount + 1) || (s.eci.sessions.find n.val).any fun c => decide (2 ^ 40 ≤ c.txCount)
        .next (if spent then s.closeSession n.val 0 else s)

/-- No record for 10 s: the session closes (R71). -/
def execSessionIdleTimeout (n : Fin 4) (s : State) : Out :=
  match s.eci.sessions.find n.val with
  | some c =>
    if c.phase == .established && decide (c.lastRecord + 10000000000 ≤ s.now) then .next (s.closeSession n.val 1) else .next s
  | none => .next s

/-! ### Commands (R461) -/

/-- The session that a command came in by; 4, which none is, once it has closed. -/
def Cmd.session (k : Cmd) : Nat := match k.tok.via with | .session n _ => if k.tok.mute then 4 else n | _ => 0

def specSessionOpen : EciSpec where
  opcode := 0x0010
  target := .noObject
  fast := false
  sessionOnly := true
  form p _ := [(1, zeros p 1 1), (2, u16 p 2 == 0 || decide (1024 ≤ u16 p 2)), (4, zeros p 4 4)]
  run k s :=
    let p := k.payload
    let n := k.session
    checked s [(u8 p 0 != (s.eci.sessions.look {} n).fn, { status := .eDenied }),
        ((s.eci.sessions.look {} n).opened, { status := .eState })] fun _ =>
      let s := s.modSession n fun c => { c with opened := true }
      let s := if u16 p 2 = 0 then s
        else (s.modEci fun e => { e with sessionPort := u16 p 2 }).modBoot fun b =>
          { b with flash := { b.flash with sessionPort := some (u16 p 2) } }
      ok s { response := le 1 n }

def execSessionOpen (c : Submission) (s : State) : Out := runEci specSessionOpen c s

/-- The completion is sent, then the connection closes. -/
def specSessionClose : EciSpec where
  opcode := 0x0011
  target := .noObject
  fast := false
  sessionOnly := true
  run k s := ok (s.modSession k.session fun c => { c with closing := true })

/-- Close a session whose `SESSION.CLOSE` has completed. -/
def Out.closeAfter : Out → Out
  | .next s => .next ((s.eci.sessions.sel fun _ c => c.closing).keys.foldl (fun s n => s.closeSession n 0) s)
  | o => o

def execSessionClose (c : Submission) (s : State) : Out := Out.closeAfter (runEci specSessionClose c s)

def specSessionKeepalive : EciSpec where
  opcode := 0x0012
  target := .noObject
  fast := false
  sessionOnly := true
  run _ s := ok s

def execSessionKeepalive (c : Submission) (s : State) : Out := runEci specSessionKeepalive c s

end Sys2Proof.Machine
end

