-- ==== Sys2Proof/Machine/EciTable.lean ====
section
/-!
DEFINITION. The table of ECI commands by opcode (Command Interface, R58), and the fast path, whose request in the mailbox
names its command by opcode (R51 to R53).
-/

namespace Sys2Proof.Machine

open Sys2Proof (Byte Fn Submission)

def eciDeviceCmds : List EciSpec :=
  [specDeviceIdentify, specDeviceStatus, specDeviceEventMask, specQueueCreate, specQueueDelete,
   specObjectList, specObjectReassign, specDeviceVfQuota, specDeviceRestart, specDeviceNop]

def eciSessions : List EciSpec :=
  [specSessionOpen, specSessionClose, specSessionKeepalive]

def eciChannels : List EciSpec :=
  [specChannelCreate, specChannelAdmitCheck, specChannelSet, specChannelStart, specChannelStop,
   specChannelDestroy, specChannelQuery, specSlotTableSet, specSlotTableGet, specSlateCreate,
   specSlateDestroy, specDieLoad]

def eciCoding : List EciSpec :=
  [specCodingTools, specCodingToolsGet, specAnalysisSet, specAnalysisQuery, specRecipeInfo,
   specCodingStructure, specCodingSei, specCodingStructureGet, specRcSet, specRcGet,
   specRcQuery, specDelayQuery]

def eciCompose : List EciSpec :=
  [specComposeSet, specLayerCreate, specLayerSet, specLayerCommit, specLayerDestroy,
   specLayerQuery, specRenditionScale, specScalerCoefSet, specScalerCoefGet]

def eciSchedCmds : List EciSpec :=
  [specSchedStatus, specSchedLocks, specSchedFlows, specTraceCreate, specTraceStart,
   specTraceStop, specTraceStatus, specTraceDestroy]

def eciDecodeCh : List EciSpec :=
  [specDecodeCreate, specDecodeSubmit, specDecodeReturn, specDecodeQuery, specChannelMode,
   specPicSubmit, specRefRing, specJigSet, specStatsSet, specStatsRead,
   specCheckBind, specCheckUnbind, specCheckExpect, specCheckQuery]

def eciAudio : List EciSpec :=
  [specAudioPortSet, specAudioPortSlots, specAudioPortQuery, specFrameClockSet, specAudioProgramCreate,
   specAudioProgramSet, specAudioProgramDestroy, specAudioProgramQuery, specAsrcQuery, specAudioRateQuery,
   specAudioEmbedSet]

def eciNet : List EciSpec :=
  [specIngressCreate, specIngressDestroy, specIngressQuery, specEgressCreate, specEgressSet,
   specEgressDestroy, specEgressQuery, specEgressProvenance, specEgressKey, specEgressImpair,
   specShaperSet, specGatelistSet, specGatelistQuery, specPolicerCreate, specPolicerSet,
   specPolicerDestroy, specPortAddr, specArbiterMode]

def eciTime : List EciSpec :=
  [specTimeQuery, specServoSet, specServoReset, specPtpSet, specPtpPortSet,
   specPpsSet, specTimeSetTod, specDomainSet, specChannelAlign, specAlignQuery]

def eciLane : List EciSpec :=
  [specLaneSet, specLaneTrain, specLaneQuery, specLaneTaps, specSdiOutSet]

def eciMemCmds : List EciSpec :=
  [specMemQuery, specMemSet, specMemFreq, specMemCopy]

def eciSecurity : List EciSpec :=
  [specSecQuote, specSecCerts, specProvKey, specKeyImport, specKeyDestroy,
   specSecLcAdvance, specSecOwnerKeyAdd, specSecKeyRevoke, specSecSvnCommit, specSecDebugChallenge,
   specSecDebugUnlock, specSecTamperSet, specSecTamperLog, specSecTamperClear, specSecCounter,
   specSecCredSet, specDeviceImageLoad]

def eciMp : List EciSpec :=
  [specMpRepair, specHealthQuery, specBootSlotSet, specIsstQuery, specKaLog,
   specThermQuery]

def eciHealth : List EciSpec :=
  [specDieRepair]

/-- Every ECI command. -/
def eciTable : List EciSpec :=
  eciDeviceCmds ++ eciSessions ++ eciChannels ++ eciCoding ++ eciCompose ++ eciSchedCmds ++
    eciDecodeCh ++ eciAudio ++ eciNet ++ eciTime ++ eciLane ++
    eciMemCmds ++ eciSecurity ++ eciMp ++ eciHealth

/-- The description of an opcode. -/
def specOf (op : Nat) : Option EciSpec := eciTable.find? fun e => e.opcode == op

/-- Firmware serves the request at the head of a function's fast-path queue, once no earlier command on the same object has
yet to start: it writes the response and the completion into the slot. -/
def execFastPathServe (f : Fn) (s : State) : Out :=
  match (s.fn f.val).fastQueue with
  | [] => .next s
  | slot :: rest =>
    let b := s.eci.mailbox.load (fastSlot f.val slot) 64
    let sub : Submission := { parseEntry b with responseAddr := 0, responseLen := 0 }
    let t : Token := { via := .fast f.val slot, seq := s.eci.nextSeq, opcode := u16 b 0, cmdId := u16 b 4, handle := u32 b 8
                       fence := false }
    if !(s.fn f.val).rdy || !s.mayStart t then .next s
    else
      let s := (s.modFn f.val fun g => { g with fastQueue := rest }).modEci fun x => { x with nextSeq := x.nextSeq + 1 }
      let k : Cmd := { tok := t, sub }
      match specOf t.opcode with
      | none => .next (s.complete k { status := .eBadOpcode })
      | some e => .next (Answer.settle k (e.serve k s))

end Sys2Proof.Machine
end

