-- ==== Sys2Proof/Machine/NetData.lean ====
section
/-!
DEFINITION. Frames received and sent: ingress matching, policing and merging; refill ticks; transmission; gates; manifests;
PTP messages; lines of SDI inputs that egress streams carry (Ingest, Egress and Traffic; Device Time; Serial Lanes).
-/

namespace Sys2Proof.Machine

open Sys2Proof (Byte RxFrame PtpSend SdiLine)

/-! ### Ingress (R321 to R327, R352, R432) -/

def State.ing (s : State) (h : Nat) : Ingress := s.net.ingress.look {} h
def State.modIng (s : State) (h : Nat) (f : Ingress → Ingress) : State :=
  s.modNet fun n => { n with ingress := n.ingress.upd h f }

/-- An IP address of a payload, big-endian as a number. -/
def addrAt (p : List Byte) (off : Nat) : Nat := (slice p off 16).foldl (fun a b => 256 * a + b.toNat) 0

/-- A path of a stream takes a frame that arrives on a port. -/
def Ingress.takes (g : Ingress) (path port : Nat) (f : RxFrame) : Bool :=
  let p := g.payload
  let src := addrAt p (0x20 + 0x20 * path)
  (path == 0 || u8 p 1 == 3) && u8 p (2 + path) == port && addrAt p (0x10 + 0x20 * path) == f.dest.toNat &&
    u16 p (6 + 2 * path) == f.udp.toNat && (src == 0 || src == f.source.toNat)

/-- The streams, each with its path, that a frame matches (R323). -/
def State.ingressMatches (s : State) (port : Nat) (f : RxFrame) : List (Nat × Nat) :=
  s.net.ingress.filterMap fun e =>
    if e.2.takes 0 port f then some (e.1, 0) else if e.2.takes 1 port f then some (e.1, 1) else none

/-- A policer judges a frame: whether it goes on (R352). -/
def State.police (s : State) (target bytes : Nat) : Bool × State :=
  match s.net.policers.find? fun e => e.2.target == target with
  | none => (true, s)
  | some (h, g) =>
    if 0 ≤ g.tokens then
      (true, s.modNet fun n => { n with policers := n.policers.upd h fun g => { g with tokens := g.tokens - wireTokens bytes } })
    else if g.action = 1 then (true, s.modNet fun n => { n with policers := n.policers.upd h fun g => { g with drops := g.drops + 1 } })
    else
      let due := match g.lastEvent with | some t => decide (t + 1000000000 ≤ s.now) | none => true
      let g' : Policer := { g with
        drops := g.drops + 1, since := if due then 0 else g.since + 1, lastEvent := if due then some s.now else g.lastEvent }
      let s := s.modNet fun n => { n with policers := n.policers.put h g' }
      (false, if due then s.raise evPolicerDrop h (g.since + 1) else s)

/-- A packet arrives on a path. -/
def Path.arrive (p : Path) (now : Nat) : Path :=
  { p with last := some now
           runSince := if p.up then none
             else if p.last.any (fun t => decide (now < t + 100000000)) then some (p.runSince.getD now) else some now }

/-- A sequence number is taken, or is a copy; those skipped will be declared lost `w` later (R325, R326). -/
def Ingress.takeSeq (g : Ingress) (seq now w : Nat) : Ingress :=
  match g.high with
  | none => { g with high := some (65536 + seq) }
  | some hi =>
    let d := (seq + 65536 - hi % 65536) % 65536
    if d = 0 ∨ 32768 ≤ d then
      let x := hi + d - (if d = 0 then 0 else 65536)
      if g.missing.any fun m => m.1 == x then { g with missing := g.missing.filter fun m => m.1 != x }
      else { g with duplicates := g.duplicates + 1 }
    else { g with high := some (hi + d)
                  missing := g.missing ++ (List.range (d - 1)).map fun i => (hi + 1 + i, now + w) }

/-- The 90 kHz count of a timestamp that is nearest the arrival, as device time (R324). -/
def State.unwrapTime (s : State) (ts : Nat) : Int :=
  let now : Int := ((s.now : Int) - s.tEp) * 9 / 100000
  s.tEp + (now + sgn 32 (twos 32 ((ts : Int) - now))) * 100000 / 9

/-- The first packet of a picture of kind 0: where its time lies far from its arrival, capture times follow arrival (R324). -/
def State.pictureTime (s : State) (h ts : Nat) : State :=
  let g := s.ing h
  if g.rtpTime = some ts then s
  else
    let tp := s.unwrapTime ts
    let d := tp - s.now
    let far := u8 g.payload 4 == 0 && decide (100000000 < d ∨ d < -100000000)
    let due := match g.lastTiming with | some t => decide (t + 1000000000 ≤ s.now) | none => true
    let s := s.modIng h fun g => { g with
      rtpTime := some ts, picTime := tp, fallback := far, lastTiming := if far && due then some s.now else g.lastTiming }
    if far && due then s.raise evIngressTiming h (twos 32 (d / 1000)) else s

/-- A whole access unit goes to the decode channel that the stream feeds (R245, R327). -/
def State.toDecoder (s : State) (h : Nat) (data : List Byte) (lost : Bool) : State :=
  let take (d : Decoder) : Decoder := if d.source = h then { d with submitted := d.submitted ++ [{ data, lost }] } else d
  s.modDec fun d => { d with decoders := d.decoders.mapV fun _ g => take g }

/-- TS packets of a datagram: the PES that end go on. -/
def State.takeTs (s : State) (h : Nat) : List (List Byte) → State
  | [] => s
  | b :: r =>
    let g := s.ing h
    let (pes, out) := g.pes.take (u16 g.payload 0x0A) b
    let s := s.modIng h fun g => { g with pes }
    let s := match out with
      | some (au, lost) => s.toDecoder h au lost
      | none => s
    s.takeTs h r

/-- Codec of a coded stream: kind 9 carries that of the decode channel that takes it. -/
def State.ingressCodec (s : State) (h : Nat) : Nat :=
  let kind := u8 (s.ing h).payload 0
  if kind = 5 then 0 else if kind = 6 then 1
  else match s.dec.decoders.find? fun e => e.2.source == h with
    | some e => (s.ch e.1).cfg.codec
    | none => 0

/-- A packet whose turn has come is taken apart (R327): an access unit of kinds 5, 6 and 9 ends at the marker. -/
def State.handOn (s : State) (h : Nat) (d : List Byte) : State :=
  let kind := u8 (s.ing h).payload 0
  match readRtp d with
  | none => s
  | some r =>
    if kind = 7 then s.takeTs h (tsSplit r.payload)
    else
      let u := (s.ing h).unit.take (s.ingressCodec h) r.payload
      if r.marker then
        (s.modIng h fun g => { g with unit := {} }).toDecoder h (byteStream u.nals) (u.lost || u.frag.isSome)
      else s.modIng h fun g => { g with unit := u }

/-- Packets are handed on in sequence; a lost one leaves a gap. `n` bounds them. -/
def State.handOnAll (s : State) (h : Nat) : Nat → State
  | 0 => s
  | n + 1 =>
    let g := s.ing h
    match g.next, g.high with
    | some q, some hi =>
      match g.ready.find q with
      | some d => ((s.modIng h fun g => { g with ready := g.ready.del q, next := some (q + 1) }).handOn h d).handOnAll h n
      | none =>
        if hi < q || g.missing.any (fun m => m.1 == q) then s
        else (s.modIng h fun g => { g with next := some (q + 1), unit := g.unit.gap }).handOnAll h n
    | _, _ => s

/-- The extended sequence number that a stream has just taken, or none for a copy. -/
def Ingress.newSeq (g : Ingress) (seq : Nat) : Option Nat :=
  match g.high with
  | none => some (65536 + seq)
  | some hi =>
    let d := (seq + 65536 - hi % 65536) % 65536
    if d = 0 then none
    else if 32768 ≤ d then (let x := hi + d - 65536; if g.missing.any fun m => m.1 == x then some x else none)
    else some (hi + d)

/-- An RTP packet that a stream takes: a copy is discarded; of the coded kinds it waits for its turn. -/
def State.takeRtp (s : State) (h w : Nat) (d : List Byte) : State :=
  match readRtp d with
  | none => s
  | some r =>
    let g := s.ing h
    let kind := u8 g.payload 0
    let fresh := g.newSeq r.seq
    let s := s.modIng h fun g => g.takeSeq r.seq s.now w
    let s := if kind = 0 ∧ fresh.isSome then s.pictureTime h r.time else s
    match fresh with
    | some q =>
      if kind < 5 then s
      else (s.modIng h fun g => { g with ready := g.ready.put q d, next := some (g.next.getD q) }).handOnAll h 70000
    | none => s

/-- A packet that a stream takes. -/
def State.ingressTake (s : State) (h path : Nat) (f : RxFrame) : State :=
  let g := s.ing h
  let p := g.payload
  let w := if u8 p 1 = 3 then max 100000 (u8 p 5 * 1000000) else 100000
  let s := s.modIng h fun g => { g with
    packets := g.packets + 1, bytes := g.bytes + f.bytes.toNat
    paths := g.paths.mapIdx fun i x => if i = path then x.arrive s.now else x }
  let s := if u8 p 0 = 8 then s.takeTs h (tsSplit f.data) else s.takeRtp h w f.data
  if u8 p 0 = 1 ∨ u8 p 0 = 4 then s.captionPacket h f.captionTime.toNat f.captions else s

/-- Traffic above the ingress share is dropped at the port's FIFO and reported at most once per second (R432). -/
def State.dropIngress (s : State) (i : Nat) : State :=
  let p := s.np i
  let due := match p.lastPb with | some t => decide (t + 1000000000 ≤ s.now) | none => true
  let s := s.modNp i fun p => { p with
    pbDropped := p.pbDropped + 1, pbSince := if due then 0 else p.pbSince + 1, lastPb := if due then some s.now else p.lastPb }
  if due then s.raise evPbDrop (memHandle 0xFF) (i + (p.pbSince + 1) * 2 ^ 32) else s

/-- A stream judges a frame that it matches: checksum, then policer (R322, R352). -/
def State.ingressFrame (s : State) (f : RxFrame) (h path : Nat) : State :=
  if f.badChecksum then s.modIng h fun g => { g with checksumDrops := g.checksumDrops + 1 }
  else
    let (pass, s) := s.police h f.bytes.toNat
    if pass then s.ingressTake h path f else s.modIng h fun g => { g with policerDrops := g.policerDrops + 1 }

/-- A frame is received at a port. Errors of its lane count first; an uncorrectable codeword spoils the frame, and frames with a
bad check sequence are discarded and counted at the port and at the lane (R321, R396). A lane under test carries no frames: its
checker counts bit errors (R408). -/
def execIngressPacket (port : Fin 18) (f : RxFrame) (s : State) : Out :=
  let i := port.val
  let bytes := f.bytes.toNat
  let lane := s.portLane i
  if (s.ln lane).test != 0 then .next (s.laneErrors lane f.codeErr.toNat 0 0)
  else if !s.portUp i then .next s
  else
  let s := s.laneErrors lane f.codeErr.toNat f.fecCorr.toNat f.fecUncorr.toNat
  if f.badFcs || f.fecUncorr != 0 then
    .next ((s.modNp i fun p => { p with badFcs := p.badFcs + 1 }).modLn lane fun l => { l with crcErr := l.crcErr + 1 })
  else if 9022 < bytes then .next (s.modNp i fun p => { p with oversize := p.oversize + 1 })
  else if f.fecOrRtcp then .next (s.modNp i fun p => { p with fecDropped := p.fecDropped + 1 })
  else
    let l := s.ingressMatches i f
    if l.isEmpty then
      let (pass, s) := if f.exempt then (true, s) else s.police (mkHandle tPort 0xFF i) bytes
      .next (if pass && !f.management then s.modNp i fun p => { p with unmatched := p.unmatched + 1 } else s)
    else if f.overShare then .next (s.dropIngress i)
    else .next (l.foldl (fun s e => s.ingressFrame f e.1 e.2) s)

/-- Missing packets whose time has come are lost; reported at most once per second per stream. -/
def execPacketLossDeclare (ing : BitVec 32) (s : State) : Out :=
  let h := ing.toNat
  let g := s.ing h
  let k := (g.missing.filter fun m => decide (m.2 ≤ s.now)).length
  if k = 0 then .next s
  else
    let due := g.lastLoss.all fun t => decide (t + 1000000000 ≤ s.now)
    let n := g.lossSince + k
    let s' := s.modIng h fun g => { g with
      missing := g.missing.filter (fun m => decide (s.now < m.2)), lost := g.lost + k
      lossSince := if due then 0 else n, lastLoss := if due then some s.now else g.lastLoss }
    let s' := s'.handOnAll h 70000
    .next (if due then s'.raise evIngressLoss h n else s')

/-- A path of a stream. -/
def State.path (s : State) (h i : Nat) : Path := (s.ing h).paths.getD i {}
def State.modPath (s : State) (h i : Nat) (f : Path → Path) : State :=
  s.modIng h fun g => { g with paths := g.paths.mapIdx fun j p => if j = i then f p else p }

/-- A path has delivered no packet for 100 ms. -/
def execPathDownTimeout (ing : BitVec 32) (path : Fin 2) (s : State) : Out :=
  let h := ing.toNat
  let p := s.path h path.val
  if p.up && p.last.all (fun t => decide (t + 100000000 ≤ s.now)) && s.net.ingress.has h then
    .next ((s.modPath h path.val fun p => { p with up := false, runSince := none }).raise evIngressPath h path.val)
  else .next s

/-- A down path has delivered packets for 100 ms. -/
def execPathUp (ing : BitVec 32) (path : Fin 2) (s : State) : Out :=
  let h := ing.toNat
  let p := s.path h path.val
  let fresh := p.last.any fun t => decide (s.now < t + 100000000)
  if !p.up && fresh && p.runSince.any (fun t => decide (t + 100000000 ≤ s.now)) then
    .next ((s.modPath h path.val fun p => { p with up := true, runSince := none }).raise evIngressPath h (path.val + 256))
  else .next s

/-! ### Refill ticks (R344 to R348) -/

/-- The credit or count of a class shaper after a tick (R347). -/
def State.refillShaper (s : State) (port c : Nat) : State :=
  let p := s.np port
  let empty := (p.queues.look [] c).isEmpty
  let sending := p.wire.any fun f => f.cls == c
  s.modShp (8 * port + c) fun g =>
    let hi : Int := g.burst * 65536
    let gain : Int := tickTokens g.rate
    if g.mode = 1 then { g with level := min hi (g.level + gain) }
    else if g.mode = 2 then
      let lo : Int := g.lo * 65536
      let slope := if sending then ((g.rate : Int) - s.portKbps port) * 8192 / 10000 else gain
      let v := clampI lo hi (g.level + slope)
      { g with level := if empty && !sending then min 0 v else v }
    else g

/-- The multiplex sends datagrams while its count is at least 0, from its channel's first released unit until the channel is
`IDLE` (R331); one that ends sends what waits (R358). -/
def State.runTs (s : State) (h : Nat) : Nat → State
  | 0 => s
  | n + 1 =>
    let g := s.eg h
    let st := (s.ch g.source).state
    if g.tokens < 0 then s
    else if if g.ending then g.tsQueue.isEmpty else !g.started || st == .idle || st == .starting then s
    else ((s.tsDatagram h).runPacer h 1).runTs h n

/-- A stream's pacer gains its tokens and lets packets out. -/
def State.refillPacer (s : State) (h : Nat) : State :=
  let gain : Int := tickTokens (s.paceKbps h)
  let s := s.modEg h fun g => { g with tokens := min g.burst (g.tokens + gain) }
  let g := s.eg h
  let s := s.runPacer h g.queue.length
  let s := if g.ts then s.runTs h (g.tokens.toNat / (1316 * 65536) + 1) else s
  s.endStream h

/-- Every bucket gains what 100 ns give; sets for the refill tick apply first. -/
def execRefillTick (s : State) : Out :=
  if s.now < (s.net.tick + 1) * 100 then .next s
  else
    let s := s.modNet fun n => { n with tick := n.tick + 1 }
    let s := s.applyStaged none fun t => t.kind == .refill
    let fill (_ : Nat) (g : Policer) : Policer := { g with tokens := min (g.burst * 65536 : Nat) (g.tokens + tickTokens g.rate) }
    let s := s.modNet fun n => { n with policers := n.policers.mapV fill }
    let s := s.net.shapers.keys.foldl (fun s k => s.refillShaper (k / 8) (k % 8)) s
    let s := s.net.egress.keys.foldl State.refillPacer s
    .next s.sendAll

/-! ### Transmission and gates (R346 to R351) -/

/-- The frame on the wire of a port has left, with its gap; the next is selected. -/
def execFrameTxEnd (port : Fin 18) (s : State) : Out :=
  let i := port.val
  let p := s.np i
  match p.wire with
  | none => .next s
  | some f =>
    if s.now < p.wireEnd then .next s
    else .next (((s.modNp i fun p => { p with wire := none }).trySend i).endStream f.stream)

/-- A pending gate list starts: it takes the old list's place, cutting its entry. -/
def execGatelistStart (port : Fin 18) (s : State) : Out :=
  let i := port.val
  match (s.np i).gatesNext with
  | none => .next s
  | some l =>
    if s.now < l.start then .next s
    else
      let count := u16 l.payload 0x0C
      let h := mkHandle tGateList 0xFF i
      let s := s.modNp i fun p => { p with gates := if count = 0 then none else some l, gatesNext := none, entry := 0 }
      let s := s.raiseTo (s.ownerOf h)
        { code := evGatelistApplied.1, severity := evGatelistApplied.2, handle := h, time := l.start, detail := count }
      .next (s.trySend i)

/-- The index of the span of a cycle at a time into it. -/
def spanIndex : List (Nat × Nat) → Nat → Nat
  | [], _ => 0
  | (_, d) :: r, t => if t < d then 0 else spanIndex r (t - d) + 1

/-- The interval of an entry ends: the entry of the present time is in force. -/
def execGateEntryChange (port : Fin 18) (s : State) : Out :=
  let i := port.val
  match (s.np i).gates with
  | none => .next s
  | some l =>
    let k := spanIndex (gateSpans l.payload) (l.into s.now)
    .next ((s.modNp i fun p => { p with entry := k }).trySend i)

/-- The wake time of a transmitter is over. -/
def execLpiWakeExpiry (lane : Fin 16) (s : State) : Out :=
  let i := lane.val
  if (s.ln i).lpiTx && (s.ln i).waking then
    .next ((s.modLn i fun l => { l with lpiTx := false, waking := false }).trySend i)
  else .next s

/-! ### PTP messages (R356, R369, R371) -/

/-- Frame bytes of a PTP message over UDP and IPv4. -/
def ptpBytes (m : PtpSend) : Nat :=
  46 + (match m with
    | .announce => 64 | .sync | .followUp | .delayReq => 44 | .delayResp | .pdelayReq | .pdelayResp | .pdelayFollowUp => 54
    | .metadata => 122)

/-- The port's state and what it owes let it send a message. -/
def PtpPort.maySend (q : PtpPort) (c : PtpCfg) : PtpSend → Bool
  | .announce | .sync => q.state == .master
  | .metadata => q.state == .master && c.profile == 0 && c.smTlv.any (· != 0)
  | .delayReq => !c.peerToPeer && (q.state == .slave || q.state == .uncalibrated)
  | .pdelayReq => c.peerToPeer && q.state != .disabled && q.state != .faulty
  | m => q.due.any fun d => d.1 == m

/-- The time unit triggers a message: its frame enters class 7. -/
def execPtpSendTrigger (port : Fin 16) (m : PtpSend) (s : State) : Out :=
  let i := port.val
  if s.boot.held || !bit s.time.ptp.portMask i || !(s.ptpPort i).maySend s.time.ptp m then .next s
  else
    let owed := (s.ptpPort i).due.find? fun d => d.1 == m
    let ref := (owed.map (·.2)).getD 0
    let s := s.modPtp i fun q => { q with due := q.due.erase (m, ref) }
    .next ((s.enqueueFrame i { cls := 7, bytes := ptpBytes m, ptp := some (m, ref) }).trySend i)

/-! ### Manifests (R336 to R340) -/

/-- `ORIGIN` of a manifest. -/
def State.origin (s : State) : Nat := if s.time.memberOf then s.time.domainId + s.time.memberId * 256 else 0

/-- A manifest before its signature. -/
def State.manifestBody (s : State) (h : Nat) (x : Segment) : List Byte :=
  let flags := slice (x.auFlags.map (BitVec.ofNat 8)) 0 (4 * cdiv x.auFlags.length 4)
  le 4 0x464D5056 ++ le 2 1 ++ le 2 x.flags ++ le 4 (if bit x.flags 3 then 0 else s.origin) ++ le 2 (handleIndex h) ++
    le 2 x.hashes.length ++ le 8 x.number ++ le 8 x.firstPic ++ le 8 x.tFirst ++ le 4 x.durationUs ++ le 4 s.pkId ++
    slice (s.eg h).prov.prevHash 0 32 ++ slice x.digest 0 32 ++ x.hashes.flatMap (fun b => slice b 0 32) ++ flags

/-- A manifest's datagrams go out of band to the collector, past the pacer: origin and stream, the fragment header, and up to 1,456
bytes. -/
def State.sendOutOfBand (s : State) (h number : Nat) (m : List Byte) : State :=
  let g := s.eg h
  let p := g.prov.payload
  let n := cdiv m.length 1456
  let dest := slice p 0x10 16
  (List.range n).foldl (fun (s : State) i =>
    let data := le 4 s.origin ++ le 2 (handleIndex h) ++ le 2 0 ++ le 2 (number % 65536) ++ le 2 i ++ le 2 n ++ le 2 0 ++
      (m.drop (1456 * i)).take 1456
    s.enqueueFrame (u8 p 3) {
      stream := h, cls := u8 g.payload 6, data, dest := some (dest, u16 p 0x0A), bytes := 18 + ipBytes dest + 8 + data.length }) s

/-- A manifest waits for in-band carriage; with more than 4 waiting to start, the oldest that has not started is dropped, and its
segment is answered. In a multiplex it is a PES on `PROV_PID` (R340). -/
def Egress.carry (g : Egress) (number : Nat) (m : List Byte) : Egress × Option Nat :=
  let parts := tsParts g.provPid (m.length + 6) number none (be 3 1 ++ be 1 0xBF ++ be 2 m.length ++ m)
  let units := if g.ts then parts.length else cdiv m.length 240
  let q := g.prov.inBand ++ [{ segment := number, total := units, left := units, bytes := m }]
  let queue := if g.ts then g.tsQueue ++ parts else g.tsQueue
  match q.filter fun m => decide (m.total ≤ m.left) with
  | m :: _ :: _ :: _ :: _ :: _ =>
    ({ g with tsQueue := queue.filter fun x => !(x.pid == g.provPid && x.pic == m.segment), droppedInBand := g.droppedInBand + 1
              prov := { g.prov with inBand := q.erase m } }, some m.segment)
  | _ => ({ g with tsQueue := queue, prov := { g.prov with inBand := q } }, none)

/-- A manifest is carried in band. -/
def State.carryInBand (s : State) (h number : Nat) (m : List Byte) : State :=
  let (g, dropped) := (s.eg h).carry number m
  let s := s.modEg h fun _ => g
  match dropped with
  | some m => s.raise evProvBacklog h m
  | none => s

/-- The hub signs the oldest closed segment of a stream and its manifest is carried; while the security processor restarts,
signatures wait (R492). A stream that has ended carries it in band only if a packet of it is still to leave (R358). -/
def execManifestSigned (eg : BitVec 32) (s : State) : Out :=
  let h := eg.toNat
  let g := s.eg h
  match g.prov.toSign with
  | [] => .next s
  | x :: rest =>
    if !s.boot.sec.spUp then .next s
    else
      let body := s.manifestBody h x
      let m := body ++ s.signPk body
      let s := s.modEg h fun g => { g with signed := g.signed + 1, prov := { g.prov with
        toSign := rest, manifest := m, prevHash := if g.prov.segment = 0 then g.prov.prevHash else sha3 m } }
      let carriage := u8 g.prov.payload 1
      let s := if bit carriage 1 then s.sendOutOfBand h x.number m else s
      let s := if !bit carriage 0 then s
        else if g.ending && g.queue.isEmpty && g.tsQueue.isEmpty then s.modEg h fun g => { g with droppedInBand := g.droppedInBand + 1 }
        else s.carryInBand h x.number m
      .next (s.sendAll.endStream h)

/-! ### Lines of SDI inputs (R333, R399) -/

/-- Some bytes in pieces of at most `limit`. -/
def cutBytes (b : List Byte) (limit : Nat) : List (List Byte) :=
  (List.range (cdiv b.length (max 1 limit))).map fun i => (b.drop (i * limit)).take limit

/-- Streams of a kind that an SDI input feeds. -/
def State.laneStreams (s : State) (lane kind : Nat) : List Nat :=
  (s.net.egress.filter fun e => e.2.source == laneHandle lane && e.2.kind == kind && !e.2.ending).map (·.1)

/-- Bytes of a line, or ancillary packets, leave a stream, each packet behind a payload header of 8 bytes (ST 2110-20, ST 2110-40;
PRESUMED, log entry 212); `head` makes it of the number of bytes and their offset. -/
def State.sendBytes (s : State) (h time : Nat) (final : Bool) (head : Nat → Nat → List Byte) (b : List Byte) : State :=
  let limit := (s.eg h).limit - 8
  let ps := cutBytes b limit
  let s := (List.range ps.length).foldl (fun (s : State) i =>
    let x := ps.getD i []
    let ends := final && i + 1 == ps.length
    s.queuePacket h [(false, be 2 ((s.eg h).seq / 65536 % 65536) ++ head x.length (i * limit) ++ x)] time 0 ends false) s
  s.runPacer h (s.eg h).queue.length

/-- The 90 kHz count of a device time on the PTP epoch (R330, R333). -/
def State.count90 (s : State) (t : Nat) : Nat := (((t : Int) - s.tEp) * 9 / 100000).toNat

/-- A picture line leaves as ST 2110-20 packets, the ancillary packets of a picture after its last line. -/
def State.sdiEgress (s : State) (lane : Nat) (line : SdiLine) : State :=
  match (s.ln lane).format with
  | none => s
  | some f =>
    let time := s.count90 (s.ln lane).picTime
    -- pixels in a group of samples, and its bytes, of 4:2:2 or 4:4:4
    let offset (at_ : Nat) : Nat := at_ * 8 / max 1 (if f.sampling = 1 then 2 * f.depth else 3 * f.depth)
    let video (n at_ : Nat) : List Byte := be 2 n ++ be 2 line.number.toNat ++ be 2 (offset at_)
    let anc (n _ : Nat) : List Byte := be 2 n ++ be 1 line.ancPackets.toNat ++ be 3 0
    let s := if !line.active then s
      else (s.laneStreams lane 0).foldl (fun (s : State) h => s.sendBytes h time (line.number.toNat + 1 == f.height) video line.samples) s
    if line.format.isNone then s
    else (s.laneStreams lane 4).foldl (fun (s : State) h => s.sendBytes h time true anc line.ancillary) s

/-- An SDI line is received by an input that is up: its picture's capture time is that of its first line. -/
def execSdiLineReceive (lane : Fin 16) (line : SdiLine) (s : State) : Out :=
  let i := 64 + lane.val
  if !(s.ln i).up || (s.ln i).test != 0 then .next s
  else
    let s := s.modLn i fun l => { l with picTime := if l.inPicture then l.picTime else s.now, inPicture := line.format.isNone }
    .next (((s.sdiLine lane line).sdiEgress i line).sendAll)

end Sys2Proof.Machine
end

