-- ==== Sys2Proof/Machine/Dispatch.lean ====
section
/-!
DEFINITION. The dispatch of commands to their meanings: one arm per row of the opcode table.
-/

namespace Sys2Proof.Machine

def exec (i : Instr) (s : State) : Host.Outcome State Fault Refusal :=
  match i with
  | .registerWrite f bar4 offset width value => Sys2Proof.Machine.execRegisterWrite f bar4 offset width value s
  | .eciEnable f => Sys2Proof.Machine.execEciEnable f s
  | .eciDisable f => Sys2Proof.Machine.execEciDisable f s
  | .eciRdySet f => Sys2Proof.Machine.execEciRdySet f s
  | .dbSqWrite f q value entries => Sys2Proof.Machine.execDbSqWrite f q value entries s
  | .sqPoll f q entries => Sys2Proof.Machine.execSqPoll f q entries s
  | .dbFastWrite f value => Sys2Proof.Machine.execDbFastWrite f value s
  | .fastPathServe f => Sys2Proof.Machine.execFastPathServe f s
  | .intCauseClear f value => Sys2Proof.Machine.execIntCauseClear f value s
  | .intMaskWrite f value => Sys2Proof.Machine.execIntMaskWrite f value s
  | .coalesceTimeout f cause => Sys2Proof.Machine.execCoalesceTimeout f cause s
  | .mailboxHostWrite f offset width value collides => Sys2Proof.Machine.execMailboxHostWrite f offset width value collides s
  | .bootStageCapture f => Sys2Proof.Machine.execBootStageCapture f s
  | .timeNsCapture f => Sys2Proof.Machine.execTimeNsCapture f s
  | .recStateCapture => Sys2Proof.Machine.execRecStateCapture s
  | .mbxCollideCntRead f => Sys2Proof.Machine.execMbxCollideCntRead f s
  | .functionLevelReset f => Sys2Proof.Machine.execFunctionLevelReset f s
  | .vfRemoval n => Sys2Proof.Machine.execVfRemoval n s
  | .vfEnable n => Sys2Proof.Machine.execVfEnable n s
  | .perstNAssert => Sys2Proof.Machine.execPerstNAssert s
  | .perstNRelease => Sys2Proof.Machine.execPerstNRelease s
  | .pcieLinkDown => Sys2Proof.Machine.execPcieLinkDown s
  | .pcieLinkReturn => Sys2Proof.Machine.execPcieLinkReturn s
  | .pcieLinkLossTimeout => Sys2Proof.Machine.execPcieLinkLossTimeout s
  | .pcieLinkTrained gen width settled => Sys2Proof.Machine.execPcieLinkTrained gen width settled s
  | .pcieEqRequest lane preset => Sys2Proof.Machine.execPcieEqRequest lane preset s
  | .aspmL0sEntry => Sys2Proof.Machine.execAspmL0sEntry s
  | .aspmL1Entry => Sys2Proof.Machine.execAspmL1Entry s
  | .bar2Access write offset data => Sys2Proof.Machine.execBar2Access write offset data s
  | .sessionConnect conn port => Sys2Proof.Machine.execSessionConnect conn port s
  | .handshakeH1 conn frame => Sys2Proof.Machine.execHandshakeH1 conn frame s
  | .handshakeH3 conn frame => Sys2Proof.Machine.execHandshakeH3 conn frame s
  | .handshakeTimeout conn => Sys2Proof.Machine.execHandshakeTimeout conn s
  | .connectionLockoutEnd => Sys2Proof.Machine.execConnectionLockoutEnd s
  | .protectedFrame n frame => Sys2Proof.Machine.execProtectedFrame n frame s
  | .sessionIdleTimeout n => Sys2Proof.Machine.execSessionIdleTimeout n s
  | .stagedSetArrival => Sys2Proof.Machine.execStagedSetArrival s
  | .restartDelayExpiry => Sys2Proof.Machine.execRestartDelayExpiry s
  | .deviceIdentify c => Sys2Proof.Machine.execDeviceIdentify c s
  | .deviceStatus c => Sys2Proof.Machine.execDeviceStatus c s
  | .deviceEventMask c => Sys2Proof.Machine.execDeviceEventMask c s
  | .queueCreate c => Sys2Proof.Machine.execQueueCreate c s
  | .queueDelete c => Sys2Proof.Machine.execQueueDelete c s
  | .objectList c => Sys2Proof.Machine.execObjectList c s
  | .objectReassign c => Sys2Proof.Machine.execObjectReassign c s
  | .deviceVfQuota c => Sys2Proof.Machine.execDeviceVfQuota c s
  | .deviceImageLoad c => Sys2Proof.Machine.execDeviceImageLoad c s
  | .deviceRestart c => Sys2Proof.Machine.execDeviceRestart c s
  | .deviceNop c => Sys2Proof.Machine.execDeviceNop c s
  | .sessionOpen c => Sys2Proof.Machine.execSessionOpen c s
  | .sessionClose c => Sys2Proof.Machine.execSessionClose c s
  | .sessionKeepalive c => Sys2Proof.Machine.execSessionKeepalive c s
  | .channelCreate c => Sys2Proof.Machine.execChannelCreate c s
  | .channelAdmitCheck c => Sys2Proof.Machine.execChannelAdmitCheck c s
  | .channelSet c => Sys2Proof.Machine.execChannelSet c s
  | .channelStart c => Sys2Proof.Machine.execChannelStart c s
  | .channelStop c => Sys2Proof.Machine.execChannelStop c s
  | .channelDestroy c => Sys2Proof.Machine.execChannelDestroy c s
  | .channelQuery c => Sys2Proof.Machine.execChannelQuery c s
  | .slotTableSet c => Sys2Proof.Machine.execSlotTableSet c s
  | .slotTableGet c => Sys2Proof.Machine.execSlotTableGet c s
  | .slateCreate c => Sys2Proof.Machine.execSlateCreate c s
  | .slateDestroy c => Sys2Proof.Machine.execSlateDestroy c s
  | .dieLoad c => Sys2Proof.Machine.execDieLoad c s
  | .codingTools c => Sys2Proof.Machine.execCodingTools c s
  | .codingToolsGet c => Sys2Proof.Machine.execCodingToolsGet c s
  | .analysisSet c => Sys2Proof.Machine.execAnalysisSet c s
  | .analysisQuery c => Sys2Proof.Machine.execAnalysisQuery c s
  | .recipeInfo c => Sys2Proof.Machine.execRecipeInfo c s
  | .codingStructure c => Sys2Proof.Machine.execCodingStructure c s
  | .codingSei c => Sys2Proof.Machine.execCodingSei c s
  | .codingStructureGet c => Sys2Proof.Machine.execCodingStructureGet c s
  | .rcSet c => Sys2Proof.Machine.execRcSet c s
  | .rcGet c => Sys2Proof.Machine.execRcGet c s
  | .rcQuery c => Sys2Proof.Machine.execRcQuery c s
  | .delayQuery c => Sys2Proof.Machine.execDelayQuery c s
  | .schedStatus c => Sys2Proof.Machine.execSchedStatus c s
  | .schedLocks c => Sys2Proof.Machine.execSchedLocks c s
  | .schedFlows c => Sys2Proof.Machine.execSchedFlows c s
  | .traceCreate c => Sys2Proof.Machine.execTraceCreate c s
  | .traceStart c => Sys2Proof.Machine.execTraceStart c s
  | .traceStop c => Sys2Proof.Machine.execTraceStop c s
  | .traceStatus c => Sys2Proof.Machine.execTraceStatus c s
  | .traceDestroy c => Sys2Proof.Machine.execTraceDestroy c s
  | .decodeCreate c => Sys2Proof.Machine.execDecodeCreate c s
  | .decodeSubmit c => Sys2Proof.Machine.execDecodeSubmit c s
  | .decodeReturn c => Sys2Proof.Machine.execDecodeReturn c s
  | .decodeQuery c => Sys2Proof.Machine.execDecodeQuery c s
  | .channelMode c => Sys2Proof.Machine.execChannelMode c s
  | .picSubmit c => Sys2Proof.Machine.execPicSubmit c s
  | .refRing c => Sys2Proof.Machine.execRefRing c s
  | .jigSet c => Sys2Proof.Machine.execJigSet c s
  | .statsSet c => Sys2Proof.Machine.execStatsSet c s
  | .statsRead c => Sys2Proof.Machine.execStatsRead c s
  | .checkBind c => Sys2Proof.Machine.execCheckBind c s
  | .checkUnbind c => Sys2Proof.Machine.execCheckUnbind c s
  | .checkExpect c => Sys2Proof.Machine.execCheckExpect c s
  | .checkQuery c => Sys2Proof.Machine.execCheckQuery c s
  | .composeSet c => Sys2Proof.Machine.execComposeSet c s
  | .layerCreate c => Sys2Proof.Machine.execLayerCreate c s
  | .layerSet c => Sys2Proof.Machine.execLayerSet c s
  | .layerCommit c => Sys2Proof.Machine.execLayerCommit c s
  | .layerDestroy c => Sys2Proof.Machine.execLayerDestroy c s
  | .layerQuery c => Sys2Proof.Machine.execLayerQuery c s
  | .renditionScale c => Sys2Proof.Machine.execRenditionScale c s
  | .scalerCoefSet c => Sys2Proof.Machine.execScalerCoefSet c s
  | .scalerCoefGet c => Sys2Proof.Machine.execScalerCoefGet c s
  | .audioPortSet c => Sys2Proof.Machine.execAudioPortSet c s
  | .audioPortSlots c => Sys2Proof.Machine.execAudioPortSlots c s
  | .audioPortQuery c => Sys2Proof.Machine.execAudioPortQuery c s
  | .frameClockSet c => Sys2Proof.Machine.execFrameClockSet c s
  | .audioProgramCreate c => Sys2Proof.Machine.execAudioProgramCreate c s
  | .audioProgramSet c => Sys2Proof.Machine.execAudioProgramSet c s
  | .audioProgramDestroy c => Sys2Proof.Machine.execAudioProgramDestroy c s
  | .audioProgramQuery c => Sys2Proof.Machine.execAudioProgramQuery c s
  | .asrcQuery c => Sys2Proof.Machine.execAsrcQuery c s
  | .audioRateQuery c => Sys2Proof.Machine.execAudioRateQuery c s
  | .audioEmbedSet c => Sys2Proof.Machine.execAudioEmbedSet c s
  | .ingressCreate c => Sys2Proof.Machine.execIngressCreate c s
  | .ingressDestroy c => Sys2Proof.Machine.execIngressDestroy c s
  | .ingressQuery c => Sys2Proof.Machine.execIngressQuery c s
  | .egressCreate c => Sys2Proof.Machine.execEgressCreate c s
  | .egressSet c => Sys2Proof.Machine.execEgressSet c s
  | .egressDestroy c => Sys2Proof.Machine.execEgressDestroy c s
  | .egressQuery c => Sys2Proof.Machine.execEgressQuery c s
  | .egressProvenance c => Sys2Proof.Machine.execEgressProvenance c s
  | .egressKey c => Sys2Proof.Machine.execEgressKey c s
  | .egressImpair c => Sys2Proof.Machine.execEgressImpair c s
  | .shaperSet c => Sys2Proof.Machine.execShaperSet c s
  | .gatelistSet c => Sys2Proof.Machine.execGatelistSet c s
  | .gatelistQuery c => Sys2Proof.Machine.execGatelistQuery c s
  | .policerCreate c => Sys2Proof.Machine.execPolicerCreate c s
  | .policerSet c => Sys2Proof.Machine.execPolicerSet c s
  | .policerDestroy c => Sys2Proof.Machine.execPolicerDestroy c s
  | .portAddr c => Sys2Proof.Machine.execPortAddr c s
  | .provKey c => Sys2Proof.Machine.execProvKey c s
  | .arbiterMode c => Sys2Proof.Machine.execArbiterMode c s
  | .timeQuery c => Sys2Proof.Machine.execTimeQuery c s
  | .servoSet c => Sys2Proof.Machine.execServoSet c s
  | .servoReset c => Sys2Proof.Machine.execServoReset c s
  | .ptpSet c => Sys2Proof.Machine.execPtpSet c s
  | .ptpPortSet c => Sys2Proof.Machine.execPtpPortSet c s
  | .ppsSet c => Sys2Proof.Machine.execPpsSet c s
  | .timeSetTod c => Sys2Proof.Machine.execTimeSetTod c s
  | .domainSet c => Sys2Proof.Machine.execDomainSet c s
  | .channelAlign c => Sys2Proof.Machine.execChannelAlign c s
  | .alignQuery c => Sys2Proof.Machine.execAlignQuery c s
  | .laneSet c => Sys2Proof.Machine.execLaneSet c s
  | .laneTrain c => Sys2Proof.Machine.execLaneTrain c s
  | .laneQuery c => Sys2Proof.Machine.execLaneQuery c s
  | .laneTaps c => Sys2Proof.Machine.execLaneTaps c s
  | .sdiOutSet c => Sys2Proof.Machine.execSdiOutSet c s
  | .memQuery c => Sys2Proof.Machine.execMemQuery c s
  | .memSet c => Sys2Proof.Machine.execMemSet c s
  | .memFreq c => Sys2Proof.Machine.execMemFreq c s
  | .memCopy c => Sys2Proof.Machine.execMemCopy c s
  | .secQuote c => Sys2Proof.Machine.execSecQuote c s
  | .secCerts c => Sys2Proof.Machine.execSecCerts c s
  | .keyImport c => Sys2Proof.Machine.execKeyImport c s
  | .keyDestroy c => Sys2Proof.Machine.execKeyDestroy c s
  | .secLcAdvance c => Sys2Proof.Machine.execSecLcAdvance c s
  | .secOwnerKeyAdd c => Sys2Proof.Machine.execSecOwnerKeyAdd c s
  | .secKeyRevoke c => Sys2Proof.Machine.execSecKeyRevoke c s
  | .secSvnCommit c => Sys2Proof.Machine.execSecSvnCommit c s
  | .secDebugChallenge c => Sys2Proof.Machine.execSecDebugChallenge c s
  | .secDebugUnlock c => Sys2Proof.Machine.execSecDebugUnlock c s
  | .secTamperSet c => Sys2Proof.Machine.execSecTamperSet c s
  | .secTamperLog c => Sys2Proof.Machine.execSecTamperLog c s
  | .secTamperClear c => Sys2Proof.Machine.execSecTamperClear c s
  | .secCounter c => Sys2Proof.Machine.execSecCounter c s
  | .secCredSet c => Sys2Proof.Machine.execSecCredSet c s
  | .healthQuery c => Sys2Proof.Machine.execHealthQuery c s
  | .bootSlotSet c => Sys2Proof.Machine.execBootSlotSet c s
  | .dieRepair c => Sys2Proof.Machine.execDieRepair c s
  | .mpRepair c => Sys2Proof.Machine.execMpRepair c s
  | .isstQuery c => Sys2Proof.Machine.execIsstQuery c s
  | .kaLog c => Sys2Proof.Machine.execKaLog c s
  | .thermQuery c => Sys2Proof.Machine.execThermQuery c s
  | .recGetReasons => Sys2Proof.Machine.execRecGetReasons s
  | .recGetAttestation => Sys2Proof.Machine.execRecGetAttestation s
  | .recLoadImage => Sys2Proof.Machine.execRecLoadImage s
  | .recSetBootSlot => Sys2Proof.Machine.execRecSetBootSlot s
  | .recRestart => Sys2Proof.Machine.execRecRestart s
  | .recFinishLcMove => Sys2Proof.Machine.execRecFinishLcMove s
  | .recResetNormal => Sys2Proof.Machine.execRecResetNormal s
  | .recResetRecovery => Sys2Proof.Machine.execRecResetRecovery s
  | .pictureBoundary chan => Sys2Proof.Machine.execPictureBoundary chan s
  | .pipe3PictureBoundary die => Sys2Proof.Machine.execPipe3PictureBoundary die s
  | .sourcePictureMissing chan => Sys2Proof.Machine.execSourcePictureMissing chan s
  | .ingressPacket port f => Sys2Proof.Machine.execIngressPacket port f s
  | .packetLossDeclare ing => Sys2Proof.Machine.execPacketLossDeclare ing s
  | .pathDownTimeout ing path => Sys2Proof.Machine.execPathDownTimeout ing path s
  | .pathUp ing path => Sys2Proof.Machine.execPathUp ing path s
  | .rowArrivalPost chan row capture samples => Sys2Proof.Machine.execRowArrivalPost chan row capture samples s
  | .sdiRateLock lane rate fractional => Sys2Proof.Machine.execSdiRateLock lane rate fractional s
  | .sdiLineReceive lane line => Sys2Proof.Machine.execSdiLineReceive lane line s
  | .pictureCopyDone chan luma chroma captions => Sys2Proof.Machine.execPictureCopyDone chan luma chroma captions s
  | .compositionRowDone chan pic row => Sys2Proof.Machine.execCompositionRowDone chan pic row s
  | .commitAppliedReport chan => Sys2Proof.Machine.execCommitAppliedReport chan s
  | .analysisRowDone chan pic row odd => Sys2Proof.Machine.execAnalysisRowDone chan pic row odd s
  | .descriptorEnqueue sched producer d => Sys2Proof.Machine.execDescriptorEnqueue sched producer d s
  | .backpressureEnd sched => Sys2Proof.Machine.execBackpressureEnd sched s
  | .taskPost sched task bits => Sys2Proof.Machine.execTaskPost sched task bits s
  | .sequencePost sched flow seq bits => Sys2Proof.Machine.execSequencePost sched flow seq bits s
  | .flowPost sched flow bits => Sys2Proof.Machine.execFlowPost sched flow bits s
  | .taskDispatch sched agent => Sys2Proof.Machine.execTaskDispatch sched agent s
  | .taskComplete sched agent task => Sys2Proof.Machine.execTaskComplete sched agent task s
  | .taskCancel sched task => Sys2Proof.Machine.execTaskCancel sched task s
  | .flowSquash sched flow seq => Sys2Proof.Machine.execFlowSquash sched flow seq s
  | .deadlineExpiry sched => Sys2Proof.Machine.execDeadlineExpiry sched s
  | .directLockAcquire sched agent lock => Sys2Proof.Machine.execDirectLockAcquire sched agent lock s
  | .directLockRelease sched agent lock => Sys2Proof.Machine.execDirectLockRelease sched agent lock s
  | .taskWatchdog sched agent => Sys2Proof.Machine.execTaskWatchdog sched agent s
  | .rowJudgement chan => Sys2Proof.Machine.execRowJudgement chan s
  | .commitOrder chan pic row => Sys2Proof.Machine.execCommitOrder chan pic row s
  | .rewindOrder chan pic row => Sys2Proof.Machine.execRewindOrder chan pic row s
  | .checkpointRestoreDone chan => Sys2Proof.Machine.execCheckpointRestoreDone chan s
  | .fillOrder chan pic row => Sys2Proof.Machine.execFillOrder chan pic row s
  | .partnerOrder chan => Sys2Proof.Machine.execPartnerOrder chan s
  | .seamDataArrival chan odd => Sys2Proof.Machine.execSeamDataArrival chan odd s
  | .stitchDeadline chan pic du => Sys2Proof.Machine.execStitchDeadline chan pic du s
  | .stitchRelease chan tile => Sys2Proof.Machine.execStitchRelease chan tile s
  | .duRecordArrival chan => Sys2Proof.Machine.execDuRecordArrival chan s
  | .duRelease chan => Sys2Proof.Machine.execDuRelease chan s
  | .manifestSigned eg => Sys2Proof.Machine.execManifestSigned eg s
  | .refillTick => Sys2Proof.Machine.execRefillTick s
  | .frameTxEnd port => Sys2Proof.Machine.execFrameTxEnd port s
  | .gateEntryChange port => Sys2Proof.Machine.execGateEntryChange port s
  | .gatelistStart port => Sys2Proof.Machine.execGatelistStart port s
  | .ptpSendTrigger port m => Sys2Proof.Machine.execPtpSendTrigger port m s
  | .decoderAuArrival chan au => Sys2Proof.Machine.execDecoderAuArrival chan au s
  | .decodePictureDone chan p => Sys2Proof.Machine.execDecodePictureDone chan p s
  | .checkValueComplete unit pic value => Sys2Proof.Machine.execCheckValueComplete unit pic value s
  | .sdiOutPictureBoundary lane => Sys2Proof.Machine.execSdiOutPictureBoundary lane s
  | .audioFsyncEdge port goodLength => Sys2Proof.Machine.execAudioFsyncEdge port goodLength s
  | .audioClockLoss port => Sys2Proof.Machine.execAudioClockLoss port s
  | .audioSampleArrival prog samples => Sys2Proof.Machine.execAudioSampleArrival prog samples s
  | .audioPositionDelivery prog => Sys2Proof.Machine.execAudioPositionDelivery prog s
  | .rateWindowEnd source microHz samples => Sys2Proof.Machine.execRateWindowEnd source microHz samples s
  | .asrcLock asrc ratio => Sys2Proof.Machine.execAsrcLock asrc ratio s
  | .aacAuDone prog data => Sys2Proof.Machine.execAacAuDone prog data s
  | .dspWatchdog dsp => Sys2Proof.Machine.execDspWatchdog dsp s
  | .dspRestartDone dsp => Sys2Proof.Machine.execDspRestartDone dsp s
  | .timeWrap => Sys2Proof.Machine.execTimeWrap s
  | .maintenancePass => Sys2Proof.Machine.execMaintenancePass s
  | .ptpMessageReceive port domain m => Sys2Proof.Machine.execPtpMessageReceive port domain m s
  | .announceReceiptTimeout port => Sys2Proof.Machine.execAnnounceReceiptTimeout port s
  | .ptpPortStateChange port target => Sys2Proof.Machine.execPtpPortStateChange port target s
  | .servoHoldoverTimeout => Sys2Proof.Machine.execServoHoldoverTimeout s
  | .ppsOutEdge => Sys2Proof.Machine.execPpsOutEdge s
  | .ppsInEdge rising => Sys2Proof.Machine.execPpsInEdge rising s
  | .ppsInLost => Sys2Proof.Machine.execPpsInLost s
  | .ref10mInLost => Sys2Proof.Machine.execRef10mInLost s
  | .laneDetectorAssert lane levels => Sys2Proof.Machine.execLaneDetectorAssert lane levels s
  | .laneUpTimer lane => Sys2Proof.Machine.execLaneUpTimer lane s
  | .autonegDone lane fec => Sys2Proof.Machine.execAutonegDone lane fec s
  | .coeffUpdateRequest lane tap up => Sys2Proof.Machine.execCoeffUpdateRequest lane tap up s
  | .trainingDone lane eye => Sys2Proof.Machine.execTrainingDone lane eye s
  | .trainingWaitTimeout lane => Sys2Proof.Machine.execTrainingWaitTimeout lane s
  | .lpiEntry lane => Sys2Proof.Machine.execLpiEntry lane s
  | .scrubPass die corrected => Sys2Proof.Machine.execScrubPass die corrected s
  | .dramUncorrectable die region line => Sys2Proof.Machine.execDramUncorrectable die region line s
  | .freqChangeDone d stallNs => Sys2Proof.Machine.execFreqChangeDone d stallNs s
  | .arbiterRequest arbiter requester beats line write cycles drained => Sys2Proof.Machine.execArbiterRequest arbiter requester beats line write cycles drained s
  | .arbiterCutoff arbiter requester beat => Sys2Proof.Machine.execArbiterCutoff arbiter requester beat s
  | .dowelFlitError link first => Sys2Proof.Machine.execDowelFlitError link first s
  | .dowelRetrainDone link failedLane => Sys2Proof.Machine.execDowelRetrainDone link failedLane s
  | .dowelStall link => Sys2Proof.Machine.execDowelStall link s
  | .tamperTrip sensor second whileOff => Sys2Proof.Machine.execTamperTrip sensor second whileOff s
  | .wipeDone => Sys2Proof.Machine.execWipeDone s
  | .tapInstructionLoad load => Sys2Proof.Machine.execTapInstructionLoad load s
  | .spFatalError => Sys2Proof.Machine.execSpFatalError s
  | .powerGood => Sys2Proof.Machine.execPowerGood s
  | .brownOut => Sys2Proof.Machine.execBrownOut s
  | .sysRstNLow ns => Sys2Proof.Machine.execSysRstNLow ns s
  | .sysRstNRelease => Sys2Proof.Machine.execSysRstNRelease s
  | .romStart bootHost bootRecovery dramOk flashOk => Sys2Proof.Machine.execRomStart bootHost bootRecovery dramOk flashOk s
  | .thermalWaitCheck junctions => Sys2Proof.Machine.execThermalWaitCheck junctions s
  | .imageVerifyDone pufOk => Sys2Proof.Machine.execImageVerifyDone pufOk s
  | .bistDone report => Sys2Proof.Machine.execBistDone report s
  | .firmwareReady => Sys2Proof.Machine.execFirmwareReady s
  | .dieReady d => Sys2Proof.Machine.execDieReady d s
  | .dieReadyTimeout d => Sys2Proof.Machine.execDieReadyTimeout d s
  | .firmwareReadyTimeout => Sys2Proof.Machine.execFirmwareReadyTimeout s
  | .failedStartRestart => Sys2Proof.Machine.execFailedStartRestart s
  | .mpReport => Sys2Proof.Machine.execMpReport s
  | .mpReportTimeout => Sys2Proof.Machine.execMpReportTimeout s
  | .mpFatalError => Sys2Proof.Machine.execMpFatalError s
  | .standbyStartDone => Sys2Proof.Machine.execStandbyStartDone s
  | .takeoverComplete => Sys2Proof.Machine.execTakeoverComplete s
  | .dieHeartbeat d core => Sys2Proof.Machine.execDieHeartbeat d core s
  | .heartbeatTimeout d => Sys2Proof.Machine.execHeartbeatTimeout d s
  | .failoverStateUpdate chan => Sys2Proof.Machine.execFailoverStateUpdate chan s
  | .fillSetUpdate chan pic tile => Sys2Proof.Machine.execFillSetUpdate chan pic tile s
  | .isstSliceStart d => Sys2Proof.Machine.execIsstSliceStart d s
  | .isstSliceEnd d result => Sys2Proof.Machine.execIsstSliceEnd d result s
  | .thermalSample junctions => Sys2Proof.Machine.execThermalSample junctions s
  | .thermTrip die => Sys2Proof.Machine.execThermTrip die s
  | .kaSwitchToBackup => Sys2Proof.Machine.execKaSwitchToBackup s
  | .kaSwitchToMain => Sys2Proof.Machine.execKaSwitchToMain s
  | .dieRepairBistDone d pass => Sys2Proof.Machine.execDieRepairBistDone d pass s
  | .mpRepairBistDone pass => Sys2Proof.Machine.execMpRepairBistDone pass s
  | .securityProcessorRestartDone => Sys2Proof.Machine.execSecurityProcessorRestartDone s
  | .ref10mInReturn => Sys2Proof.Machine.execRef10mInReturn s
  | .generatedRowAvailable chan row => Sys2Proof.Machine.execGeneratedRowAvailable chan row s
  | .fencedProcessorLateWrite w => Sys2Proof.Machine.execFencedProcessorLateWrite w s
  | .firmwareStateJournal => Sys2Proof.Machine.execFirmwareStateJournal s
  | .lpiWakeExpiry lane => Sys2Proof.Machine.execLpiWakeExpiry lane s
  | .partnerLpi lane enter => Sys2Proof.Machine.execPartnerLpi lane enter s
  | .sdiAdaptationFail lane => Sys2Proof.Machine.execSdiAdaptationFail lane s

end Sys2Proof.Machine
end

