-- ==== Sys2Proof/WellFormed.lean ====
section
/-!
DEFINITION. Which commands are well formed, where the types of their operands admit more than the spec does: the sizes of a
submission's parts (R47, R49), register widths (R10), function numbers (R34), task arguments (R210), rows of samples (R325), captions (R256),
frames and temperature lists.
-/

namespace Sys2Proof

/-- A submission holds at most 24 bytes of `INLINE`, and of an `EXT` payload at most `PAYLOAD_LEN`. -/
def Submission.wellFormed (c : Submission) : Bool :=
  decide (c.inlineBytes.length ≤ 24) && decide (c.extBytes.length ≤ c.payloadLen.toNat)

/-- A width of 1, 2, 4 or 8. -/
def widthOk (n : Nat) : Bool := n == 1 || n == 2 || n == 4 || n == 8

/-- The lines of each component of a row have one length. -/
def RowSamples.wellFormed (r : RowSamples) : Bool :=
  [r.y, r.cb, r.cr].all fun p => p.all fun l => l.length == (p.headD []).length

/-- At most 4,095 rows of at most 64 channels. -/
def AudioSamples.wellFormed (a : AudioSamples) : Bool :=
  decide (a.rows.length ≤ 4095) && a.rows.all fun r => decide (r.length ≤ 64)

/-- A well-formed command. -/
def WellFormed (i : Instr) : Bool :=
  match i with
  | .registerWrite _ _ _ width _ => widthOk width.val
  | .eciEnable .. => true
  | .eciDisable .. => true
  | .eciRdySet .. => true
  | .dbSqWrite .. => true
  | .sqPoll .. => true
  | .dbFastWrite .. => true
  | .fastPathServe .. => true
  | .intCauseClear .. => true
  | .intMaskWrite .. => true
  | .coalesceTimeout .. => true
  | .mailboxHostWrite _ _ width _ _ => widthOk width.val
  | .bootStageCapture .. => true
  | .timeNsCapture .. => true
  | .recStateCapture => true
  | .mbxCollideCntRead .. => true
  | .functionLevelReset .. => true
  | .vfRemoval n => n != 0
  | .vfEnable n => n != 0
  | .perstNAssert => true
  | .perstNRelease => true
  | .pcieLinkDown => true
  | .pcieLinkReturn => true
  | .pcieLinkLossTimeout => true
  | .pcieLinkTrained gen width _ => gen != 0 && widthOk width.val
  | .pcieEqRequest .. => true
  | .aspmL0sEntry => true
  | .aspmL1Entry => true
  | .bar2Access .. => true
  | .sessionConnect .. => true
  | .handshakeH1 .. => true
  | .handshakeH3 .. => true
  | .handshakeTimeout .. => true
  | .connectionLockoutEnd => true
  | .protectedFrame .. => true
  | .sessionIdleTimeout .. => true
  | .stagedSetArrival => true
  | .restartDelayExpiry => true
  | .deviceIdentify c => c.wellFormed
  | .deviceStatus c => c.wellFormed
  | .deviceEventMask c => c.wellFormed
  | .queueCreate c => c.wellFormed
  | .queueDelete c => c.wellFormed
  | .objectList c => c.wellFormed
  | .objectReassign c => c.wellFormed
  | .deviceVfQuota c => c.wellFormed
  | .deviceImageLoad c => c.wellFormed
  | .deviceRestart c => c.wellFormed
  | .deviceNop c => c.wellFormed
  | .sessionOpen c => c.wellFormed
  | .sessionClose c => c.wellFormed
  | .sessionKeepalive c => c.wellFormed
  | .channelCreate c => c.wellFormed
  | .channelAdmitCheck c => c.wellFormed
  | .channelSet c => c.wellFormed
  | .channelStart c => c.wellFormed
  | .channelStop c => c.wellFormed
  | .channelDestroy c => c.wellFormed
  | .channelQuery c => c.wellFormed
  | .slotTableSet c => c.wellFormed
  | .slotTableGet c => c.wellFormed
  | .slateCreate c => c.wellFormed
  | .slateDestroy c => c.wellFormed
  | .dieLoad c => c.wellFormed
  | .codingTools c => c.wellFormed
  | .codingToolsGet c => c.wellFormed
  | .analysisSet c => c.wellFormed
  | .analysisQuery c => c.wellFormed
  | .recipeInfo c => c.wellFormed
  | .codingStructure c => c.wellFormed
  | .codingSei c => c.wellFormed
  | .codingStructureGet c => c.wellFormed
  | .rcSet c => c.wellFormed
  | .rcGet c => c.wellFormed
  | .rcQuery c => c.wellFormed
  | .delayQuery c => c.wellFormed
  | .schedStatus c => c.wellFormed
  | .schedLocks c => c.wellFormed
  | .schedFlows c => c.wellFormed
  | .traceCreate c => c.wellFormed
  | .traceStart c => c.wellFormed
  | .traceStop c => c.wellFormed
  | .traceStatus c => c.wellFormed
  | .traceDestroy c => c.wellFormed
  | .decodeCreate c => c.wellFormed
  | .decodeSubmit c => c.wellFormed
  | .decodeReturn c => c.wellFormed
  | .decodeQuery c => c.wellFormed
  | .channelMode c => c.wellFormed
  | .picSubmit c => c.wellFormed
  | .refRing c => c.wellFormed
  | .jigSet c => c.wellFormed
  | .statsSet c => c.wellFormed
  | .statsRead c => c.wellFormed
  | .checkBind c => c.wellFormed
  | .checkUnbind c => c.wellFormed
  | .checkExpect c => c.wellFormed
  | .checkQuery c => c.wellFormed
  | .composeSet c => c.wellFormed
  | .layerCreate c => c.wellFormed
  | .layerSet c => c.wellFormed
  | .layerCommit c => c.wellFormed
  | .layerDestroy c => c.wellFormed
  | .layerQuery c => c.wellFormed
  | .renditionScale c => c.wellFormed
  | .scalerCoefSet c => c.wellFormed
  | .scalerCoefGet c => c.wellFormed
  | .audioPortSet c => c.wellFormed
  | .audioPortSlots c => c.wellFormed
  | .audioPortQuery c => c.wellFormed
  | .frameClockSet c => c.wellFormed
  | .audioProgramCreate c => c.wellFormed
  | .audioProgramSet c => c.wellFormed
  | .audioProgramDestroy c => c.wellFormed
  | .audioProgramQuery c => c.wellFormed
  | .asrcQuery c => c.wellFormed
  | .audioRateQuery c => c.wellFormed
  | .audioEmbedSet c => c.wellFormed
  | .ingressCreate c => c.wellFormed
  | .ingressDestroy c => c.wellFormed
  | .ingressQuery c => c.wellFormed
  | .egressCreate c => c.wellFormed
  | .egressSet c => c.wellFormed
  | .egressDestroy c => c.wellFormed
  | .egressQuery c => c.wellFormed
  | .egressProvenance c => c.wellFormed
  | .egressKey c => c.wellFormed
  | .egressImpair c => c.wellFormed
  | .shaperSet c => c.wellFormed
  | .gatelistSet c => c.wellFormed
  | .gatelistQuery c => c.wellFormed
  | .policerCreate c => c.wellFormed
  | .policerSet c => c.wellFormed
  | .policerDestroy c => c.wellFormed
  | .portAddr c => c.wellFormed
  | .provKey c => c.wellFormed
  | .arbiterMode c => c.wellFormed
  | .timeQuery c => c.wellFormed
  | .servoSet c => c.wellFormed
  | .servoReset c => c.wellFormed
  | .ptpSet c => c.wellFormed
  | .ptpPortSet c => c.wellFormed
  | .ppsSet c => c.wellFormed
  | .timeSetTod c => c.wellFormed
  | .domainSet c => c.wellFormed
  | .channelAlign c => c.wellFormed
  | .alignQuery c => c.wellFormed
  | .laneSet c => c.wellFormed
  | .laneTrain c => c.wellFormed
  | .laneQuery c => c.wellFormed
  | .laneTaps c => c.wellFormed
  | .sdiOutSet c => c.wellFormed
  | .memQuery c => c.wellFormed
  | .memSet c => c.wellFormed
  | .memFreq c => c.wellFormed
  | .memCopy c => c.wellFormed
  | .secQuote c => c.wellFormed
  | .secCerts c => c.wellFormed
  | .keyImport c => c.wellFormed
  | .keyDestroy c => c.wellFormed
  | .secLcAdvance c => c.wellFormed
  | .secOwnerKeyAdd c => c.wellFormed
  | .secKeyRevoke c => c.wellFormed
  | .secSvnCommit c => c.wellFormed
  | .secDebugChallenge c => c.wellFormed
  | .secDebugUnlock c => c.wellFormed
  | .secTamperSet c => c.wellFormed
  | .secTamperLog c => c.wellFormed
  | .secTamperClear c => c.wellFormed
  | .secCounter c => c.wellFormed
  | .secCredSet c => c.wellFormed
  | .healthQuery c => c.wellFormed
  | .bootSlotSet c => c.wellFormed
  | .dieRepair c => c.wellFormed
  | .mpRepair c => c.wellFormed
  | .isstQuery c => c.wellFormed
  | .kaLog c => c.wellFormed
  | .thermQuery c => c.wellFormed
  | .recGetReasons => true
  | .recGetAttestation => true
  | .recLoadImage => true
  | .recSetBootSlot => true
  | .recRestart => true
  | .recFinishLcMove => true
  | .recResetNormal => true
  | .recResetRecovery => true
  | .pictureBoundary .. => true
  | .pipe3PictureBoundary .. => true
  | .sourcePictureMissing .. => true
  | .ingressPacket _ f => decide (18 ≤ f.bytes.toNat)
  | .packetLossDeclare .. => true
  | .pathDownTimeout .. => true
  | .pathUp .. => true
  | .rowArrivalPost _ _ _ samples => samples.wellFormed
  | .sdiRateLock .. => true
  | .sdiLineReceive .. => true
  | .pictureCopyDone _ _ _ captions => captions.length % 3 == 0 && decide (captions.length ≤ 93)
  | .compositionRowDone .. => true
  | .commitAppliedReport .. => true
  | .analysisRowDone .. => true
  | .descriptorEnqueue _ _ d => d.args.length == 24
  | .backpressureEnd .. => true
  | .taskPost .. => true
  | .sequencePost .. => true
  | .flowPost .. => true
  | .taskDispatch .. => true
  | .taskComplete .. => true
  | .taskCancel .. => true
  | .flowSquash .. => true
  | .deadlineExpiry .. => true
  | .directLockAcquire .. => true
  | .directLockRelease .. => true
  | .taskWatchdog .. => true
  | .rowJudgement .. => true
  | .commitOrder .. => true
  | .rewindOrder .. => true
  | .checkpointRestoreDone .. => true
  | .fillOrder .. => true
  | .partnerOrder .. => true
  | .seamDataArrival .. => true
  | .stitchDeadline .. => true
  | .stitchRelease .. => true
  | .duRecordArrival .. => true
  | .duRelease .. => true
  | .manifestSigned .. => true
  | .refillTick => true
  | .frameTxEnd .. => true
  | .gateEntryChange .. => true
  | .gatelistStart .. => true
  | .ptpSendTrigger .. => true
  | .decoderAuArrival .. => true
  | .decodePictureDone .. => true
  | .checkValueComplete .. => true
  | .sdiOutPictureBoundary .. => true
  | .audioFsyncEdge .. => true
  | .audioClockLoss .. => true
  | .audioSampleArrival _ samples => samples.wellFormed
  | .audioPositionDelivery .. => true
  | .rateWindowEnd .. => true
  | .asrcLock .. => true
  | .aacAuDone .. => true
  | .dspWatchdog .. => true
  | .dspRestartDone .. => true
  | .timeWrap => true
  | .maintenancePass => true
  | .ptpMessageReceive .. => true
  | .announceReceiptTimeout .. => true
  | .ptpPortStateChange .. => true
  | .servoHoldoverTimeout => true
  | .ppsOutEdge => true
  | .ppsInEdge .. => true
  | .ppsInLost => true
  | .ref10mInLost => true
  | .laneDetectorAssert .. => true
  | .laneUpTimer .. => true
  | .autonegDone .. => true
  | .coeffUpdateRequest .. => true
  | .trainingDone .. => true
  | .trainingWaitTimeout .. => true
  | .lpiEntry .. => true
  | .scrubPass .. => true
  | .dramUncorrectable .. => true
  | .freqChangeDone .. => true
  | .arbiterRequest .. => true
  | .arbiterCutoff .. => true
  | .dowelFlitError .. => true
  | .dowelRetrainDone .. => true
  | .dowelStall .. => true
  | .tamperTrip sensor second _ => second != some sensor
  | .wipeDone => true
  | .tapInstructionLoad .. => true
  | .spFatalError => true
  | .powerGood => true
  | .brownOut => true
  | .sysRstNLow .. => true
  | .sysRstNRelease => true
  | .romStart .. => true
  | .thermalWaitCheck junctions => junctions.dies.length == 8
  | .imageVerifyDone .. => true
  | .bistDone .. => true
  | .firmwareReady => true
  | .dieReady .. => true
  | .dieReadyTimeout .. => true
  | .firmwareReadyTimeout => true
  | .failedStartRestart => true
  | .mpReport => true
  | .mpReportTimeout => true
  | .mpFatalError => true
  | .standbyStartDone => true
  | .takeoverComplete => true
  | .dieHeartbeat .. => true
  | .heartbeatTimeout .. => true
  | .failoverStateUpdate .. => true
  | .fillSetUpdate .. => true
  | .isstSliceStart .. => true
  | .isstSliceEnd .. => true
  | .thermalSample junctions => junctions.dies.length == 8
  | .thermTrip .. => true
  | .kaSwitchToBackup => true
  | .kaSwitchToMain => true
  | .dieRepairBistDone .. => true
  | .mpRepairBistDone .. => true
  | .securityProcessorRestartDone => true
  | .ref10mInReturn => true
  | .generatedRowAvailable .. => true
  | .fencedProcessorLateWrite .. => true
  | .firmwareStateJournal => true
  | .lpiWakeExpiry .. => true
  | .partnerLpi .. => true
  | .sdiAdaptationFail .. => true

end Sys2Proof
end

