-- ==== Sys2Proof/Safety.lean ====
section
/-!
DEFINITION. What a sound state is and what claims say of a command: the words the statements use.
-/

namespace Sys2Proof.Machine

open Sys2Proof (Submission)

/-- The clock registers hold what their widths admit, and the epoch's nanoseconds stay below one second (R361, R362). -/
def TimeState.sound (t : TimeState) : Prop :=
  t.ns < 2 ^ 32 ∧ t.frac < 2 ^ 32 ∧ t.epNs < 1000000000 ∧ t.epSec < 2 ^ 48

/-- A state whose clock is sound. -/
def State.clockSound (s : State) : Prop := s.time.sound

/-- A sound state: its clock is sound, and the mailbox and the mapped buffers are memories in canonical form. -/
def State.sound (s : State) : Prop :=
  s.clockSound ∧ Memory.wf s.eci.mailbox = true ∧ Memory.wf s.mem.data = true

/-- A meaning answers a next state of which something holds. -/
def Answers (o : Out) (p : State → Prop) : Prop := ∃ t, o = .next t ∧ p t

/-- A claim about one command: what it is about, the states it speaks of, and how the state before and the state after
are related. -/
structure Claim where
  row : Instr
  given : State → Prop
  gives : State → State → Prop

/-- In every state the claim speaks of, the command completes and has the claimed effect. -/
def Claim.Holds (q : Claim) : Prop := ∀ s, q.given s → Answers (exec q.row s) (q.gives s)

/-- Some state is one the claim speaks of. -/
def Claim.Met (q : Claim) : Prop := ∃ s, q.given s

/-- The command of a fetched entry, as a submission brings it. -/
def Token.cmd (t : Token) (c : Submission) : Cmd := { tok := t, sub := t.submission c }

/-- A claim about an ECI command. The submission `c` is a fetched entry that firmware may start, with opcode `op`; the
common checks of R540 pass; and `given` holds of the command and of the state with the entry taken up. Then the command
answers as `gives` says, and its completion is written (on the fast path if the response fits, R53) or its entry joins the commands
that wait. -/
def eciClaim (row : Instr) (e : EciSpec) (op : Nat) (c : Submission) (given : Cmd → State → Prop)
    (gives : Cmd → State → Answer → Prop) : Claim where
  row := row
  given s := ∃ t, s.ready op c = some t ∧ e.judge (t.cmd c) (s.takeUp t) = none ∧ given (t.cmd c) (s.takeUp t)
  gives s s' := ∃ t a, s.ready op c = some t ∧ gives (t.cmd c) (s.takeUp t) a ∧
    s' = (a.fits (t.cmd c) (s.takeUp t)).settle (t.cmd c)

end Sys2Proof.Machine
end

