-- ==== Sys2Proof/Certificates/Slice0/Obligations.lean ====
section
/-!
DEFINITION. The statements for the provers. First, under `Claims`, what each command does when it completes, one claim for a
command or for one form of it; then the obligations.
-/

namespace Sys2Proof

open Machine

namespace Claims

/-! ### Device commands (R65 to R70) -/

/-- DEVICE.IDENTIFY answers the identity registers, the limits of the caller and the digest of the configuration, and
changes nothing (R65, R457). -/
def deviceIdentify (c : Submission) : Claim :=
  eciClaim (.deviceIdentify c) specDeviceIdentify 0x0001 c (fun _ _ => True) fun k s a =>
    ∃ r, a = .done { response := r } s ∧ r.length = 72 ∧
      u32 r 0x00 = s.devId k.tok.via.fn % 2 ^ 32 ∧ u32 r 0x04 = s.devRev % 2 ^ 32 ∧
      u64 r 0x08 = s.boot.fuses.serial % 2 ^ 64 ∧ u32 r 0x10 = s.boot.eciVersion % 2 ^ 32 ∧
      u32 r 0x14 = s.boot.fwVersion % 2 ^ 32 ∧ u32 r 0x18 = s.boot.recipeVersion % 2 ^ 32 ∧
      u8 r 0x22 = s.usableDies k.tok.via.fn % 256 ∧ u8 r 0x23 = s.eci.numVfs % 256 ∧ u32 r 0x24 = 2000 ∧
      r.drop 0x28 = s.configDigest

/-- DEVICE.STATUS answers the status word, the boot stage and the device time, and changes nothing (R66). -/
def deviceStatus (c : Submission) : Claim :=
  eciClaim (.deviceStatus c) specDeviceStatus 0x0002 c (fun _ _ => True) fun _ s a =>
    ∃ r, a = .done { response := r } s ∧ r.length = 24 ∧ u32 r 0x00 = s.boot.statusWord % 2 ^ 32 ∧
      u8 r 0x04 = s.boot.stage.code % 256 ∧ u16 r 0x08 = twos 16 s.hottest % 2 ^ 16 ∧
      u16 r 0x0A = s.faultBits % 2 ^ 16 ∧ u64 r 0x10 = s.stamp % 2 ^ 64

/-- DEVICE.EVENT_MASK sets the ranges and the least severity of the caller's event ring (R66). -/
def deviceEventMask (c : Submission) : Claim :=
  eciClaim (.deviceEventMask c) specDeviceEventMask 0x0003 c (fun _ _ => True) fun k s a =>
    a = .done {} (s.modFn k.tok.via.fn fun g =>
      { g with eventRanges := u16 k.payload 0, eventMinSeverity := u8 k.payload 2 })

/-- QUEUE.CREATE makes an I/O queue of the caller from the payload and zeroes the queue's device-written words (R67). -/
def queueCreate (c : Submission) : Claim :=
  eciClaim (.queueCreate c) specQueueCreate 0x0004 c
    (fun k s =>
      let p := k.payload
      (s.fn k.tok.via.fn).rdy = true ∧ 1 ≤ u8 p 0 ∧ u8 p 0 ≤ 16 ∧ (s.fn k.tok.via.fn).queues.has (u8 p 0) = false ∧
        4 ≤ u8 p 1 ∧ u8 p 1 ≤ 12 ∧ 4 ≤ u8 p 2 ∧ u8 p 2 ≤ 12 ∧ u64 p 4 % 4096 = 0 ∧ u64 p 0xC % 4096 = 0)
    fun k s a =>
      let p := k.payload
      let q : Queue := { sqBase := u64 p 4, cqBase := u64 p 0xC, sqLog2 := u8 p 1, cqLog2 := u8 p 2 }
      let made := s.modFn k.tok.via.fn fun g => { g with queues := g.queues.put (u8 p 0) q }
      a = .done {} ((made.mbxStore (indexBlock k.tok.via.fn (u8 p 0) + 4) (le 4 0)).mbxStore
        (indexBlock k.tok.via.fn (u8 p 0) + 8) (le 4 0))

/-- QUEUE.DELETE stops the queue's fetching and waits for the queue's fetched commands (R67). -/
def queueDelete (c : Submission) : Claim :=
  eciClaim (.queueDelete c) specQueueDelete 0x0005 c
    (fun k s => u8 k.payload 0 ≠ 0 ∧ ∃ u, (s.fn k.tok.via.fn).queues.find (u8 k.payload 0) = some u ∧ u.deleting = false)
    fun k s a => ∃ u, (s.fn k.tok.via.fn).queues.find (u8 k.payload 0) = some u ∧
      a = .wait (.queueDelete (u8 k.payload 0)) {} (s.modFn k.tok.via.fn fun g =>
        { g with queues := g.queues.put (u8 k.payload 0) { u with deleting := true } })

/-- OBJECT.LIST answers a count and that many handles, each owned by the caller and above the one the payload gives, and
says whether more remain (R68). -/
def objectList (c : Submission) : Claim :=
  eciClaim (.objectList c) specObjectList 0x0006 c (fun _ _ => True) fun k s a =>
    ∃ (hs : List Nat) (more : Bool), a = .done { result := b2n more, response := le 4 hs.length ++ hs.flatMap (le 4) } s ∧
      (∀ h ∈ hs, h ∈ s.ownedHandles k.tok.via.fn ∧ u32 k.payload 4 < h ∧
        (u8 k.payload 0 = 0 ∨ handleType h = u8 k.payload 0)) ∧
      (more = false → ∀ h ∈ s.ownedHandles k.tok.via.fn, u32 k.payload 4 < h →
        (u8 k.payload 0 = 0 ∨ handleType h = u8 k.payload 0) → h ∈ hs)

/-- OBJECT.REASSIGN moves the object, and what moves with it, to the function of the payload (R57, R68). -/
def objectReassign (c : Submission) : Claim :=
  eciClaim (.objectReassign c) specObjectReassign 0x0007 c (fun k s => s.hasObject (u32 k.payload 0) = true)
    fun k s a => a = .done {} ((u32 k.payload 0 :: s.dependents (u32 k.payload 0)).foldl
      (fun s o => s.reassign o (u8 k.payload 4)) s)

/-- DEVICE.VF_QUOTA sets the quotas of a virtual function (R69). -/
def deviceVfQuota (c : Submission) : Claim :=
  eciClaim (.deviceVfQuota c) specDeviceVfQuota 0x0008 c (fun _ _ => True) fun k s a =>
    let p := k.payload
    let q : Quota := { dieMask := u8 p 1, maxChannels := u16 p 2, maxEgress := u16 p 4, maxIngress := u16 p 6 }
    a = .done {} (s.modFn (u8 p 0) fun g => { g with quota := q })

/-- DEVICE.RESTART completes and a restart follows 10 ms later, unless one is under way already (R70). -/
def deviceRestart (c : Submission) : Claim :=
  eciClaim (.deviceRestart c) specDeviceRestart 0x000A c (fun _ s => s.boot.restartAt = none) fun k s a =>
    a = .done {} (s.modBoot fun b => { b with restartAt := some (s.now + 10000000, u8 k.payload 0 == 1) })

/-- DEVICE.NOP answers the payload and changes nothing (R70). -/
def deviceNop (c : Submission) : Claim :=
  eciClaim (.deviceNop c) specDeviceNop 0x000B c (fun _ _ => True) fun k s a =>
    a = .done { response := slice k.sub.inlineBytes 0 24 } s

/-- DEVICE.IMAGE_LOAD stores the image in its slot if it verifies, and completes with E_INTEGRITY and no change if it
does not (R69, R447, R473). -/
def deviceImageLoad (c : Submission) : Claim :=
  eciClaim (.deviceImageLoad c) specDeviceImageLoad 0x0009 c
    (fun k s => u8 (k.payload.drop 4) 6 = codeType (u8 k.payload 0) ∧ (codeType (u8 k.payload 0) = 2 → (k.payload.drop 4).length ≤ 0x2000000) ∧
      u8 k.payload 0 / 2 ≠ s.boot.flash.active)
    fun k s a =>
      let img := k.payload.drop 4
      a = if s.boot.fuses.approve img (codeType (u8 k.payload 0)) = none then
          .done {} (s.modBoot fun b => { b with flash := { b.flash with images := b.flash.images.put (u8 k.payload 0) img } })
        else .done { status := .eIntegrity } s

/-! ### The network session's own commands (R461) -/

/-- SESSION.OPEN opens the session it came in by and answers the session's number (R461). -/
def sessionOpen (c : Submission) : Claim :=
  eciClaim (.sessionOpen c) specSessionOpen 0x0010 c
    (fun k s => u8 k.payload 0 = (s.eci.sessions.look {} k.session).fn ∧ (s.eci.sessions.look {} k.session).opened = false)
    fun k s a => ∃ u, a = .done { response := le 1 k.session } u ∧
      u.eci.sessions = s.eci.sessions.upd k.session (fun x => { x with opened := true }) ∧
      u.eci.sessionPort = (if u16 k.payload 2 = 0 then s.eci.sessionPort else u16 k.payload 2) ∧
      u.boot.flash.sessionPort = (if u16 k.payload 2 = 0 then s.boot.flash.sessionPort else some (u16 k.payload 2))

/-- SESSION.KEEPALIVE completes and changes nothing (R461). -/
def sessionKeepalive (c : Submission) : Claim :=
  eciClaim (.sessionKeepalive c) specSessionKeepalive 0x0012 c (fun _ _ => True) fun _ s a => a = .done {} s

/-- SESSION.CLOSE completes, and then the sessions marked for closing close (R461). -/
def sessionClose (c : Submission) : Claim where
  row := .sessionClose c
  given s := ∃ t, s.ready 0x0011 c = some t ∧ specSessionClose.judge (t.cmd c) (s.takeUp t) = none
  gives s s' := ∃ t, s.ready 0x0011 c = some t ∧
    let k := t.cmd c
    let served := ((s.takeUp t).modSession k.session fun x => { x with closing := true }).complete k {}
    s' = (served.eci.sessions.sel fun _ x => x.closing).keys.foldl (fun s n => s.closeSession n 0) served

/-! ### Channel commands (R72 to R105) -/

/-- CHANNEL.CREATE places the configuration, makes a channel of the caller in IDLE there and answers its handle and the
admission response, with the event of its state, whose code for no channel the model leaves free (R73, R78, R81, R104; log
entry 149). -/
def channelCreate (c : Submission) : Claim :=
  eciClaim (.channelCreate c) specChannelCreate 0x0101 c
    (fun k s =>
      let g := parseCh k.payload
      firstFail (s.chRules k 0 s.charges g {}) = none ∧ firstFail (s.chQuota k true g) = none ∧
        (∃ p, s.choosePlace k.tok.via.fn s.charges g g.defaultCap = .ok p ∧
          (s.newObject tChannel p.die s.boot.fuses.variant.channels k.tok.via.fn).isSome = true) ∧
        firstFail (s.dieService g) = none)
    fun k s a =>
      let g := parseCh k.payload
      ∃ p h t, s.choosePlace k.tok.via.fn s.charges g g.defaultCap = .ok p ∧
        s.newObject tChannel p.die s.boot.fuses.variant.channels k.tok.via.fn = some (h, t) ∧
        let u := t.modChan fun x => { x with chans := x.chans.put h (g.toChannel k.payload p {}) }
        a = .done { result := h, response := s.admissionResponse s.charges g (some p) }
          (u.raise evChannelState h u.noChannelState (some 0)).useFree

/-- CHANNEL.ADMIT_CHECK answers the admission response of CHANNEL.CREATE and changes nothing (R80, R104). -/
def channelAdmitCheck (c : Submission) : Claim :=
  eciClaim (.channelAdmitCheck c) specChannelAdmitCheck 0x0102 c
    (fun k s =>
      let g := parseCh k.payload
      firstFail (s.chRules k 0 s.charges g {}) = none ∧ firstFail (s.chQuota k true g) = none ∧
        (∃ p, s.choosePlace k.tok.via.fn s.charges g g.defaultCap = .ok p) ∧ firstFail (s.dieService g) = none)
    fun k s a =>
      let g := parseCh k.payload
      ∃ p, s.choosePlace k.tok.via.fn s.charges g g.defaultCap = .ok p ∧
        a = .done { response := s.admissionResponse s.charges g (some p) } s

/-- CHANNEL.SET gives an IDLE encode channel a new configuration, with the source it has, admitted in place of the old one; a
change of preset clears MAX_REFS (R105); one that a slot table names stays in its die's pool (log entry 150). -/
def channelSet (c : Submission) : Claim :=
  let cfg (k : Cmd) (s : State) : ChCfg := { parseCh k.payload with source := (s.ch k.tok.handle).cfg.source }
  let set (k : Cmd) (s : State) : ChSettings :=
    if (cfg k s).effort = (s.ch k.tok.handle).cfg.effort then (s.ch k.tok.handle).set
    else { (s.ch k.tok.handle).set with maxRefs := 0 }
  let others (k : Cmd) (s : State) : List Charge := s.charges.filter fun g => g.chan != k.tok.handle
  let kbps (k : Cmd) (s : State) : Nat :=
    ((if (set k s).rCapKbps = 0 then (cfg k s).defaultCap else (set k s).rCapKbps) :: s.pendingCaps k.tok.handle).foldl max 0
  eciClaim (.channelSet c) specChannelSet 0x0103 c
    (fun k s =>
      s.isDecoder k.tok.handle = false ∧ (s.ch k.tok.handle).state = .idle ∧
        (s.inSlotTable k.tok.handle = true → (cfg k s).pipe = 3) ∧
        firstFail (s.chRules k k.tok.handle (others k s) (cfg k s) (set k s)) = none ∧
        firstFail (s.chQuota k false (cfg k s)) = none ∧
        (∃ p, s.choosePlace k.tok.via.fn (others k s) (cfg k s) (kbps k s) = .ok p ∧
          (s.inSlotTable k.tok.handle = true → p.die = (s.ch k.tok.handle).die)) ∧
        firstFail (s.dieService (cfg k s)) = none)
    fun k s a => ∃ p, s.choosePlace k.tok.via.fn (others k s) (cfg k s) (kbps k s) = .ok p ∧
      a = .done { response := s.admissionResponse (others k s) (cfg k s) (some p) }
        (s.modCh k.tok.handle fun x => { (cfg k s).toChannel k.payload p x with set := set k s })

/-- CHANNEL.START of an IDLE channel on pipe 0 to 2, on dies that are ready and in service, waits for the arrival of the start
at its source's boundary (R73, R75, R477). -/
def channelStart (c : Submission) : Claim :=
  eciClaim (.channelStart c) specChannelStart 0x0104 c
    (fun k s =>
      let x := s.ch k.tok.handle
      x.state = .idle ∧ x.pipe ≠ 3 ∧ (x.aligned = true → s.time.servo = .locked) ∧
        x.cfg.touches s.boot.diesFenced x.die = false ∧ x.cfg.touches (255 - s.boot.diesReady % 256) x.die = false)
    fun k s a => a = .wait (.arrival (.source k.tok.handle) (.start k.tok.handle)) {} s

/-- CHANNEL.STOP of a channel that starts or runs on pipe 0 to 2 waits for the arrival of the stop (R73). -/
def channelStop (c : Submission) : Claim :=
  eciClaim (.channelStop c) specChannelStop 0x0105 c
    (fun k s =>
      let x := s.ch k.tok.handle
      (x.state = .starting ∨ x.state = .running) ∧ x.pipe ≠ 3)
    fun k s a => a = .wait (.arrival (.picture k.tok.handle) (.stop k.tok.handle)) {} s

/-- CHANNEL.DESTROY of an IDLE channel that nothing names frees it with everything that belongs to it (R92). -/
def channelDestroy (c : Submission) : Claim :=
  eciClaim (.channelDestroy c) specChannelDestroy 0x0106 c
    (fun k s => (s.ch k.tok.handle).state = .idle ∧ s.channelNamedBy k.tok.handle = none)
    fun k s a => a = .done {} (s.dropChannel k.tok.handle)

/-- CHANNEL.QUERY answers the channel's state and counters and changes nothing (R97). -/
def channelQuery (c : Submission) : Claim :=
  eciClaim (.channelQuery c) specChannelQuery 0x0107 c (fun _ _ => True) fun k s a =>
    let x := s.ch k.tok.handle
    ∃ r, a = .done { response := r } s ∧ r.length = 32 ∧ u8 r 0x00 = x.state.code % 256 ∧ u8 r 0x01 = x.cond.code % 256 ∧
      u8 r 0x02 = x.die % 256 ∧ u8 r 0x03 = x.pipe % 256 ∧
      u64 r 0x08 = (x.lastReleased.getD (2 ^ 64 - 1)) % 2 ^ 64 ∧ u32 r 0x10 = x.repeats % 2 ^ 32 ∧
      u32 r 0x14 = x.slates % 2 ^ 32 ∧ u32 r 0x18 = x.discarded % 2 ^ 32 ∧ u32 r 0x1C = x.retimes % 2 ^ 32

/-- SLOT_TABLE.SET of a die that takes commands, with pool channels of it, none named twice, waits for its arrival at the pipe-3 boundary
(R84, R85). -/
def slotTableSet (c : Submission) : Claim :=
  eciClaim (.slotTableSet c) specSlotTableSet 0x0108 c
    (fun k s => s.dieGate k.tok.handle = none ∧ handleDie k.tok.handle ≠ 0xFF ∧ s.badSlot (handleDie k.tok.handle) (slotsOf k.payload) = none ∧
      (slotsOf k.payload).findSome? (fun h => s.useObject k h [tChannel]) = none)
    fun k s a => a = .wait (.arrival (.pipe3 (handleDie k.tok.handle))
      (.slotTable (handleDie k.tok.handle) (slotsOf k.payload))) {} s

/-- SLOT_TABLE.GET of a die answers the table in force and the one that waits, and changes nothing (R84). -/
def slotTableGet (c : Submission) : Claim :=
  eciClaim (.slotTableGet c) specSlotTableGet 0x0109 c (fun k s => s.dieGate k.tok.handle = none ∧ handleDie k.tok.handle ≠ 0xFF) fun k s a =>
    let t := (s.chan.pipe3.look {} (handleDie k.tok.handle)).table
    let w := s.shadowSlots (handleDie k.tok.handle)
    ∃ r, a = .done { response := r } s ∧ r.length = 264 ∧ u8 r 0x00 = t.length % 256 ∧
      slice r 0x04 128 = slice (t.flatMap (le 4)) 0 128 ∧ u8 r 0x84 = ((w.map List.length).getD 0xFF) % 256 ∧
      slice r 0x88 128 = slice ((w.getD []).flatMap (le 4)) 0 128

/-- SLATE.CREATE makes a slate of the caller, with a surface on each die of the payload's mask, and answers its handle and the
surfaces' addresses (R102). -/
def slateCreate (c : Submission) : Claim :=
  let slate (k : Cmd) : Slate :=
    { dieMask := u8 k.payload 0, chroma := u8 k.payload 1, bitDepth := u8 k.payload 2, format := u8 k.payload 3
      width := u16 k.payload 4, height := u16 k.payload 6 }
  let dies (k : Cmd) : List Nat := (List.range 8).filter (bit (u8 k.payload 0))
  let want (k : Cmd) : List (Nat × Nat) := (dies k).map fun d => (d, surfaceBytes (slate k).format (slate k).width (slate k).height)
  eciClaim (.slateCreate c) specSlateCreate 0x010A c
    (fun k s =>
      pictureFormat (slate k).format = some ((slate k).chroma, (slate k).bitDepth) ∧
        (∀ d ∈ dies k, s.dramUsed s.charges d + surfaceCharge (slate k).width (slate k).height (slate k).chroma ≤ dramPool) ∧
        (∃ h t, s.newObject tSlate 0xFF 65536 k.tok.via.fn = some (h, t) ∧ (t.mapBuffers h (want k)).isSome = true) ∧
        ∀ d ∈ dies k, bit s.boot.diesFenced d = false)
    fun k s a => ∃ h t as u, s.newObject tSlate 0xFF 65536 k.tok.via.fn = some (h, t) ∧
      t.mapBuffers h (want k) = some (as, u) ∧
      a = .done { result := h, response := (List.range 8).flatMap fun d => le 8 (Tab.look ((dies k).zip as) 0 d) }
        (u.modChan fun x => { x with slates := x.slates.put h { slate k with addr := (dies k).zip as } })

/-- SLATE.DESTROY of a slate that no channel uses frees it and its surfaces (R102). -/
def slateDestroy (c : Submission) : Claim :=
  eciClaim (.slateDestroy c) specSlateDestroy 0x010B c
    (fun k s => ∀ e ∈ s.chan.chans, e.2.cfg.slate ≠ k.tok.handle)
    fun k s a => a = .done {} (((s.modChan fun x => { x with slates := x.slates.del k.tok.handle }).unmapObject
      k.tok.handle).freeObject k.tok.handle)

/-- DIE.LOAD of an encode die answers its load, pool load, reserve, fenced share and memory in use, and changes nothing
(R77). -/
def dieLoad (c : Submission) : Claim :=
  eciClaim (.dieLoad c) specDieLoad 0x010C c (fun k s => s.dieGate k.tok.handle = none ∧ handleDie k.tok.handle ≠ 0xFF) fun k s a =>
    let d := handleDie k.tok.handle
    ∃ r, a = .done { response := r } s ∧ r.length = 20 ∧ u32 r 0x00 = s.dieLoad s.charges d % 2 ^ 32 ∧
      u32 r 0x04 = poolLoad s.charges d % 2 ^ 32 ∧ u32 r 0x08 = reserveLoad s.charges d % 2 ^ 32 ∧
      u32 r 0x0C = s.fencedShare d % 2 ^ 32 ∧ u32 r 0x10 = cdiv (s.dramUsed s.charges d) 1024 % 2 ^ 32

/-! ### Analysis, coding tools, structure and rate control (R107 to R206) -/

/-- CODING.TOOLS of an IDLE encode channel sets the tools turned off and the reference limit (R134). -/
def codingTools (c : Submission) : Claim :=
  eciClaim (.codingTools c) specCodingTools 0x0201 c
    (fun k s =>
      let x := s.ch k.tok.handle
      s.isDecoder k.tok.handle = false ∧ x.state = .idle ∧ u8 k.payload 8 ≤ presetRefs x.cfg.effort ∧
        x.cfg.levelOk x.set.struct x.set.miniGop (refsOf x.cfg.effort (u8 k.payload 8)) = true)
    fun k s a => a = .done {} (s.modCh k.tok.handle fun x =>
      { x with set := { x.set with toolOff := u64 k.payload 0, maxRefs := u8 k.payload 8 } })

/-- CODING.TOOLS_GET answers the tools on, the references and the presets, and changes nothing (R135). -/
def codingToolsGet (c : Submission) : Claim :=
  eciClaim (.codingToolsGet c) specCodingToolsGet 0x0202 c (fun k s => s.isDecoder k.tok.handle = false) fun k s a =>
    let x := s.ch k.tok.handle
    ∃ r, a = .done { response := r } s ∧ u64 r 0x00 = x.toolOn % 2 ^ 64 ∧
      u8 r 0x08 = refsOf x.effort x.set.maxRefs % 256 ∧ u8 r 0x09 = x.cfg.effort % 256 ∧ u8 r 0x0A = x.effort % 256

/-- ANALYSIS.SET waits for its arrival at the channel's picture boundary (R136). -/
def analysisSet (c : Submission) : Claim :=
  eciClaim (.analysisSet c) specAnalysisSet 0x0203 c (fun k s => s.isDecoder k.tok.handle = false) fun k s a =>
    a = .wait (.arrival (.picture k.tok.handle) (.analysis k.tok.handle (slice k.payload 0 8))) {} s

/-- ANALYSIS.QUERY answers the results of the picture analysed last and changes nothing (R133). -/
def analysisQuery (c : Submission) : Claim :=
  eciClaim (.analysisQuery c) specAnalysisQuery 0x0204 c (fun k s => s.isDecoder k.tok.handle = false) fun k s a =>
    let x := s.ch k.tok.handle
    let v (i : Nat) : Nat := x.analysed.getD i 0
    ∃ r, a = .done { response := r } s ∧ r.length = 24 ∧ u64 r 0x00 = x.lastAnalysed.getD 0 % 2 ^ 64 ∧ u16 r 0x08 = v 0 % 2 ^ 16 ∧
      u16 r 0x0A = v 1 % 2 ^ 16 ∧ u8 r 0x0C = v 2 % 256 ∧ u8 r 0x0D = v 3 % 256 ∧ u8 r 0x0E = v 4 % 256 ∧
      ∀ i < 4, u16 r (0x10 + 2 * i) = twos 16 (x.analysedGm.getD i 0)

/-- RECIPE.INFO answers the recipes' version and digest and changes nothing (R109). -/
def recipeInfo (c : Submission) : Claim :=
  eciClaim (.recipeInfo c) specRecipeInfo 0x0205 c (fun _ _ => True) fun _ s a =>
    ∃ r, a = .done { response := r } s ∧ r.length = 40 ∧ u32 r 0x00 = s.boot.recipeVersion % 2 ^ 32 ∧
      r.drop 0x08 = slice s.boot.rcpDigest 0 32

/-- CODING.STRUCTURE of an IDLE encode channel sets the picture structure, the refresh and the picture hash (R171). -/
def codingStructure (c : Submission) : Claim :=
  eciClaim (.codingStructure c) specCodingStructure 0x0206 c
    (fun k s =>
      let p := k.payload
      let x := s.ch k.tok.handle
      s.isDecoder k.tok.handle = false ∧ x.state = .idle ∧
        (u8 p 0 = 1 → [2, 4, 8].contains (u8 p 1) = true ∧ u8 p 1 ≤ x.cfg.lookahead ∧ u8 p 2 ≠ 0) ∧
        (u16 p 4 = 0 ∨ u8 p 3 ≤ u16 p 4) ∧
        x.cfg.levelOk (u8 p 0) (u8 p 1) (refsOf x.cfg.effort x.set.maxRefs) = true)
    fun k s a =>
      let p := k.payload
      let set (t : ChSettings) : ChSettings :=
        { t with struct := u8 p 0, miniGop := u8 p 1, refreshMode := u8 p 2, refreshPics := u8 p 3, refreshPeriod := u16 p 4
                 scIdr := u8 p 6, psRepeat := u8 p 7, hashSei := u8 p 8 }
      a = .done {} (s.modCh k.tok.handle fun x => { x with set := set x.set })

/-- CODING.SEI, naming no caption ingress or one the caller may use, waits for its arrival (R172). -/
def codingSei (c : Submission) : Claim :=
  eciClaim (.codingSei c) specCodingSei 0x0207 c
    (fun k s =>
      let src := u32 k.payload 4
      s.isDecoder k.tok.handle = false ∧
        (src = 0 ∨ handleType src = tIngress ∧ s.hasObject src = true ∧
          u8 (s.net.ingress.look {} src).payload 0 = 4 ∧ s.useObject k src [tIngress] = none))
    fun k s a => a = .wait (.arrival (.picture k.tok.handle) (.sei k.tok.handle (slice k.payload 0 40))) {} s

/-- CODING.STRUCTURE_GET answers the structure payload and the SEI payload in force and changes nothing (R173). -/
def codingStructureGet (c : Submission) : Claim :=
  eciClaim (.codingStructureGet c) specCodingStructureGet 0x0208 c (fun k s => s.isDecoder k.tok.handle = false) fun k s a =>
    let t := (s.ch k.tok.handle).set
    ∃ r, a = .done { response := r } s ∧ r.length = 56 ∧ u8 r 0 = t.struct % 256 ∧ u8 r 1 = t.miniGop % 256 ∧
      u8 r 2 = t.refreshMode % 256 ∧ u8 r 3 = t.refreshPics % 256 ∧ u16 r 4 = t.refreshPeriod % 2 ^ 16 ∧
      u8 r 6 = t.scIdr % 256 ∧ u8 r 7 = t.psRepeat % 256 ∧ u8 r 8 = t.hashSei % 256 ∧ r.drop 0x10 = slice t.sei 0 40

/-- RC.SET that its channel's rules and its pipes' rate admit waits for its arrival at the channel's picture boundary
(R205). -/
def rcSet (c : Submission) : Claim :=
  let set (k : Cmd) (s : State) : ChSettings := (s.ch k.tok.handle).set.withRc k.payload
  let cap (k : Cmd) (s : State) : Nat :=
    if (set k s).rCapKbps = 0 then (s.ch k.tok.handle).cfg.defaultCap else (set k s).rCapKbps
  let charges (k : Cmd) (s : State) : List Charge :=
    s.charges.map fun g => if g.chan = k.tok.handle then { g with kbps := max g.kbps (cap k s) } else g
  eciClaim (.rcSet c) specRcSet 0x0301 c
    (fun k s =>
      let x := s.ch k.tok.handle
      s.isDecoder k.tok.handle = false ∧ (set k s).qpMin ≤ (set k s).qpMax ∧ (set k s).qpMax ≤ x.cfg.qpTop ∧
        firstFail (x.cfg.rateChecks (set k s).hashSei (cap k s) (set k s).cpbMs) = none ∧
        ∀ g ∈ charges k s, g.chan = k.tok.handle → ∀ q ∈ g.pipes, pipeRate (charges k s) q ≤ 2400000)
    fun k s a => a = .wait (.arrival (.picture k.tok.handle) (.rc k.tok.handle (slice k.payload 0 16))) {} s

/-- RC.GET answers the rate-control settings in force and changes nothing (R206). -/
def rcGet (c : Submission) : Claim :=
  eciClaim (.rcGet c) specRcGet 0x0302 c (fun k s => s.isDecoder k.tok.handle = false) fun k s a =>
    let x := s.ch k.tok.handle
    ∃ r, a = .done { response := r } s ∧ r.length = 32 ∧ u8 r 0 = x.set.ql % 256 ∧ u8 r 1 = x.set.qpMin % 256 ∧
      u8 r 2 = x.set.qpMax % 256 ∧ u8 r 3 = x.set.aqStr % 256 ∧ u8 r 4 = x.set.aqMax % 256 ∧
      u8 r 5 = x.set.initPct % 256 ∧ u16 r 6 = x.set.cpbMs % 2 ^ 16 ∧ u32 r 8 = x.capKbps % 2 ^ 32 ∧
      u32 r 0x10 = x.cpb % 2 ^ 32 ∧ u32 r 0x14 = x.cfg.zPic x.set.hashSei % 2 ^ 32 ∧
      u32 r 0x18 = x.cfg.lowestCap x.set.hashSei % 2 ^ 32

/-- RC.QUERY answers the results of the picture released last and the counters, and changes nothing (R200). -/
def rcQuery (c : Submission) : Claim :=
  eciClaim (.rcQuery c) specRcQuery 0x0303 c (fun k s => s.isDecoder k.tok.handle = false) fun k s a =>
    let x := s.ch k.tok.handle
    ∃ r, a = .done { response := r } s ∧ r.length = 32 ∧ u64 r 0 = x.rcResult.pic % 2 ^ 64 ∧
      u32 r 8 = x.rcResult.bits % 2 ^ 32 ∧ u32 r 0xC = x.rcResult.phi0Next % 2 ^ 32 ∧
      u8 r 0x10 = x.rcResult.qpPic % 256 ∧ u8 r 0x11 = x.rcResult.qpAvg % 256 ∧ u8 r 0x12 = x.rcResult.stage % 256 ∧
      u8 r 0x13 = x.rcResult.rewinds % 256 ∧ u8 r 0x14 = x.rcResult.filled % 256 ∧
      u8 r 0x15 = x.rcResult.dlFilled % 256 ∧ u32 r 0x18 = x.slips % 2 ^ 32 ∧ u32 r 0x1C = x.recoveries % 2 ^ 32

/-- DELAY.QUERY answers the anchor, the row time, the fixed delay and the next release, and changes nothing (R176). -/
def delayQuery (c : Submission) : Claim :=
  eciClaim (.delayQuery c) specDelayQuery 0x0304 c (fun k s => s.isDecoder k.tok.handle = false) fun k s a =>
    let x := s.ch k.tok.handle
    ∃ r, a = .done { response := r } s ∧ r.length = 40 ∧ u64 r 0 = x.cfg.ns x.anchor % 2 ^ 64 ∧
      u64 r 8 = x.anchorPic % 2 ^ 64 ∧ u64 r 0x10 = x.cfg.rowFx % 2 ^ 64 ∧ u32 r 0x18 = x.fixedDelayNs % 2 ^ 32 ∧
      u8 r 0x1C = x.dRows % 256 ∧ u8 r 0x1D = x.cfg.lookahead % 256 ∧ u8 r 0x1E = x.cfg.rows % 256 ∧
      u64 r 0x20 = (if x.state = .idle ∨ x.anchored = false then 0 else x.releaseNs x.relPic x.relDu) % 2 ^ 64

/-! ### Scheduler and trace commands (R239 to R241) -/

/-- SCHED.STATUS of a die that takes commands answers the scheduler's counts and starts the caller's peak anew (R240). -/
def schedStatus (c : Submission) : Claim :=
  eciClaim (.schedStatus c) specSchedStatus 0x0401 c (fun k s => s.dieGate k.tok.handle = none) fun k s a =>
    let n := schedOf k.tok.handle
    let f := k.tok.via.fn
    let d := s.sd n
    ∃ r, a = .done { response := r }
        ((s.captureSched n).modSd n fun d => { d with peak := d.peak.put f d.occupancy }) ∧ r.length = 64 ∧
      (∀ c < 6, u16 r (4 + 2 * c) = d.readyOf c % 2 ^ 16) ∧
      u16 r 0x00 = d.occupancy % 2 ^ 16 ∧ u16 r 0x02 = max d.occupancy (d.peak.look 0 f) % 2 ^ 16 ∧
      u64 r 0x10 = min d.dispatched (2 ^ 64 - 1) ∧ u32 r 0x18 = min d.cancelled (2 ^ 32 - 1) ∧
      u32 r 0x1C = min d.squashes (2 ^ 32 - 1) ∧ u32 r 0x20 = min d.expired (2 ^ 32 - 1) ∧
      u32 r 0x24 = min d.aborted (2 ^ 32 - 1) ∧ u32 r 0x28 = min d.holes (2 ^ 32 - 1) ∧
      u32 r 0x2C = min d.stale (2 ^ 32 - 1) ∧ u32 r 0x30 = min d.bpEvents (2 ^ 32 - 1) ∧
      u32 r 0x34 = min d.broken (2 ^ 32 - 1) ∧ u16 r 0x38 = min d.fullEvents (2 ^ 16 - 1) ∧
      u16 r 0x3A = min d.fenced.length (2 ^ 16 - 1)

/-- SCHED.LOCKS of a die that takes commands answers 256 lock entries and changes nothing (R240). -/
def schedLocks (c : Submission) : Claim :=
  eciClaim (.schedLocks c) specSchedLocks 0x0402 c (fun k s => s.dieGate k.tok.handle = none) fun k s a =>
    ∃ r, a = .done { response := r } s ∧ r.length = 2048 ∧
      ∀ l < 256, slice r (8 * l) 8 = s.lockEntry (schedOf k.tok.handle) l

/-- SCHED.FLOWS answers at most 16 open flows of the channel and changes nothing (R240). -/
def schedFlows (c : Submission) : Claim :=
  eciClaim (.schedFlows c) specSchedFlows 0x0403 c (fun _ _ => True) fun k s a =>
    ∃ r, a = .done { response := r } s ∧ u8 r 0 = (s.flowEntries k.tok.handle).length ∧ u8 r 0 ≤ 16 ∧
      r.drop 4 = (s.flowEntries k.tok.handle).flatMap (le 4)

/-- TRACE.CREATE on a die that takes commands makes a trace of the caller with a buffer of the size asked for and answers its handle and address
(R239, R241). -/
def traceCreate (c : Submission) : Claim :=
  let mine (k : Cmd) (s : State) : List Trace :=
    (s.sched.traces.filter fun e => e.2.sched == schedOf k.tok.handle).map (·.2)
  eciClaim (.traceCreate c) specTraceCreate 0x0404 c
    (fun k s =>
      s.dieGate k.tok.handle = none ∧ (mine k s).length < 4 ∧ ((mine k s).map fun t => 2 ^ t.log2).sum + 2 ^ u32 k.payload 0 ≤ 67108864 ∧
        ∃ h t, s.newObject tTrace (handleDie k.tok.handle) 36 k.tok.via.fn = some (h, t) ∧
          (t.mapBuffer h (handleDie k.tok.handle) (2 ^ u32 k.payload 0)).isSome = true)
    fun k s a =>
      let p := k.payload
      ∃ h t b u, s.newObject tTrace (handleDie k.tok.handle) 36 k.tok.via.fn = some (h, t) ∧
        t.mapBuffer h (handleDie k.tok.handle) (2 ^ u32 p 0) = some (b, u) ∧
        let made : Trace :=
          { sched := schedOf k.tok.handle, log2 := u32 p 0, base := b, typeMask := u16 p 4, classMask := u8 p 6
            policy := u8 p 7, flows := (List.range (u8 p 8)).map fun i => u16 p (0x0A + 2 * i) }
        a = .done { result := h, response := le 8 b } (u.modSched fun x => { x with traces := x.traces.put h made })

/-- TRACE.START of a stopped trace clears its counts and starts it (R241). -/
def traceStart (c : Submission) : Claim :=
  eciClaim (.traceStart c) specTraceStart 0x0405 c (fun k s => (s.tr k.tok.handle).running = false) fun k s a =>
    a = .done { boundary := some (.time s.stamp) } (s.modTrace k.tok.handle fun t =>
      { t with running := true, wrapped := false, write := 0, records := 0, lost := 0, lostSince := 0 })

/-- TRACE.STOP of a running trace writes the record of its losses, if it has any, and stops it (R239, R241). -/
def traceStop (c : Submission) : Claim :=
  eciClaim (.traceStop c) specTraceStop 0x0406 c (fun k s => (s.tr k.tok.handle).running = true) fun k s a =>
    a = .done { boundary := some (.time s.stamp) } 
      ((s.traceLoss (s.tr k.tok.handle).sched k.tok.handle).modTrace k.tok.handle fun t => { t with running := false })

/-- TRACE.STATUS writes the record of the trace's losses, if it has any, and answers the trace's state and counts from a
capture of the group (R29, R239). -/
def traceStatus (c : Submission) : Claim :=
  eciClaim (.traceStatus c) specTraceStatus 0x0407 c (fun _ _ => True) fun k s a =>
    let told := s.traceLoss (s.tr k.tok.handle).sched k.tok.handle
    let t := told.tr k.tok.handle
    ∃ r, a = .done { response := r } (told.captureGroup 2 [0, 0, 0, 0, 0, 0, 0, t.write]) ∧ r.length = 24 ∧ u8 r 0 = b2n t.running ∧ u8 r 1 = b2n t.wrapped ∧
      u32 r 4 = t.write % 2 ^ 32 ∧ u64 r 8 = t.records % 2 ^ 64 ∧ u64 r 0x10 = t.lost % 2 ^ 64

/-- TRACE.DESTROY frees the trace, its buffer and its handle, running or not (R241). -/
def traceDestroy (c : Submission) : Claim :=
  eciClaim (.traceDestroy c) specTraceDestroy 0x0408 c (fun _ _ => True) fun k s a =>
    a = .done {} (((s.unmapObject k.tok.handle).modSched fun x =>
      { x with traces := x.traces.del k.tok.handle }).freeObject k.tok.handle)

/-! ### Composition commands (R271 to R290) -/

/-- COMPOSE.SET of an IDLE encode channel sets its colour (R271). -/
def composeSet (c : Submission) : Claim :=
  eciClaim (.composeSet c) specComposeSet 0x0601 c
    (fun k s => s.isDecoder k.tok.handle = false ∧ (s.ch k.tok.handle).state = .idle)
    fun k s a => a = .done {} (s.modCh k.tok.handle fun x => { x with set := { x.set with colour := u8 k.payload 0 } })

/-- LAYER.CREATE makes a layer of an encode channel with its surfaces on each die that composes the channel, and answers its
handle and the surfaces' addresses (R278). -/
def layerCreate (c : Submission) : Claim :=
  let bytes (k : Cmd) : Nat := surfaceBytes (u8 k.payload 4) (u16 k.payload 0) (u16 k.payload 2)
  let spots (k : Cmd) (s : State) : List (Nat × Nat) :=
    (s.ch k.tok.handle).dies.flatMap fun d => (List.range (u8 k.payload 5)).map fun _ => (d, bytes k)
  eciClaim (.layerCreate c) specLayerCreate 0x0602 c
    (fun k s =>
      let x := s.ch k.tok.handle
      s.isDecoder k.tok.handle = false ∧ layerFormat (u8 k.payload 4) = true ∧ (s.layersOf k.tok.handle).length < 8 ∧
        (∀ d ∈ x.dies, s.layersOn d < 16) ∧
        (∀ d ∈ x.dies, s.dramUsed s.charges d + u8 k.payload 5 * bytes k ≤ dramPool) ∧
        ∃ l t, s.newObject tLayer x.die (16 * s.dies) k.tok.via.fn = some (l, t) ∧
          (t.mapBuffers l (spots k s)).isSome = true)
    fun k s a =>
      let p := k.payload
      ∃ l t as u, s.newObject tLayer (s.ch k.tok.handle).die (16 * s.dies) k.tok.via.fn = some (l, t) ∧
        t.mapBuffers l (spots k s) = some (as, u) ∧
        let made : Layer := { chan := k.tok.handle, maxW := u16 p 0, maxH := u16 p 2, maxFormat := u8 p 4
                              buffers := u8 p 5, addr := as }
        ∃ r, a = .done { result := l, response := r } (u.modComp fun x => { x with layers := x.layers.put l made }) ∧
          r.length = 32 ∧ u64 r 0 = as.getD 0 0 % 2 ^ 64 ∧ u64 r 8 = (if u8 p 5 = 2 then as.getD 1 0 else 0) % 2 ^ 64 ∧
          u64 r 0x10 = (if 1 < (s.ch k.tok.handle).dies.length then as.getD (u8 p 5) 0 else 0) % 2 ^ 64 ∧
          u64 r 0x18 = (if 1 < (s.ch k.tok.handle).dies.length ∧ u8 p 5 = 2 then as.getD 3 0 else 0) % 2 ^ 64

/-- LAYER.SET stages a state of the layer that names one of its surfaces and a format that fits it (R288). -/
def layerSet (c : Submission) : Claim :=
  eciClaim (.layerSet c) specLayerSet 0x0603 c
    (fun k s =>
      let g := s.lyr k.tok.handle
      u8 k.payload 3 < g.buffers ∧ layerFormat (u8 k.payload 2) = true ∧
        surfaceBytes (u8 k.payload 2) g.maxW g.maxH ≤ surfaceBytes g.maxFormat g.maxW g.maxH)
    fun k s a => a = .done {} (s.modLayer k.tok.handle fun g =>
      { g with staged := g.staged ++ [(k.tok.seq, some (slice k.payload 0 64))] })

/-- LAYER.COMMIT takes the staged states of the channel's layers and waits for their arrival at the picture boundary (R288,
R289). -/
def layerCommit (c : Submission) : Claim :=
  eciClaim (.layerCommit c) specLayerCommit 0x0604 c
    (fun k s =>
      let next := s.commitNext k.tok.handle k.tok.seq
      s.isDecoder k.tok.handle = false ∧ s.commitGeom next = none ∧ commitLine next = none ∧
        ∀ d ∈ (s.ch k.tok.handle).dies, s.compLoad d k.tok.handle next ≤ 2002 * 8000000000)
    fun k s a => a = .wait (.arrival (.picture k.tok.handle)
      (.layers k.tok.handle (s.commitSets k.tok.handle k.tok.seq) (s.commitRemoved k.tok.handle k.tok.seq))) {}
      (s.takeStaged k.tok.handle k.tok.seq)

/-- LAYER.DESTROY stages the layer's removal (R288). -/
def layerDestroy (c : Submission) : Claim :=
  eciClaim (.layerDestroy c) specLayerDestroy 0x0605 c (fun _ _ => True) fun k s a =>
    a = .done {} (s.modLayer k.tok.handle fun g => { g with staged := g.staged ++ [(k.tok.seq, none)] })

/-- LAYER.QUERY answers the layer's applied state and its staged one and changes nothing (R290). -/
def layerQuery (c : Submission) : Claim :=
  eciClaim (.layerQuery c) specLayerQuery 0x0606 c (fun _ _ => True) fun k s a =>
    ∃ r, a = .done { response := r } s ∧ r.length = 128 ∧ slice r 0 64 = slice (s.lyr k.tok.handle).applied 0 64 ∧
      slice r 64 64 = slice ((((s.lyr k.tok.handle).staged.map (·.2)).getLast?.getD none).getD []) 0 64

/-- RENDITION.SCALE of an IDLE rendition whose parent's line memory admits it sets its taps and coefficient set (R287). -/
def renditionScale (c : Submission) : Claim :=
  let scaled (k : Cmd) (s : State) : State := s.modCh k.tok.handle fun x =>
    { x with set := { x.set with scaleTaps := u8 k.payload 0, scaleSet := u8 k.payload 1 } }
  eciClaim (.renditionScale c) specRenditionScale 0x0607 c
    (fun k s =>
      let parent := (s.ch k.tok.handle).cfg.source
      s.isDecoder k.tok.handle = false ∧ (s.ch k.tok.handle).state = .idle ∧ handleType parent = tChannel ∧
        ((scaled k s).lineBuf parent (s.ch parent).cfg.width (u8 k.payload 0)).1 = false)
    fun k s a => a = .done {} (scaled k s)

/-- SCALER.COEF_SET of an encode die that takes commands stores the custom set of a tap count that nothing uses (R285). -/
def scalerCoefSet (c : Submission) : Claim :=
  eciClaim (.scalerCoefSet c) specScalerCoefSet 0x0608 c
    (fun k s => s.dieGate k.tok.handle = none ∧ handleDie k.tok.handle ≠ 0xFF ∧
      s.coefUsed (handleDie k.tok.handle) (u8 k.payload 0) = false)
    fun k s a =>
      let t := u8 k.payload 0
      a = .done {} (s.modComp fun x =>
        { x with coefs := x.coefs.put (handleDie k.tok.handle * 16 + t) (slice k.payload 4 (128 * t)) })

/-- SCALER.COEF_GET of an encode die that takes commands answers a set of a tap count and changes nothing: the custom set's
bytes as they were set, or a set of the device's, whose values the configuration holds but for the last of each phase, with
which the phase sums to 256 (R284, R285). -/
def scalerCoefGet (c : Submission) : Claim :=
  eciClaim (.scalerCoefGet c) specScalerCoefGet 0x0609 c
    (fun k s => s.dieGate k.tok.handle = none ∧ handleDie k.tok.handle ≠ 0xFF) fun k s a =>
    let t := u8 k.payload 1
    ∃ r, a = .done { response := r } s ∧ u8 r 0 = t % 256 ∧
      (u8 k.payload 0 = 3 → r.drop 4 = slice (s.comp.coefs.look [] (handleDie k.tok.handle * 16 + t)) 0 (128 * t)) ∧
      (u8 k.payload 0 ≠ 3 → r.drop 4 = (List.range 64).flatMap fun ph => (List.range t).flatMap fun i =>
        le 2 (twos 16 (if i + 1 = t
          then 256 - ((List.range i).map (Config.scalerCoef (u8 k.payload 0) t ph)).sum
          else Config.scalerCoef (u8 k.payload 0) t ph i)))

/-! ### Decode, reference mode and verification commands (R243 to R266) -/

/-- DECODE.CREATE places the decode configuration, makes an IDLE decode channel of the caller there, with its output
surfaces, and answers its handle, with the event of its state, whose code for no channel the model leaves free (R73, R244; log
entry 149). -/
def decodeCreate (c : Submission) : Claim :=
  eciClaim (.decodeCreate c) specDecodeCreate 0x0501 c
    (fun k s =>
      firstFail (s.decodeRules k) = none ∧ firstFail (s.dieService (parseDec k.payload)) = none ∧
        ∃ q h t, s.decodeChosen k.tok.via.fn k.payload = some q ∧
          s.newObject tChannel q.die s.boot.fuses.variant.channels k.tok.via.fn = some (h, t) ∧
          (t.decodeSurfaces h q.die k.payload).isSome = true)
    fun k s a =>
      let p := k.payload
      ∃ q h t b u, s.decodeChosen k.tok.via.fn p = some q ∧
        s.newObject tChannel q.die s.boot.fuses.variant.channels k.tok.via.fn = some (h, t) ∧
        t.decodeSurfaces h q.die p = some (b, u) ∧
        let pipe := ((q.pipes[0]?).bind (·.2)).getD 0
        let made : Channel := { cfg := parseDec p, payload := slice p 0 32, die := q.die, pipe }
        let v := (u.modChan fun x => { x with chans := x.chans.put h made }).modDec
            fun x => { x with decoders := x.decoders.put h (decoderOf p b) }
        ∃ r, a = .done { result := h, response := r } (v.raise evChannelState h v.noChannelState (some 0)).useFree ∧
          r.length = 28 ∧ u8 r 0 = q.die % 256 ∧ u8 r 1 = pipe % 256 ∧
          u32 r 4 = s.dieLoad (s.charges ++ [q.charge]) q.die % 2 ^ 32 ∧
          u32 r 8 = cdiv q.charge.dram 1024 % 2 ^ 32 ∧ u64 r 0x10 = b % 2 ^ 64 ∧
          u32 r 0x18 = (decoderOf p b).outStride % 2 ^ 32

/-- DECODE.SUBMIT to a decode channel without a source, that starts or runs and has room, queues one access unit, its payload's
bytes (R246). -/
def decodeSubmit (c : Submission) : Claim :=
  eciClaim (.decodeSubmit c) specDecodeSubmit 0x0502 c
    (fun k s =>
      let x := s.ch k.tok.handle
      let d := s.dec.decoders.look {} k.tok.handle
      s.isDecoder k.tok.handle = true ∧ d.source = 0 ∧ (x.state = .starting ∨ x.state = .running) ∧
        d.waitingBytes + k.sub.payloadLen.toNat ≤ x.cfg.codedBuffer)
    fun k s a => a = .done {} (s.modDecoder k.tok.handle fun d =>
      { d with submitted := d.submitted ++ [{ data := slice k.payload 0 k.sub.payloadLen.toNat }] })

/-- DECODE.RETURN gives back the surfaces of a mask, and pictures that waited for them are output: their surfaces are written,
SDI outputs and check units of the channel have them (R246, R264, R402). -/
def decodeReturn (c : Submission) : Claim :=
  eciClaim (.decodeReturn c) specDecodeReturn 0x0503 c
    (fun k s => s.isDecoder k.tok.handle = true ∧
      u32 k.payload 0 < 2 ^ (s.dec.decoders.look {} k.tok.handle).outCount)
    fun k s a =>
      let h := k.tok.handle
      let kept (d : Decoder) : List Nat := (List.range 32).filter fun i => bit d.held i && !bit (u32 k.payload 0) i
      let freed := s.modDecoder h fun d => { d with held := (kept d).foldl setBit 0 }
      let d := freed.dec.decoders.look {} h
      let out := d.outputs (d.outQueue.length + 1)
      a = .done {} (out.2.foldl (fun t o => t.showPicture h d o) (freed.modDecoder h fun _ => out.1))

/-- DECODE.QUERY answers the decoder's counters and changes nothing (R243). -/
def decodeQuery (c : Submission) : Claim :=
  eciClaim (.decodeQuery c) specDecodeQuery 0x0504 c (fun k s => s.isDecoder k.tok.handle = true) fun k s a =>
    let d := s.dec.decoders.look {} k.tok.handle
    ∃ r, a = .done { response := r } s ∧ r.length = 32 ∧ u64 r 0 = d.decoded % 2 ^ 64 ∧ u64 r 8 = d.concealed % 2 ^ 64 ∧
      u64 r 0x10 = d.discarded % 2 ^ 64 ∧ u64 r 0x18 = d.output % 2 ^ 64

/-- CHANNEL.MODE of an IDLE encode channel sets reference mode and its access-unit ring: kept where the size stays, made anew
where it changes (R251, R257). -/
def channelMode (c : Submission) : Claim :=
  let set (k : Cmd) (s : State) : State := s.modCh k.tok.handle fun x =>
    { x with reference := u8 k.payload 0 == 1 }
  let old (k : Cmd) (s : State) : Option HubRing := s.dec.auRings.find k.tok.handle
  eciClaim (.channelMode c) specChannelMode 0x0505 c
    (fun k s =>
      let n := u8 k.payload 1
      s.isDecoder k.tok.handle = false ∧ (s.ch k.tok.handle).state = .idle ∧
        (u8 k.payload 0 = 1 → (s.ch k.tok.handle).cfg.source = 0) ∧
        ((old k s).map (·.log2) = some n ∨
          (s.freeAuRing k.tok.handle).ringPoolUsed + s.pendingRings + (if n = 0 then 0 else 2 ^ n) ≤ ringPool ∧
          ((s.freeAuRing k.tok.handle).newRing k.tok.handle n).isSome = true))
    fun k s a =>
      let n := u8 k.payload 1
      (∃ r, old k s = some r ∧ r.log2 = n ∧ a = .done { response := le 8 r.base } (set k s)) ∨
      ((old k s).map (·.log2) ≠ some n ∧ ∃ b t, (s.freeAuRing k.tok.handle).newRing k.tok.handle n = some (b, t) ∧
        a = .done { response := le 8 b }
          (set k (if n = 0 then t else t.putRing true k.tok.handle { base := b, log2 := n })))

/-- PIC.SUBMIT to an encode channel without a source, in a format that suits it and with fewer than 16 pictures under way,
answers the picture's number once the picture is copied (R256). -/
def picSubmit (c : Submission) : Claim :=
  eciClaim (.picSubmit c) specPicSubmit 0x0506 c
    (fun k s =>
      let p := k.payload
      let x := s.ch k.tok.handle
      s.isDecoder k.tok.handle = false ∧ u8 (s.dec.jigs.look [] k.tok.handle) 1 ≠ 1 ∧ x.cfg.source = 0 ∧
        (u8 p 1 = 5 ∨ u8 p 1 = 6 ∨ ∃ f, pictureFormat (u8 p 1) = some f ∧ x.cfg.chroma ≤ f.1) ∧
        (u8 p 0 = 1 → (s.bufferAt (u64 p 8) 1).isSome = true) ∧ s.copying k.tok.handle < 16)
    fun k s a => ∃ pic, a = .wait (.pictureCopy k.tok.handle pic) { result := pic % 2 ^ 32 } s

/-- REF.RING takes the host's read offset of the channel's access-unit ring and answers the write offset and the count
(R257). -/
def refRing (c : Submission) : Claim :=
  eciClaim (.refRing c) specRefRing 0x0507 c
    (fun k s => ∃ r, s.dec.auRings.find k.tok.handle = some r ∧ u64 k.payload 0 < 2 ^ r.log2)
    fun k s a => ∃ r, s.dec.auRings.find k.tok.handle = some r ∧
      let t := s.readRing true k.tok.handle r (u64 k.payload 0)
      let now := (t.ringOf true k.tok.handle).getD {}
      a = .done { response := le 8 now.write ++ le 8 now.written } t

/-- JIG.SET of an IDLE encode channel at effort E3 stores the jig stream (R258). -/
def jigSet (c : Submission) : Claim :=
  eciClaim (.jigSet c) specJigSet 0x0508 c
    (fun k s =>
      let x := s.ch k.tok.handle
      s.isDecoder k.tok.handle = false ∧ x.state = .idle ∧ u32 k.payload 4 ≠ 0 ∧ u16 k.payload 2 ≠ 0 ∧
        u16 k.payload 2 ≤ 600 ∧ x.cfg.effort = 3 ∧ (u8 k.payload 1 = 1 → x.cfg.source = 0))
    fun k s a => a = .done {} (s.modDec fun d => { d with jigs := d.jigs.put k.tok.handle (slice k.payload 0 16) })

/-- STATS.SET keeps a ring of the size it has, makes one of a new size, and waits for its arrival at the channel's picture
boundary; it answers the ring's offset (R260, R261). -/
def statsSet (c : Submission) : Claim :=
  let cur (k : Cmd) (s : State) : Option HubRing := s.dec.stats.find k.tok.handle
  let mine (k : Cmd) (s : State) : Nat := match cur k s with | some r => 2 ^ r.log2 | none => 0
  let all (s : State) : Nat := (s.dec.stats.map fun e => 2 ^ e.2.log2).sum + s.pendingRings
  eciClaim (.statsSet c) specStatsSet 0x0509 c
    (fun k s =>
      let n := u8 k.payload 0
      (n = 0 ∨ 20 ≤ n ∧ n ≤ 30) ∧
        ((cur k s).map (·.log2) = some n ∧ all s ≤ 4294967296 ∧ 2 ^ n ≤ all s ∨
          (cur k s).map (·.log2) ≠ some n ∧ all s - mine k s + (if n = 0 then 0 else 2 ^ n) ≤ 4294967296 ∧
          (n = 0 ∨ s.ringPoolUsed + s.pendingRings + 2 ^ n - mine k s ≤ ringPool) ∧
          (s.newRing k.tok.handle n).isSome = true))
    fun k s a => ∃ b t, a = .wait (.arrival (.picture k.tok.handle) (.stats k.tok.handle (slice k.payload 0 8 ++ le 8 b)))
        { response := le 8 b } t ∧
      ((∃ r, cur k s = some r ∧ r.log2 = u8 k.payload 0 ∧ b = r.base ∧ t = s) ∨
        s.newRing k.tok.handle (u8 k.payload 0) = some (b, t))

/-- STATS.READ takes the host's read offset of the channel's statistics ring and answers the write offset and the counts
(R261). -/
def statsRead (c : Submission) : Claim :=
  eciClaim (.statsRead c) specStatsRead 0x050A c
    (fun k s => ∃ r, s.dec.stats.find k.tok.handle = some r ∧ u64 k.payload 0 < 2 ^ r.log2)
    fun k s a => ∃ r, s.dec.stats.find k.tok.handle = some r ∧
      let t := s.readRing false k.tok.handle r (u64 k.payload 0)
      let now := (t.ringOf false k.tok.handle).getD {}
      a = .done { response := le 8 now.write ++ le 8 now.written ++ le 8 now.discarded } t

/-- CHECK.BIND of a check unit to a target that suits its die waits for its arrival (R262, R266). -/
def checkBind (c : Submission) : Claim :=
  eciClaim (.checkBind c) specCheckBind 0x050B c
    (fun k s =>
      let p := k.payload
      s.useObject k (u32 p 0) [handleType (u32 p 0)] = none ∧
        s.checkSuits (handleDie k.tok.handle) (u32 p 0) (u8 p 4) (u8 p 6) = true)
    fun k s a => a = .wait (.arrival (checkBoundary (u32 k.payload 0)) (.checkBind k.tok.handle (slice k.payload 0 16))) {} s

/-- CHECK.UNBIND of a bound check unit waits for its arrival (R266). -/
def checkUnbind (c : Submission) : Claim :=
  eciClaim (.checkUnbind c) specCheckUnbind 0x050C c (fun k s => (s.checkUnit k.tok.handle).bound = true) fun k s a =>
    a = .wait (.arrival (checkBoundary (s.checkUnit k.tok.handle).target) (.checkUnbind k.tok.handle)) {} s

/-- CHECK.EXPECT queues expected values of the polynomial's width at a bound check unit with room for them (R266). -/
def checkExpect (c : Submission) : Claim :=
  let entries (k : Cmd) : List (Nat × Nat) :=
    (List.range (u16 k.payload 0)).map fun i => (u64 k.payload (8 + 16 * i), u64 k.payload (16 + 16 * i))
  eciClaim (.checkExpect c) specCheckExpect 0x050D c
    (fun k s =>
      let u := s.checkUnit k.tok.handle
      u.bound = true ∧ (∀ e ∈ entries k, e.2 < 2 ^ polyBits u.poly) ∧ u.queue.length + (entries k).length ≤ 256)
    fun k s a =>
      let u := s.checkUnit k.tok.handle
      let made : CheckUnit := { u with
        queue := u.queue ++ (entries k).map fun e => (if e.1 = 2 ^ 64 - 1 then none else some e.1, e.2)
        emptyRaised := false }
      a = .done {} (s.modDec fun d => { d with checks := d.checks.put k.tok.handle made })

/-- CHECK.QUERY answers the check unit's counters and changes nothing (R265). -/
def checkQuery (c : Submission) : Claim :=
  eciClaim (.checkQuery c) specCheckQuery 0x050E c (fun _ _ => True) fun k s a =>
    let u := s.checkUnit k.tok.handle
    ∃ r, a = .done { response := r } s ∧ r.length = 34 ∧ u64 r 0 = u.lastPic % 2 ^ 64 ∧ u64 r 8 = u.lastValue % 2 ^ 64 ∧
      u32 r 0x10 = u.compared % 2 ^ 32 ∧ u32 r 0x14 = u.mismatched % 2 ^ 32 ∧ u32 r 0x18 = u.missed % 2 ^ 32 ∧
      u32 r 0x1C = u.unchecked % 2 ^ 32 ∧ u16 r 0x20 = u.queue.length % 2 ^ 16

/-! ### Audio commands (R293 to R318) -/

/-- AUDIO_PORT.SET enables a disabled port with the payload's settings, when its clock carries them (R295). -/
def audioPortSet (c : Submission) : Claim :=
  eciClaim (.audioPortSet c) specAudioPortSet 0x0701 c
    (fun k s =>
      let p := k.payload
      u8 p 0 ≠ 0 ∧ (s.audio.ports.look {} (handleIndex k.tok.handle)).mode = 0 ∧
        u8 p 4 * u8 p 5 * rateHz (u8 p 3) ≤ 49152000 ∧
        (u8 p 1 = 0 → (s.audio.clocks.look {} (u8 p 2)).family = rateFamily (u8 p 3)))
    fun k s a =>
      let p := k.payload
      let i := handleIndex k.tok.handle
      let q := s.audio.ports.look {} i
      let made : AudioPort :=
        { q with mode := u8 p 0, role := u8 p 1, clock := u8 p 2, rate := u8 p 3, slots := u8 p 4, slotBits := u8 p 5
                 sampleBits := u8 p 6, timing := u8 p 7, ending := false, clockLost := false, lastFsync := none
                 frames := s.frameCount (u8 p 2) (u8 p 3), inMask := 0, outMask := 0, map := List.replicate 32 0, outGains := [] }
      a = .done {} ((if q.ending = true then s.silenceSlots i else s).modAudio fun x => { x with ports := x.ports.put i made })

/-- AUDIO_PORT.SET with mode 0 disables the port; a port that ran ends at its next frame (R295). -/
def audioPortSetOff (c : Submission) : Claim :=
  eciClaim (.audioPortSet c) specAudioPortSet 0x0701 c (fun k _ => u8 k.payload 0 = 0) fun k s a =>
    let i := handleIndex k.tok.handle
    let q := s.audio.ports.look {} i
    a = .done {} (s.modAudio fun x => { x with ports := x.ports.put i { q with mode := 0, ending := q.ending || q.mode != 0 } })

/-- AUDIO_PORT.SLOTS of an enabled port, whose map names channels on its clock, waits for its arrival at a frame (R296,
R297). -/
def audioPortSlots (c : Submission) : Claim :=
  let used (k : Cmd) : List (Nat × Nat) := (mapWords k.payload).zipIdx.filter fun e => bit (u32 k.payload 4) e.2
  eciClaim (.audioPortSlots c) specAudioPortSlots 0x0702 c
    (fun k s =>
      let q := s.audio.ports.look {} (handleIndex k.tok.handle)
      q.mode ≠ 0 ∧ u32 k.payload 0 < 2 ^ q.slots ∧ u32 k.payload 4 < 2 ^ q.slots ∧
        (∀ e ∈ used k, s.mapEntryOk (handleIndex k.tok.handle) e.1 = true) ∧
        ∀ e ∈ used k, s.useObject k (programHandle (e.1 % 65536)) [tAudioProgram] = none)
    fun k s a => a = .wait (.arrival (.tdm (handleIndex k.tok.handle))
      (.audioSlots (handleIndex k.tok.handle) (slice k.payload 0 0x88))) {} s

/-- AUDIO_PORT.QUERY answers the port's settings, its slots, whether it has lost its clock, and its framing errors, and changes
nothing (R294; the response's layout is the model's, log entry 22). -/
def audioPortQuery (c : Submission) : Claim :=
  eciClaim (.audioPortQuery c) specAudioPortQuery 0x0703 c (fun _ _ => True) fun k s a =>
    let q := s.audio.ports.look {} (handleIndex k.tok.handle)
    ∃ r, a = .done { response := r } s ∧ u8 r 0 = q.mode % 256 ∧ u8 r 1 = q.role % 256 ∧ u8 r 2 = q.clock % 256 ∧
      u8 r 3 = q.rate % 256 ∧ u8 r 4 = q.slots % 256 ∧ u8 r 5 = q.slotBits % 256 ∧ u8 r 6 = q.sampleBits % 256 ∧
      u8 r 7 = q.timing % 256 ∧ u32 r 8 = q.inMask % 2 ^ 32 ∧ u32 r 0xC = q.outMask % 2 ^ 32 ∧
      r.drop 0x10 = q.map.flatMap (le 4) ++ le 4 (b2n q.clockLost) ++ le 4 q.framingErrors

/-- FRAME_CLOCK.SET of a frame clock that no running master port uses sets it (R317). -/
def frameClockSet (c : Submission) : Claim :=
  eciClaim (.frameClockSet c) specFrameClockSet 0x0704 c
    (fun k s =>
      let p := k.payload
      let base := if u8 p 2 = 0 then 12288000 else 11289600
      (∀ e ∈ s.audio.ports, e.2.mode ≠ 0 → e.2.role = 0 → e.2.clock ≠ u8 p 0) ∧
        (u8 p 1 = 0 ∨ u32 p 4 = base ∨ u32 p 4 = 2 * base ∨ u32 p 4 = 4 * base))
    fun k s a =>
      let p := k.payload
      let made : FrameClock := { source := u8 p 1, family := u8 p 2, out := u8 p 3, hz := u32 p 4, since := s.now }
      a = .done {} (s.modAudio fun x => { x with clocks := x.clocks.put (u8 p 0) made })

/-- AUDIO_PROGRAM.CREATE makes a program of the caller, with an ASRC and a DSP where it needs them, and answers its handle
(R299, R302). -/
def audioProgramCreate (c : Submission) : Claim :=
  eciClaim (.audioProgramCreate c) specAudioProgramCreate 0x0705 c
    (fun k s => firstFail (s.programRules k) = none ∧
      ∃ h t, s.newObject tAudioProgram 0xFF 256 k.tok.via.fn = some (h, t) ∧
        (t.takeAsrc (bit (u8 k.payload 7) 0) k.tok.via.fn).isSome = true)
    fun k s a =>
      ∃ h t x u, s.newObject tAudioProgram 0xFF 256 k.tok.via.fn = some (h, t) ∧
        t.takeAsrc (bit (u8 k.payload 7) 0) k.tok.via.fn = some (x, u) ∧
        ∃ r v, a = .done { result := h, response := r } v ∧ r.length = 12 ∧ u32 r 0 = x.getD 0 % 2 ^ 32 ∧
          u32 r 8 = s.wMin k.payload % 2 ^ 32 ∧
          v.audio.programs = u.audio.programs.put h (u.makeProgram k.payload x) ∧ v.eci = u.eci

/-- AUDIO_PROGRAM.SET waits for its arrival at an audio position (R318). -/
def audioProgramSet (c : Submission) : Claim :=
  eciClaim (.audioProgramSet c) specAudioProgramSet 0x0706 c (fun _ _ => True) fun k s a =>
    a = .wait (.arrival (.position k.tok.handle) (.audioProgram k.tok.handle (slice k.payload 0 8))) {} s

/-- AUDIO_PROGRAM.DESTROY of a program that nothing uses frees it and its ASRC (R318). -/
def audioProgramDestroy (c : Submission) : Claim :=
  eciClaim (.audioProgramDestroy c) specAudioProgramDestroy 0x0707 c (fun k s => s.programUsed k.tok.handle = false)
    fun k s a =>
      let g := s.audio.programs.look {} k.tok.handle
      ∃ u, a = .done {} u ∧ u.audio.programs = s.audio.programs.del k.tok.handle ∧
        u.eci = (match g.asrc with
          | some i => ((s.freeObject k.tok.handle).freeObject i).eci
          | none => (s.freeObject k.tok.handle).eci)

/-- AUDIO_PROGRAM.QUERY answers the gains in force and the program's three counts and changes nothing (R306; the response's
layout is the model's, log entry 22). -/
def audioProgramQuery (c : Submission) : Claim :=
  eciClaim (.audioProgramQuery c) specAudioProgramQuery 0x0708 c (fun _ _ => True) fun k s a =>
    let g := s.audio.programs.look {} k.tok.handle
    ∃ r, a = .done { response := r } s ∧ slice r 0 64 = slice (g.chans.flatMap fun c => le 4 c.gain.value) 0 64 ∧
      u64 r 0x40 = g.late % 2 ^ 64 ∧ u64 r 0x48 = g.overrun % 2 ^ 64 ∧ u64 r 0x50 = g.silent % 2 ^ 64

/-- ASRC.QUERY answers the converter's ratio and whether it is locked, from a capture of the group, and how often it has locked
(R29, R304; the response's layout is the model's, log entry 22). -/
def asrcQuery (c : Submission) : Claim :=
  eciClaim (.asrcQuery c) specAsrcQuery 0x0709 c (fun _ _ => True) fun k s a =>
    let x := s.audio.asrcs.look {} k.tok.handle
    ∃ r, a = .done { response := r }
        (s.captureGroup 3 [x.ratio, b2n x.locked, (s.audio.rates.look {} k.tok.handle).samples]) ∧
      r.length = 16 ∧ u64 r 0 = x.ratio % 2 ^ 64 ∧ u32 r 8 = b2n x.locked ∧ u32 r 0xC = x.locks % 2 ^ 32

/-- AUDIO_RATE.QUERY answers the rate measured, with the sample count from a capture of the group (R29, R303). -/
def audioRateQuery (c : Submission) : Claim :=
  eciClaim (.audioRateQuery c) specAudioRateQuery 0x070A c (fun _ _ => True) fun k s a =>
    let m := s.audio.rates.look {} k.tok.handle
    ∃ r, a = .done { response := r } (s.captureGroup 3 [0, 0, m.samples]) ∧ r.length = 16 ∧ u8 r 0 = m.cls.getD 0xFF % 256 ∧
      u32 r 4 = twos 32 m.offset % 2 ^ 32 ∧ u64 r 8 = m.samples % 2 ^ 64

/-- AUDIO.EMBED_SET of an SDI output, whose groups carry 48 kHz PCM programs that run on device time, waits for its arrival
at the output's picture boundary (R312). -/
def audioEmbedSet (c : Submission) : Claim :=
  let used (k : Cmd) : List Nat := (List.range 8).filter fun g => bit (u8 k.payload 0) g
  eciClaim (.audioEmbedSet c) specAudioEmbedSet 0x070B c
    (fun k s =>
      96 ≤ handleIndex k.tok.handle ∧ ∀ g ∈ used k,
        let h := u32 k.payload (8 + 8 * g)
        let q := s.audio.programs.look {} h
        s.useObject k h [tAudioProgram] = none ∧ g < s.embedGroups k.tok.handle ∧ q.kind = 0 ∧ q.rate = 2 ∧
          u8 k.payload (0x0C + 8 * g) + 4 ≤ q.channels ∧ s.programClock h = 0)
    fun k s a => a = .wait (.arrival (.sdiOut k.tok.handle) (.embed k.tok.handle (slice k.payload 0 0x48))) {} s

/-! ### Ingress, egress and traffic commands (R319 to R359) -/

/-- INGRESS.CREATE makes an ingress stream of the caller, whose addresses are present and matched by no other stream
(R323, R359). -/
def ingressCreate (c : Submission) : Claim :=
  eciClaim (.ingressCreate c) specIngressCreate 0x0801 c
    (fun k s =>
      let p := k.payload
      ingressFormatOk p = true ∧ (∀ m ∈ matchesOf p, m.2.1 ≠ 0 ∧ m.2.2.1 ≠ 0) ∧
        (∀ e ∈ s.net.ingress, ∀ m ∈ matchesOf e.2.payload, m ∉ matchesOf p) ∧ (s.quota k tIngress (·.maxIngress)).1 = false ∧
        (s.newObject tIngress 0xFF 1024 k.tok.via.fn).isSome = true)
    fun k s a => ∃ h t, s.newObject tIngress 0xFF 1024 k.tok.via.fn = some (h, t) ∧
      let made : Ingress := { payload := slice k.payload 0 0x70 }
      a = .done { result := h } (t.modNet fun n => { n with ingress := n.ingress.put h made })

/-- INGRESS.DESTROY of a stream that nothing uses frees it (R323). -/
def ingressDestroy (c : Submission) : Claim :=
  eciClaim (.ingressDestroy c) specIngressDestroy 0x0802 c (fun k s => s.ingressUsed k.tok.handle = false) fun k s a =>
    a = .done {} ((s.modNet fun n => { n with ingress := n.ingress.del k.tok.handle }).freeObject k.tok.handle)

/-- INGRESS.QUERY answers the stream's counters, the first three from a capture of the group, and the paths that are up (R29,
R359). -/
def ingressQuery (c : Submission) : Claim :=
  eciClaim (.ingressQuery c) specIngressQuery 0x0803 c (fun _ _ => True) fun k s a =>
    let g := s.net.ingress.look {} k.tok.handle
    ∃ r, a = .done { response := r } (s.captureGroup 0 [g.packets, g.bytes, g.lost]) ∧ r.length = 49 ∧ u64 r 0 = g.packets % 2 ^ 64 ∧ u64 r 8 = g.bytes % 2 ^ 64 ∧
      u64 r 0x10 = g.lost % 2 ^ 64 ∧ u64 r 0x18 = g.duplicates % 2 ^ 64 ∧ u64 r 0x20 = g.policerDrops % 2 ^ 64 ∧
      u64 r 0x28 = g.checksumDrops % 2 ^ 64 ∧
      u8 r 0x30 = ((g.paths.zip [1, 2]).map fun e => if e.1.up then e.2 else 0).sum % 256

/-- EGRESS.CREATE makes an egress stream of the caller that the chapter's rules, the caller's quota and admission take; its
ports leave low-power idle (R328, R334, R392). -/
def egressCreate (c : Submission) : Claim :=
  eciClaim (.egressCreate c) specEgressCreate 0x0804 c
    (fun k s =>
      let p := k.payload
      s.useObject k (u32 p 0) [tLane, tAudioProgram, tChannel, tIngress, tEgress, tPort, tAudioPort] = none ∧
        firstFail (s.egressRules k (u8 p 4) (u32 p 0) (u8 p 5) p) = none ∧ (s.quota k tEgress (·.maxEgress)).1 = false ∧
        firstFail (s.egressAdmission 0 (u8 p 4) (u32 p 0) (u8 p 5) p) = none ∧
        (s.newObject tEgress 0xFF 4096 k.tok.via.fn).isSome = true)
    fun k s a =>
      let p := k.payload
      ∃ h t, s.newObject tEgress 0xFF 4096 k.tok.via.fn = some (h, t) ∧
        let made : Egress := { payload := slice p 0 0x80, source := u32 p 0, kind := u8 p 4, paths := u8 p 5
                               nextPic := (t.ch (u32 p 0)).nextPic }
        a = .done { result := h } ((t.endLpi (egressPorts (u8 p 5) p)).modNet fun n =>
          { n with egress := n.egress.put h made })

/-- EGRESS.SET with settings that the rules and admission take waits for its arrival at an access unit (R335). -/
def egressSet (c : Submission) : Claim :=
  eciClaim (.egressSet c) specEgressSet 0x0805 c
    (fun k s =>
      let g := s.net.egress.look {} k.tok.handle
      let p := g.merged k.payload
      formFail (egressFields g.kind g.paths p) = none ∧ firstFail (s.egressRules k g.kind g.source g.paths p) = none ∧
        firstFail (s.egressAdmission k.tok.handle g.kind g.source g.paths p) = none)
    fun k s a => a = .wait (.arrival (.accessUnit k.tok.handle)
      (.egress k.tok.handle ((s.net.egress.look {} k.tok.handle).merged k.payload))) {} s

/-- EGRESS.DESTROY of a stream that no decode channel and no check unit names waits for its arrival (R358). -/
def egressDestroy (c : Submission) : Claim :=
  eciClaim (.egressDestroy c) specEgressDestroy 0x0806 c
    (fun k s => (∀ e ∈ s.dec.decoders, e.2.source ≠ k.tok.handle) ∧ s.checkBound k.tok.handle (some 5) = none)
    fun k s a => a = .wait (.arrival (.accessUnit k.tok.handle) (.egressEnd k.tok.handle)) {} s

/-- EGRESS.QUERY answers the stream's counters, the first three from a capture of the group, and its key slot (R29, R359). -/
def egressQuery (c : Submission) : Claim :=
  eciClaim (.egressQuery c) specEgressQuery 0x0807 c (fun _ _ => True) fun k s a =>
    let g := s.net.egress.look {} k.tok.handle
    ∃ r, a = .done { response := r } (s.captureGroup 0 [g.packets, g.bytes, g.impaired]) ∧ r.length = 41 ∧ u64 r 0 = g.packets % 2 ^ 64 ∧ u64 r 8 = g.bytes % 2 ^ 64 ∧
      u64 r 0x10 = g.impaired % 2 ^ 64 ∧ u64 r 0x18 = g.signed % 2 ^ 64 ∧ u64 r 0x20 = g.droppedInBand % 2 ^ 64 ∧
      u8 r 0x28 = b2n g.odd

/-- EGRESS.PROVENANCE of a coded stream within the signing load waits for its arrival (R336, R339). -/
def egressProvenance (c : Submission) : Claim :=
  eciClaim (.egressProvenance c) specEgressProvenance 0x0808 c
    (fun k s =>
      let p := k.payload
      let g := s.net.egress.look {} k.tok.handle
      5 ≤ g.kind ∧ (u8 p 0 = 1 → u16 p 4 ≠ 0 ∨ u16 p 6 ≠ 0) ∧
        s.signLoad k.tok.handle p ≤ 25000000000)
    fun k s a => a = .wait (.arrival (.accessUnit k.tok.handle) (.provenance k.tok.handle (slice k.payload 0 32))) {} s

/-- EGRESS.KEY, naming no key or one that the caller may use and no other stream has, waits for its arrival at an access
unit, or at the one it names (R341, R343). -/
def egressKey (c : Submission) : Claim :=
  eciClaim (.egressKey c) specEgressKey 0x0809 c
    (fun k s =>
      let p := k.payload
      let g := s.net.egress.look {} k.tok.handle
      g.kind ≠ 0 ∧ g.kind ≠ 4 ∧ (g.kind = 7 ∨ g.kind = 8 ∨ u8 p 4 ≠ 0) ∧
        (u32 p 0 ≠ 0 → s.useObject k (u32 p 0) [tKey] = none ∧ ∀ h ∈ s.keyStreams (u32 p 0), h = k.tok.handle))
    fun k s a =>
      let at_ := u64 k.payload 8
      let kind : BoundaryKind :=
        if at_ = 2 ^ 64 - 1 ∨ (s.net.egress.look {} k.tok.handle).kind < 5 then .accessUnit k.tok.handle
        else .accessUnitAt k.tok.handle at_
      a = .wait (.arrival kind (.egressKey k.tok.handle (u32 k.payload 0) (u8 k.payload 4))) {} s

/-- EGRESS.IMPAIR with settings in range waits for its arrival (R353). -/
def egressImpair (c : Submission) : Claim :=
  eciClaim (.egressImpair c) specEgressImpair 0x080A c
    (fun k s =>
      let p := k.payload
      let g := s.net.egress.look {} k.tok.handle
      u8 p 0 < (if g.kind = 7 ∨ g.kind = 8 then 64 else 16) ∧ u32 p 4 ≠ 0 ∧ u8 p 1 < 4 ∧ 1 ≤ u8 p 2 ∧ u8 p 2 ≤ 64 ∧
        1 ≤ u8 p 3 ∧ u8 p 3 ≤ 16 ∧ (∀ i < 6, u32 p (8 + 4 * i) ≤ 2 ^ 24) ∧
        (bit (u8 p 0) 5 = true → 1 ≤ u32 p 0x20 ∧ u32 p 0x20 ≤ 50000))
    fun k s a => a = .wait (.arrival (.accessUnit k.tok.handle) (.impair k.tok.handle (slice k.payload 0 40))) {} s

/-- SHAPER.SET with a rate, burst or slope in range waits for its arrival at a refill tick (R348). -/
def shaperSet (c : Submission) : Claim :=
  eciClaim (.shaperSet c) specShaperSet 0x080B c
    (fun k s =>
      let p := k.payload
      (u8 p 0 ≠ 0 → 1 ≤ u32 p 4 ∧ u32 p 4 ≤ s.portKbps (handleIndex k.tok.handle / 8)) ∧
        (u8 p 0 = 1 → 1538 ≤ u32 p 8 ∧ u32 p 8 ≤ 2 ^ 24) ∧
        (if u8 p 0 = 2 then s32 p 0x0C ≤ 0 else zeros p 0x0C 4 = true))
    fun k s a => a = .wait (.arrival .refill (.shaper (handleIndex k.tok.handle / 8) (handleIndex k.tok.handle % 8)
      (slice k.payload 0 16))) {} s

/-- GATELIST.SET of a list whose windows are long enough for the port waits for its arrival (R349, R350, R351). -/
def gatelistSet (c : Submission) : Claim :=
  eciClaim (.gatelistSet c) specGatelistSet 0x080C c
    (fun k s =>
      let r := s.portKbps (handleIndex k.tok.handle)
      gateTooShort k.payload ((if r = 0 then 0 else cdiv 12304000000 r) + u16 k.payload 0x0E) = none)
    fun k s a => a = .wait (.arrival (.timeAt 0) (.gates (handleIndex k.tok.handle)
      (slice k.payload 0 (0x10 + 8 * u16 k.payload 0x0C)))) {} s

/-- GATELIST.QUERY answers the lists and the start and changes nothing (R349). -/
def gatelistQuery (c : Submission) : Claim :=
  eciClaim (.gatelistQuery c) specGatelistQuery 0x080D c (fun _ _ => True) fun k s a =>
    let g := s.net.ports.look {} (handleIndex k.tok.handle)
    ∃ r, a = .done { response := r } s ∧ r.length = 4136 ∧
      slice r 0 0x810 = slice ((g.gates.map (·.payload)).getD []) 0 0x810 ∧
      slice r 0x810 0x810 = slice ((g.gatesNext.map (·.payload)).getD []) 0 0x810 ∧
      u64 r 0x1020 = ((g.gates.map (·.start)).getD 0) % 2 ^ 64

/-- POLICER.CREATE of a stream or port without a policer makes one (R352; the target reading is log entry 21). -/
def policerCreate (c : Submission) : Claim :=
  eciClaim (.policerCreate c) specPolicerCreate 0x080E c
    (fun k s => (∀ e ∈ s.net.policers, e.2.target ≠ k.tok.handle) ∧ u32 k.payload 0 = k.tok.handle ∧
      (s.newObject tPolicer 0xFF 1042 k.tok.via.fn).isSome = true)
    fun k s a => ∃ h t, s.newObject tPolicer 0xFF 1042 k.tok.via.fn = some (h, t) ∧
      let made : Policer := { target := k.tok.handle, rate := u32 k.payload 4, burst := u32 k.payload 8
                              action := u8 k.payload 0x0C }
      a = .done { result := h } (t.modNet fun n => { n with policers := n.policers.put h made })

/-- POLICER.SET waits for its arrival at a refill tick (R352). -/
def policerSet (c : Submission) : Claim :=
  eciClaim (.policerSet c) specPolicerSet 0x080F c (fun _ _ => True) fun k s a =>
    a = .wait (.arrival .refill (.policer k.tok.handle (slice k.payload 0 16))) {} s

/-- POLICER.DESTROY frees the policer (R352). -/
def policerDestroy (c : Submission) : Claim :=
  eciClaim (.policerDestroy c) specPolicerDestroy 0x0810 c (fun _ _ => True) fun k s a =>
    a = .done {} ((s.modNet fun n => { n with policers := n.policers.del k.tok.handle }).freeObject k.tok.handle)

/-- PORT.ADDR sets the port's addresses; those of a management port are kept in flash (R359). -/
def portAddr (c : Submission) : Claim :=
  eciClaim (.portAddr c) specPortAddr 0x0811 c (fun _ _ => True) fun k s a =>
    let i := handleIndex k.tok.handle
    let t := s.modNet fun n => { n with ports := n.ports.modD {} i fun g => { g with addr := slice k.payload 0 0x21 } }
    a = .done {} (if i < 16 then t else t.modBoot fun b =>
      { b with flash := { b.flash with portAddr := b.flash.portAddr.put i (slice k.payload 0 0x21) } })

/-- ARBITER.MODE without egress streams sets the arbiter's mode; the second mode needs ports of 800 Gb/s or less in all
(R355). -/
def arbiterMode (c : Submission) : Claim :=
  eciClaim (.arbiterMode c) specArbiterMode 0x0813 c
    (fun k s => s.net.egress = [] ∧ (u8 k.payload 0 = 1 → ((List.range 18).map s.portKbps).sum ≤ 800000000))
    fun k s a => a = .done {} (s.modNet fun n => { n with arbMode := u8 k.payload 0 })

/-! ### Time and alignment commands (R361 to R384) -/

/-- TIME.QUERY answers the servo's state, the clock and the epoch, with the time from a capture of the device time group (R32,
R384). -/
def timeQuery (c : Submission) : Claim :=
  eciClaim (.timeQuery c) specTimeQuery 0x0901 c (fun _ _ => True) fun _ s a =>
    let t := s.time
    ∃ r, a = .done { response := r } s.captureTime ∧ r.length = 56 ∧ u8 r 0 = t.servo.code % 256 ∧ u8 r 1 = t.servoCfg.source % 256 ∧
      u8 r 2 = t.slavePort.getD 0xFF % 256 ∧ u8 r 3 = min 255 t.steps ∧ u32 r 4 = twos 32 t.offsetNs % 2 ^ 32 ∧
      u32 r 8 = twos 32 t.pathDelayNs % 2 ^ 32 ∧ u32 r 0xC = twos 32 (ppbOf t.adj) % 2 ^ 32 ∧
      u64 r 0x10 = t.gmId % 2 ^ 64 ∧ u64 r 0x18 = twos 64 t.lastStep % 2 ^ 64 ∧ u64 r 0x20 = s.stamp % 2 ^ 64 ∧
      u64 r 0x28 = twos 64 (s.ptpNow / 1000000000) % 2 ^ 64 ∧ u32 r 0x30 = (s.ptpNow % 1000000000).toNat

/-- SERVO.SET sets the servo's source and constants; source 0 frees the servo and a new source makes a running servo acquire
anew (R372). -/
def servoSet (c : Submission) : Claim :=
  eciClaim (.servoSet c) specServoSet 0x0902 c (fun _ _ => True) fun k s a =>
    let p := k.payload
    let g : ServoCfg := { source := u8 p 0, freq10m := u8 p 1 == 1, tcS := u8 p 2, slewPpb := u32 p 4, lockNs := u16 p 8 }
    let t := s.modTime fun x => { x with servoCfg := g }
    (u8 p 0 = 0 → a = .done {} (t.setServo .free)) ∧
    (u8 p 0 ≠ 0 → u8 p 0 ≠ s.time.servoCfg.source → s.time.servo ≠ .free → a = .done {} (t.setServo .acquiring)) ∧
    (u8 p 0 ≠ 0 → (u8 p 0 = s.time.servoCfg.source ∨ s.time.servo = .free) → a = .done {} t)

/-- SERVO.RESET, with no aligned channel active, frees the servo and lets the next measurement step the clock (R376). -/
def servoReset (c : Submission) : Claim :=
  eciClaim (.servoReset c) specServoReset 0x0903 c (fun _ s => s.alignedBusy = false) fun _ s a =>
    a = .done {} ((s.setServo .free).modTime fun t => { t with fresh := true })

/-- PTP.SET sets the PTP instance and ends low-power idle on the ports that run it (R368, R392). -/
def ptpSet (c : Submission) : Claim :=
  eciClaim (.ptpSet c) specPtpSet 0x0904 c (fun _ _ => True) fun k s a =>
    ∃ u, a = .done {} u ∧ u.time = { s.time with ptp := parsePtp k.payload } ∧ u.eci = s.eci ∧ u.net = s.net ∧
      u.boot = s.boot

/-- PTP.PORT_SET sets the delays and the asymmetry of a port (R370). -/
def ptpPortSet (c : Submission) : Claim :=
  eciClaim (.ptpPortSet c) specPtpPortSet 0x0905 c (fun _ _ => True) fun k s a =>
    a = .done {} (s.modPtp (handleIndex k.tok.handle) fun q =>
      { q with txDelayPs := s32 k.payload 0, rxDelayPs := s32 k.payload 4, asymPs := s32 k.payload 8 })

/-- PPS.SET waits for its arrival at the next second (R377). -/
def ppsSet (c : Submission) : Claim :=
  eciClaim (.ppsSet c) specPpsSet 0x0906 c (fun _ _ => True) fun k s a =>
    a = .wait (.arrival (.timeAt 0) (.pps (slice k.payload 0 16))) {} s

/-- TIME.SET_TOD notes the second that the next PPS_IN edge begins (R378). -/
def timeSetTod (c : Submission) : Claim :=
  eciClaim (.timeSetTod c) specTimeSetTod 0x0907 c (fun _ _ => True) fun k s a =>
    a = .done {} (s.modTime fun t => { t with todNext := some (fieldAt k.payload 0 6) })

/-- DOMAIN.SET, with no aligned channel active, sets the alignment domain (R380). -/
def domainSet (c : Submission) : Claim :=
  eciClaim (.domainSet c) specDomainSet 0x0908 c (fun _ s => s.alignedBusy = false) fun k s a =>
    a = .done {} (s.modTime fun t =>
      { t with memberOf := u8 k.payload 0 == 1, domainId := u8 k.payload 1, memberId := u16 k.payload 2 })

/-- CHANNEL.ALIGN of an IDLE encode channel aligns it with an offset below its picture period, or ends its alignment (R381).
-/
def channelAlign (c : Submission) : Claim :=
  eciClaim (.channelAlign c) specChannelAlign 0x0909 c
    (fun k s =>
      let x := s.ch k.tok.handle
      u32 k.payload 4 < x.cfg.pNs ∧ s.isDecoder k.tok.handle = false ∧ x.state = .idle ∧
        (u8 k.payload 0 = 1 → x.reference = false ∧ s.time.memberOf = true))
    fun k s a =>
      let on := u8 k.payload 0 == 1
      a = .done {} (s.modCh k.tok.handle fun x =>
        { x with aligned := on, inAlignment := on, alignOffset := u32 k.payload 4 })

/-- ALIGN.QUERY answers the channel's alignment and changes nothing (R381). -/
def alignQuery (c : Submission) : Claim :=
  eciClaim (.alignQuery c) specAlignQuery 0x090A c (fun _ _ => True) fun k s a =>
    let x := s.ch k.tok.handle
    ∃ r, a = .done { response := r } s ∧ r.length = 17 ∧ u64 r 0 = x.alignIndex % 2 ^ 64 ∧
      u64 r 8 = x.alignPic % 2 ^ 64 ∧ u8 r 0x10 = b2n x.inAlignment

/-! ### Lane and memory commands (R385 to R443) -/

/-- LANE.SET of a lane that nothing uses, with a mode that suits it and its quad, reports the lanes of the mode down and gives
the lane its settings; a mode with nothing to negotiate or to train runs at once (R408). -/
def laneSet (c : Submission) : Claim :=
  eciClaim (.laneSet c) specLaneSet 0x0A01 c
    (fun k s =>
      let i := handleIndex k.tok.handle
      let group := lanesOfMode i (if isNetLane i then u8 k.payload 0 else 0)
      (isEthernet i = true → ∀ j ∈ s.portLane i :: group, s.portUsed j = false) ∧ (s.ln (s.portLane i)).attempt = false ∧
        (isSdiIn i = true ∨ isSdiOut i = true → s.sdiUsed k.tok.handle = false) ∧ isPcie i = false ∧
        s.laneModeBad i k.payload = false ∧ s.quadBad i k.payload = false)
    fun k s a =>
      let p := k.payload
      let i := handleIndex k.tok.handle
      let m := u8 p 0
      let group := lanesOfMode i (if isNetLane i then m else 0)
      let t := (group.filter (· != i)).foldl (fun s j => (s.assertCauses j 0x10).modLn j fun l => { l with mode := 0 }) s
      let set (l : Lane) : Lane :=
        { l with mode := m, media := u8 p 1, an := u8 p 2 == 1, train := u8 p 3 == 1, fec := u8 p 4, eee := u8 p 5
                 test := u8 p 6, attempt := laneAttempt i p
                 fecUsed := if isEthernet i = false ∨ u8 p 2 = 1 ∧ m < 3 then 0 else forcedFec m (u8 p 4)
                 format := none, candidate := none, posting := false, link := 0xFF, found := false, skewed := false }
      let u := (t.assertCauses i 0x10).modLn i set
      a = .done {} (if m ≠ 0 ∧ laneAttempt i p = false then u.clearCauses i 0x18 else u)

/-- LANE.TRAIN of a lane in a mode starts an attempt, where none is under way, and waits for its end (R409). -/
def laneTrain (c : Submission) : Claim :=
  eciClaim (.laneTrain c) specLaneTrain 0x0A02 c
    (fun k s =>
      let i := s.portLane (handleIndex k.tok.handle)
      isPcie i = false ∧ isSdiOut i = false ∧ (s.ln i).mode ≠ 0)
    fun k s a =>
      let i := s.portLane (handleIndex k.tok.handle)
      a = .wait (.train i) {} (if (s.ln i).attempt = true then s
        else (s.assertCauses i 4).modLn i fun l => { l with attempt := true })

/-- LANE.QUERY answers the lane's counters, its state and error counts from a capture of the group: 2 for a lane that is up, 1
for one that searches, else 0 (R29, R407). -/
def laneQuery (c : Submission) : Claim :=
  eciClaim (.laneQuery c) specLaneQuery 0x0A03 c (fun _ _ => True) fun k s a =>
    let i := handleIndex k.tok.handle
    let l := s.ln i
    let p := s.ln (s.portLane i)
    let at_ := if (if isPcie i = true then s.eci.linkUp else p.up) = true then 2
      else if (p.attempt || (isSdiIn i && (s.ln (s.quadLane i)).mode != 0)) = true then 1 else 0
    ∃ r, a = .done { response := r } (s.captureGroup 1 [l.codeErr, l.fecCorr, l.fecUncorr, at_]) ∧ u8 r 0 = at_ ∧
      u8 r 1 = (if isSdiIn i = true then l.rate else if isPcie i = true then 0 else p.mode) % 256 ∧ u8 r 2 = p.fecUsed % 256 ∧
      u16 r 4 = l.lastCause % 2 ^ 16 ∧ u64 r 8 = min l.codeErr (2 ^ 64 - 1) ∧
      u64 r 0x10 = min l.fecCorr (2 ^ 64 - 1) ∧ u64 r 0x18 = min l.fecUncorr (2 ^ 64 - 1) ∧
      u64 r 0x20 = min l.crcErr (2 ^ 64 - 1) ∧
      u32 r 0x28 = l.downCount % 2 ^ 32

/-- LANE.TAPS sets the transmit taps of an Ethernet lane that does not train; a two-level mode has no second pre-cursor tap
(R391). -/
def laneTaps (c : Submission) : Claim :=
  eciClaim (.laneTaps c) specLaneTaps 0x0A04 c
    (fun k s =>
      let i := handleIndex k.tok.handle
      isEthernet i = true ∧ (s.ln (s.portLane i)).train = false)
    fun k s a => a = .done {} (s.modLn (handleIndex k.tok.handle) fun l => { l with taps := (List.range 5).map (s8 k.payload) })

/-- SDI_OUT.SET of an SDI output, to no source, to an SDI input that is no quad link or to a decode channel that an SDI output carries, waits for
its arrival at the output's picture boundary (R402). -/
def sdiOutSet (c : Submission) : Claim :=
  eciClaim (.sdiOutSet c) specSdiOutSet 0x0A05 c
    (fun k s =>
      let src := u32 k.payload 0
      let x := (s.ch src).cfg
      isSdiOut (handleIndex k.tok.handle) = true ∧ (src = 0 ∨ s.useObject k src [tLane, tChannel] = none) ∧
        (src = 0 ∨ handleType src = tLane ∧ isSdiIn (handleIndex src) = true ∨ s.isDecoder src = true) ∧
        (handleType src = tLane → isSdiIn (handleIndex src) = true → (s.ln (handleIndex src)).mode ≠ 2) ∧
        (s.isDecoder src = true → (s.dec.decoders.look {} src).outCount ≠ 0 ∧ x.width ≤ 3840 ∧ x.height ≤ 2160 ∧
          x.rateNum ≤ 60 * x.rateDen))
    fun k s a => a = .wait (.arrival (.sdiOut k.tok.handle) (.sdiOut k.tok.handle (slice k.payload 0 8))) {} s

/-- MEM.QUERY of a memory whose die takes commands answers its state and counts, once the traffic since the last
look has raised them by free values; five of them it reads from a capture of the group (R29, R422, R443; log entry 130). -/
def memQuery (c : Submission) : Claim :=
  eciClaim (.memQuery c) specMemQuery 0x0B01 c (fun k s => s.dieGate k.tok.handle = none) fun k s a =>
    let t := s.traffic (handleDie k.tok.handle)
    let m := t.dm (handleDie k.tok.handle)
    let cut := (t.mem.arbiters.look {} (handleDie k.tok.handle)).quarantined.keys.foldl (fun b r => setBit b r) 0
    ∃ r, a = .done { response := r } (t.captureGroup 4 [m.corrected, m.uncorrected, m.nrCount, m.cutoffs, cut]) ∧
      r.length = 64 ∧ u8 r 0 = m.point % 256 ∧ u8 r 1 = m.tset % 256 ∧
      u8 r 2 = m.nrK % 256 ∧ u8 r 3 = m.pending.getD 0xFF % 256 ∧ u16 r 4 = m.grant % 2 ^ 16 ∧ u8 r 6 = m.spares % 256 ∧
      u64 r 8 = min m.corrected (2 ^ 64 - 1) ∧ u32 r 0x10 = min m.uncorrected (2 ^ 32 - 1) ∧
      u32 r 0x14 = t.hostRate (handleDie k.tok.handle) % 2 ^ 32 ∧ u64 r 0x28 = cut % 2 ^ 64 ∧
      u64 r 0x18 = min m.nrCount (2 ^ 64 - 1) ∧ u64 r 0x20 = min m.rawWaits (2 ^ 64 - 1) ∧
      u32 r 0x30 = min m.cutoffs (2 ^ 32 - 1) ∧ u32 r 0x34 = min m.scrubs (2 ^ 32 - 1)

/-- MEM.SET sets the non-refresh limit and the grant of a memory whose die takes commands, each kept where the payload gives 0 (R443). -/
def memSet (c : Submission) : Claim :=
  eciClaim (.memSet c) specMemSet 0x0B02 c (fun k s => s.dieGate k.tok.handle = none) fun k s a =>
    a = .done {} ((s.traffic (handleDie k.tok.handle)).modDie (handleDie k.tok.handle) fun m =>
      { m with nrK := if u8 k.payload 0 = 0 then m.nrK else u8 k.payload 0
               grant := if u16 k.payload 2 = 0 then m.grant else u16 k.payload 2 })

/-- MEM.FREQ of an encode die that takes commands and can run at the point waits for its arrival, at the pacing channel's picture boundary where
there is one (R419, R420). -/
def memFreq (c : Submission) : Claim :=
  eciClaim (.memFreq c) specMemFreq 0x0B03 c
    (fun k s => s.dieGate k.tok.handle = none ∧ handleDie k.tok.handle ≠ 0xFF ∧
      s.freqRefused (handleDie k.tok.handle) (u8 k.payload 0) = none)
    fun k s a => a = .wait (.arrival (match s.pacing (handleDie k.tok.handle) with | some h => .picture h | none => .now)
      (.memFreq (handleDie k.tok.handle) (u8 k.payload 0))) {} s

/-- MEM.COPY inside a buffer of the caller writes the host's bytes to it, or reads bytes of it into the host's (R439). -/
def memCopy (c : Submission) : Claim :=
  eciClaim (.memCopy c) specMemCopy 0x0B04 c
    (fun k s => ∃ e, s.bufferAt (u64 k.payload 8) (u32 k.payload 4) = some e ∧
      (k.tok.via.fn = 0 ∨ s.ownerAt e.2.object k.tok.seq = k.tok.via.fn))
    fun k s a => ∃ e, s.bufferAt (u64 k.payload 8) (u32 k.payload 4) = some e ∧
      let n := u32 k.payload 4
      let t := s.takeTokens e.2.die n
      a = if u8 k.payload 0 = 0 then .done {} (t.writeBytes e.2.die (u64 k.payload 8) (slice k.sub.hostData 0 n))
        else .done { copied := t.readBytes e.2.die (u64 k.payload 8) n } t

/-! ### Security and health commands (R338, R447 to R505) -/

/-- SEC.QUOTE answers a quote over the caller's nonce with the certificate of its key, at once or when the security processor
is back (R457, R492). -/
def secQuote (c : Submission) : Claim :=
  eciClaim (.secQuote c) specSecQuote 0x0C01 c (fun k _ => k.tok.opcode = 0x0C01) fun k s a =>
    a = if s.boot.sec.spUp = true then .done { response := s.quote (slice k.payload 0 32) ++ s.akCert } s
      else .wait .securityProcessor {} s

/-- SEC.CERTS answers the four certificates, each after its length (R456, R492). -/
def secCerts (c : Submission) : Claim :=
  eciClaim (.secCerts c) specSecCerts 0x0C02 c (fun k _ => k.tok.opcode = 0x0C02) fun _ s a =>
    a = if s.boot.sec.spUp = true then
        .done { response := [s.idkCert, s.akCert, s.pkCert, s.kdkCert].flatMap fun x => le 4 x.length ++ x } s
      else .wait .securityProcessor {} s

/-- PROV.KEY answers the provenance key's number, public key and certificate (R338, R492). -/
def provKey (c : Submission) : Claim :=
  eciClaim (.provKey c) specProvKey 0x0812 c (fun k _ => k.tok.opcode = 0x0812) fun _ s a =>
    a = if s.boot.sec.spUp = true then .done { response := le 4 s.pkId ++ s.pkPublic ++ s.pkCert } s
      else .wait .securityProcessor {} s

/-- KEY.IMPORT of a new identifier makes a KEY of the caller from the material that unwraps, and completes with E_INTEGRITY
where none does (R458). -/
def keyImport (c : Submission) : Claim :=
  eciClaim (.keyImport c) specKeyImport 0x0C03 c
    (fun k s =>
      (∀ e ∈ s.boot.sec.keys, e.2.1 ≠ u32 k.payload 0) ∧ s.boot.sec.keys.length < 8192 ∧ s.boot.sec.spUp = true ∧
        s.boot.sec.wipePending = none ∧ (s.newObject tKey 0xFF 8192 k.tok.via.fn).isSome = true)
    fun k s a => ∃ h t, s.newObject tKey 0xFF 8192 k.tok.via.fn = some (h, t) ∧
      a = match s.unwrap k.payload with
        | none => .done { status := .eIntegrity } s
        | some m => .done { result := h } (t.modBoot fun b => { b with sec := { b.sec with
            keys := b.sec.keys.put h (u32 k.payload 0, slice m 0 40) } })

/-- KEY.DESTROY of a KEY that no stream binds frees it (R458). -/
def keyDestroy (c : Submission) : Claim :=
  eciClaim (.keyDestroy c) specKeyDestroy 0x0C04 c (fun k s => s.keyUsed k.tok.handle = false) fun k s a =>
    a = .done {} ((s.freeObject k.tok.handle).modBoot fun b =>
      { b with sec := { b.sec with keys := b.sec.keys.del k.tok.handle } })

/-- SEC.LC_ADVANCE makes the life-cycle move unless its target, its block or a precondition refuses it (R451, R452). -/
def secLcAdvance (c : Submission) : Claim :=
  eciClaim (.secLcAdvance c) specSecLcAdvance 0x0C05 c (fun _ _ => True) fun k s a =>
    a = match s.lcRefused k.payload with
      | some r => .done r s
      | none => .done {} (s.lcMove k.payload)

/-- SEC.OWNER_KEY_ADD programs the second owner key hash, once, under an accepted block (R453). -/
def secOwnerKeyAdd (c : Submission) : Claim :=
  eciClaim (.secOwnerKeyAdd c) specSecOwnerKeyAdd 0x0C06 c (fun _ s => s.boot.fuses.programmed 5 = false) fun k s a =>
    a = match s.blockRefused 0x0C06 0 k.payload 0x20 with
      | some r => .done r s
      | none => .done {} ((s.acceptBlock 0x0C06 0).modBoot fun b => { b with fuses := { b.fuses with
          ownerHash := b.fuses.ownerHash.put 5 (slice k.payload 0 32) } })

/-- SEC.KEY_REVOKE revokes a key slot under an accepted block, unless it is the last usable one or signs an active image
(R453). -/
def secKeyRevoke (c : Submission) : Claim :=
  eciClaim (.secKeyRevoke c) specSecKeyRevoke 0x0C07 c
    (fun k s =>
      let u := s.boot.fuses
      if u8 k.payload 0 < 4 then u.othersUsable [0, 1, 2, 3] (u8 k.payload 0) = true
      else 2 ≤ u.lcState → u.othersUsable [4, 5] (u8 k.payload 0) = true)
    fun k s a =>
      a = match s.blockRefused 0x0C07 0 k.payload 4 with
        | some r => .done r s
        | none =>
          if s.signsActive (u8 k.payload 0) = true then .done { status := eLcPrecond, detail := 2 } s
          else .done {} ((s.acceptBlock 0x0C07 0).modBoot fun b => { b with fuses := b.fuses.revoke (u8 k.payload 0) })

/-- SEC.SVN_COMMIT raises the fuse of a type to the running image's security version under an accepted block; the fuse never
falls (R448). -/
def secSvnCommit (c : Submission) : Claim :=
  let svn (k : Cmd) (s : State) : Nat := u16 (s.boot.flash.image s.boot.slot (u8 k.payload 0)) 0x0C
  let fuse (k : Cmd) (s : State) : Nat := if u8 k.payload 0 = 1 then s.boot.fuses.fwSvn else s.boot.fuses.rcpSvn
  eciClaim (.secSvnCommit c) specSecSvnCommit 0x0C08 c
    (fun k s => ∀ t, s.boot.flash.trial = some t → svn k s ≤ fuse k s ∨ svn k s ≤ u16 (s.boot.flash.image t (u8 k.payload 0)) 0x0C)
    fun k s a =>
      let raise (u : Fuses) : Fuses :=
        if u8 k.payload 0 = 1 then { u with fwSvn := max (fuse k s) (svn k s) }
        else { u with rcpSvn := max (fuse k s) (svn k s) }
      a = match s.blockRefused 0x0C08 0 k.payload 4 with
        | some r => .done r s
        | none => .done {} ((s.acceptBlock 0x0C08 0).modBoot fun b => { b with fuses := raise b.fuses })

/-- SEC.DEBUG_CHALLENGE keeps a fresh nonce and answers it (R455). -/
def secDebugChallenge (c : Submission) : Claim :=
  eciClaim (.secDebugChallenge c) specSecDebugChallenge 0x0C09 c (fun _ _ => True) fun _ s a =>
    ∃ n u, a = .done { response := n } u ∧ n.length = 32 ∧ u.boot.sec.nonce = some (n, s.now)

/-- SEC.DEBUG_UNLOCK, in a life cycle with an authority for it and with a nonce not older than 60 s, opens debug under an
accepted block where no debug kill fuse is blown (R455). -/
def secDebugUnlock (c : Submission) : Claim :=
  eciClaim (.secDebugUnlock c) specSecDebugUnlock 0x0C0A c
    (fun _ s => (s.boot.fuses.authority 0x0C0A 0 = .vendor ∨ s.boot.fuses.authority 0x0C0A 0 = .owner) ∧
      ∃ n since, s.boot.sec.nonce = some (n, since) ∧ s.now ≤ since + 60000000000)
    fun k s a => ∃ n since, s.boot.sec.nonce = some (n, since) ∧
      a = match s.authorise 0x0C0A 0 k.payload 4 (u64 n 0) n { status := .eIntegrity } with
        | some r => .done r s
        | none =>
          if s.boot.fuses.dbgKill ≠ 0 then .done { status := .eLocked } s
          else .done {} (s.openDebug (u8 k.payload 0))

/-- SEC.TAMPER_SET sets the responses and the loop; one that lowers a response needs an accepted block (R464). -/
def secTamperSet (c : Submission) : Claim :=
  let set (k : Cmd) (s : State) : State := s.modBoot fun b => { b with ka := { b.ka with
    responses := (List.range 6).map fun i => u8 k.payload i, loopArmed := u8 k.payload 6 == 1 } }
  eciClaim (.secTamperSet c) specSecTamperSet 0x0C0B c
    (fun k s => s.boot.ka.lowers k.payload = false ∨ s.boot.fuses.authority 0x0C0B 0 = .none)
    fun k s a => a = .done {} (set k s)

/-- SEC.TAMPER_LOG answers the tamper log and changes nothing (R465). -/
def secTamperLog (c : Submission) : Claim :=
  eciClaim (.secTamperLog c) specSecTamperLog 0x0C0C c (fun _ _ => True) fun _ s a =>
    ∃ r, a = .done { response := r } s ∧ u16 r 0 = s.boot.ka.tamperLog.length % 2 ^ 16 ∧
      u16 r 2 = s.boot.ka.tamperOverflow % 2 ^ 16 ∧ r.drop 4 = s.boot.ka.tamperLog.flatMap TamperEntry.encode

/-- SEC.TAMPER_CLEAR clears the tamper log; in a life cycle that asks for no authorisation it needs no block (R465). -/
def secTamperClear (c : Submission) : Claim :=
  eciClaim (.secTamperClear c) specSecTamperClear 0x0C0D c (fun _ s => s.boot.fuses.authority 0x0C0D 0 = .none)
    fun _ s a => a = .done {} (s.modBoot fun b => { b with ka := { b.ka with tamperLog := [], tamperOverflow := 0 } })

/-- SEC.COUNTER answers the monotonic counter, which it raises first where the payload says so (R468). -/
def secCounter (c : Submission) : Claim :=
  eciClaim (.secCounter c) specSecCounter 0x0C0E c
    (fun _ _ => True) fun k s a =>
      let t := if u8 k.payload 0 = 1 then s.countUp else s
      a = .done { response := le 8 t.boot.ka.counter } t

/-- SEC.CRED_SET sets a credential; disabling one closes the sessions that it opened. In a life cycle that asks for no
authorisation it needs no block (R462). -/
def secCredSet (c : Submission) : Claim :=
  eciClaim (.secCredSet c) specSecCredSet 0x0C0F c (fun _ s => s.boot.fuses.authority 0x0C0F 0 = .none)
    fun k s a =>
      let p := k.payload
      let t := s.modBoot fun b => { b with flash := { b.flash with
        credentials := b.flash.credentials.put (u8 p 0) (slice p 4 32, u8 p 1, u8 p 2 == 1) } }
      let gone := if u8 p 2 = 1 then [] else (s.eci.sessions.sel fun _ x => x.credential == u8 p 0 + 1).keys
      a = .done {} (gone.foldl (fun s n => s.closeSession n 0) t)

/-- HEALTH.QUERY answers the boot record and the status and changes nothing (R505). -/
def healthQuery (c : Submission) : Claim :=
  eciClaim (.healthQuery c) specHealthQuery 0x0D01 c (fun _ _ => True) fun _ s a =>
    let b := s.boot
    ∃ r, a = .done { response := r } s ∧ u8 r 0 = b.ka.bootCount % 256 ∧ u8 r 1 = b.flash.active % 256 ∧
      u8 r 2 = b.flash.trial.getD 0xFF % 256 ∧ u32 r 4 = b.statusWord % 2 ^ 32 ∧ u64 r 8 = s.kaSeconds % 2 ^ 64

/-- BOOT.SLOT_SET naming the active slot drops a trial; naming the other one, whose images verify, makes it the trial
(R474). -/
def bootSlotSet (c : Submission) : Claim :=
  eciClaim (.bootSlotSet c) specBootSlotSet 0x0D02 c (fun _ _ => True) fun k s a =>
    let slot := u8 k.payload 0
    a = if slot = s.boot.flash.active then
        .done {} (s.modBoot fun b => { b with flash := { b.flash with
          trial := none, tried := false, seqNo := b.flash.seqNo + 1 } })
      else if s.slotApproved slot = true then
        .done {} (s.modBoot fun b => { b with flash := { b.flash with
          trial := some slot, tried := false, seqNo := b.flash.seqNo + 1 } })
      else .done { status := .eIntegrity } s

/-- DIE.REPAIR of a fenced encode die that is not under repair waits for the end of its BIST (R499). -/
def dieRepair (c : Submission) : Claim :=
  eciClaim (.dieRepair c) specDieRepair 0x0D03 c
    (fun k s => handleDie k.tok.handle ≠ 0xFF ∧ bit s.boot.diesFenced (handleDie k.tok.handle) = true ∧
      handleDie k.tok.handle ∉ s.boot.repairing)
    fun k s a => a = .wait (.dieRepair (handleDie k.tok.handle)) {} (s.modBoot fun b =>
      { b with repairing := b.repairing ++ [handleDie k.tok.handle] })

/-- MP.REPAIR of a fenced management processor waits for the end of its BIST (R490). -/
def mpRepair (c : Submission) : Claim :=
  eciClaim (.mpRepair c) specMpRepair 0x0D04 c (fun _ s => s.boot.fencedMp.isSome = true) fun _ s a =>
    a = .wait .mpRepair {} (s.modBoot fun b => { b with mpRepairing := true })

/-- ISST.QUERY of a die that takes commands answers the self-test's counts and changes nothing (R501). -/
def isstQuery (c : Submission) : Claim :=
  eciClaim (.isstQuery c) specIsstQuery 0x0D05 c (fun k s => s.dieGate k.tok.handle = none) fun k s a =>
    let h := s.boot.health.look {} (handleDie k.tok.handle)
    ∃ r, a = .done { response := r } s ∧ r.length = 24 ∧ u32 r 0 = h.slices % 2 ^ 32 ∧ u32 r 4 = h.fails % 2 ^ 32 ∧
      u32 r 8 = h.deferred % 2 ^ 32 ∧ u16 r 0xC = h.enginesFenced.length % 2 ^ 16 ∧ u8 r 0xE = h.msusFenced.length % 256

/-- KA.LOG answers the supply log and changes nothing (R485). -/
def kaLog (c : Submission) : Claim :=
  eciClaim (.kaLog c) specKaLog 0x0D06 c (fun _ _ => True) fun _ s a =>
    ∃ r, a = .done { response := r } s ∧ r.length = 264 ∧ u16 r 0 = s.boot.ka.supplyLog.length % 2 ^ 16

/-- THERM.QUERY answers the junctions, with 0x8000 for a die that is absent or fenced, and changes nothing (R503). -/
def thermQuery (c : Submission) : Claim :=
  eciClaim (.thermQuery c) specThermQuery 0x0E01 c (fun _ _ => True) fun _ s a =>
    ∃ r, a = .done { response := r } s ∧ r.length = 20 ∧
      (∀ d < 8, u16 r (2 * d) = (if s.dies ≤ d ∨ bit s.boot.diesFenced d = true then 0x8000
        else twos 16 (s.boot.junctions.getD d 0)) % 2 ^ 16) ∧
      u16 r 0x10 = twos 16 (s.boot.junctions.getD 8 0) % 2 ^ 16 ∧ u8 r 0x12 = b2n s.boot.thermAlert ∧
      u8 r 0x13 = s.boot.fuses.grade % 256

/-! ### Host accesses, interrupts, captures and function-level events (R10 to R45) -/

/-- A 32-bit aligned host write to a BAR0 register changes that register alone, under its access code (R10, R36, R38); one of
REC_CMD that names no recovery command is answered as one (R480; log entry 145). -/
def registerWrite (f : Fn) (off : BitVec 18) (v : BitVec 32) : Claim where
  row := .registerWrite f false off 4 v
  given s := s.hostWrites f.val = true ∧ off.toNat % 4 = 0
  gives s t :=
    if f.val = 0 ∧ off.toNat = 0x300C then t = s.modBoot fun b => { b with recArg := v.toNat % 256 }
    else if f.val = 0 ∧ off.toNat = 0x3010 then t = s.modBoot fun b => { b with recLen := v.toNat }
    else if f.val = 0 ∧ off.toNat = 0x3014 then t = s.recUnknown (v.toNat % 256)
    else t = s.modFn f.val fun g => g.writeReg f.val off.toNat v

/-- A 32-bit aligned host write to PF0's BAR4 changes the word of the MSI-X table that it names, and takes a vector that it
unmasks out of the pending-bit array; beyond the table it is discarded (R35, R36; log entry 178). -/
def registerWriteMsix (off : BitVec 18) (v : BitVec 32) : Claim where
  row := .registerWrite 0 true off 4 v
  given s := s.hostWrites 0 = true ∧ off.toNat % 4 = 0
  gives s t :=
    let i := off.toNat / 4
    (i < 72 → t = s.modFn 0 fun g => { g with
      msix := g.msix.put i v, pba := if i % 4 = 3 ∧ v.getLsbD 0 = false then clearBit g.pba (i / 4) else g.pba }) ∧
      (72 ≤ i → t = s)

/-- A host write that is not 32 bits wide or not aligned is discarded (R36). -/
def registerWriteOdd (f : Fn) (bar4 : Bool) (off : BitVec 18) (w : Fin 9) (v : BitVec 32) : Claim where
  row := .registerWrite f bar4 off w v
  given _ := w.val ≠ 4 ∨ off.toNat % 4 ≠ 0
  gives s t := t = s

/-- Enabling ECI sets EN and takes the bases and the ring sizes, and sets CFG_ERR where firmware runs and a ring size is out of
range (R40). -/
def eciEnable (f : Fn) : Claim where
  row := .eciEnable f
  given s := s.hostWrites f.val = true ∧ (s.fn f.val).en = false
  gives s t := t = s.modFn f.val fun g => { g with
    en := true, cfgErr := s.firmwareRuns && !ringSizesOk g.ringSizes, setAsq := g.asqBase, setAcq := g.acqBase
    setEq := g.eqBase, setSizes := g.ringSizes }

/-- Disabling ECI clears EN, ends the queues and mutes the fetched commands (R40, R41). -/
def eciDisable (f : Fn) : Claim where
  row := .eciDisable f
  given s := s.hostWrites f.val = true ∧ (s.fn f.val).en = true
  gives s t := t = (s.modFn f.val fun g => { g with en := false }).disableEci f.val ∧ (t.fn f.val).en = false ∧
    (t.fn f.val).rdy = false ∧ (t.fn f.val).queues = []

/-- Firmware puts the admin queue and the event ring of an enabled function in service, with the bases and sizes of its
enabling, judges the index words that the host has written, and sets RDY (R40, R48; log entry 146). -/
def eciRdySet (f : Fn) : Claim where
  row := .eciRdySet f
  given s := s.firmwareRuns = true ∧ s.fnEnabled f.val = true ∧ (s.fn f.val).en = true ∧ (s.fn f.val).rdy = false ∧
    (s.fn f.val).cfgErr = false ∧ ringSizesOk (s.fn f.val).setSizes = true
  gives s t :=
    let g := s.fn f.val
    let n := g.setSizes.toNat
    let q : Queue := { sqBase := g.setAsq.toNat, cqBase := g.setAcq.toNat, sqLog2 := bits n 0 4, cqLog2 := bits n 4 4 }
    let cleared := ((s.mbxStore (indexBlock f.val 0 + 4) (le 4 0)).mbxStore (indexBlock f.val 0 + 8) (le 4 0)).mbxStore
      (eventBlock f.val) (le 4 0)
    let ready := cleared.modFn f.val fun g => { g with
      rdy := true, queues := g.queues.put 0 q
      ring := { g.ring with base := g.setEq.toNat, log2 := bits n 8 4, tail := 0, phase := true, error := false
                            slots := [] } }
    t = ([indexBlock f.val 0, indexBlock f.val 0 + 12, eventBlock f.val + 4].foldl
      (fun s x => s.judgeIndex f.val x) ready).flushEvents f.val

/-- With a ring size out of range, CFG_ERR is set instead (R40). -/
def eciRdyRefused (f : Fn) : Claim where
  row := .eciRdySet f
  given s := s.firmwareRuns = true ∧ s.fnEnabled f.val = true ∧ (s.fn f.val).en = true ∧ (s.fn f.val).rdy = false ∧
    (s.fn f.val).cfgErr = false ∧ ringSizesOk (s.fn f.val).setSizes = false
  gives s t := t = s.modFn f.val fun g => { g with cfgErr := true }

/-- A write of INT_CAUSE clears the causes written as 1, and no other (R10, R42). -/
def intCauseClear (f : Fn) (v : BitVec 32) : Claim where
  row := .intCauseClear f v
  given s := s.hostWrites f.val = true
  gives s t :=
    let keep (n : Nat) : Nat := ((List.range 24).filter fun x => bit n x && !v.getLsbD x).foldl setBit 0
    t = s.modFn f.val fun g => g.settle { g with intCause := keep g.intCause, due := keep g.due }

/-- A write of INT_MASK sets its 24 bits; unmasking a set, due cause raises its vector (R42). -/
def intMaskWrite (f : Fn) (v : BitVec 32) : Claim where
  row := .intMaskWrite f v
  given s := s.hostWrites f.val = true
  gives s t := t = s.modFn f.val fun g => g.settle { g with intMask := v.toNat % 2 ^ 24 }

/-- A coalesced cause that is set becomes due once its delay has passed since its first entry (R42). -/
def coalesceTimeout (f : Fn) (cause : Fin 18) : Claim where
  row := .coalesceTimeout f cause
  given s := bit (s.fn f.val).intCause cause.val = true ∧
    ∃ t, ((s.fn f.val).coalesce.look {} cause.val).first = some t ∧ t + (s.fn f.val).coalesceNs ≤ s.now
  gives s t := t = s.modFn f.val fun g => g.settle { g with due := setBit g.due cause.val }

/-- A read of BOOT_STAGE captures the stage, the status and the boot count together (R30). -/
def bootStageCapture (f : Fn) : Claim where
  row := .bootStageCapture f
  given s := s.hostReads f.val = true
  gives s t := t = s.modFn f.val fun g => { g with hold := { g.hold with
    bootStage := word s.boot.stage.code, bootStatus := word s.boot.statusWord, bootCount := word s.boot.ka.bootCount } }

/-- A read of TIME_NS captures the time, its fraction and the epoch of one cycle (R31, R362). -/
def timeNsCapture (f : Fn) : Claim where
  row := .timeNsCapture f
  given s := s.hostWrites f.val = true
  gives s t := t = s.modFn f.val fun g => { g with hold := { g.hold with
    timeNs := word s.time.ns, timeFrac := word s.time.frac, epoch0 := word s.time.epNs, epoch1 := word s.time.epSec
    epoch2 := word s.time.epoch2 } }

/-- A read of REC_STATE captures the recovery window's words (R30, R480). -/
def recStateCapture : Claim where
  row := .recStateCapture
  given s := s.hostWrites 0 = true
  gives s t := t = s.modFn 0 fun g => { g with hold := { g.hold with
    recState := word s.boot.recStateWord, recReason0 := word s.boot.recReasonsWord, recReason1 := word s.boot.recResp } }

/-- A read of MBX_COLLIDE_CNT captures the count and clears it (R30). -/
def mbxCollideCntRead (f : Fn) : Claim where
  row := .mbxCollideCntRead f
  given s := s.hostWrites f.val = true
  gives s t := t = s.modFn f.val fun g =>
    { g with hold := { g.hold with mbxCollideCnt := word g.collideCnt }, collideCnt := 0 }

/-- A function-level reset disables ECI; a VF's objects pass to PF0 (R41). -/
def functionLevelReset (f : Fn) : Claim where
  row := .functionLevelReset f
  given s := s.hostWrites f.val = true
  gives s t :=
    let off := (s.modFn f.val fun g => { g with en := false }).disableEci f.val
    (f.val = 0 → t = off) ∧ (f.val ≠ 0 → t = off.objectsToPf0 f.val)

/-- Lowering NumVFs removes the VFs above it (R41). -/
def vfRemoval (n : Fn) : Claim where
  row := .vfRemoval n
  given s := s.hostWrites 0 = true ∧ n.val < s.eci.numVfs
  gives s t :=
    let gone := (List.range 33).filter fun v => decide (n.val < v) && (s.fn v).enabled
    t = (gone.foldl State.removeVf s).modEci fun e => { e with numVfs := n.val }

/-- Raising NumVFs enables the VFs up to it, outside recovery mode (R34, R479). -/
def vfEnable (n : Fn) : Claim where
  row := .vfEnable n
  given s := s.hostWrites 0 = true ∧ s.boot.stage ≠ .recovery ∧ s.eci.numVfs ≤ n.val
  gives s t := t = (((List.range 33).filter fun v => decide (1 ≤ v ∧ v ≤ n.val)).foldl
    (fun s v => s.modFn v fun g => { g with enabled := true }) s).modEci fun e => { e with numVfs := n.val }

/-! ### Doorbells, fetching, the fast path and the mailbox (R43 to R52) -/

/-- What firmware does when it learns of entries in a queue, first to last: a tail out of range is judged at once; a queue whose
turn has not come is remembered; else the queue is visited for at most 8 entries, the round goes on behind it, and what is left
in it is remembered (R47, R48, R62; log entry 180). -/
def queueServed (f q : Nat) (es : List Fetch) (s t : State) : Prop :=
  let note (b : Bool) (s : State) : State :=
    s.modFn f fun g => { g with queues := g.queues.upd q fun u => { u with rung := b } }
  let known := note true s
  let bad := ∃ u, (known.fn f).queues.find q = some u ∧ 2 ^ u.sqLog2 ≤ known.sqTail f q
  (bad → t = known.visit f q es 1) ∧ (¬bad → known.itsTurn f q = false → t = known) ∧
  (¬bad → known.itsTurn f q = true →
    let seen := known.visit f q es 8
    t = note (((seen.fn f).queues.find q).any fun u => seen.sqTail f q != u.sqHead)
      (seen.modEci fun e => { e with turn := if q = 16 then ((f + 1) % 33, 0) else (f, q + 1) }))

/-- A submission doorbell of an existing queue makes firmware serve the queue in its turn (R47, R62). -/
def dbSqWrite (f : Fn) (q : QId) (v : BitVec 32) (es : List Fetch) : Claim where
  row := .dbSqWrite f q v es
  given s := s.hostWrites f.val = true ∧ v.toNat % 65536 ≠ 0 ∧ s.firmwareRuns = true ∧
    (s.fn f.val).queues.has q.val = true
  gives := queueServed f.val q.val es

/-- A doorbell of an I/O queue that does not exist sets the QUEUE_ERROR cause and raises EV_QUEUE_ERROR of kind 3 (R48). -/
def dbSqWriteNoQueue (f : Fn) (q : QId) (v : BitVec 32) (es : List Fetch) : Claim where
  row := .dbSqWrite f q v es
  given s := s.hostWrites f.val = true ∧ v.toNat % 65536 ≠ 0 ∧ s.firmwareRuns = true ∧
    (s.fn f.val).queues.has q.val = false ∧ q.val ≠ 0
  gives s t := t = (s.modFn f.val fun g => g.setCause 22).raiseOwn f.val evQueueError (q.val + 3 * 256)

/-- Firmware polls a queue as a doorbell would have it do (R47). -/
def sqPoll (f : Fn) (q : QId) (es : List Fetch) : Claim where
  row := .sqPoll f q es
  given s := s.firmwareRuns = true ∧ (s.fn f.val).queues.has q.val = true
  gives := queueServed f.val q.val es

/-- A fast-path doorbell queues a slot that neither waits nor runs (R52). -/
def dbFastWrite (f : Fn) (v : BitVec 32) : Claim where
  row := .dbFastWrite f v
  given s := s.hostWrites f.val = true ∧ (s.fn f.val).rdy = true ∧ 1 ≤ v.toNat % 65536 ∧
    v.toNat % 65536 ≤ fastSlots f.val ∧ v.toNat % 65536 - 1 ∉ (s.fn f.val).fastQueue ∧
    v.toNat % 65536 - 1 ∉ (s.fn f.val).fastRunning
  gives s t := t = s.modFn f.val fun g => { g with fastQueue := g.fastQueue ++ [v.toNat % 65536 - 1] }

/-- A slot that waits or runs is reported busy (R52). -/
def dbFastWriteBusy (f : Fn) (v : BitVec 32) : Claim where
  row := .dbFastWrite f v
  given s := s.hostWrites f.val = true ∧ (s.fn f.val).rdy = true ∧ 1 ≤ v.toNat % 65536 ∧
    v.toNat % 65536 ≤ fastSlots f.val ∧
    (v.toNat % 65536 - 1 ∈ (s.fn f.val).fastQueue ∨ v.toNat % 65536 - 1 ∈ (s.fn f.val).fastRunning)
  gives s t := t = s.modFn f.val fun g => { g with fastBusy := true }

/-- Firmware takes the slot at the head of a function's fast-path queue, once no fetched command on the same object has yet to
start, and serves the request in it: a known command by its
checks and its effect, another with E_BAD_OPCODE (R52, R58). -/
def fastPathServe (f : Fn) : Claim where
  row := .fastPathServe f
  given s := ∃ slot rest, (s.fn f.val).fastQueue = slot :: rest ∧ (s.fn f.val).rdy = true ∧
    s.firmwareRuns = true ∧
    (∀ u ∈ s.eci.fetched, let h := u32 (s.eci.mailbox.load (fastSlot f.val slot) 64) 8; h = 0 ∨ u.handle ≠ h)
  gives s t := ∃ slot rest, (s.fn f.val).fastQueue = slot :: rest ∧
    let b := s.eci.mailbox.load (fastSlot f.val slot) 64
    let k : Cmd :=
      { tok := { via := .fast f.val slot, seq := s.eci.nextSeq, opcode := u16 b 0, cmdId := u16 b 4, handle := u32 b 8
                 fence := false }
        sub := { parseEntry b with responseAddr := 0, responseLen := 0 } }
    let taken := (s.modFn f.val fun g => { g with fastQueue := rest }).modEci fun x => { x with nextSeq := x.nextSeq + 1 }
    (∀ e, specOf (u16 b 0) = some e → t = (e.serve k taken).settle k) ∧
    (specOf (u16 b 0) = none → t = taken.complete k { status := .eBadOpcode })

/-- A host write of a mailbox word that the function may write stores it, and what an index word changes follows (R43, R44).
-/
def mailboxHostWrite (f : Fn) (off : BitVec 18) (v : BitVec 32) : Claim where
  row := .mailboxHostWrite f off 4 v false
  given s := s.hostWrites f.val = true ∧
    ∃ x, mailboxOffset f.val off.toNat = some x ∧ x % 4 = 0 ∧ s.mbxWritable f.val x = true
  gives s t := ∃ x, mailboxOffset f.val off.toNat = some x ∧ t = (s.mbxStore x (le 4 v.toNat)).judgeIndex f.val x

/-- A host write that collides with the device's own word is lost, counted and reported (R45). -/
def mailboxCollision (f : Fn) (off : BitVec 18) (v : BitVec 32) : Claim where
  row := .mailboxHostWrite f off 4 v true
  given s := s.hostWrites f.val = true ∧ s.boot.stage ≠ .recovery ∧
    ∃ x, mailboxOffset f.val off.toNat = some x ∧ x % 4 = 0 ∧ s.mbxWritable f.val x = true ∧ deviceWord f.val x = true
  gives s t := ∃ x, mailboxOffset f.val off.toNat = some x ∧ t = s.collide f.val x

/-! ### Power, reset and start-up (R451, R470 to R486, R504, R508, R523) -/

/-- The rails become good: the keep-alive oscillator has counted a number of seconds that is open, and the device leaves reset
unless SYS_RST_N is low (R470, R475, R487; log entry 217). -/
def powerGood : Claim where
  row := .powerGood
  given s := s.boot.railsGood = false
  gives s t := t = (s.useFree.modBoot fun b => { b with
    railsGood := true, ka := { b.ka with seconds := b.ka.seconds + Config.freeNat s.free } }).leaveReset

/-- A brown-out trips the supply-glitch sensor and then resets the device (R508). -/
def brownOut : Claim where
  row := .brownOut
  given s := s.boot.railsGood = true
  gives s t := t = ((s.logTrip (s.tripEntry 0 false)).modBoot fun b => { b with railsGood := false }).intoReset

/-- SYS_RST_N low for 2 µs or more resets the device and releases the THERM_TRIP_N latch; a low below 1 µs is ignored (R504,
R523). -/
def sysRstNLow (ns : Nat) : Claim where
  row := .sysRstNLow ns
  given _ := ns < 1000 ∨ 2000 ≤ ns
  gives s t := (ns < 1000 → t = s) ∧
    (2000 ≤ ns → t = (s.modBoot fun b => { b with sysRstLow := true, thermTripLatch := false }).intoReset)

/-- The release of SYS_RST_N lets the device leave reset when its rails are good (R523, R475). -/
def sysRstNRelease : Claim where
  row := .sysRstNRelease
  given s := s.boot.sysRstLow = true
  gives s t := t = (s.modBoot fun b => { b with sysRstLow := false }).leaveReset

/-- The delay of DEVICE.RESTART or of a life-cycle move ends in a restart, into recovery mode where it was asked for (R70,
R451). -/
def restartDelayExpiry : Claim where
  row := .restartDelayExpiry
  given s := ∃ e, s.boot.restartAt = some e ∧ e.1 ≤ s.now
  gives s t := ∃ e, s.boot.restartAt = some e ∧
    t = (if e.2 = true then s.modBoot fun b => { b with ka := { b.ka with request := some 0x03 } } else s).restart

/-- A failed start ends in a restart (R478). -/
def failedStartRestart : Claim where
  row := .failedStartRestart
  given s := s.boot.failedAt.isSome = true
  gives s t := t = s.restart

/-- The ROM of a device out of reset, with its signature, memory and flash good, no reason for recovery mode and no junction
too hot, counts the start and goes on to the slot of a normal start (R474, R475). -/
def romStart (host strap : Bool) : Claim where
  row := .romStart host strap true true
  given s := s.boot.held = false ∧ s.boot.stage = .reset ∧ s.boot.ka.signature = true ∧ s.boot.tooHot = false ∧
    s.boot.recoveryReason strap 0 = none
  gives s t :=
    let begun := ((s.modBoot fun b => { b with
      bootHost := host, startRef := 0, kaColdAtStart := false, counterRestored := false }).setStage .rom).countUp
    let ready := begun.useFree.modBoot fun b => { b with
      sec := { b.sec with issued := b.ka.counter }
      ka := { b.ka with lcShadow := max b.ka.lcShadow b.fuses.lcState }, recoverAs := none }
    t = ready.romGoesOn

/-- A start with a reason for recovery mode, warm and cool, enters it: the reason is logged, no request stays, and the recovery
window is idle, whatever the memory and the flash (R479, R480, R483; the order of the checks is log entry 144). -/
def romStartRecovers (host strap dram flash : Bool) : Claim where
  row := .romStart host strap dram flash
  given s := s.boot.held = false ∧ s.boot.stage = .reset ∧ s.boot.ka.signature = true ∧ s.boot.tooHot = false ∧
    ∃ r, s.boot.recoveryReason strap (Config.freeNat s.free % 256) = some r
  gives s t := t = { s with boot := t.boot, eci := t.eci, free := t.free } ∧ t.boot.stage = .recovery ∧ t.boot.recovery = true ∧ t.boot.recState = 1 ∧
    t.boot.ka.request = none

/-- A start without a reason for recovery mode whose DRAM fails is a failed start with reason 0x31, one whose flash fails with
0x32 (R475, R478). -/
def romStartFails (host strap dram : Bool) : Claim where
  row := .romStart host strap dram (!dram)
  given s := s.boot.held = false ∧ s.boot.stage = .reset ∧
    (if s.boot.ka.signature = true then s.boot else { s.boot with ka := s.boot.coldKa }).recoveryReason strap 0 = none
  gives s t := t = { s with boot := t.boot, eci := t.eci, free := t.free } ∧ t.boot.lastFail = (if dram = true then 0x32 else 0x31) ∧
    t.boot.failedAt.isSome = true ∧ t.boot.stage = .rom

/-- The ROM's check 100 ms later goes on with the start once no junction is too hot, and else waits again (R475). -/
def thermalWaitCheck (j : Junctions) : Claim where
  row := .thermalWaitCheck j
  given s := ∃ t, s.boot.thermalWait = some t ∧ t + 100000000 ≤ s.now
  gives s t := ∃ w, s.boot.thermalWait = some w ∧
    let u := s.modBoot fun b => { b with
      junctions := ((j.dies ++ List.replicate 8 250).take 8) ++ [j.hub], waited := b.waited + (s.now - w) }
    t = if u.boot.tooHot = true then u.modBoot fun b => { b with thermalWait := some s.now }
      else (u.modBoot fun b => { b with thermalWait := none }).romGoesOn

/-- The images of the chosen slot are verified: the start goes on to BIST with the recipes' version and
the digests, or fails with the
reason of the first check that an image fails (R447, R475). -/
def imageVerifyDone : Claim where
  row := .imageVerifyDone true
  given s := s.boot.stage = .rom ∧ s.boot.thermalWait = none ∧ s.boot.failedAt = none ∧
    s.boot.fuses.idSeed ≠ List.replicate 32 0xFF
  gives s t :=
    let fw := s.boot.flash.image s.boot.slot 1
    let rcp := s.boot.flash.image s.boot.slot 2
    let bad := (s.boot.fuses.approve fw 1).or (s.boot.fuses.approve rcp 2)
    t = { s with boot := t.boot, eci := t.eci } ∧ (bad = none → t.boot.stage = .bist ∧ t.boot.recipeVersion = u32 rcp 8 ∧
      t.boot.fwDigest = imageDigest fw ∧ t.boot.rcpDigest = imageDigest rcp ∧ t.boot.sec.tk = s.boot.sec.tk + 1) ∧
    (∀ r, bad = some r → t.boot.stage = .verify ∧ t.boot.lastFail = r ∧ t.boot.failedAt.isSome = true)

/-- Without a formed root secret the start fails with reason 0x28 (R452, R475). -/
def imageVerifyNoSecret : Claim where
  row := .imageVerifyDone false
  given s := s.boot.stage = .rom ∧ s.boot.thermalWait = none ∧ s.boot.failedAt = none
  gives s t := t = { s with boot := t.boot, eci := t.eci } ∧ t.boot.sec.xiFormed = false ∧ t.boot.lastFail = 0x28 ∧ t.boot.failedAt.isSome = true

/-- BIST with the hub good and no encode die at fault goes on to the firmware start with MP-A primary, or MP-B where MP-A is at
fault; the version registers read from then on (R30, R476, R488). -/
def bistDone (a b : Bool) : Claim where
  row := .bistDone { hubFault := false, mpAFault := a, mpBFault := b, elements := [], otherFault := [] }
  given s := s.boot.stage = .bist ∧ s.boot.failedAt = none ∧ (a && b) = false
  gives s t := t = { s with boot := t.boot, eci := t.eci } ∧ t.boot.stage = .fwStart ∧ t.boot.eciVersion = 0x10000 ∧
    t.boot.fwVersion = u32 (s.boot.flash.image s.boot.slot 1) 8 ∧ t.boot.mpActive = b2n a ∧
    t.boot.mpA = (if a = true then .fenced else .primary) ∧
    t.boot.mpB = (if b = true then .fenced else if a = true then .primary else .coldStandby)

/-- BIST that finds the hub, or both management processors, at fault is a failed start with reason 0x30 (R476). -/
def bistFails (r : BistReport) : Claim where
  row := .bistDone r
  given s := s.boot.stage = .bist ∧ s.boot.failedAt = none ∧ (r.hubFault = true ∨ r.mpAFault = true ∧ r.mpBFault = true)
  gives s t := t = { s with boot := t.boot } ∧ t.boot.lastFail = 0x30 ∧ t.boot.failedAt.isSome = true

/-- Firmware reports READY: the stage is READY, the boot count is 0, and a trial that got here becomes the active slot (R474,
R475). -/
def firmwareReady : Claim where
  row := .firmwareReady
  given s := s.boot.stage = .fwStart ∧ s.boot.failedAt = none
  gives s t := t = { s with boot := t.boot, eci := t.eci, net := t.net } ∧ t.boot.stage = .ready ∧ t.boot.ka.bootCount = 0 ∧
    t.boot.flash.active = (if s.boot.trialRun = true then s.boot.slot else s.boot.flash.active)

/-- A die that is not held in reset reports READY, and its heartbeats start (R475). -/
def dieReady (d : DieNo) : Claim where
  row := .dieReady d
  given s := (s.boot.stage = .fwStart ∨ s.boot.stage = .ready) ∧ d.val < s.dies ∧ bit s.boot.diesFenced d.val = false ∧
    bit s.boot.diesReady d.val = false
  gives s t := t = (s.modBoot fun b => { b with diesReady := setBit b.diesReady d.val }).modHealth d.val fun h =>
    { h with beat0 := s.now, beat1 := s.now, period := s.now, cycleStart := s.now }

/-- A die that has not reported READY within 2.5 s is held in reset; after READY it is also reported, and the start is
degraded (R477). -/
def dieReadyTimeout (d : DieNo) : Claim where
  row := .dieReadyTimeout d
  given s := (s.boot.stage = .fwStart ∨ s.boot.stage = .ready) ∧ d.val < s.dies ∧ bit s.boot.diesFenced d.val = false ∧
    bit s.boot.diesReady d.val = false ∧ s.startPast 2500000000 = true
  gives s t := t = if s.boot.stage = .ready then
      ((s.holdDie d.val).raise evDieFault (dieHandle d.val) (7 + d.val * 256)).degrade
    else s.holdDie d.val

/-- Firmware that has not reported READY within 10 s is a failed start with reason 0x40 (R478). -/
def firmwareReadyTimeout : Claim where
  row := .firmwareReadyTimeout
  given s := (s.boot.stage = .rom ∨ s.boot.stage = .verify ∨ s.boot.stage = .bist ∨ s.boot.stage = .fwStart) ∧
    s.boot.failedAt = none ∧ s.startPast 10000000000 = true
  gives s t := t = s.failStart 0x40

/-- The keep-alive island moves to its backup supply: the switch is logged among the last 16, and reported when the device runs (R485). -/
def kaSwitchToBackup : Claim where
  row := .kaSwitchToBackup
  given s := s.boot.ka.onBackup = false
  gives s t :=
    let u := s.modBoot fun b => { b with ka := { b.ka with
      onBackup := true
      supplyLog := (b.ka.supplyLog ++ [(1, s.kaSeconds)]).drop ((b.ka.supplyLog.length + 1) - 16) } }
    t = if s.boot.stage = .ready then u.raise evKaSupply deviceHandle (1 + s.kaSeconds * 65536) else u

/-- It moves back to main power: the switch is logged and reported alike (R485). -/
def kaSwitchToMain : Claim where
  row := .kaSwitchToMain
  given s := s.boot.ka.onBackup = true
  gives s t :=
    let u := s.modBoot fun b => { b with ka := { b.ka with
      onBackup := false
      supplyLog := (b.ka.supplyLog ++ [(2, s.kaSeconds)]).drop ((b.ka.supplyLog.length + 1) - 16) } }
    t = if s.boot.stage = .ready then u.raise evKaSupply deviceHandle (2 + s.kaSeconds * 65536) else u

/-! ### The recovery window (R480 to R484) -/

/-- Get reasons answers the logged reasons (R482, R483). -/
def recGetReasons : Claim where
  row := .recGetReasons
  given s := s.recIdle = true
  gives s t := t = s.recDone 1 .ok s.boot.ka.reasonBytes

/-- Get attestation answers a quote over the nonce in the mailbox, where a root secret was formed (R482). -/
def recGetAttestation : Claim where
  row := .recGetAttestation
  given s := s.recIdle = true ∧ s.boot.fuses.lcState ≠ 4 ∧ s.boot.sec.xiFormed = true
  gives s t := t = s.recDone 2 .ok (s.quote (s.eci.mailbox.load 0 32) ++ s.akCert)

/-- Load image stores an image that verifies in its slot, and reports E_INTEGRITY for one that does not (R482). -/
def recLoadImage : Claim where
  row := .recLoadImage
  given s := s.recIdle = true ∧ s.boot.fuses.lcState ≠ 4 ∧ s.boot.recArg < 4 ∧ s.boot.recLen ≤ 0x4000000 ∧
    firstFail (imageChecks s.boot.recArg (s.mem.data.load 0 s.boot.recLen)) = none
  gives s t :=
    let img := s.mem.data.load 0 s.boot.recLen
    t = if s.boot.fuses.approve img (codeType s.boot.recArg) = none then
        (s.modBoot fun b => { b with flash := { b.flash with images := b.flash.images.put s.boot.recArg img } }).recDone 3 .ok []
      else s.recDone 3 .eIntegrity []

/-- Set boot slot makes a slot whose images verify the active one (R482). -/
def recSetBootSlot : Claim where
  row := .recSetBootSlot
  given s := s.recIdle = true ∧ s.boot.fuses.lcState ≠ 4 ∧ s.boot.recArg < 2
  gives s t := t = if s.slotApproved s.boot.recArg = true then
      (s.modBoot fun b => { b with flash := { b.flash with
        active := s.boot.recArg, trial := none, tried := false, seqNo := b.flash.seqNo + 1 } }).recDone 4 .ok []
    else s.recDone 4 .eIntegrity []

/-- Restart restarts the device, into a normal start or into recovery mode again (R482). -/
def recRestart : Claim where
  row := .recRestart
  given s := s.recIdle = true ∧ s.boot.fuses.lcState ≠ 4 ∧ s.boot.recArg < 2
  gives s t := t = (s.modBoot fun b => { b with
    ka := if s.boot.recArg = 0 then { b.ka with attempt := true } else { b.ka with request := some 0x02 } }).restart

/-- Finish life-cycle move makes the move of the mailbox's payload unless it is refused (R482, R452). -/
def recFinishLcMove : Claim where
  row := .recFinishLcMove
  given s := s.recIdle = true ∧ s.boot.fuses.lcState ≠ 4
  gives s t :=
    let p := s.eci.mailbox.load 0 (min 65536 s.boot.recLen)
    t = match (formFail (lcForm p)).or (s.lcRefused p) with
      | some r => s.recDone 6 r.status []
      | none => (s.lcMove p).recDone 6 .ok []

/-- In RETIRED every recovery command but get reasons answers E_LOCKED (R482). -/
def recLocked (row : Instr) (cmd : Nat) : Claim where
  row := row
  given s := s.recIdle = true ∧ s.boot.fuses.lcState = 4
  gives s t := t = s.recDone cmd .eLocked []

/-- A host write to REC_RESET restarts the device (R481). -/
def recResetNormal : Claim where
  row := .recResetNormal
  given s := s.hostWrites 0 = true
  gives s t := t = s.restart

/-- The other value of REC_RESET asks for recovery mode first (R481). -/
def recResetRecovery : Claim where
  row := .recResetRecovery
  given s := s.hostWrites 0 = true
  gives s t := t = (s.modBoot fun b => { b with ka := { b.ka with request := some 0x02 } }).restart

/-! ### The PCIe link (R403 to R407, R542) -/

/-- PERST_N low resets the PCIe interface (R406, R542). -/
def perstNAssert : Claim where
  row := .perstNAssert
  given s := s.eci.perst = false
  gives s t := t = (s.modEci fun e => { e with perst := true }).pcieReset ∧ t.eci.linkUp = false ∧ t.eci.numVfs = 0

/-- The release of PERST_N ends it (R542). -/
def perstNRelease : Claim where
  row := .perstNRelease
  given _ := True
  gives s t := t = s.modEci fun e => { e with perst := false }

/-- The link goes down: the time is noted, and its lanes are down, reported once for the link (R393, R406). -/
def pcieLinkDown : Claim where
  row := .pcieLinkDown
  given s := s.eci.linkUp = true
  gives s t := t =
    (s.modEci fun e => { e with linkUp := false, linkDownAt := some s.now }).pcieLanes s.eci.linkWidth false

/-- The link returns within 100 ms: its lanes are up, and what waited is written in order (R394, R406). -/
def pcieLinkReturn : Claim where
  row := .pcieLinkReturn
  given s := s.pcieUp = true ∧ ∃ t, s.eci.linkDownAt = some t ∧ s.now ≤ t + 100000000
  gives s t := t =
    ((s.modEci fun e => { e with linkUp := true, linkDownAt := none, linkPower := 0 }).pcieLanes s.eci.linkWidth true).flushAll

/-- A link down for 100 ms is a reset of the PCIe interface (R406). -/
def pcieLinkLossTimeout : Claim where
  row := .pcieLinkLossTimeout
  given s := ∃ t, s.eci.linkDownAt = some t ∧ t + 100000000 ≤ s.now
  gives s t := t = s.pcieReset

/-- The link trains at a speed and width: its lanes are up at them, with the root port's preset from 8 GT/s on, and it is reported where they are below Gen 5 x8 or changed while up (R394,
R403, R404, R407). -/
def pcieLinkTrained (g : Fin 6) (w : Fin 9) (x : Fin 11) : Claim where
  row := .pcieLinkTrained g w x
  given s := s.pcieUp = true ∧ g.val ≠ 0 ∧ [1, 2, 4, 8].contains w.val = true
  gives s t :=
    let up := ((s.modEci fun e => { e with
      linkUp := true, linkDownAt := none, linkGen := g.val, linkWidth := w.val, linkPower := 0
      presets := if 3 ≤ g.val then (List.range w.val).map fun i => (i, x.val) else [] }).pcieLanes w.val true).flushAll
    let changed := s.eci.linkUp = true ∧ (s.eci.linkGen ≠ g.val ∨ s.eci.linkWidth ≠ w.val)
    (g.val < 5 ∨ w.val ≠ 8 ∨ changed → t = up.raise evPcieLink (laneHandle 32) (w.val + g.val * 256)) ∧
    (g.val = 5 → w.val = 8 → ¬changed → t = up)

/-- A transmitter preset that the lane accepts is applied, and another rejected with the setting kept; either is answered (R404;
the taps of a preset are PRESUMED, log entry 215). -/
def pcieEqRequest (l : Fin 8) (p : Fin 11) : Claim where
  row := .pcieEqRequest l p
  given s := s.pcieUp = true
  gives s t :=
    let told := s.modEci fun e => { e with eqAnswers := e.eqAnswers.put l.val (Config.eqAccepts p.val) }
    t = if Config.eqAccepts p.val = true then told.modLn (32 + l.val) fun x => { x with taps := [0, 0] ++ presetTaps p.val }
      else told

/-- A link in L0 enters L0s (R405). -/
def aspmL0sEntry : Claim where
  row := .aspmL0sEntry
  given s := s.eci.linkUp = true ∧ s.eci.linkPower = 0
  gives s t := t = s.modEci fun e => { e with linkPower := 1 }

/-- A link that is up enters L1 (R405). -/
def aspmL1Entry : Claim where
  row := .aspmL1Entry
  given s := s.eci.linkUp = true
  gives s t := t = s.modEci fun e => { e with linkPower := 2 }

/-! ### BAR2, scrubs, arbiters and links (R413 to R442) -/

/-- A PF0 read inside a mapped page returns its bytes, each byte of a poisoned line as all ones; the read passes the token
bucket of the buffer's die (R415, R436, R438). -/
def bar2Read (off : BitVec 32) (data : List (BitVec 8)) : Claim where
  row := .bar2Access false off data
  given s := s.eci.linkUp = true ∧ s.boot.held = false ∧ s.boot.stage = .ready ∧ data ≠ [] ∧
    off.toNat % 65536 + data.length ≤ 65536 ∧ (s.pageBuffer off.toNat).isSome = true
  gives s t := ∃ b, s.pageBuffer off.toNat = some b ∧
    t = (s.takeTokens b.die data.length).modMem fun m => { m with
      bar2Read := (List.range data.length).map fun i =>
        if s.poisonedAt b.die (off.toNat + i) then 0xFF else s.mem.data.get (off.toNat + i)
      poisonedReads := s.mem.poisonedReads +
        b2n ((List.range data.length).any fun i => s.poisonedAt b.die (off.toNat + i)) }

/-- A PF0 write inside a mapped page stores its bytes, ends the poison of each line that it writes whole, and passes the token
bucket of the buffer's die (R415, R436, R438). -/
def bar2Write (off : BitVec 32) (data : List (BitVec 8)) : Claim where
  row := .bar2Access true off data
  given s := s.eci.linkUp = true ∧ s.boot.held = false ∧ s.boot.stage = .ready ∧ data ≠ [] ∧
    off.toNat % 65536 + data.length ≤ 65536 ∧ (s.pageBuffer off.toNat).isSome = true
  gives s t := ∃ b, s.pageBuffer off.toNat = some b ∧
    t = { s with mem := t.mem } ∧ t.mem.data = s.mem.data.store off.toNat data ∧
    t.mem.buckets = (s.takeTokens b.die data.length).mem.buckets ∧
    (t.dm b.die).poisoned = (s.dm b.die).poisoned.filter fun l =>
      !(decide (off.toNat ≤ 64 * l) && decide (64 * l + 64 ≤ off.toNat + data.length))

/-- An access of an unmapped page reads zeros and discards writes (R437). -/
def bar2Unmapped (write : Bool) (off : BitVec 32) (data : List (BitVec 8)) : Claim where
  row := .bar2Access write off data
  given s := s.eci.linkUp = true ∧ s.boot.held = false ∧ s.boot.stage = .ready ∧ data ≠ [] ∧
    off.toNat % 65536 + data.length ≤ 65536 ∧ s.pageBuffer off.toNat = none
  gives s t := t = if write = true then s
    else s.modMem fun m => { m with bar2Read := List.replicate data.length 0 }

/-- An access that crosses page boundaries is judged page by page: the reads follow one another, and so do the writes (R436, R437;
log entry 216). -/
def bar2Pages (write : Bool) (off : BitVec 32) (data : List (BitVec 8)) : Claim where
  row := .bar2Access write off data
  given s := s.eci.linkUp = true ∧ s.boot.held = false ∧ s.boot.stage = .ready
  gives s t := t = if write = true
    then (pagePieces off.toNat data.length).foldl
      (fun s e => s.bar2Write e.1 ((data.drop (e.1 - off.toNat)).take e.2)) s
    else (pagePieces off.toNat data.length).foldl (fun s e => s.bar2Load e.1 e.2)
      (s.modMem fun m => { m with bar2Read := [] })

/-- In recovery mode BAR2 is the image staging area, below 64 MiB (R479). -/
def bar2Staging (off : BitVec 32) (data : List (BitVec 8)) : Claim where
  row := .bar2Access true off data
  given s := s.eci.linkUp = true ∧ s.boot.held = false ∧ s.boot.stage = .recovery
  gives s t := t = if off.toNat + data.length ≤ 0x4000000 then s.bufStore off.toNat data else s

/-- A scrub pass counts, and its corrected errors count and are reported at most once per second (R413, R414). -/
def scrubPass (d : DramNo) (n : BitVec 32) : Claim where
  row := .scrubPass d n
  given s := s.boot.held = false ∧ (d.val = 8 ∨ d.val < s.dies ∧ bit s.boot.diesFenced d.val = false)
  gives s t :=
    let u := s.modDie (dramKey d) fun m => { m with scrubs := m.scrubs + 1 }
    let since := (s.dm (dramKey d)).correctedSince + n.toNat
    let due : Bool := (s.dm (dramKey d)).lastEcc.all fun x => decide (x + 1000000000 ≤ s.now)
    t = if n.toNat = 0 then u
      else
        let v := u.modDie (dramKey d) fun m => { m with
          corrected := m.corrected + n.toNat, correctedSince := if due = true then 0 else since
          lastEcc := if due = true then some s.now else m.lastEcc }
        if due = true then v.raise evMemEcc (memHandle (dramKey d)) (since % 2 ^ 32) else v

/-- The change of a die's operating point is done: the timing set that was not active now holds the new point and is active, the
watchdogs of the die's tasks have stood still, the arbiter goes on, and the stall is reported; a change that came meanwhile
begins (R418, R420, R421; log entry 129). -/
def freqChangeDone (d : DieNo) (stall : BitVec 16) : Claim where
  row := .freqChangeDone d stall
  given s := (s.dm d.val).changing.isSome = true
  gives s t := ∃ p w, (s.dm d.val).changing = some (p, w) ∧
    let u := s.modDie d.val fun m => { m with
      point := p, changing := none, tset := 1 - m.tset
      tsetA := if m.tset = 1 then p else m.tsetA, tsetB := if m.tset = 0 then p else m.tsetB }
    let v := ((u.modSched fun x => { x with scheds := x.scheds.upd d.val fun g => g.pause (s.now - w) }).modMem fun m =>
      { m with arbiters := m.arbiters.upd d.val Arbiter.decision }).raise evMemFreq (memHandle d.val)
        (p + stall.toNat * 65536)
    ((s.dm d.val).pending = none ∨ v.freqWaits d.val = true → t = v) ∧
    (v.freqWaits d.val = false → ∀ q, (s.dm d.val).pending = some q → t = v.beginFreq d.val q)

/-- An arbiter when a request comes, some cycles after the last, in which some writes have drained: units that reset themselves are
in quarantine for 1 µs, and no decision or grant of those cycles is left out (R423, R426 to R431). -/
def arbiterThen (s : State) (a : Nat) (cycles drained : Nat) : Arbiter :=
  let g := s.mem.arbiters.look {} a
  ({ g with
    quarantined := g.quarantined.filter fun e => !(selfReset a e.1 && decide (e.2 + 1000 ≤ s.now))
    writes := g.writes.drop drained } : Arbiter).cycles (a == 0x100 && s.net.arbMode == 1) (s.dm a).changing.isSome cycles

/-- A request comes to an arbiter, of a requester that is not in quarantine and has no other: it arrives, and a read counts its
lines that match a write which has not drained (R423, R426 to R429, R431). During a change of the operating point nothing is
granted (R420). -/
noncomputable def arbiterRequest (g : ArbiterId) (r : BitVec 6) (beats : BitVec 9) (line : BitVec 27) (write : Bool) (cycles : BitVec 12)
    (drained : BitVec 7) : Claim where
  row := .arbiterRequest g r beats line write cycles drained
  given s :=
    let a := arbiterThen s (arbiterKey g) cycles.toNat drained.toNat
    s.boot.held = false ∧ r.toNat < arbiterPorts (arbiterKey g) ∧ a.quarantined.has r.toNat = false ∧
      (∀ w ∈ a.waiting, w.requester ≠ r.toNat) ∧ (∀ w, a.next = some w → w.requester ≠ r.toNat) ∧
      (a.owner = some r.toNat → a.left = 0)
  gives s t :=
    let a := arbiterThen s (arbiterKey g) cycles.toNat drained.toNat
    let x : ArbRequest :=
      { requester := r.toNat, age := 0, beats := max 1 beats.toNat, line := line.toNat, write := write && arbiterKey g != 0x100 }
    let b := a.arrive (arbiterKey g == 0x100 && s.net.arbMode == 1) (s.dm (arbiterKey g)).changing.isSome x
    let u := s.modMem fun m => { m with arbiters := m.arbiters.put (arbiterKey g) b }
    t = if arbiterKey g = 0x100 then u
      else u.modDie (arbiterKey g) fun m => { m with rawWaits := m.rawWaits + (a.matches x).length }

/-- A request of a requester that is in quarantine is ignored (R429). -/
noncomputable def arbiterIgnored (g : ArbiterId) (r : BitVec 6) (beats : BitVec 9) (line : BitVec 27) (write : Bool) (cycles : BitVec 12)
    (drained : BitVec 7) : Claim where
  row := .arbiterRequest g r beats line write cycles drained
  given s := s.boot.held = false ∧ r.toNat < arbiterPorts (arbiterKey g) ∧
    (arbiterThen s (arbiterKey g) cycles.toNat drained.toNat).quarantined.has r.toNat = true
  gives s t := t = s.modMem fun m => { m with
    arbiters := m.arbiters.put (arbiterKey g) (arbiterThen s (arbiterKey g) cycles.toNat drained.toNat) }

/-- A request of a requester on which the grant of an idle memory arbiter is parked is granted at once, and its first beat goes in
the same cycle (R427, R428). -/
noncomputable def arbiterParked (d : DieNo) (r : BitVec 6) (beats : BitVec 9) (line : BitVec 27) : Claim where
  row := .arbiterRequest (.dram d) r beats line false 0 0
  given s :=
    let a := s.mem.arbiters.look {} d.val
    s.boot.held = false ∧ (s.dm d.val).changing = none ∧ a.quarantined = [] ∧ a.waiting = [] ∧ a.next = none ∧ a.left = 0 ∧
      a.owner = some r.toNat ∧ a.writes = []
  gives s t :=
    let a := s.mem.arbiters.look {} d.val
    let b := t.mem.arbiters.look {} d.val
    b = { a with left := max 1 beats.toNat - 1, history := r.toNat :: a.history.filter (· != r.toNat) }

/-- A request that comes while a grant has two beats or more to go waits behind those that wait, which age by one; the grant goes on
(R426, R427). -/
noncomputable def arbiterWaits (d : DieNo) (r : BitVec 6) (beats : BitVec 9) (line : BitVec 27) (write : Bool) : Claim where
  row := .arbiterRequest (.dram d) r beats line write 0 0
  given s :=
    let a := s.mem.arbiters.look {} d.val
    s.boot.held = false ∧ a.quarantined = [] ∧ 2 ≤ a.left ∧ a.next = none ∧ a.owner ≠ some r.toNat ∧
      a.waiting.any (·.requester == r.toNat) = false
  gives s t :=
    let a := s.mem.arbiters.look {} d.val
    let x : ArbRequest := { requester := r.toNat, age := 0, beats := max 1 beats.toNat, line := line.toNat, write }
    t.mem.arbiters.look {} d.val = { a with
      waiting := (a.waiting.map fun w => { w with age := min 4095 (w.age + 1) }) ++ [x], left := a.left - 1 }

/-- The owner of a grant of an encode die's memory that asks for a beat beyond the maximum is cut off and quarantined; its
requests are gone, the cut-off is counted and reported, and a dowel link's port starts to retrain (R429). -/
noncomputable def arbiterCutoff (d : DieNo) (r : BitVec 6) (beat : BitVec 16) : Claim where
  row := .arbiterCutoff (.dram d) r beat
  given s := (s.mem.arbiters.look {} d.val).owner = some r.toNat ∧
    (s.mem.arbiters.look {} d.val).quarantined.has r.toNat = false ∧ (s.dm d.val).grant ≤ beat.toNat
  gives s t :=
    let g := s.mem.arbiters.look {} d.val
    let cut : Arbiter := { g with
      owner := none, left := 0, waiting := g.waiting.filter (·.requester != r.toNat)
      quarantined := g.quarantined.put r.toNat s.now }
    let u := ((s.modMem fun m => { m with arbiters := m.arbiters.put d.val cut }).modDie d.val fun m =>
      { m with cutoffs := m.cutoffs + 1 }).raise evArbCutoff (memHandle d.val) (r.toNat * 256 + beat.toNat * 65536)
    t = if r.toNat = 60 then u.modMem fun m => { m with
          links := m.links.modD {} (2 * d.val) fun x => { x with retraining := true } }
      else if r.toNat = 61 then u.modMem fun m => { m with
          links := m.links.modD {} (2 * d.val + 1) fun x => { x with retraining := true } }
      else u

/-- A transmit engine that is cut off ends its frame as a bad one (R429). -/
noncomputable def egressCutoff (r : BitVec 6) (beat : BitVec 16) : Claim where
  row := .arbiterCutoff .egress r beat
  given s := (s.mem.arbiters.look {} 0x100).owner = some r.toNat ∧
    (s.mem.arbiters.look {} 0x100).quarantined.has r.toNat = false ∧ 8 ≤ beat.toNat ∧
    ((s.net.ports.look {} r.toNat).wire).isSome = true
  gives s t :=
    let p := s.net.ports.look {} r.toNat
    let q := t.net.ports.look {} r.toNat
    t = { s with eci := t.eci, net := t.net, mem := t.mem } ∧ q.wire = none ∧ q.txBad = p.txBad + 1 ∧
      (t.mem.arbiters.look {} 0x100).owner = none ∧ (t.dm 0xFF).cutoffs = (s.dm 0xFF).cutoffs + 1 ∧
      (t.mem.arbiters.look {} 0x100).quarantined.find r.toNat = some s.now

/-- A flit error replays from the first flit that was bad; the eighth replay of it in a row retrains the direction, and
replays are reported at most once per second (R441, R442). -/
noncomputable def dowelFlitError (l : Fin 16) (first : BitVec 16) : Claim where
  row := .dowelFlitError l first
  given s := s.boot.held = false ∧ l.val / 2 < s.dies ∧ bit s.boot.diesFenced (l.val / 2) = false ∧
    (s.mem.links.look {} l.val).retraining = false
  gives s t :=
    let x := s.mem.links.look {} l.val
    let n := if x.replayFrom = first.toNat ∧ 0 < x.replays then x.replays + 1 else 1
    let due : Bool := x.lastReplay.all fun w => decide (w + 1000000000 ≤ s.now)
    let u := s.modMem fun m => { m with links := m.links.put l.val { x with
      replayFrom := first.toNat, replays := n, totalReplays := x.totalReplays + 1
      recent := x.recent.filter (fun w => decide (s.now < w + 1000000000)) ++ [s.now]
      lastReplay := if due = true then some s.now else x.lastReplay, retraining := decide (8 ≤ n) } }
    t = if due = true then
        u.raise evDowelReplay (memHandle (l.val / 2)) (l.val % 2 +
          ((x.recent.filter fun w => decide (s.now < w + 1000000000)).length + 1) * 2 ^ 32)
      else u

/-- Retraining ends: without a failed lane replay goes on; a first failed lane's traffic moves to the spare; a second one
leaves the direction without progress (R442). -/
noncomputable def dowelRetrainDone (l : Fin 16) (f : Option (Fin 17)) : Claim where
  row := .dowelRetrainDone l f
  given s := (s.mem.links.look {} l.val).retraining = true ∧ (s.mem.links.look {} l.val).sparedLane = none
  gives s t := ∃ u : State,
    u.mem.links = s.mem.links.put l.val { s.mem.links.look {} l.val with
      retraining := false, replays := 0, failedRetrains := 0, retrains := (s.mem.links.look {} l.val).retrains + 1
      sparedLane := f.map (·.val) } ∧
    t = u.raise evDowelRetrain (memHandle (l.val / 2))
      (l.val % 2 + 256 * b2n f.isSome + (match f with | some x => x.val | none => 0) * 65536)

noncomputable def dowelRetrainFails (l : Fin 16) (f : Fin 17) : Claim where
  row := .dowelRetrainDone l (some f)
  given s := (s.mem.links.look {} l.val).retraining = true ∧
    ∃ n, (s.mem.links.look {} l.val).sparedLane = some n ∧ n ≠ f.val
  gives s t := ∃ u : State,
    u.mem.links = s.mem.links.put l.val { s.mem.links.look {} l.val with
      failedRetrains := (s.mem.links.look {} l.val).failedRetrains + 1
      retrains := (s.mem.links.look {} l.val).retrains + 1 } ∧
    t = u.raise evDowelRetrain (memHandle (l.val / 2)) (l.val % 2 + f.val * 65536)

/-! ### Health (R415, R494 to R504) -/

/-- A heartbeat of a die-controller core is noted (R494). -/
def dieHeartbeat (d : DieNo) (core : Fin 2) : Claim where
  row := .dieHeartbeat d core
  given s := s.dieServes d.val = true
  gives s t := t = s.modHealth d.val fun h =>
    if core.val = 0 then { h with beat0 := s.now } else { h with beat1 := s.now }

/-- A core without a heartbeat for 1 ms faults its die (R494). -/
def heartbeatTimeout (d : DieNo) : Claim where
  row := .heartbeatTimeout d
  given s := s.dieServes d.val = true ∧ ((s.boot.health.look {} d.val).beat0 + 1000000 ≤ s.now ∨
    (s.boot.health.look {} d.val).beat1 + 1000000 ≤ s.now)
  gives s t := t = s.dieFault d.val 1

/-- A slice starts each 50 ms; one that is still in progress counts as deferred (R500). -/
def isstSliceStart (d : DieNo) : Claim where
  row := .isstSliceStart d
  given s := s.dieServes d.val = true ∧ (s.boot.health.look {} d.val).period + 50000000 ≤ s.now
  gives s t := t = s.modHealth d.val fun h => { h with
    period := s.now, sliceStart := some s.now, deferred := h.deferred + b2n h.sliceStart.isSome }

/-- A slice that passes moves the position on, and the 572nd ends the cycle; a deferred one is counted and tried again (R500,
R501). -/
def isstSlicePass (d : DieNo) : Claim where
  row := .isstSliceEnd d .pass
  given s := s.dieServes d.val = true ∧ (s.boot.health.look {} d.val).sliceStart.isSome = true
  gives s t := t = s.modHealth d.val fun h =>
    if h.slice + 1 = 572 then { h with
        sliceStart := none, slices := h.slices + 1, slice := 0, lastCycleMs := (s.now - h.cycleStart) / 1000000
        cycleStart := s.now }
    else { h with sliceStart := none, slices := h.slices + 1, slice := h.slice + 1 }

def isstSliceDeferred (d : DieNo) : Claim where
  row := .isstSliceEnd d .deferred
  given s := s.dieServes d.val = true ∧ (s.boot.health.look {} d.val).sliceStart.isSome = true
  gives s t := t = s.modHealth d.val fun h => { h with sliceStart := none, deferred := h.deferred + 1 }

/-- A slice that fails fences its element, once, and reports it (R501, R502). -/
def isstSliceFail (d : DieNo) : Claim where
  row := .isstSliceEnd d .fail
  given s := s.dieServes d.val = true ∧ (s.boot.health.look {} d.val).sliceStart.isSome = true ∧
    (s.boot.health.look {} d.val).slice + 1 < 572
  gives s t :=
    let h := s.boot.health.look {} d.val
    let u := s.modHealth d.val fun h => { h with
      sliceStart := none, slices := h.slices + 1, slice := h.slice + 1, fails := h.fails + 1 }
    t = if h.fenced (sliceElement h.slice) = true then u else u.elementFails d.val (sliceElement h.slice)

/-- The repair BIST of a die ends: its `DIE.REPAIR` completes, with `E_REPAIR` where it failed; a die that passed is back in
service (R499). -/
noncomputable def dieRepairBistDone (d : DieNo) (pass : Bool) : Claim where
  row := .dieRepairBistDone d pass
  given s := s.boot.repairing.contains d.val = true
  gives s t :=
    let u := s.modBoot fun b => { b with repairing := b.repairing.filter (· != d.val) }
    t = (if pass = true then u.dieReturns d.val else u).completeRunning (fun r => r.await == .dieRepair d.val)
      fun r => if pass = true then r.reply else { r.reply with status := eRepair }

/-- A line of a die's DRAM, or of an SRAM of it, that cannot be corrected is counted and reported, and faults the die; a line of
a host-visible buffer is poisoned (R415, R433, R434). -/
def dramUncorrectable (d : DieNo) (ch line : BitVec 32) : Claim where
  row := .dramUncorrectable d.castSucc (.workingSet ch) line
  given s := s.boot.held = false ∧ d.val < s.dies ∧ bit s.boot.diesFenced d.val = false
  gives s t := t = ((s.modDie d.val fun m => { m with uncorrected := m.uncorrected + 1 }).raise evMemUncorr
    (memHandle d.val) (line.toNat * 2 ^ 32)).dieFault d.val 2

def hostBufferUncorrectable (line : BitVec 32) : Claim where
  row := .dramUncorrectable 8 .hostBuffer line
  given s := s.boot.held = false ∧ (s.dm 0xFF).poisoned.contains line.toNat = false
  gives s t := t = (((s.modDie 0xFF fun m => { m with uncorrected := m.uncorrected + 1 }).raise evMemUncorr
    (memHandle 0xFF) (4 + line.toNat * 2 ^ 32)).modDie 0xFF fun m => { m with poisoned := m.poisoned ++ [line.toNat] })

/-- A line of the hub's journal that cannot be corrected fences the primary (R415). -/
def journalUncorrectable (line : BitVec 32) : Claim where
  row := .dramUncorrectable 8 .journal line
  given s := s.boot.held = false ∧ s.firmwareRuns = true
  gives s t := t = ((s.modDie 0xFF fun m => { m with uncorrected := m.uncorrected + 1 }).raise evMemUncorr
    (memHandle 0xFF) (2 + line.toNat * 2 ^ 32)).fencePrimary

/-- A direction of a die's link without progress for 50 µs faults the die: cause 4 (R25). -/
def dowelStall (l : Fin 16) : Claim where
  row := .dowelStall l
  given s := s.dieServes (l.val / 2) = true
  gives s t := t = s.dieFault (l.val / 2) 4 (if l.val % 2 = 1 then 2 else 1)

/-- A temperature at or above the alert's threshold sets the alert, one 5 °C below it or lower clears it, and the values between
keep it as it is (R503). -/
def thermalSample (j : Junctions) : Claim where
  row := .thermalSample j
  given s := s.boot.stage = .ready ∧ j.dies.length = 8
  gives s t :=
    let u := s.modBoot fun b => { b with junctions := j.dies ++ [j.hub] }
    let seen := j.dies.mapIdx fun i x => if i < s.dies ∧ bit s.boot.diesFenced i = false then x else -2000
    let hot := hottest (seen ++ [j.hub])
    let detail := hot.1 * 256 + twos 16 hot.2 * 65536
    t = if s.boot.thermAlert = false ∧ s.boot.alertAt ≤ hot.2 then
        (u.modBoot fun b => { b with thermAlert := true }).raise evThermAlert deviceHandle (1 + detail)
      else if s.boot.thermAlert = true ∧ hot.2 ≤ s.boot.alertAt - 50 then
        (u.modBoot fun b => { b with thermAlert := false }).raise evThermAlert deviceHandle detail
      else u

/-- A thermal comparator latches THERM_TRIP_N, and a device out of reset enters the safe state with reason 0x50 (R504). -/
def thermTrip : Claim where
  row := .thermTrip 8
  given _ := True
  gives s t :=
    let u := s.modBoot fun b => { b with thermTripLatch := true }
    t = if s.boot.held = true ∨ s.boot.stage = .safe then u else u.enterSafe 0x50

/-! ### Security events (R454, R463 to R467, R492) -/

/-- A sensor whose response is 0 is logged and reported; with a higher response the wipe starts (R463, R465, R466). -/
noncomputable def tamperTrip (i : Fin 6) : Claim where
  row := .tamperTrip i none false
  given s := s.boot.railsGood = true ∧ (i.val = 5 → s.boot.ka.loopArmed = true)
  gives s t :=
    let trip := s.tripEntry i.val false
    let u := s.logTrip trip
    t = if trip.response = 0 then u.raiseTamper trip false else u.startWipe [trip] trip.response

/-- The wipe ends: the keys are gone, the sessions are closed and nothing of the wipe is left to do (R466). -/
def wipeDone : Claim where
  row := .wipeDone
  given s := s.boot.sec.wipePending.isSome = true
  gives s t := t = s.finishWipe ∧ t.boot.sec.wipePending = none ∧ t.boot.sec.keys = []

/-- A test-port instruction that the life cycle does not allow is answered as BYPASS, and IDCODE with the device's word; EXTEST
outside RESET enters the safe state with reason 0x52 (R454). -/
noncomputable def tapInstructionLoad (i : TapInstruction) : Claim where
  row := .tapInstructionLoad i
  given s := s.boot.stage ≠ .safe
  gives s t :=
    let u := s.modBoot fun b => { b with sec := { b.sec with
      tap := if s.tapAllows i = true then tapCode i else 0, tapOut := if i = .idcode then some s.idcode else none } }
    t = if i = .extest ∧ s.boot.stage ≠ .reset then u.enterSafe 0x52 else u

/-- A fatal error of the security processor restarts it, starts a wipe with response 1, and breaks the hub's locks that the processor
holds (R229, R492). -/
def spFatalError : Claim where
  row := .spFatalError
  given s := s.boot.stage = .ready ∧ s.boot.sec.spUp = true
  gives s t := t = (((s.modBoot fun b => { b with sec := { b.sec with spUp := false } }).startWipe [] 1).breakLocksOf 8
    (6 * 512 + 2) 2).settleSd 8

/-- The security processor is back, its port of the hub's arbiter free: the commands that wait for it complete (R492). -/
def securityProcessorRestartDone : Claim where
  row := .securityProcessorRestartDone
  given s := s.boot.sec.spUp = false
  gives s t :=
    let u := (s.unitReset 1).modBoot fun b => { b with sec := { b.sec with spUp := true } }
    t = u.completeRunning (fun r => r.await == .securityProcessor) fun r => u.signedReply r.cmd

/-! ### Management processors (R488 to R491) -/

/-- A report of the primary restarts its 20 ms (R488). -/
def mpReport : Claim where
  row := .mpReport
  given s := s.firmwareRuns = true
  gives s t := t = s.modBoot fun b => { b with lastReport := s.now }

/-- 20 ms without a report fence the primary (R489). -/
def mpReportTimeout : Claim where
  row := .mpReportTimeout
  given s := s.firmwareRuns = true ∧ s.boot.lastReport + 20000000 ≤ s.now
  gives s t := t = s.fencePrimary

/-- A fatal error of the primary fences it; before READY the start fails with reason 0x41 (R478, R489). -/
def mpFatalError : Claim where
  row := .mpFatalError
  given s := s.firmwareRuns = true
  gives s t := t = s.fencePrimary

def mpFatalErrorInStart : Claim where
  row := .mpFatalError
  given s := s.boot.stage = .fwStart ∧ s.boot.failedAt = none
  gives s t := t = s.failStart 0x41

/-- After a fence the standby comes up (R489). -/
def standbyStartDone : Claim where
  row := .standbyStartDone
  given s := s.boot.stage = .ready ∧ s.boot.fencedAt.isSome = true ∧ s.boot.hasStandby = true ∧ s.boot.standbyUp = false
  gives s t := t = s.modBoot fun b => { b with standbyUp := true }

/-- The take-over ends: the other processor is the primary, the fence is over, no command that was fetched and not journaled is
left, and every function has its TAKEOVER cause (R22, R44, R489). -/
def takeoverComplete : Claim where
  row := .takeoverComplete
  given s := s.boot.stage = .ready ∧ s.boot.fencedAt.isSome = true ∧ s.boot.standbyUp = true
  gives s t := t.boot.fencedAt = none ∧ t.boot.mpActive = 1 - s.boot.mpActive ∧ t.boot.standbyUp = false ∧
    t.eci.fetched = [] ∧ t.boot.lateWords = [] ∧ t.boot.lateRegs = []

/-- The repair BIST of the fenced processor ends: it is a warm standby, or the command completes with `E_REPAIR` (R490). -/
def mpRepairBistDone (pass : Bool) : Claim where
  row := .mpRepairBistDone pass
  given s := s.boot.mpRepairing = true
  gives s t :=
    let n := 1 - s.boot.mpActive
    let u := (s.modBoot fun b => { (if pass = true then b.setMp n .warmStandby else b) with
      mpRepairing := false }).raise
      evMpState deviceHandle ((if pass = true then 2 else 3) + n * 256)
    t = u.completeRunning (fun r => r.await == .mpRepair)
      fun r => if pass = true then r.reply else { r.reply with status := eRepair }

/-- A late write of the fenced processor lands in a mailbox word of a device block within 2 µs of the fence; the new primary's
own copy of the word is kept for the take-over (R44, R489). -/
noncomputable def fencedProcessorLateWrite (w : Fin 16384) (v : BitVec 32) : Claim where
  row := .fencedProcessorLateWrite (.mailbox w v)
  given s := (∃ f, s.boot.fencedAt = some f ∧ s.now ≤ f + 2000) ∧
    s.functions.any (fun f => deviceWord f (4 * w.val)) = true
  gives s t :=
    let own := s.eci.mailbox.load (4 * w.val) 4
    t = (s.modBoot fun b => { b with
      lateWords := bif b.lateWords.has (4 * w.val) then b.lateWords else b.lateWords.put (4 * w.val) own }).mbxStore
        (4 * w.val) (le 4 v.toNat)

/-- A late journal write is discarded with its epoch (R489). -/
noncomputable def fencedProcessorLateJournal : Claim where
  row := .fencedProcessorLateWrite .journal
  given s := s.boot.fencedAt.isSome = true
  gives s t := t = s

/-- Firmware journals its tuple and the event ring positions (R488). -/
def firmwareStateJournal : Claim where
  row := .firmwareStateJournal
  given s := s.firmwareRuns = true
  gives s t := t = s.journalTuple.modBoot fun b => { b with
    journaledAt := s.now, journalTuple := (List.range 33).map fun f => (s.fn f).ring.tail }

/-! ### The network command channel (R71, R459 to R461) and arrival of staged sets (R19, R20) -/

/-- A connection to the ECI port of a device with less than four sessions and no lockout becomes a session (R459). -/
def sessionConnect (n : Fin 5) (port : BitVec 16) : Claim where
  row := .sessionConnect n port
  given s := s.firmwareRuns = true ∧ port.toNat = s.eci.sessionPort ∧ s.eci.lockoutUntil = none ∧
    s.eci.sessions.length < 4 ∧ s.eci.sessions.has n.val = false ∧ n.val < 4
  gives s t := t = s.modEci fun e => { e with sessions := e.sessions.put n.val { since := s.now } }

/-- During a lockout a connection is refused and reported (R459). -/
def sessionLockout (n : Fin 5) (port : BitVec 16) : Claim where
  row := .sessionConnect n port
  given s := s.firmwareRuns = true ∧ port.toNat = s.eci.sessionPort ∧ s.eci.lockoutUntil.isSome = true
  gives s t := t = s.raise evSessionRejected deviceHandle 5

/-- A well-formed H1 is answered: H2 begins with 32 random bytes and the identity and key-distribution certificates, and ends in
a signature by the identity key over the digest of H1 and those bytes (R460). -/
noncomputable def handshakeH1 (n : Fin 5) (frame : List (BitVec 8)) : Claim where
  row := .handshakeH1 n frame
  given s := s.firmwareRuns = true ∧ s.boot.sec.spUp = true ∧ h1Ok frame = true ∧
    ∃ c, s.eci.sessions.find n.val = some c ∧ c.phase = .connected
  gives s t :=
    let body := slice (Config.trng s.free) 0 32 ++ s.idkCert ++ s.kdkCert
    t = (s.modSession n.val fun c => { c with
      phase := .h2Sent, h1 := frame, h2 := body ++ s.signIdk (sha3 (frame ++ body)) }).useFree

/-- H3 is judged: an unknown key is rejected with code 1, a bad form or signature with code 2; otherwise the session is
established with its function and keys (R460). -/
noncomputable def handshakeH3 (n : Fin 5) (frame : List (BitVec 8)) : Claim where
  row := .handshakeH3 n frame
  given s := s.firmwareRuns = true ∧ s.boot.sec.spUp = true ∧
    ∃ c, s.eci.sessions.find n.val = some c ∧ c.phase = .h2Sent
  gives s t := ∃ c, s.eci.sessions.find n.val = some c ∧
    match s.credentialOf (h1Key c.h1) (h1Cert c.h1) with
    | none => t = s.rejectSession n.val 1
    | some (f, cred) =>
      let ct := slice frame 0 1088
      if frame.length = 4397 ∧
          Config.mlDsaVerify 65 (h1Key c.h1) (sha3 (c.h1 ++ c.h2 ++ ct)) (slice frame 1088 3309) = true then
        let k := sha3 (slice (Config.mlKemDecaps s.kemD s.kemZ ct) 0 32 ++ sha3 (c.h1 ++ c.h2 ++ frame))
        t = s.modSession n.val fun c => { c with
          phase := .established, fn := f, credential := cred, lastRecord := s.now
          rxKey := sha3 (label "C2D" ++ k), txKey := sha3 (label "D2C" ++ k) }
      else t = s.rejectSession n.val 2

/-- A handshake that has not completed within 5 s is rejected with code 3 (R459). -/
noncomputable def handshakeTimeout (n : Fin 5) : Claim where
  row := .handshakeTimeout n
  given s := ∃ c, s.eci.sessions.find n.val = some c ∧ c.phase ≠ .established ∧ c.since + 5000000000 ≤ s.now
  gives s t := t = s.rejectSession n.val 3

/-- A rejection closes the connection; the eighth within 60 s starts a lockout of 10 s (R459). -/
def connectionLockoutEnd : Claim where
  row := .connectionLockoutEnd
  given s := ∃ t, s.eci.lockoutUntil = some t ∧ t ≤ s.now
  gives s t := t = s.modEci fun e => { e with lockoutUntil := none }

/-- A protected frame whose tag fails closes its session; one whose tag checks advances the counter, and its SUBMIT and PAYLOAD
records are taken in order; a session with either counter spent closes (R63, R460). -/
noncomputable def protectedFrame (n : Fin 4) (frame : List (BitVec 8)) : Claim where
  row := .protectedFrame n frame
  given s := s.firmwareRuns = true ∧
    ∃ c, s.eci.sessions.find n.val = some c ∧ c.phase = .established
  gives s t := ∃ c, s.eci.sessions.find n.val = some c ∧
    match Config.gcmOpen c.rxKey (le 4 0 ++ le 8 c.rxCount) (le 4 frame.length) frame with
    | none => t = s.closeSession n.val 2
    | some plain =>
      let u := (recordsOf plain.length plain).foldl (fun s e => s.takeRecord n.val e)
        (s.modSession n.val fun c => { c with rxCount := c.rxCount + 1, lastRecord := s.now })
      let spent := 2 ^ 40 ≤ c.rxCount + 1 ∨ ∃ x, u.eci.sessions.find n.val = some x ∧ 2 ^ 40 ≤ x.txCount
      t = if spent then u.closeSession n.val 0 else u

/-- A session without a record for 10 s closes (R71). -/
def sessionIdleTimeout (n : Fin 4) : Claim where
  row := .sessionIdleTimeout n
  given s := ∃ c, s.eci.sessions.find n.val = some c ∧ c.phase = .established ∧ c.lastRecord + 10000000000 ≤ s.now
  gives s t := t = s.closeSession n.val 1

/-- A set that reaches its unit, outside a take-over, waits there for its boundary, which its command's completion reports; one
that has no boundary to wait for takes effect at once (R19, R20, R22). -/
def stagedSetArrival : Claim where
  row := .stagedSetArrival
  given s := ∃ r kind c, s.eci.running.find? Running.onItsWay = some r ∧ r.await = .arrival kind c ∧
    s.boot.fencedAt = none ∧ (∀ d, kind ≠ .pipe3 d) ∧ ∀ h, kind = .source h → (s.ch h).dies.any (bit s.boot.diesFenced) = false
  gives s t := ∃ r kind c, s.eci.running.find? Running.onItsWay = some r ∧ r.await = .arrival kind c ∧
    let u := s.modEci fun e => { e with running := e.running.filter (· != r) }
    let l := s.land kind c r.reply
    (∀ b, l.1 = .now b → t = (u.applyChange none c).complete r.cmd { l.2 with boundary := b.bind c.reported }) ∧
    (∀ b, l.1 = .later b → t = (u.noteStaged kind b r.cmd.tok.seq c).complete r.cmd
      { l.2 with boundary := c.reported b })

/-- A set for pipe 3 of a die waits for the pipe's next boundary while the pipe codes, and its command with it; else it takes effect
at once (R20). -/
def stagedSetPipe3 (d : Nat) (c : Change) : Claim where
  row := .stagedSetArrival
  given s := s.boot.fencedAt = none ∧ bit s.boot.diesFenced d = false ∧ (∀ port p, c ≠ .gates port p) ∧ (∀ p, c ≠ .pps p) ∧
    (∀ h x y, c ≠ .egressKey h x y) ∧
    ∃ r, s.eci.running.find? Running.onItsWay = some r ∧ r.await = .arrival (.pipe3 d) c
  gives s t := ∃ r, s.eci.running.find? Running.onItsWay = some r ∧
    let u := s.modEci fun e => { e with running := e.running.filter (· != r) }
    ((s.chan.pipe3.look {} d).coding = none →
      t = (u.applyChange none c).complete r.cmd { r.reply with boundary := c.reported (.time s.stamp) }) ∧
    ((s.chan.pipe3.look {} d).coding.isSome = true → t = s.modEci fun e => { e with
      running := e.running.map fun x => if x = r then { x with await := .pipe3Boundary d c } else x })

/-- While the management processors fail over, a set on its way waits for the standby (R22). -/
def stagedSetWaits : Claim where
  row := .stagedSetArrival
  given s := s.boot.fencedAt.isSome = true
  gives s t := t = s

/-- A set for pipe 3 of a die that has been fenced fails with `E_HW_FAULT` (R20). -/
def stagedSetLost (d : Nat) (c : Change) : Claim where
  row := .stagedSetArrival
  given s := s.boot.fencedAt = none ∧ bit s.boot.diesFenced d = true ∧
    ∃ r, s.eci.running.find? Running.onItsWay = some r ∧ r.await = .arrival (.pipe3 d) c
  gives s t := ∃ r, s.eci.running.find? Running.onItsWay = some r ∧
    t = (s.modEci fun e => { e with running := e.running.filter (· != r) }).complete r.cmd
      { r.reply with status := .eHwFault }

/-- A set for the source of a channel on a die that has been fenced fails with `E_HW_FAULT` (R20). -/
def stagedStartLost (h : Nat) (c : Change) : Claim where
  row := .stagedSetArrival
  given s := s.boot.fencedAt = none ∧ (s.ch h).dies.any (bit s.boot.diesFenced) = true ∧
    ∃ r, s.eci.running.find? Running.onItsWay = some r ∧ r.await = .arrival (.source h) c
  gives s t := ∃ r, s.eci.running.find? Running.onItsWay = some r ∧
    t = (s.modEci fun e => { e with running := e.running.filter (· != r) }).complete r.cmd
      { r.reply with status := .eHwFault }

/-! ### Picture boundaries, source rows, composition and pre-analysis (R83 to R128, R256, R268 to R289, R325) -/

/-- At the boundary of an idle channel a start that waits for it is applied (R73). -/
def pictureBoundaryIdle (c : BitVec 32) : Claim where
  row := .pictureBoundary c
  given s := s.isEncoder c.toNat = true ∧ s.planeRuns = true ∧ ((s.ch c.toNat).pipe ≠ 3 ∨ (s.ch c.toNat).cond = .hubFill) ∧
    (s.ch c.toNat).state = .idle
  gives s t := t = s.applyAt c.toNat (s.ch c.toNat).nextPic

/-- The boundary of a channel with pipe of its own: the sets of its next picture apply first; then that picture begins, unless
one of them stopped the channel; then the dies swap in the spares of failed SRAM banks, what waited for the boundary goes on, and
a die whose policies have all been applied is full or faulted (R9, R19, R21, R73, R96). -/
def pictureBoundary (c : BitVec 32) : Claim where
  row := .pictureBoundary c
  given s := s.isEncoder c.toNat = true ∧ s.planeRuns = true ∧ ((s.ch c.toNat).pipe ≠ 3 ∨ (s.ch c.toNat).cond = .hubFill) ∧
    (s.ch c.toNat).state ≠ .idle ∧ s.pictureDue c.toNat = true
  gives s t :=
    let u := s.applyAt c.toNat (s.ch c.toNat).nextPic
    let v := if (u.ch c.toNat).state = .starting ∨ (u.ch c.toNat).state = .running then u.beginNext c.toNat else u
    t = (((s.ch c.toNat).dies.foldl State.swapSpares v).goOn c.toNat).policiesSettled

/-- A boundary of a live channel before its slot has come changes nothing; nor, in reference mode, one before its source picture,
unless a stop waits for it (R9, R73). -/
def pictureBoundaryEarly (c : BitVec 32) : Claim where
  row := .pictureBoundary c
  given s := (s.ch c.toNat).state ≠ .idle ∧ ((s.ch c.toNat).reference = false ∨ s.stopWaits c.toNat = false) ∧
    s.pictureDue c.toNat = false
  gives s t := t = s

/-- In reference mode a stop needs no source picture: the picture in progress becomes the last (R73; log entry 153). -/
def pictureBoundaryStop (c : BitVec 32) : Claim where
  row := .pictureBoundary c
  given s := s.isEncoder c.toNat = true ∧ s.planeRuns = true ∧ ((s.ch c.toNat).pipe ≠ 3 ∨ (s.ch c.toNat).cond = .hubFill) ∧
    (s.ch c.toNat).state ≠ .idle ∧ (s.ch c.toNat).reference = true ∧ s.stopWaits c.toNat = true ∧
    s.pictureDue c.toNat = false
  gives s t := t = ((s.applyAt c.toNat (s.ch c.toNat).nextPic).goOn c.toNat).policiesSettled

/-- Pipe 3 of a die with no held set and no eligible picture ends its picture: nothing is being coded (R83, R85). -/
def pipe3BoundaryEmpty (d : DieNo) : Claim where
  row := .pipe3PictureBoundary d
  given s := s.planeRuns = true ∧ bit s.boot.diesFenced d.val = false ∧ d.val < s.dies ∧ s.eci.running = [] ∧
    (s.boot.health.look {} d.val).banksFenced = [] ∧ (s.chan.pipe3.look {} d.val).coding = none ∧
    (s.chan.pipe3.look {} d.val).eligible = []
  gives s t := t = (s.modChan fun x => { x with pipe3 := x.pipe3.upd d.val fun p => { p with coding := none } }).policiesSettled

/-- While the picture that pipe 3 codes is not judged, there is no boundary (R83). -/
def pipe3BoundaryBusy (d : DieNo) : Claim where
  row := .pipe3PictureBoundary d
  given s := ∃ h n, (s.chan.pipe3.look {} d.val).coding = some (h, n) ∧ (s.ch h).picJudged n = false
  gives s t := t = s

/-- Where the picture before is coded, held slot tables apply; then the first eligible picture whose turn can come has it: the
channel's start, the sets of its next slot, and that slot's picture begins and is what pipe 3 codes. A slot before it that got no
source has the turn first, and the picture stays eligible (R83, R85, R86, R98). -/
def pipe3PictureBoundary (d : DieNo) : Claim where
  row := .pipe3PictureBoundary d
  given s := s.planeRuns = true ∧ bit s.boot.diesFenced d.val = false ∧ d.val < s.dies ∧
    (∀ h n, (s.chan.pipe3.look {} d.val).coding = some (h, n) → (s.ch h).picJudged n = true) ∧
    (((s.endPipe3 d.val).chan.pipe3.look {} d.val).eligible.find? ((s.endPipe3 d.val).turnReady d.val)).isSome = true
  gives s t :=
    let u := s.endPipe3 d.val
    ∃ e, (u.chan.pipe3.look {} d.val).eligible.find? (u.turnReady d.val) = some e ∧
      let v := if (u.ch e.chan).state = .idle then
          (u.modChan fun x => { x with pipe3 := x.pipe3.upd d.val fun p =>
            { p with starting := p.starting.filter (· != e.chan) } }).startChannel e.chan
        else u
      let m := (v.ch e.chan).nextPic
      let w := v.applyAt e.chan m
      let before := (w.ch e.chan).structNow = 0 ∧ m < e.pic
      let x := if before then
          w.modCh e.chan fun g => { g with blank := if g.blank.contains m then g.blank else g.blank ++ [m] }
        else w
      t = (((x.beginNext e.chan).modChan fun x => { x with pipe3 := x.pipe3.upd d.val fun p =>
        { p with coding := some (e.chan, m), eligible := if before then p.eligible else p.eligible.erase e } }).swapSpares
          d.val).policiesSettled

/-- Row 0 of the next wanted picture of a live channel has not come one row period after its expected capture: the input is
lost, for the channel and for its renditions that are live (R97, R98). -/
def sourcePictureMissing (c : BitVec 32) : Claim where
  row := .sourcePictureMissing c
  given s := let g := s.ch c.toNat
    s.isEncoder c.toNat = true ∧ s.planeRuns = true ∧ (g.state = .starting ∨ g.state = .running) ∧ g.reference = false ∧
      g.anchored = true ∧ g.cond = .live ∧ g.failover = none ∧ g.lastPic = none ∧ g.pipe ≠ 3 ∧
      handleType g.cfg.source ≠ tChannel ∧ g.captureNs g.wantedSlot 1 ≤ s.now
  gives s t := t = (s.followers c.toNat).foldl
    (fun s r => if ((s.ch r).inCond == .live) = true then s.loseInput r (s.ch r).wantedSlot else s)
    (s.loseInput c.toNat (s.ch c.toNat).wantedSlot)

/-- The missing picture of a pool channel whose input is already lost is coded from no source: its slot waits for its turn on
pipe 3 (R83, R86, R98). -/
def sourcePictureMissingPool (c : BitVec 32) : Claim where
  row := .sourcePictureMissing c
  given s := let g := s.ch c.toNat
    s.isEncoder c.toNat = true ∧ s.planeRuns = true ∧ (g.state = .starting ∨ g.state = .running) ∧ g.reference = false ∧
      g.anchored = true ∧ (g.cond = .repeat_ ∨ g.cond = .slate) ∧ g.failover = none ∧ g.lastPic = none ∧ g.pipe = 3 ∧
      handleType g.cfg.source ≠ tChannel ∧ g.captureNs g.wantedSlot 1 ≤ s.now ∧ g.nextPic ≤ g.slotOf g.wantedSlot
  gives s t := let g := s.ch c.toNat
    t = (s.modCh c.toNat fun g => { g with blank := g.blank ++ [(s.ch c.toNat).wantedSlot] }).enterEligible g.die
      { chan := c.toNat, pic := g.wantedSlot, time := s.now, missing := true }

/-- A source row is taken: with the samples and the capture time that its source gives it; ingest keeps what it wrote, for lost
samples of the next picture; a row that only the channel's renditions read goes to the picture that they read (R90, R268, R325).
A rendition's row whose lines are not composed yet waits. -/
def rowArrivalPost (c : BitVec 32) (row : BitVec 8) (capture : BitVec 64) (samples : RowSamples) : Claim where
  row := .rowArrivalPost c row capture samples
  given s := s.isEncoder c.toNat = true ∧ s.planeRuns = true ∧ (s.ch c.toNat).cfg.source ≠ 0 ∧
    s.lanePosts (s.ch c.toNat).cfg.source (s.ch c.toNat).cfg = true ∧ row.toNat < (s.ch c.toNat).cfg.rows
  gives s t := t = match s.sourceRow c.toNat row.toNat capture.toNat samples with
    | some (d, m) =>
      let u := s.keepFed c.toNat row.toNat d.data
      let v := u.takeRow c.toNat row.toNat m d
      if ((u.runningRenditions c.toNat).isEmpty || v.codesRow c.toNat || (u.ch c.toNat).reference) = true then v
      else (v.watchRow c.toNat row.toNat m d).watchedRow c.toNat row.toNat
    | none => s

/-- The next row of an SDI picture, before its last: its samples, each held to the depth of the format, go to the picture that is
arriving, which is counted one row further and is late if the row came after its latest arrival; its flag is posted, and what
waited for it goes on. A row out of order changes no more than what may go on anyway (R180, R268, R399). -/
def rowArrivalInOrder (c : BitVec 32) (row : BitVec 8) (capture : BitVec 64) (samples : RowSamples) : Claim where
  row := .rowArrivalPost c row capture samples
  given s := let g := s.ch c.toNat
    s.takesRows c.toNat = true ∧ row.toNat ≠ 0 ∧ row.toNat + 1 < g.cfg.rows ∧ handleType g.cfg.source = tLane ∧
      s.lanePosts g.cfg.source g.cfg = true ∧ g.pipe ≠ 3 ∧ g.cur.isSome = true ∧ s.renditions c.toNat = [] ∧
      g.curRows = row.toNat
  gives s t := let g := s.ch c.toNat
    let k := row.toNat
    let f := (s.lane.lanes.look {} (handleIndex g.cfg.source)).format
    let sampling := (f.map (·.sampling)).getD 1
    let depth := (f.map (·.depth)).getD 10
    let d : SourceRow := { data := Machine.RowSamples.frame samples g.cfg sampling depth k, sampling, depth,
                           same := sampling == g.cfg.chroma && depth == g.cfg.bitDepth }
    ∃ o, g.cur = some o ∧
      t = (((s.modCh c.toNat fun g => { g with
        curRows := k + 1, curLate := g.curLate || decide (g.rowDeadlineNs g.curCapture k < s.now) }).storeRow c.toNat o k d).goOn
          c.toNat)

/-- A row that is not the one expected next changes no more than what may go on anyway (R23, R325). -/
def rowArrivalOutOfOrder (c : BitVec 32) (row : BitVec 8) (capture : BitVec 64) (samples : RowSamples) : Claim where
  row := .rowArrivalPost c row capture samples
  given s := let g := s.ch c.toNat
    s.takesRows c.toNat = true ∧ row.toNat ≠ 0 ∧ row.toNat < g.cfg.rows ∧ handleType g.cfg.source = tLane ∧
      s.lanePosts g.cfg.source g.cfg = true ∧ g.pipe ≠ 3 ∧ s.renditions c.toNat = [] ∧ g.curRows ≠ row.toNat
  gives s t := t = s.goOn c.toNat

/-- A submitted picture is copied: its rows are posted in order with the capture time of the submission, its captions go with it,
and `PIC.SUBMIT` completes with the number of the slot that took it (R256). -/
def pictureCopyDone (c : BitVec 32) (luma chroma captions : List Byte) : Claim where
  row := .pictureCopyDone c luma chroma captions
  given s := (s.eci.running.find? (Running.copies c.toNat)).isSome = true
  gives s t := ∃ r, s.eci.running.find? (Running.copies c.toNat) = some r ∧
    let g := s.ch c.toNat
    let p := r.cmd.payload
    let m := if g.reference = true then s.now else u64 p 0x18
    let surf := (s.submitted g.cfg p luma chroma).1
    let bad := (s.submitted g.cfg p luma chroma).2
    let rowOf (k : Nat) : SourceRow :=
      { data := surf.frame.part surf.sampling 0 (g.cfg.lumaRows k).1 g.cfg.width ((g.cfg.lumaRows k).2 - (g.cfg.lumaRows k).1)
        sampling := surf.sampling, depth := surf.depth
        same := surf.sampling == g.cfg.chroma && surf.depth == g.cfg.bitDepth, badBlocks := if k = 0 then bad else 0 }
    let u := (List.range g.cfg.rows).foldl (fun s k => s.sourceRowIn c.toNat k m (rowOf k)) s
    t = match (u.ch c.toNat).cur with
      | some o =>
        let v := if u64 p 0x20 = 0 then u else u.modCh c.toNat fun g =>
          { g with captions := g.captions ++ [(m, some o, captionGroups (slice captions 0 (u16 p 0x28)))] }
        (v.modEci fun e => { e with running := e.running.erase r }).complete r.cmd
          { r.reply with result := (v.ch c.toNat).slotOf o % 2 ^ 32 }
      | none => (u.modEci fun e => { e with running := e.running.erase r }).complete r.cmd r.reply

/-- A generated row of a channel with a timeline comes at its scheduled capture time, and not before (R259). -/
def generatedRowAvailable (c : BitVec 32) (row : BitVec 8) : Claim where
  row := .generatedRowAvailable c row
  given s := let g := s.ch c.toNat
    s.isEncoder c.toNat = true ∧ s.planeRuns = true ∧ s.generates c.toNat = true ∧ g.cfg.source = 0 ∧
      row.toNat < g.cfg.rows ∧ g.reference = false ∧ g.anchored = true
  gives s t := let g := s.ch c.toNat
    let k := row.toNat
    let o := if k = 0 then g.wantedSlot else g.cur.getD g.wantedSlot
    t = if s.now < g.captureNs o k then s
      else s.sourceRowIn c.toNat k (g.captureNs o 0) (s.generatedRow c.toNat o k)

/-- Without a timeline, and in reference mode, a generated row comes as soon as it is made (R73, R259). -/
def generatedRowFree (c : BitVec 32) (row : BitVec 8) : Claim where
  row := .generatedRowAvailable c row
  given s := let g := s.ch c.toNat
    s.isEncoder c.toNat = true ∧ s.planeRuns = true ∧ s.generates c.toNat = true ∧ g.cfg.source = 0 ∧
      row.toNat < g.cfg.rows ∧ (g.reference = true ∨ g.anchored = false)
  gives s t := let g := s.ch c.toNat
    let k := row.toNat
    let o := if k = 0 then g.wantedSlot else g.cur.getD g.wantedSlot
    t = s.sourceRowIn c.toNat k (if k = 0 then s.now else g.curCapture) (s.generatedRow c.toNat o k)

/-- A row of a picture is composed once its raw data has come and the row before is composed: the layers of the picture over the
lines of its base; the composed row goes to analysis and coding, its flag is posted, and with the last row the picture's invalid
Welt blocks are reported (R268, R269, R277). -/
def compositionRowDone (c : BitVec 32) (pic : BitVec 64) (row : BitVec 8) : Claim where
  row := .compositionRowDone c pic row
  given s := let g := s.ch c.toNat
    s.planeRuns = true ∧ g.pics.has pic.toNat = true ∧ (g.pic pic.toNat).composes = true ∧
      g.rows.has (g.rowKey pic.toNat row.toNat) = true ∧ row.toNat < g.cfg.rows ∧
      (g.row pic.toNat row.toNat).composed = false ∧
      ((g.pic pic.toNat).kind = .slate ∨ (g.row pic.toNat row.toNat).arrived = true) ∧
      (row.toNat ≠ 0 → (g.row pic.toNat (row.toNat - 1)).composed = true)
  gives s t := let g := s.ch c.toNat
    let n := pic.toNat
    let k := row.toNat
    let p := g.pic n
    let d := s.baseRow c.toNat n k
    let f := s.composeLines g.cfg g.die p.set.colour p.layers d.data d.sampling d.depth (k * g.cfg.ctu)
    let u := (s.modCh c.toNat fun g =>
      (g.modRow n k fun r => { r with composed := true }).modPic n fun p => { p with img := p.img.append f }).feed c.toNat n k
    t = ((if k + 1 = g.cfg.rows then u.weltEvents c.toNat n else u).postRow c.toNat n k 2).goOn c.toNat

/-- The oldest commit that has not been reported is reported once its picture shows, and the buffers of the layers that it
removed are freed (R289). -/
def commitAppliedReport (c : BitVec 32) : Claim where
  row := .commitAppliedReport c
  given s := (s.ch c.toNat).state = .idle ∧ (s.comp.reports.find? fun r => r.chan == c.toNat).isSome = true
  gives s t := ∃ r, s.comp.reports.find? (fun r => r.chan == c.toNat) = some r ∧
    t = (r.freed.foldl State.unmapAt (s.modComp fun x => { x with reports := x.reports.erase r })).raise evCommitApplied
      c.toNat r.enabled r.pic

/-- Pre-analysis completes a row on a half: its pyramid and measures, and its sums, which cross to the other half of a mitre pair;
at row 0 the half's changed blocks are counted and the scene is tested; once the row is measured on every half its flag is posted;
a parent's picture that is not searched gets the field of the row for its renditions; and what waited for the row goes on (R107,
R112 to R116, R129). -/
def analysisRowDone (c : BitVec 32) (pic : BitVec 64) (row : BitVec 8) (odd : Bool) : Claim where
  row := .analysisRowDone c pic row odd
  given s := s.mayMeasure c.toNat pic.toNat row.toNat (b2n odd) = true
  gives s t := let n := pic.toNat
    let k := row.toNat
    let half := b2n odd
    let u := s.modCh c.toNat fun g => g.measureRow n k half
    let gen := ((u.ch c.toNat).row n k).generation
    let v := u.cross c.toNat half gen (.sums n k)
    let w := (if k = 0 then v.countScene c.toNat n half gen else v).rowMeasured c.toNat n k
    let x := if k = 0 ∧ ((w.ch c.toNat).pic n).flag = true then w.passFlag c.toNat ((w.ch c.toNat).pic n) else w
    t = (x.ownField c.toNat n k).proceed c.toNat

/-- A row that the unit cannot complete yet changes nothing: the row before it on the half, the row's data, or rows of other
channels that reached the unit earlier are still to be done (R106, R107). -/
def analysisRowEarly (c : BitVec 32) (pic : BitVec 64) (row : BitVec 8) (odd : Bool) : Claim where
  row := .analysisRowDone c pic row odd
  given s := s.mayMeasure c.toNat pic.toNat row.toNat (b2n odd) = false
  gives s t := t = s

/-! ### Judgements, orders, the mitre seam and fail-over state (R143 to R160, R191 to R199, R493) -/

/-- Under the channel's rate-control lock the oldest row that is neither committed nor filled is judged when its coding is complete
on every half: by the size of its substreams, which the model counts from the coding itself (R146, R155, R191, R203). -/
def rowJudgement (c : BitVec 32) : Claim where
  row := .rowJudgement c
  given s := let g := s.ch c.toNat
    s.isEncoder c.toNat = true ∧ s.planeRuns = true ∧ g.order = none ∧ s.rateHeld c.toNat = true ∧
      ∃ k, g.oldest = some k ∧ (g.pic (k / g.cfg.rows)).rated = true ∧ (g.pic (k / g.cfg.rows)).stage ≠ 3 ∧
        (g.row (k / g.cfg.rows) (k % g.cfg.rows)).restoring = false ∧
        (g.row (k / g.cfg.rows) (k % g.cfg.rows)).phase = .speculative ∧
        g.coded (g.row (k / g.cfg.rows) (k % g.cfg.rows)) = true
  gives s t := ∃ key, (s.ch c.toNat).oldest = some key ∧
    let g := s.ch c.toNat
    let n := key / g.cfg.rows
    let k := key % g.cfg.rows
    let b := (g.row n k).buf
    let bits (half : Nat) : Nat := g.rowBits n k half (b.ents.look {} half)
    let size := (g.halves.map bits).sum
    t = s.modCh c.toNat fun x => { x.modRow n k (fun r => { r with
        size := some size, sizeOdd := if x.partnerPipe.isSome = true then some (bits 1) else none
        qpSum := b.ctuQps.sum, qpCtus := b.ctuQps.length, qpMin := b.ctuQps.foldl min 0xFF, qpMax := b.ctuQps.foldl max 0 }) with
      order := some (s.decide_ c.toNat n k size) }

/-- In stage 3 the row is filled without a judgement of its size (R191, R194). -/
def rowJudgementS3 (c : BitVec 32) : Claim where
  row := .rowJudgement c
  given s := let g := s.ch c.toNat
    s.isEncoder c.toNat = true ∧ s.planeRuns = true ∧ g.order = none ∧ s.rateHeld c.toNat = true ∧
      ∃ k, g.oldest = some k ∧ (g.pic (k / g.cfg.rows)).rated = true ∧ (g.pic (k / g.cfg.rows)).stage = 3
  gives s t := let n := (s.ch c.toNat).oldest.getD 0 / (s.ch c.toNat).cfg.rows
    let i := (s.ch c.toNat).oldest.getD 0 % (s.ch c.toNat).cfg.rows
    t = (s.modCh c.toNat fun g => { g with order := some (s.decide_ c.toNat n i 0) }) ∧
      (s.decide_ c.toNat n i 0).order = .fill ∧ (s.decide_ c.toNat n i 0).nextStage = 3

/-- No judgement is made while core 0 does not hold the channel's rate-control lock, nor of a row whose coding is not complete
(R146, R203). -/
def rowJudgementNotYet (c : BitVec 32) : Claim where
  row := .rowJudgement c
  given s := let g := s.ch c.toNat
    s.rateHeld c.toNat = false ∨ g.oldest = none ∨ ∃ k, g.oldest = some k ∧ (g.pic (k / g.cfg.rows)).stage ≠ 3 ∧
      g.coded (g.row (k / g.cfg.rows) (k % g.cfg.rows)) = false
  gives s t := t = s

/-- An order for the judged row that matches the judgement is carried out before its unit's stitch deadline: a commit settles the
row at its size, and the rows that follow go on at the judgement's QP and stage (R146, R194, R201). -/
def commitOrder (c : BitVec 32) (pic : BitVec 64) (row : BitVec 8) : Claim where
  row := .commitOrder c pic row
  given s := s.deadlineWins c.toNat pic.toNat row.toNat = false ∧
    ∃ j, (s.ch c.toNat).orderFor pic.toNat row.toNat = some j ∧ j.order = .commit
  gives s t := ∃ j, (s.ch c.toNat).orderFor pic.toNat row.toNat = some j ∧
    let size := ((s.ch c.toNat).row pic.toNat row.toNat).size.getD 0
    t = ((s.modCh c.toNat fun g => g.settleRow pic.toNat row.toNat size .committed false).afterRow c.toNat pic.toNat
      row.toNat j.nextQp j.nextStage j.lowRun false).proceed c.toNat

/-- A rewind squashes the rows after the judged row and codes it again from its checkpoint at the judgement's QP (R147, R149). -/
def rewindOrder (c : BitVec 32) (pic : BitVec 64) (row : BitVec 8) : Claim where
  row := .rewindOrder c pic row
  given s := s.deadlineWins c.toNat pic.toNat row.toNat = false ∧
    ∃ j q, (s.ch c.toNat).orderFor pic.toNat row.toNat = some j ∧ j.order = .rewind q
  gives s t := ∃ j q, (s.ch c.toNat).orderFor pic.toNat row.toNat = some j ∧ j.order = .rewind q ∧
    t = (s.rewindRow c.toNat pic.toNat row.toNat q).proceed c.toNat

/-- A fill settles the row at the size of its own fill coding (R159, R198, R199). -/
def fillOrder (c : BitVec 32) (pic : BitVec 64) (row : BitVec 8) : Claim where
  row := .fillOrder c pic row
  given s := s.deadlineWins c.toNat pic.toNat row.toNat = false ∧
    ∃ j, (s.ch c.toNat).orderFor pic.toNat row.toNat = some j ∧ j.order = .fill
  gives s t := ∃ j, (s.ch c.toNat).orderFor pic.toNat row.toNat = some j ∧
    t = ((s.modCh c.toNat fun g => g.settleRow pic.toNat row.toNat (g.fillBits pic.toNat row.toNat) .filled false).afterRow
      c.toNat pic.toNat row.toNat j.nextQp j.nextStage j.lowRun true).proceed c.toNat

/-- The rows that carry an order for a row. -/
def isOrder (o : Instr) (c : BitVec 32) (pic : BitVec 64) (row : BitVec 8) : Prop :=
  o = .commitOrder c pic row ∨ o = .rewindOrder c pic row ∨ o = .fillOrder c pic row

/-- An order that names another row than the judged one is discarded and counted at the channel's die (R146). -/
def orderDiscarded (o : Instr) (c : BitVec 32) (pic : BitVec 64) (row : BitVec 8) : Claim where
  row := o
  given s := isOrder o c pic row ∧ (s.ch c.toNat).orderFor pic.toNat row.toNat = none ∧ s.isEncoder c.toNat = true ∧
    s.planeRuns = true
  gives s t := t = s.modChan fun x => { x with orderFaults := x.orderFaults.modD 0 (s.ch c.toNat).die (· + 1) }

/-- At or after the stitch deadline of the row's unit an order no longer takes effect: the deadline wins (R201). -/
def orderAfterDeadline (o : Instr) (c : BitVec 32) (pic : BitVec 64) (row : BitVec 8) : Claim where
  row := o
  given s := isOrder o c pic row ∧ ((s.ch c.toNat).orderFor pic.toNat row.toNat).isSome = true ∧
    (s.ch c.toNat).reference = false ∧
    (s.ch c.toNat).deadlineNs pic.toNat (row.toNat / (s.ch c.toNat).cfg.duRows) ≤ s.now
  gives s t := t = s

/-- The checkpoint is in place, from the side of the row's buffers that the rewind flipped away: the row may be coded, and its
flag is posted (R147, R149). -/
def checkpointRestoreDone (c : BitVec 32) : Claim where
  row := .checkpointRestoreDone c
  given s := ((s.ch c.toNat).rows.find? fun e => e.2.restoring).isSome = true
  gives s t := ∃ e, (s.ch c.toNat).rows.find? (fun e => e.2.restoring) = some e ∧
    let rows := (s.ch c.toNat).cfg.rows
    t = ((s.modCh c.toNat fun g => g.modRow (e.1 / rows) (e.1 % rows) fun r =>
      { r with restoring := false, buf := { r.buf with points := r.alt.points } }).postRow
        c.toNat (e.1 / rows) (e.1 % rows) 5).proceed c.toNat

/-- The odd die of a pair applies the even die's oldest item if it is an order: a rewind squashes at the row, whose tasks are
enqueued again, a fill after it, a squash at it; one of an older generation or token has no effect (R26, R153 to R155). -/
def partnerOrder (c : BitVec 32) : Claim where
  row := .partnerOrder c
  given s := ∃ x n k kind, ((s.ch c.toNat).crossing.find? fun x => x.half == 0) = some x ∧ x.item = .order n k kind
  gives s t := ∃ x n k kind, ((s.ch c.toNat).crossing.find? fun x => x.half == 0) = some x ∧ x.item = .order n k kind ∧
    let u := s.modCh c.toNat fun g => { g with crossing := g.crossing.erase x }
    let key := (s.ch c.toNat).rowKey n k
    let odd := (s.ch c.toNat).die + 1
    let stale := (s.boot.health.look {} ((s.ch c.toNat).dieOf 0)).token ≠ x.token ∨ x.gen < ((s.ch c.toNat).row n k).generation
    t = (if stale ∨ kind = 0 then u else if kind = 1 then u.squashRow c.toNat odd key
      else if kind = 2 then u.squashFlow c.toNat odd (key + 1) else u.squashFlow c.toNat odd key).proceed c.toNat

/-- The oldest item that a die of a pair has sent, if it is no order, arrives at the other, which keeps it; under an old token of
its sender, or of a row coding that has been squashed since, it is discarded (R26, R142, R153 to R155). -/
def seamDataArrival (c : BitVec 32) (odd : Bool) : Claim where
  row := .seamDataArrival c odd
  given s := ∃ x, ((s.ch c.toNat).crossing.find? fun x => x.half == b2n odd) = some x ∧ ∀ n k o, x.item ≠ .order n k o
  gives s t := ∃ x, ((s.ch c.toNat).crossing.find? fun x => x.half == b2n odd) = some x ∧
    let u := s.modCh c.toNat fun g => { g with crossing := g.crossing.erase x }
    t = if s.staleItem c.toNat x = true then u else (u.keepItem c.toNat x).proceed c.toNat

/-- A band, and the columns and temporal motion column, of the row's present generation are marked as there and the row's seam flag
is posted (R142, R153, R154). -/
def seamRowArrival (c : BitVec 32) (odd : Bool) (n k : Nat) (column : Bool) : Claim where
  row := .seamDataArrival c odd
  given s := ∃ x, ((s.ch c.toNat).crossing.find? fun x => x.half == b2n odd) = some x ∧
    x.item = (if column = true then .columns n k else .band n k) ∧
    x.token = (s.boot.health.look {} ((s.ch c.toNat).dieOf (b2n odd))).token ∧ ((s.ch c.toNat).row n k).generation ≤ x.gen
  gives s t := ∃ x, ((s.ch c.toNat).crossing.find? fun x => x.half == b2n odd) = some x ∧
    let u := s.modCh c.toNat fun g => { g with crossing := g.crossing.erase x }
    t = ((u.modCh c.toNat fun g => g.modRow n k fun r =>
      if column = true then { r with seamColumns := setBit r.seamColumns (b2n odd) }
      else { r with seamBand := setBit r.seamBand (b2n odd) }).postRow c.toNat n k 4).proceed c.toNat

/-- The hub receives the state after the latest picture whose rows are all settled: rate control with its look-ahead history, the
structure and references, the settings, the streams' counts and provenance chain, the timeline and the condition; the one before
is kept, and who holds the hub's keeper lock of the channel (R204, R493). -/
def failoverStateUpdate (c : BitVec 32) : Claim where
  row := .failoverStateUpdate c
  given s := let g := s.ch c.toNat
    s.planeRuns = true ∧ g.dies.any (bit s.boot.diesFenced) = false ∧
      (g.pics.filter fun e => e.2.kind != .hubFill && decide (g.cfg.rows ≤ e.2.judged) &&
        (!g.failState.valid || decide (g.failState.picSeq < e.1))) ≠ []
  gives s t := ∃ e, ((s.ch c.toNat).pics.filter fun e =>
      e.2.kind != .hubFill && decide ((s.ch c.toNat).cfg.rows ≤ e.2.judged) &&
        (!(s.ch c.toNat).failState.valid || decide ((s.ch c.toNat).failState.picSeq < e.1))).getLast? = some e ∧
    let g := s.ch c.toNat
    let phi0 := match g.pics.find (e.1 + 1) with
      | some q => if q.rated = true then q.phi0 else g.omega
      | none => g.omega
    t = s.modCh c.toNat fun g => { g with
      failPrev := g.failState, failBy := ((s.sd 8).locks.look {} (handleIndex c.toNat + 1)).owner
      failState := {
        valid := true, phi0, qpPic := e.2.qpPic, lastBits := g.lastBits, lastCpx := g.lastCpx, weights := g.weights
        picSeq := e.1, refresh := e.2.refresh, slips := g.slips, stage := e.2.highStage, poc := e.2.poc
        list0 := e.2.list0, list1 := e.2.list1, gopBase := g.gopBase, set := e.2.set
        transport := (s.net.egress.filter fun x => x.2.source == c.toNat).map fun x => (x.1, (x.2.counters, x.2.prov.prevHash))
        anchor := g.anchor, anchorPic := g.anchorPic, cond := g.inCond, repeatRun := g.repeatRun } }

/-- The fill set of a picture that has no settled row replaces the one before it of its tile: the NAL units of each decoding unit
with every row as its fill coding (R160, R493). -/
def fillSetUpdate (c : BitVec 32) (pic : BitVec 64) (tile : Fin 3) : Claim where
  row := .fillSetUpdate c pic tile
  given s := let g := s.ch c.toNat
    s.planeRuns = true ∧ g.pics.has pic.toNat = true ∧ (g.pic pic.toNat).kind ≠ .hubFill ∧
      (g.pic pic.toNat).judged = 0 ∧ g.tileList.contains tile.val = true ∧ g.dies.any (bit s.boot.diesFenced) = false
  gives s t := let g := s.ch c.toNat
    let n := pic.toNat
    let half := if tile.val = 2 then 1 else 0
    let units := (List.range g.cfg.dus).map fun j => g.duNals n j half fun k => g.fillEnt n k half
    t = s.modCh c.toNat fun g => { g with
      fillSets := (g.fillSets.filter fun f => !(f.1 == n && f.2.1 == tile.val)) ++ [(n, tile.val, units)] }

/-! ### Stitching and release (R156 to R160, R176 to R178, R201) -/

/-- A decoding unit whose stitch deadline has come, with no earlier row open and no hole of its own. -/
def deadlineDue (s : State) (h n j : Nat) : Prop :=
  s.isEncoder h = true ∧ s.planeRuns = true ∧ (s.ch h).reference = false ∧ (s.ch h).pics.has n = true ∧
    ((s.ch h).pic n).kind ≠ .hubFill ∧ j < (s.ch h).cfg.dus ∧ (s.ch h).deadlineNs n j ≤ s.now ∧
    ((s.ch h).rows.any fun e => decide (e.1 < (s.ch h).rowKey n (j * (s.ch h).cfg.duRows)) && !e.2.judged) = false ∧
    ((s.ch h).pic n).holes.contains j = false

/-- At its deadline each row of a decoding unit that is not committed becomes filled by its fill coding; the unit's release task is
cancelled, and the row flow is squashed once, at the first row after them (R158, R159, R201). -/
def stitchDeadline (c : BitVec 32) (pic : BitVec 64) (du : BitVec 8) : Claim where
  row := .stitchDeadline c pic du
  given s := deadlineDue s c.toNat pic.toNat du.toNat ∧
    ((s.ch c.toNat).cfg.duRowList du.toNat).any (fun k => !((s.ch c.toNat).row pic.toNat k).judged) = true
  gives s t := let g := s.ch c.toNat
    let n := pic.toNat
    let open_ := (g.cfg.duRowList du.toNat).filter fun k => !(g.row n k).judged
    let u := open_.foldl (fun s k =>
      let s := if ((s.ch c.toNat).pic n).rated = true then s else s.startRate c.toNat n
      let s := s.modCh c.toNat fun g => g.settleRow n k (g.fillBits n k) .filled true
      s.rowSettled c.toNat n k ((s.ch c.toNat).pic n).rowQp ((s.ch c.toNat).pic n).stage 0 true)
      (s.cancelRelease c.toNat n du.toNat)
    t = (u.squashHere c.toNat ((u.ch c.toNat).rowKey n (open_.getLastD 0 + 1))).proceed c.toNat

/-- Where every row is committed and the unit has not left, the deadline cancels its release task and leaves a hole, reported once
the picture is judged (R158, R201, R222). -/
def stitchDeadlineHole (c : BitVec 32) (pic : BitVec 64) (du : BitVec 8) : Claim where
  row := .stitchDeadline c pic du
  given s := let g := s.ch c.toNat
    deadlineDue s c.toNat pic.toNat du.toNat ∧
      (g.cfg.duRowList du.toNat).all (fun k => (g.row pic.toNat k).judged) = true ∧
      (g.cfg.duRowList du.toNat).any (fun k => (g.row pic.toNat k).phase == .filled) = false ∧
      g.tileList.all (fun t => decide (du.toNat < (g.pic pic.toNat).stitchedOf t)) = false
  gives s t := let g := s.ch c.toNat
    let u := (s.cancelRelease c.toNat pic.toNat du.toNat).modCh c.toNat fun g =>
      g.modPic pic.toNat fun p => { p with hole := true, holes := p.holes ++ [du.toNat] }
    t = if g.cfg.rows ≤ (g.pic pic.toNat).judged then u.deadlineEvent c.toNat pic.toNat else u

/-- The stitch unit of a half sends its next decoding unit, made of the row codings and slice headers, with the token of its die,
towards the hub; when the last half has sent it, its rows are released (R26, R157, R160, R168). -/
def stitchRelease (c : BitVec 32) (tile : Fin 3) : Claim where
  row := .stitchRelease c tile
  given s := let g := s.ch c.toNat
    s.planeRuns = true ∧ g.tileList.contains tile.val = true ∧ s.ringsFull c.toNat = false ∧
      ∃ n, g.stitchPic tile.val = some n ∧ g.mayStitch n ((g.pic n).stitchedOf tile.val) tile.val = true
  gives s t := let g := s.ch c.toNat
    let half := b2n (tile.val == 2)
    ∃ n, g.stitchPic tile.val = some n ∧
      let p := g.pic n
      let j := p.stitchedOf tile.val
      let rows := g.cfg.duRowList j
      let nals := g.duNals n j half fun k => (g.row n k).buf.ents.look {} half
      let u : DuRecord := {
        pic := n, du := j, tile := tile.val, first := j == 0, last := j + 1 == g.cfg.dus
        filledFrom := rows.find? fun k => (g.row n k).filled
        hole := p.holes.contains j, repeatPic := p.kind == .repeat_
        bytes := (nals.map fun b => b.length + 4).sum, token := (s.boot.health.look {} (g.die + half)).token, nals }
      t = s.modCh c.toNat fun g =>
        let g := g.modPic n fun p => if tile.val = 2 then { p with stitchedOdd := j + 1 } else { p with stitched := j + 1 }
        let g := if (g.tileList.all fun t => decide (j < (g.pic n).stitchedOf t)) = true then
            rows.foldl (fun g k => g.modRow n k fun r => { r with phase := .released }) g
          else g
        { g with inFlightDus := g.inFlightDus ++ [u] }

/-- A record reaches the hub; under an old token of its die, or after its release or its release time, it is discarded
(R26, R178). -/
def duRecordArrival (c : BitVec 32) : Claim where
  row := .duRecordArrival c
  given s := (s.ch c.toNat).inFlightDus ≠ []
  gives s t := ∃ u rest, (s.ch c.toNat).inFlightDus = u :: rest ∧
    let g := s.ch c.toNat
    let v := s.modCh c.toNat fun g => { g with inFlightDus := rest }
    t = if (s.boot.health.look {} (g.sender u.tile)).token = u.token ∧ ¬ u.pic < g.relPic ∧
          ¬ (u.pic = g.relPic ∧ u.du < g.relDu) ∧ ¬ (g.reference = false ∧ g.releaseNs u.pic u.du < s.now) then
        v.modCh c.toNat fun g => { g with hubDus := g.hubDus ++ [u] }.modPic u.pic fun p =>
          { p with duBits := p.duBits.modD 0 u.du (· + nalBits u.nals) }
      else v

/-- A channel whose next decoding unit the hub may release: it runs, and the unit's picture and index exist. -/
def mayRelease (s : State) (h : Nat) : Prop :=
  s.isEncoder h = true ∧ s.planeRuns = true ∧
    ((s.ch h).state = .starting ∨ (s.ch h).state = .running ∨ (s.ch h).state = .draining) ∧
    (s.ch h).pics.has (s.ch h).relPic = true ∧ (s.ch h).relDu < (s.ch h).cfg.dus

/-- The next decoding unit leaves the hub no earlier than its release time, if it is there or the hub makes it (R176, R178, R496). -/
def duRelease (c : BitVec 32) : Claim where
  row := .duRelease c
  given s := let g := s.ch c.toNat
    mayRelease s c.toNat ∧ (g.missingTile g.relPic g.relDu = none ∨ g.hubMakes g.relPic = true) ∧
      (g.reference = false → g.releaseNs g.relPic g.relDu ≤ s.now + 1000)
  gives s t := t = s.releaseDu c.toNat (s.ch c.toNat).relPic (s.ch c.toNat).relDu

/-- Before its release time a decoding unit stays at the hub (R176). -/
def duReleaseEarly (c : BitVec 32) : Claim where
  row := .duRelease c
  given s := let g := s.ch c.toNat
    g.reference = false ∧ s.now + 1000 < g.releaseNs g.relPic g.relDu
  gives s t := t = s

/-- A decoding unit that is absent at its release time faults the die that owes it, with cause 5; where the hub then makes what is
missing, the unit leaves (R178, R496). -/
def duReleaseAbsent (c : BitVec 32) : Claim where
  row := .duRelease c
  given s := let g := s.ch c.toNat
    mayRelease s c.toNat ∧ g.reference = false ∧ g.hubMakes g.relPic = false ∧ g.releaseNs g.relPic g.relDu ≤ s.now ∧
      (g.missingTile g.relPic g.relDu).isSome = true
  gives s t := ∃ x, (s.ch c.toNat).missingTile (s.ch c.toNat).relPic (s.ch c.toNat).relDu = some x ∧
    let g := s.ch c.toNat
    let u := s.dieFault (g.sender x) 5
    t = if ((u.ch c.toNat).pics.has g.relPic && (u.ch c.toNat).hubMakes g.relPic) = true then
        u.releaseDu c.toNat g.relPic g.relDu
      else u

/-- What a release does to the unit itself: its NAL units, from the records that have reached the hub or made by the hub, join the
access unit and are counted; after a unit that is not the picture's last the next one is due. The channel feeds no stream here;
the ports go on sending (R157, R176). -/
def duReleaseJoins (c : BitVec 32) : Claim where
  row := .duRelease c
  given s := let g := s.ch c.toNat
    mayRelease s c.toNat ∧ g.missingTile g.relPic g.relDu = none ∧ g.relDu ≠ 0 ∧ g.relDu + 1 ≠ g.cfg.dus ∧
      s.streamsOf c.toNat = [] ∧ (g.reference = false → g.releaseNs g.relPic g.relDu ≤ s.now + 1000)
  gives s t := let g := s.ch c.toNat
    let nals := g.joined g.relPic g.relDu
    t = ((s.modCh c.toNat fun x => { x with
        au := x.au ++ nals
        auFilled := x.auFilled || (g.tileList.filterMap fun t => g.hubDus.find? fun u =>
          u.pic == g.relPic && u.du == g.relDu && u.tile == t).any (·.filledFrom.isSome)
        relDu := g.relDu + 1 }).modCh c.toNat fun x => x.modPic g.relPic fun p =>
          { p with released := g.relDu + 1, bytes := p.bytes + nalBits nals / 8 }).sendAll

/-! ### What happens at the schedulers (R210 to R236) -/

/-- A descriptor with reserved bits set, or of a class that does not exist, is not enqueued: it counts as a fault of a hardware
producer; firmware and the host are answered `E_BAD_PARAM` (R210, R211). -/
def descriptorRefused (k : SchedNo) (a : AgentId) (d : Descriptor) : Claim where
  row := .descriptorEnqueue k a d
  given s := s.schedRuns k.val = true ∧ descriptorOk d = false
  gives s t := t = s.modSd k.val fun g =>
    if a.toNat = 0xFFF then { g with answers := g.answers ++ [(.eBadParam, 0)] } else { g with faults := g.faults + 1 }

/-- A descriptor that no bound holds back is enqueued (R210, R211, R234). -/
def descriptorEnqueue (k : SchedNo) (a : AgentId) (d : Descriptor) : Claim where
  row := .descriptorEnqueue k a d
  given s := s.schedRuns k.val = true ∧ descriptorOk d = true ∧ (s.sd k.val).bpBound (taskOf d).1 = none
  gives s t := t = (s.enqueue k.val (taskOf d).1 (taskOf d).2).afterSched k.val

/-- A producer that a bound holds back stalls, and the stall is counted and traced; firmware and the host are answered `E_BUSY` with
a hint when to try again, and do not stall (R211, R234, R235). -/
def descriptorHeld (k : SchedNo) (a : AgentId) (d : Descriptor) : Claim where
  row := .descriptorEnqueue k a d
  given s := s.schedRuns k.val = true ∧ descriptorOk d = true ∧ (s.sd k.val).passed (taskOf d).1 = false ∧
    ((s.sd k.val).bpBound (taskOf d).1).isSome = true
  gives s t := ∃ b, (s.sd k.val).bpBound (taskOf d).1 = some b ∧
    let x : TraceEvent := { type := 8, agent := a.toNat, prio := (taskOf d).1.prio, flow := d.flow.toNat, seq := d.seq.toNat
                            detail := b, cls := some (taskOf d).1.cls }
    let u := (s.modSd k.val fun g => { g with bpEvents := g.bpEvents + 1 }).trace k.val x
    t = if a.toNat = 0xFFF then
        (u.modSd k.val fun g => { g with answers := g.answers ++ [(.eBusy, (u.sd k.val).retryHint u.now)] }).trace k.val { x with type := 9 }
      else u.modSd k.val fun g => { g with
        stalled := g.stalled ++ [{ producer := a.toNat, bound := b, task := some (taskOf d) }] }

/-- When a bound clears, the producer held longest that can go on enqueues its descriptor (R235). -/
def backpressureEnd (k : SchedNo) : Claim where
  row := .backpressureEnd k
  given s := s.schedRuns k.val = true ∧
    ∃ x y, s.firstFree k.val (s.sd k.val).stalled = some x ∧ x.task = some y
  gives s t := ∃ x y, s.firstFree k.val (s.sd k.val).stalled = some x ∧ x.task = some y ∧
    let u := (s.modSd k.val fun d => { d with stalled := d.stalled.erase x }).trace k.val
      { type := 9, agent := x.producer, prio := y.1.prio, flow := y.1.flow, seq := y.1.seq, detail := x.bound
        cls := some y.1.cls }
    t = (u.enqueue k.val y.1 y.2).afterSched k.val

/-- A task post reaches the flags of the live task it names; one that names another generation is stale (R214). -/
def taskPost (k : SchedNo) (task : BitVec 16) (b : BitVec 32) : Claim where
  row := .taskPost k task b
  given s := s.schedRuns k.val = true
  gives s t :=
    let i := task.toNat % 2048
    let live := ((s.sd k.val).tasks.find i).any fun x => x.gen == task.toNat / 2048
    let u := if live = true then
        s.modSd k.val fun d => { d with tasks := d.tasks.mapV fun j x => if j = i then { x with flags := x.flags ||| b.toNat } else x }
      else s.modSd k.val fun d => { d with stale := d.stale + 1 }
    t = (u.settleSd k.val).afterSched k.val

/-- A sequence post within the window of an ordered flow is latched for its sequence number, and reaches the flags of the
number's tasks (R215). -/
def sequencePost (k : SchedNo) (flow : BitVec 12) (q : BitVec 24) (b : BitVec 32) : Claim where
  row := .sequencePost k flow q b
  given s := s.schedRuns k.val = true ∧ ∃ f, (s.sd k.val).flows.find flow.toNat = some f ∧ f.kind = 0 ∧
    seqAfter f.head q.toNat = true ∧ seqDist f.head q.toNat ≤ 255
  gives s t :=
    let u := s.modSd k.val fun d => { d with
      flows := d.flows.upd flow.toNat fun f => { f with
        latched := f.latched.put q.toNat (f.latched.look 0 q.toNat ||| b.toNat) } }
    t = ((u.orFlags k.val (fun _ x => x.flow == flow.toNat && x.seq == q.toNat) b.toNat).settleSd k.val).afterSched k.val

/-- A sequence post before the head of its flow is stale; one beyond the window waits (R215, R234). -/
def sequencePostStale (k : SchedNo) (flow : BitVec 12) (q : BitVec 24) (b : BitVec 32) : Claim where
  row := .sequencePost k flow q b
  given s := s.schedRuns k.val = true ∧ ∃ f, (s.sd k.val).flows.find flow.toNat = some f ∧ f.kind = 0 ∧
    seqAfter f.head q.toNat = false
  gives s t := t = ((s.modSd k.val fun d => { d with stale := d.stale + 1 }).settleSd k.val).afterSched k.val

def sequencePostWaits (k : SchedNo) (flow : BitVec 12) (q : BitVec 24) (b : BitVec 32) : Claim where
  row := .sequencePost k flow q b
  given s := s.schedRuns k.val = true ∧ ∃ f, (s.sd k.val).flows.find flow.toNat = some f ∧ f.kind = 0 ∧
    seqAfter f.head q.toNat = true ∧ 255 < seqDist f.head q.toNat
  gives s t :=
    let x : Stalled := { producer := 0xFFF, bound := 3, post := (flow.toNat, q.toNat, b.toNat) }
    t = ((s.modSd k.val fun d => { d with bpEvents := d.bpEvents + 1 }).trace k.val
      { type := 8, agent := 0xFFF, flow := flow.toNat, seq := q.toNat, detail := 3 }).modSd k.val fun d => { d with stalled := d.stalled ++ [x] }

/-- A flow post reaches the flags of every live task of an open flow (R215). -/
def flowPost (k : SchedNo) (flow : BitVec 12) (b : BitVec 32) : Claim where
  row := .flowPost k flow b
  given s := s.schedRuns k.val = true ∧ (s.sd k.val).flows.has flow.toNat = true
  gives s t := t = ((s.modSd k.val fun d => { d with tasks := d.tasks.mapV fun _ x =>
    if x.flow = flow.toNat then { x with flags := x.flags ||| b.toNat } else x }).settleSd k.val).afterSched k.val

/-- An idle agent that exists, is not fenced and is not held by self-test takes the best of the ready tasks it may take: by
priority, then ready time, then index; it holds the task's lock (R216, R217). -/
def taskDispatch (k : SchedNo) (a : AgentId) : Claim where
  row := .taskDispatch k a
  given s := s.schedRuns k.val = true ∧ agentExists k.val a.toNat = true ∧ a.toNat / 512 < 6 ∧
    (s.fencedAgents k.val).contains a.toNat = false ∧ s.selfTestHeld k.val a.toNat = false ∧
    (s.sd k.val).busy a.toNat = false ∧ (bestTask (s.eligible k.val a.toNat)).isSome = true
  gives s t := ∃ i x, bestTask (s.eligible k.val a.toNat) = some (i, x) ∧
    let y := { x with agent := some a.toNat, started := s.now, rowGen := s.rowGeneration k.val x }
    let u := s.modSd k.val fun d => { d with
      tasks := d.tasks.put i y, dispatched := d.dispatched + 1
      locks := match x.lock with
        | some l => d.locks.upd l fun g => { g with owner := some (a.toNat, taskIdOf i x.gen) }
        | none => d.locks }
    t = (u.trace k.val (y.event i 1 0)).afterSched k.val

/-- An agent that is busy takes nothing (R216). -/
def taskDispatchBusy (k : SchedNo) (a : AgentId) : Claim where
  row := .taskDispatch k a
  given s := s.schedRuns k.val = true ∧ (s.sd k.val).busy a.toNat = true
  gives s t := t = s.afterSched k.val

/-- The agent that runs a task reports its completion (R221); with the last task of its stage the stage of its row has ended
(R142, R143). A completion that names no live task is stale and is traced (R212). -/
def taskComplete (k : SchedNo) (a : AgentId) (task : BitVec 16) : Claim where
  row := .taskComplete k a task
  given s := s.schedRuns k.val = true ∧ ∃ x, (s.sd k.val).tasks.find (task.toNat % 2048) = some x ∧
    x.gen = task.toNat / 2048 ∧ x.agent = some a.toNat
  gives s t := ∃ x, (s.sd k.val).tasks.find (task.toNat % 2048) = some x ∧
    t = ((((s.finishTask k.val (task.toNat % 2048) x .done).noteOccupancy k.val).settleSd k.val).taskDone k.val x).afterSched k.val

/-- A cancelled task's agent reports: its slot is free, its lock is released, and what it wrote lies in the side of the row's buffers
that was flipped away (R148, R212, R227). -/
def taskCompleteLate (k : SchedNo) (a : AgentId) (task : BitVec 16) : Claim where
  row := .taskComplete k a task
  given s := s.schedRuns k.val = true ∧ (s.sd k.val).tasks.find (task.toNat % 2048) = none ∧
    ∃ g, (s.sd k.val).held.find (task.toNat % 2048) = some g ∧ g.gen = task.toNat / 2048 ∧ g.agent = a.toNat
  gives s t := ∃ g, (s.sd k.val).held.find (task.toNat % 2048) = some g ∧
    t = ((((s.reportHeld k.val (task.toNat % 2048) g).noteOccupancy k.val).settleSd k.val).lateWrite k.val g).afterSched k.val

def taskCompleteStale (k : SchedNo) (a : AgentId) (task : BitVec 16) : Claim where
  row := .taskComplete k a task
  given s := s.schedRuns k.val = true ∧ (s.sd k.val).tasks.find (task.toNat % 2048) = none ∧
    (s.sd k.val).held.find (task.toNat % 2048) = none
  gives s t := t = ((((s.modSd k.val fun d => { d with stale := d.stale + 1 }).trace k.val
    { type := 2, agent := a.toNat, task := task.toNat, detail := 6 }).noteOccupancy k.val).settleSd k.val).afterSched k.val

/-- A live task is cancelled (R224); a name that is not live is stale (R212). -/
def taskCancel (k : SchedNo) (task : BitVec 16) : Claim where
  row := .taskCancel k task
  given s := s.schedRuns k.val = true
  gives s t :=
    let i := task.toNat % 2048
    let live := ((s.sd k.val).tasks.find i).any fun x => x.gen == task.toNat / 2048
    t = (if live = true then s.cancelTask k.val i false
      else s.modSd k.val fun d => { d with stale := d.stale + 1 }).afterSched k.val

/-- A squash withdraws every task of the flow at or after its sequence number, counts them, and leaves a squash record (R225). -/
noncomputable def flowSquash (k : SchedNo) (flow : BitVec 12) (q : BitVec 24) : Claim where
  row := .flowSquash k flow q
  given s := s.schedRuns k.val = true ∧ (s.sd k.val).flows.has flow.toNat = true
  gives s t :=
    let hit := ((s.sd k.val).tasks.sel fun _ x => x.flow == flow.toNat && seqAfter q.toNat x.seq).map (·.1)
    let u := hit.foldl (fun s i => s.withdraw k.val i)
      (s.trace k.val { type := 4, flow := flow.toNat, seq := q.toNat, detail := min 255 hit.length })
    let v := u.modSd k.val fun d => { d with
      cancelled := d.cancelled + hit.length, squashes := d.squashes + 1
      flows := d.flows.upd flow.toNat fun f => { f with
        ends := f.ends.filter (fun e => !seqAfter q.toNat e), remember := f.remember.sel (fun e _ => !seqAfter q.toNat e)
        delivered := f.delivered ++ [(q.toNat, .squash)] } }
    t = ((v.noteOccupancy k.val).settleSd k.val).afterSched k.val

/-- The tasks with a cancelling deadline that has been reached, and that no agent runs, expire; no other does (R219). -/
def deadlineExpiry (k : SchedNo) : Claim where
  row := .deadlineExpiry k
  given s := s.schedRuns k.val = true
  gives s t :=
    let hit := ((s.sd k.val).tasks.filter fun e => e.2.dlCancel && e.2.agent.isNone && s.reached e.2.deadline).map (·.1)
    t = (hit.foldl (fun s i => s.cancelTask k.val i true) s).afterSched k.val

/-- A controller or external agent asks for a lock: it joins those that wait for it, and a free lock is granted (R228). -/
def directLockAcquire (k : SchedNo) (a : AgentId) (l : BitVec 8) : Claim where
  row := .directLockAcquire k a l
  given s := s.schedRuns k.val = true ∧ directAgent k.val a.toNat = true ∧
    ((s.sd k.val).locks.look {} l.toNat).owner ≠ some (a.toNat, 0) ∧
    ((s.sd k.val).locks.look {} l.toNat).direct.any (·.agent == a.toNat) = false
  gives s t :=
    let u := s.modSd k.val fun d => { d with
      clock := d.clock + 1
      locks := d.locks.modD {} l.toNat fun g => { g with direct := g.direct ++ [{ agent := a.toNat, order := d.clock + 1 }] } }
    t = (u.settleSd k.val).afterSched k.val

/-- The holder of a lock releases it; another agent's release changes nothing (R228). -/
noncomputable def directLockRelease (k : SchedNo) (a : AgentId) (l : BitVec 8) : Claim where
  row := .directLockRelease k a l
  given s := s.schedRuns k.val = true
  gives s t := t = if ((s.sd k.val).locks.look {} l.toNat).owner = some (a.toNat, 0) then
      ((s.releaseLock k.val l.toNat { type := 6, agent := a.toNat, detail := l.toNat, direct := true }).settleSd
        k.val).afterSched k.val
    else s

/-- A task that outlasts the watchdog of its class is aborted: its agent's abort is counted, its row goes back, its arbiter port
is freed, and the third abort within 1 s fences the agent; the abort of a controller's task faults its die with cause 1
(R231 to R233, R429, R492). Watchdogs pause while the die's DRAM changes its operating point (R420). -/
def taskWatchdog (k : SchedNo) (a : AgentId) : Claim where
  row := .taskWatchdog k a
  given s := s.schedRuns k.val = true ∧ (s.mem.dies.look {} k.val).changing = none ∧ ∃ e, (s.sd k.val).tasks.find? (fun e =>
    e.2.agent == some a.toNat && decide (e.2.started + watchdogNs e.2.cls < s.now)) = some e
  gives s t := ∃ e, (s.sd k.val).tasks.find? (fun e =>
      e.2.agent == some a.toNat && decide (e.2.started + watchdogNs e.2.cls < s.now)) = some e ∧
    let u := s.finishTask k.val e.1 e.2 .aborted
    let v := (u.noteAbort k.val a.toNat (taskIdOf e.1 e.2.gen)).rowAborted k.val e.2
    let w := ((v.freePort k.val a.toNat).noteOccupancy k.val).settleSd k.val
    let x := (w.fenceAgent k.val a.toNat).afterSched k.val
    t = if k.val ≠ 8 ∧ a.toNat / 512 = 5 then x.dieFault k.val 1 else x

/-- An agent within its class's time is left alone (R231). -/
def taskWatchdogInTime (k : SchedNo) (a : AgentId) : Claim where
  row := .taskWatchdog k a
  given s := ((s.sd k.val).tasks.all fun e => !(e.2.agent == some a.toNat && decide (e.2.started + watchdogNs e.2.cls < s.now))) = true ∧
    ((s.sd k.val).held.all fun e => !(e.2.agent == a.toNat && decide (e.2.started + watchdogNs e.2.cls < s.now))) = true
  gives s t := t = s

/-! ### Frames received and sent (R321 to R358, R396, R432) -/

/-- A port without a line test receives a frame: the errors of its lane have been counted (R396, R408). -/
def received (i : Fin 18) (f : RxFrame) (s : State) : State :=
  s.laneErrors (s.portLane i.val) f.codeErr.toNat f.fecCorr.toNat f.fecUncorr.toNat

/-- The port is up, without a line test, and the frame came whole (R321, R396, R408). -/
def whole (i : Fin 18) (f : RxFrame) (s : State) : Prop :=
  s.portUp i.val = true ∧ (s.ln (s.portLane i.val)).test = 0 ∧ f.badFcs = false ∧ f.fecUncorr = 0 ∧ f.bytes.toNat ≤ 9022 ∧
    f.fecOrRtcp = false

/-- A frame with a bad check sequence, or spoilt by a codeword, is counted at port and lane and dropped; so is an oversize one,
and FEC and RTCP (R321, R396). -/
def ingressBad (i : Fin 18) (f : RxFrame) : Claim where
  row := .ingressPacket i f
  given s := s.portUp i.val = true ∧ (s.ln (s.portLane i.val)).test = 0 ∧
    (f.badFcs = true ∨ f.fecUncorr ≠ 0 ∨ 9022 < f.bytes.toNat ∨ f.fecOrRtcp = true)
  gives s t := let u := received i f s
    t = if f.badFcs = true ∨ f.fecUncorr ≠ 0 then
        (u.modNp i.val fun p => { p with badFcs := p.badFcs + 1 }).modLn (s.portLane i.val) fun l =>
          { l with crcErr := l.crcErr + 1 }
      else if 9022 < f.bytes.toNat then u.modNp i.val fun p => { p with oversize := p.oversize + 1 }
      else u.modNp i.val fun p => { p with fecDropped := p.fecDropped + 1 }

/-- A whole frame that no stream matches, that is not management traffic and that no policer of its port judges is counted as
unmatched (R321, R323). -/
def ingressUnmatched (i : Fin 18) (f : RxFrame) : Claim where
  row := .ingressPacket i f
  given s := whole i f s ∧ (received i f s).ingressMatches i.val f = [] ∧ f.management = false ∧ f.exempt = false ∧
    ((received i f s).net.policers.find? fun e => e.2.target == mkHandle tPort 0xFF i.val) = none
  gives s t := t = (received i f s).modNp i.val fun p => { p with unmatched := p.unmatched + 1 }

/-- Management traffic, which no policer judges, and what a class exempts is not counted as unmatched where it is management's
(R321, R352). -/
def ingressExempt (i : Fin 18) (f : RxFrame) : Claim where
  row := .ingressPacket i f
  given s := whole i f s ∧ (received i f s).ingressMatches i.val f = [] ∧ f.exempt = true
  gives s t := t = if f.management = true then received i f s
    else (received i f s).modNp i.val fun p => { p with unmatched := p.unmatched + 1 }

/-- A packet of a stream with a bad checksum is counted at the stream and dropped (R321). -/
def ingressBadChecksum (i : Fin 18) (f : RxFrame) : Claim where
  row := .ingressPacket i f
  given s := whole i f s ∧ f.overShare = false ∧ f.badChecksum = true ∧
    ∃ e, (received i f s).ingressMatches i.val f = [e]
  gives s t := ∃ e, (received i f s).ingressMatches i.val f = [e] ∧
    t = (received i f s).modIng e.1 fun g => { g with checksumDrops := g.checksumDrops + 1 }

/-- A packet that a stream matches and no policer judges is taken; above the ingress share it is dropped at the port (R325,
R352, R432). -/
def ingressPacket (i : Fin 18) (f : RxFrame) : Claim where
  row := .ingressPacket i f
  given s := whole i f s ∧ f.badChecksum = false ∧ ∃ e, (received i f s).ingressMatches i.val f = [e] ∧
    ((received i f s).net.policers.find? fun p => p.2.target == e.1) = none
  gives s t := ∃ e, (received i f s).ingressMatches i.val f = [e] ∧
    t = if f.overShare = true then (received i f s).dropIngress i.val else (received i f s).ingressTake e.1 e.2 f

/-- A policer with credit lets a packet through and pays its wire bytes (R352). -/
def ingressPoliced (i : Fin 18) (f : RxFrame) : Claim where
  row := .ingressPacket i f
  given s := whole i f s ∧ f.badChecksum = false ∧ f.overShare = false ∧
    ∃ e q g, (received i f s).ingressMatches i.val f = [e] ∧
      (received i f s).net.policers.find? (fun p => p.2.target == e.1) = some (q, g) ∧ 0 ≤ g.tokens
  gives s t := ∃ e q g, (received i f s).ingressMatches i.val f = [e] ∧
    (received i f s).net.policers.find? (fun p => p.2.target == e.1) = some (q, g) ∧
    t = ((received i f s).modNet fun n => { n with policers := n.policers.upd q fun g =>
      { g with tokens := g.tokens - wireTokens f.bytes.toNat } }).ingressTake e.1 e.2 f

/-- A packet of several streams is judged and taken by each of them (R323). -/
def ingressShared (i : Fin 18) (f : RxFrame) : Claim where
  row := .ingressPacket i f
  given s := whole i f s ∧ f.overShare = false ∧ (received i f s).ingressMatches i.val f ≠ []
  gives s t := t = ((received i f s).ingressMatches i.val f).foldl (fun s e => s.ingressFrame f e.1 e.2) (received i f s)

/-- Missing packets whose time has come are lost, what waited behind them goes on, and the loss is reported at most once per second
(R325, R327). -/
def packetLossDeclare (g : BitVec 32) : Claim where
  row := .packetLossDeclare g
  given s := ((s.ing g.toNat).missing.any fun m => decide (m.2 ≤ s.now)) = true
  gives s t :=
    let x := s.ing g.toNat
    let k := (x.missing.filter fun m => decide (m.2 ≤ s.now)).length
    let due : Bool := x.lastLoss.all fun l => decide (l + 1000000000 ≤ s.now)
    let u := (s.modIng g.toNat fun y => { y with
      missing := y.missing.filter (fun m => decide (s.now < m.2)), lost := y.lost + k
      lossSince := if due = true then 0 else x.lossSince + k
      lastLoss := if due = true then some s.now else y.lastLoss }).handOnAll g.toNat 70000
    t = if due = true then u.raise evIngressLoss g.toNat (x.lossSince + k) else u

/-- A path without a packet for 100 ms goes down; one that has delivered for 100 ms comes up (R326). -/
def pathDownTimeout (g : BitVec 32) (i : Fin 2) : Claim where
  row := .pathDownTimeout g i
  given s := s.net.ingress.has g.toNat = true ∧ (s.path g.toNat i.val).up = true ∧
    ((s.path g.toNat i.val).last.all fun l => decide (l + 100000000 ≤ s.now)) = true
  gives s t := t = (s.modPath g.toNat i.val fun p => { p with up := false, runSince := none }).raise evIngressPath
    g.toNat i.val

def pathUp (g : BitVec 32) (i : Fin 2) : Claim where
  row := .pathUp g i
  given s := (s.path g.toNat i.val).up = false ∧
    ((s.path g.toNat i.val).last.any fun l => decide (s.now < l + 100000000)) = true ∧
    ((s.path g.toNat i.val).runSince.any fun r => decide (r + 100000000 ≤ s.now)) = true
  gives s t := t = (s.modPath g.toNat i.val fun p => { p with up := true, runSince := none }).raise evIngressPath
    g.toNat (i.val + 256)

/-- A line of an SDI input that is not up, or under a line test, is not taken (R394, R399, R408). -/
def sdiLineDown (l : Fin 16) (x : SdiLine) : Claim where
  row := .sdiLineReceive l x
  given s := (s.ln (64 + l.val)).up = false ∨ (s.ln (64 + l.val)).test ≠ 0
  gives s t := t = s

/-- A line of an input that is up is taken, as of the picture whose first line came when it began, and goes out in the streams that
the input feeds (R333, R399). -/
def sdiLineReceive (l : Fin 16) (x : SdiLine) : Claim where
  row := .sdiLineReceive l x
  given s := (s.ln (64 + l.val)).up = true ∧ (s.ln (64 + l.val)).test = 0
  gives s t :=
    let u := s.modLn (64 + l.val) fun y =>
      { y with picTime := if y.inPicture = true then y.picTime else s.now, inPicture := x.format.isNone }
    t = ((u.sdiLine l x).sdiEgress (64 + l.val) x).sendAll

/-- The oldest closed segment's manifest is signed with the provenance key, and the next one is chained to it; it goes out of band to
the collector and in band as the stream's carriage says, in band not where the stream has nothing more to send (R337, R338, R340). -/
def manifestSigned (g : BitVec 32) : Claim where
  row := .manifestSigned g
  given s := s.boot.sec.spUp = true ∧ (s.eg g.toNat).prov.toSign ≠ []
  gives s t := ∃ x rest, (s.eg g.toNat).prov.toSign = x :: rest ∧
    let body := s.manifestBody g.toNat x
    let m := body ++ s.signPk body
    let e := s.eg g.toNat
    let u := s.modEg g.toNat fun e => { e with signed := e.signed + 1, prov := { e.prov with
      toSign := rest, manifest := m
      prevHash := if e.prov.segment = 0 then e.prov.prevHash else sha3 m } }
    let v := if bit (u8 e.prov.payload 1) 1 = true then u.sendOutOfBand g.toNat x.number m else u
    let w := if bit (u8 e.prov.payload 1) 0 = false then v
      else if e.ending = true ∧ e.queue = [] ∧ e.tsQueue = [] then
        v.modEg g.toNat fun e => { e with droppedInBand := e.droppedInBand + 1 }
      else v.carryInBand g.toNat x.number m
    t = w.sendAll.endStream g.toNat

/-- While the security processor restarts, no manifest is signed (R492). -/
def manifestWaits (g : BitVec 32) : Claim where
  row := .manifestSigned g
  given s := s.boot.sec.spUp = false
  gives s t := t = s

/-- A refill tick comes each 100 ns: sets for it apply, each bucket gains what its rate gives in 100 ns up to its burst, and the
ports go on sending (R344 to R348, R352). -/
def refillTick : Claim where
  row := .refillTick
  given s := (s.net.tick + 1) * 100 ≤ s.now
  gives s t :=
    let u := (s.modNet fun n => { n with tick := n.tick + 1 }).applyStaged none fun x => x.kind == .refill
    let v := u.modNet fun n => { n with policers := n.policers.mapV fun _ g =>
      { g with tokens := min (g.burst * 65536 : Nat) (g.tokens + tickTokens g.rate) } }
    let w := v.net.shapers.keys.foldl (fun s k => s.refillShaper (k / 8) (k % 8)) v
    t = (w.net.egress.keys.foldl State.refillPacer w).sendAll

/-- The frame on the wire has left, at its end: the wire is free and the next frame is selected (R346). -/
def frameTxEnd (i : Fin 18) : Claim where
  row := .frameTxEnd i
  given s := ∃ f, (s.np i.val).wire = some f ∧ (s.np i.val).wireEnd ≤ s.now
  gives s t := ∃ f, (s.np i.val).wire = some f ∧
    t = ((s.modNp i.val fun p => { p with wire := none }).trySend i.val).endStream f.stream

/-- Before its end the frame stays on the wire (R346). -/
def frameTxBusy (i : Fin 18) : Claim where
  row := .frameTxEnd i
  given s := s.now < (s.np i.val).wireEnd
  gives s t := t = s

/-- The entry of the gate list's present time is in force (R349, R350). -/
noncomputable def gateEntryChange (i : Fin 18) : Claim where
  row := .gateEntryChange i
  given s := (s.np i.val).gates.isSome = true
  gives s t := ∃ l, (s.np i.val).gates = some l ∧
    t = (s.modNp i.val fun p => { p with
      entry := spanIndex (gateSpans l.payload) (l.into s.now) }).trySend i.val

/-- A pending gate list starts at its time, with `EV_GATELIST_APPLIED`; an empty one ends gating (R351). -/
def gatelistStart (i : Fin 18) : Claim where
  row := .gatelistStart i
  given s := ∃ l, (s.np i.val).gatesNext = some l ∧ l.start ≤ s.now
  gives s t := ∃ l, (s.np i.val).gatesNext = some l ∧
    let h := mkHandle tGateList 0xFF i.val
    let u := s.modNp i.val fun p => { p with
      gates := if u16 l.payload 0x0C = 0 then none else some l, gatesNext := none, entry := 0 }
    t = (u.raiseTo (u.ownerOf h) { code := evGatelistApplied.1, severity := evGatelistApplied.2, handle := h, time := l.start
                                   detail := u16 l.payload 0x0C }).trySend i.val

/-- A PTP message that its port may send enters class 7, an answer with the message it answers, and the port sends (R356, R369,
R371). -/
def ptpSendTrigger (i : Fin 16) (m : PtpSend) : Claim where
  row := .ptpSendTrigger i m
  given s := s.boot.held = false ∧ bit s.time.ptp.portMask i.val = true ∧
    (s.ptpPort i.val).maySend s.time.ptp m = true
  gives s t :=
    let ref := (((s.ptpPort i.val).due.find? fun d => d.1 == m).map (·.2)).getD 0
    t = ((s.modPtp i.val fun q => { q with due := q.due.erase (m, ref) }).enqueueFrame i.val
      { cls := 7, bytes := ptpBytes m, ptp := some (m, ref) }).trySend i.val

/-! ### Lanes (R388 to R401, R409) -/

/-- The wake time is over: the transmitter leaves low-power idle and sends (R392). -/
noncomputable def lpiWakeExpiry (l : Fin 16) : Claim where
  row := .lpiWakeExpiry l
  given s := (s.ln l.val).lpiTx = true ∧ (s.ln l.val).waking = true
  gives s t := t = (s.modLn l.val fun x => { x with lpiTx := false, waking := false }).trySend l.val

/-- An SDI receiver that locks to a rate clears its loss detectors, and a format is to be found anew; a fractional rate has bit 7 set
(R398). -/
def sdiRateLock (l : Fin 16) (r : Fin 5) (f : Bool) : Claim where
  row := .sdiRateLock l r f
  given s := (s.ln (s.quadLane (64 + l.val))).mode ≠ 0
  gives s t := t = (s.modLn (64 + l.val) fun x => { x with
    rate := r.val + (if f = true then 128 else 0), found := false, candidate := none }).clearCauses (64 + l.val) 0x1F

/-- Detectors of a port that rise take its lane down; those of signal, lock and block that fall clear (R393, R394). -/
def laneDetectorAssert (l : Fin 104) (v : BitVec 5) : Claim where
  row := .laneDetectorAssert l v
  given s := s.isHardware (laneHandle l.val) = true ∧ (isSdiIn l.val = true ∨
    isPcie (s.portLane l.val) = false ∧ isSdiOut (s.portLane l.val) = false)
  gives s t :=
    let i := if isSdiIn l.val = true then l.val else s.portLane l.val
    let g := s.ln i
    let rises (b : Nat) : Bool := v.getLsbD b && !bit g.causes b
    let falls (b : Nat) : Bool := b < 3 && !v.getLsbD b && bit g.causes b
    let u := if (List.range 5).any rises = true then s.assertCauses i v.toNat else s
    let falling := ((List.range 5).filter fun b => falls b).foldl setBit 0
    t = if falling = 0 then u else u.clearCauses i falling

/-- A lane whose detectors have been clear for 1 ms comes up with `EV_LANE_UP`, of an SDI input with its link rate and a new start of
its audio clock, and a `LANE.TRAIN` that waits completes (R370, R394, R409). -/
def laneUpTimer (l : Fin 104) : Claim where
  row := .laneUpTimer l
  given s := (s.ln l.val).up = false ∧ (s.ln l.val).causes = 0 ∧ (s.ln (s.firstLane l.val)).mode ≠ 0 ∧
    ∃ c, (s.ln l.val).clearSince = some c ∧ c + 1000000 ≤ s.now
  gives s t :=
    let x := s.ln l.val
    let u := (s.modLn l.val fun x => { x with up := true, attempt := false, clearSince := none }).modTime fun y =>
      { y with ports := y.ports.upd l.val fun p => { p with latencyMeasured := true } }
    let v := if isSdiIn l.val = true then u.modAudio fun a => { a with te := a.te.del (laneHandle l.val) } else u
    let mode := if isSdiIn l.val = true then x.rate else x.mode
    t = (v.raise evLaneUp (laneHandle (v.firstLane l.val)) (mode + x.fecUsed * 256)).trainDone l.val {}

/-- Auto-negotiation resolves the FEC, which is RS(544,514) from 50 Gb/s on and else one that the mode and the setting allow; without
training the mode runs (R386, R388). -/
def autonegDone (l : Fin 18) (f : Fin 4) : Claim where
  row := .autonegDone l f
  given s := (s.ln l.val).attempt = true ∧ (s.ln l.val).an = true
  gives s t :=
    let x := s.ln l.val
    let u := s.modLn l.val fun x => { x with
      fecUsed := if 3 ≤ x.mode ∧ x.mode ≤ 6 then 3 else if x.allowsFec f.val = true then f.val else 0 }
    t = if x.train = true ∧ x.mode ≤ 6 then u else u.clearCauses l.val 0x18

/-- A coefficient request of the partner in training moves the tap of its lane by one step where the device's limits allow it, and is
else answered with maximum or minimum; an NRZ mode has no c(-3) and c(-2) (R390, R410). -/
noncomputable def coeffUpdateRequest (l : Fin 16) (k : Fin 5) (up : Bool) : Claim where
  row := .coeffUpdateRequest l k up
  given s := (s.ln (s.portLane l.val)).train = true ∧ (s.ln (s.portLane l.val)).attempt = true ∧
    (2 ≤ k.val ∨ ¬((s.ln (s.portLane l.val)).mode = 1 ∨ (s.ln (s.portLane l.val)).mode = 2))
  gives s t :=
    let taps := (s.ln l.val).taps
    let moved := taps.set k.val (taps.getD k.val 0 + if up = true then 1 else -1)
    t = if (moved.map Int.natAbs).sum ≤ 64 ∧ 16 ≤ moved.getD 3 0 then s.modLn l.val fun x => { x with taps := moved, answer := 1 }
      else s.modLn l.val fun x => { x with answer := if up = true then 3 else 2 }

/-- Training ends: the eye is noted and the mode runs (R390). -/
def trainingDone (l : Fin 16) (e : Fin 101) : Claim where
  row := .trainingDone l e
  given s := (s.ln l.val).train = true ∧ (s.ln l.val).attempt = true
  gives s t := t = (s.modLn l.val fun x => { x with eye := e.val }).clearCauses l.val 0x18

/-- The wait timer of training expires: the lane is reported down with the training cause, and a `LANE.TRAIN` that waits
completes with `E_LANE_TRAIN` and the causes (R390, R409). -/
noncomputable def trainingWaitTimeout (l : Fin 16) : Claim where
  row := .trainingWaitTimeout l
  given s := (s.ln l.val).train = true ∧ (s.ln l.val).attempt = true ∧ (s.ln l.val).up = false
  gives s t :=
    let u := s.assertCauses l.val 8 true
    t = u.trainDone l.val { status := eLaneTrain, detail := (u.ln l.val).causes }

/-- A failed adaptation of an SDI input ends the attempt, and its `LANE.TRAIN` with `E_LANE_TRAIN` (R409). -/
noncomputable def sdiAdaptationFail (l : Fin 16) : Claim where
  row := .sdiAdaptationFail l
  given s := (s.ln (64 + l.val)).attempt = true ∧ (s.ln (64 + l.val)).up = false
  gives s t :=
    let u := s.modLn (64 + l.val) fun x => { x with attempt := false }
    t = u.trainDone (64 + l.val) { status := eLaneTrain, detail := (s.ln (64 + l.val)).causes }

/-- A transmitter that may enter low-power idle and has had no frame for 10 µs does so (R392). -/
noncomputable def lpiEntry (l : Fin 16) : Claim where
  row := .lpiEntry l
  given s := s.lpiAllowed l.val = true ∧ (s.ln l.val).up = true ∧ (s.ln l.val).lpiTx = false ∧
    (s.np l.val).lastQueued + 10000 ≤ s.now ∧ (s.np l.val).wire = none ∧ (s.np l.val).queues = []
  gives s t := t = s.modLn l.val fun x => { x with lpiTx := true }

/-- The partner's low-power idle is followed by a receiver that advertises it, and by no other (R392). -/
noncomputable def partnerLpi (l : Fin 16) (enter : Bool) : Claim where
  row := .partnerLpi l enter
  given s := (s.ln l.val).up = true ∧ 1 ≤ (s.ln l.val).mode ∧ (s.ln l.val).mode ≤ 6
  gives s t := t = if bit (s.ln l.val).eee 0 = true then s.modLn l.val fun x => { x with lpiRx := enter } else s

/-! ### Decoding, check units and SDI outputs (R243 to R266, R402) -/

/-- The access unit that reaches the decoder next, `fed`, of a channel that takes input; `rest` wait behind it. -/
def nextAu (c : BitVec 32) (s : State) (fed : FedAu) (rest : List FedAu) : Prop :=
  s.decodes c.toNat = true ∧ s.dec.decoders.has c.toNat = true ∧ (s.dec.decoders.look {} c.toNat).submitted = fed :: rest

/-- The sequence that an arriving access unit belongs to: the one that it begins, or the one before. -/
def auSps (c : BitVec 32) (x : ArrivedAu) (s : State) : Option StreamSps := x.sps.or (s.dec.decoders.look {} c.toNat).sps

/-- An access unit of a sequence that fits is kept in the coded buffer with its bytes and its time of arrival; one that finds no
place there is discarded and reported with code 5 (R243, R246). -/
def decoderAuArrival (c : BitVec 32) (x : ArrivedAu) : Claim where
  row := .decoderAuArrival c x
  given s := (∃ fed rest, nextAu c s fed rest) ∧ (auSps c x s).any (s.ch c.toNat).cfg.decodes = true ∧
    ((s.dec.decoders.look {} c.toNat).rejecting = false ∨ x.randomAccess = true)
  gives s t := ∃ fed rest, nextAu c s fed rest ∧
    let d := s.dec.decoders.look {} c.toNat
    let u := s.modDecoder c.toNat fun d => { d with submitted := rest, sps := auSps c x s }
    let v := u.modDecoder c.toNat fun d => { d with rejecting := false }
    t = if (s.ch c.toNat).cfg.codedBuffer < (d.coded.map (·.data.length)).sum + fed.data.length then
        let w := v.modDecoder c.toNat fun d => { d with discarded := d.discarded + 1 }
        w.raise evDecError c.toNat (5 + 2 ^ 32) (some (w.dec.decoders.look {} c.toNat).order)
      else v.modDecoder c.toNat fun d => { d with
        coded := d.coded ++ [{ data := fed.data, arrival := s.stamp, sps := (auSps c x s).getD {}, lost := fed.lost }] }

/-- A new coded video sequence that the channel cannot decode is rejected with code 4, until a random access picture that fits
(R243). -/
def decoderAuRejected (c : BitVec 32) (x : ArrivedAu) : Claim where
  row := .decoderAuArrival c x
  given s := (∃ fed rest, nextAu c s fed rest) ∧ ∃ g, x.sps = some g ∧ (s.ch c.toNat).cfg.decodes g = false
  gives s t := ∃ fed rest, nextAu c s fed rest ∧
    let u := s.modDecoder c.toNat fun d => { d with submitted := rest, sps := auSps c x s }
    let v := u.modDecoder c.toNat fun d => { d with rejecting := true }
    let w := v.modDecoder c.toNat fun d => { d with discarded := d.discarded + 1 }
    t = w.raise evDecError c.toNat (4 + 2 ^ 32) (some (w.dec.decoders.look {} c.toNat).order)

/-- An access unit before the first sequence parameter set, of a sequence that does not fit, or that is no random access picture
after one that did not fit, is discarded without an event (R243). -/
def decoderAuSkipped (c : BitVec 32) (x : ArrivedAu) : Claim where
  row := .decoderAuArrival c x
  given s := (∃ fed rest, nextAu c s fed rest) ∧
    ((x.sps = none ∧ (auSps c x s).any (s.ch c.toNat).cfg.decodes = false) ∨
      ((auSps c x s).any (s.ch c.toNat).cfg.decodes = true ∧ (s.dec.decoders.look {} c.toNat).rejecting = true ∧
        x.randomAccess = false))
  gives s t := ∃ fed rest, nextAu c s fed rest ∧
    t = (s.modDecoder c.toNat fun d => { d with submitted := rest, sps := auSps c x s }).modDecoder c.toNat fun d =>
      { d with discarded := d.discarded + 1 }

/-- The state in which the decoder takes the oldest access unit: its reference picture set applied, and what then goes out
shown. -/
def madeRoom (c : BitVec 32) (p : DecodedPicture) (s : State) : State :=
  (s.modDecoder c.toNat fun d => d.makeRoom p).showPictures c.toNat

/-- The picture of the oldest access unit is decoded: it leaves the coded buffer and enters the picture buffer, what goes out is
shown, the counts of pictures and of concealed ones rise, its conformance record is written, its events are raised, a starting
channel whose first picture went out runs, and sets that wait for the boundary after it take effect (R246 to R250). -/
def decodePictureDone (c : BitVec 32) (p : DecodedPicture) : Claim where
  row := .decodePictureDone c p
  given s := s.decodes c.toNat = true ∧ ∃ au rest, (s.dec.decoders.look {} c.toNat).coded = au :: rest ∧
    ((madeRoom c p s).dec.decoders.look {} c.toNat).dpb.length < au.sps.dpb.val
  gives s t := ∃ au rest, (s.dec.decoders.look {} c.toNat).coded = au :: rest ∧
    let h := c.toNat
    let d := (madeRoom c p s).dec.decoders.look {} h
    let n := d.order
    let flags := d.flagsOf au p
    let e := d.store au p flags
    let u := ((madeRoom c p s).modDecoder h fun _ => { e with
      coded := rest, order := n + 1, decoded := d.decoded + 1, concealed := d.concealed + flags % 2 }).showPictures h
    let surface := ((e.outputs (e.outQueue.length + 1)).2.find? fun o => o.pic.seq == n).bind (·.surface)
    let ctus := if ((u.ringOf false h).getD {}).ctuEn = true then decodedCtus p.ctuRecords else []
    let v := u.offerRing false h (conformance h n au p surface flags (d.missing p) ctus)
    let w := (v.concealEvents h n d.dpb (d.missing p) flags).nonconform h n flags
    let first := (w.ch h).state = .starting ∧ (s.dec.decoders.look {} h).output < (w.dec.decoders.look {} h).output
    t = (if first then w.toChState h .running n else w).applyStaged (some (n + 1)) fun x =>
      x.kind == .picture h && (match x.boundary with | .pic m => decide (m ≤ n + 1) | .time _ => false)

/-- While the picture buffer is full the decoder takes no access unit: what the reference picture set lets go has gone, and no
more (R246). -/
def decodePictureFull (c : BitVec 32) (p : DecodedPicture) : Claim where
  row := .decodePictureDone c p
  given s := s.decodes c.toNat = true ∧ ∃ au rest, (s.dec.decoders.look {} c.toNat).coded = au :: rest ∧
    au.sps.dpb.val ≤ ((madeRoom c p s).dec.decoders.look {} c.toNat).dpb.length
  gives s t := t = madeRoom c p s

/-- Without an access unit in the coded buffer nothing is decoded. -/
def decodePictureEmpty (c : BitVec 32) (p : DecodedPicture) : Claim where
  row := .decodePictureDone c p
  given s := (s.dec.decoders.look {} c.toNat).coded = []
  gives s t := t = s

/-- A check unit checks a picture: it is bound (or bound up to that picture), the picture is not before its first, and its values
do not come from a die that is fenced (R26, R263). -/
def checksPic (u : BitVec 32) (pic : BitVec 64) (s : State) : Prop :=
  s.planeRuns = true ∧ (handleDie u.toNat = 0xFF ∨ bit s.boot.diesFenced (handleDie u.toNat) = false) ∧
    ((s.checkUnit u.toNat).bound = true ∨ (s.checkUnit u.toNat).until_.any (fun n => decide (pic.toNat < n)) = true) ∧
    (s.checkUnit u.toNat).start.all (fun n => decide (n ≤ pic.toNat)) = true

/-- A value that meets an entry without a tag, or with its picture's, is compared with it and the entry is used up; a difference
is counted and reported (R263, R265). -/
def checkValueComplete (u : BitVec 32) (pic v : BitVec 64) : Claim where
  row := .checkValueComplete u pic v
  given s := checksPic u pic s ∧
    ∃ tag x rest, (s.checkUnit u.toNat).queue = (tag, x) :: rest ∧ (tag = none ∨ tag = some pic.toNat)
  gives s t := ∃ tag x rest, (s.checkUnit u.toNat).queue = (tag, x) :: rest ∧
    let c := s.checkUnit u.toNat
    let value := s.checkValue c pic.toNat v.toNat
    let w := s.modDec fun d => { d with checks := d.checks.put u.toNat { c with
      queue := rest, compared := c.compared + 1, mismatched := c.mismatched + b2n (x != value)
      lastPic := pic.toNat, lastValue := value, ready := c.ready.sel fun n _ => decide (pic.toNat < n) } }
    t = if x = value then w
      else w.raise evCheckMismatch u.toNat (value % 2 ^ 32 + 2 ^ 32) (some pic.toNat)

/-- A value that meets an empty queue is not checked; the first of them is reported (R265). -/
def checkValueEmpty (u : BitVec 32) (pic v : BitVec 64) : Claim where
  row := .checkValueComplete u pic v
  given s := checksPic u pic s ∧ (s.checkUnit u.toNat).queue = []
  gives s t :=
    let c := s.checkUnit u.toNat
    let w := s.modDec fun d => { d with checks := d.checks.put u.toNat { c with
      unchecked := c.unchecked + 1, lastPic := pic.toNat, lastValue := s.checkValue c pic.toNat v.toNat
      ready := c.ready.sel fun n _ => decide (pic.toNat < n), emptyRaised := true } }
    t = if c.emptyRaised = true then w else w.raise evCheckEmpty u.toNat 0 (some pic.toNat)

/-- A value whose picture is before that of the first entry is not checked, and the entry stays (R265). -/
def checkValueAhead (u : BitVec 32) (pic v : BitVec 64) : Claim where
  row := .checkValueComplete u pic v
  given s := checksPic u pic s ∧ ∃ n x rest, (s.checkUnit u.toNat).queue = (some n, x) :: rest ∧ pic.toNat < n
  gives s t :=
    let c := s.checkUnit u.toNat
    t = s.modDec fun d => { d with checks := d.checks.put u.toNat { c with
      unchecked := c.unchecked + 1, lastPic := pic.toNat, lastValue := s.checkValue c pic.toNat v.toNat
      ready := c.ready.sel fun n _ => decide (pic.toNat < n) } }

/-- An entry of an earlier picture was missed: it is counted and reported, and the value goes on to the next one, here one of its
own picture (R265). -/
def checkValueMissed (u : BitVec 32) (pic v : BitVec 64) : Claim where
  row := .checkValueComplete u pic v
  given s := checksPic u pic s ∧ ∃ n x y rest,
    (s.checkUnit u.toNat).queue = (some n, y) :: (some pic.toNat, x) :: rest ∧ n < pic.toNat ∧
      x = s.checkValue (s.checkUnit u.toNat) pic.toNat v.toNat
  gives s t := ∃ n x y rest, (s.checkUnit u.toNat).queue = (some n, y) :: (some pic.toNat, x) :: rest ∧
    let c := s.checkUnit u.toNat
    let w := s.modDec fun d => { d with checks := d.checks.put u.toNat { c with
      queue := rest, compared := c.compared + 1, missed := c.missed + 1, lastPic := pic.toNat, lastValue := x
      ready := c.ready.sel fun n _ => decide (pic.toNat < n) } }
    t = w.raise evCheckMismatch u.toNat (2 * 2 ^ 32) (some n)

/-- The hub discards a value from a die that is fenced (R26). -/
def checkValueStale (u : BitVec 32) (pic v : BitVec 64) : Claim where
  row := .checkValueComplete u pic v
  given s := handleDie u.toNat ≠ 0xFF ∧ bit s.boot.diesFenced (handleDie u.toNat) = true
  gives s t := t = s

/-- An SDI output that runs applies, at its boundary, a set that waits, and shows its next picture (R402). -/
def sdiOutPictureBoundary (l : Fin 8) : Claim where
  row := .sdiOutPictureBoundary l
  given s := let o := s.lane.outs.look {} (laneHandle (96 + l.val))
    s.planeRuns = true ∧ s.lane.outs.has (laneHandle (96 + l.val)) = true ∧
    (s.ln (96 + l.val)).mode ≠ 0 ∧ (s.ln (96 + l.val)).test = 0 ∧
    (s.isDecoder o.source = true → s.outIndex o ≠ o.boundaries)
  gives s t :=
    let h := laneHandle (96 + l.val)
    let u := s.applyStaged none fun x => x.kind == .sdiOut h
    t = u.modLane fun x => { x with outs := x.outs.upd h u.showNext }

/-- An output that shows a decoder has no boundary before the next one of the output clock. -/
def sdiOutEarly (l : Fin 8) : Claim where
  row := .sdiOutPictureBoundary l
  given s := let o := s.lane.outs.look {} (laneHandle (96 + l.val))
    s.isDecoder o.source = true ∧ s.outIndex o = o.boundaries
  gives s t := t = s

/-! ### Audio (R294 to R316) -/

/-- An edge of a port whose clock is there starts a frame: the frames count, ramps go on by one frame, sets that wait for the frame
apply, and the port sends the samples that its slots' channels carry. Only a master port, which makes its own edges, has none before
the sample period is over (R292, R294, R297, R310). -/
def audioFsyncEdge (i : Fin 8) : Claim where
  row := .audioFsyncEdge i true
  given s := let q := s.audio.ports.look {} i.val
    s.planeRuns = true ∧ (q.mode ≠ 0 ∨ q.ending = true) ∧ q.clockLost = false ∧
      (q.role = 1 ∨ ∀ l, q.lastFsync = some l → l + 1000000000 / rateHz q.rate ≤ s.now)
  gives s t :=
    let q := s.audio.ports.look {} i.val
    let ramps := q.outGains.filterMap fun e => (s.slotRamp q e.1 e.2).map fun g => (e.1, g)
    let u := (s.modAp i.val fun q => { q with
      outGains := ramps, frames := if q.lastFsync.isSome = true then q.frames + 1 else q.frames
      lastFsync := some s.now }).frameBoundary i.val
    t = u.modAp i.val fun q => { q with sdout := if q.mode = 0 then [] else u.outFrame q }

/-- A frame of another length than the slots give is a framing error of a slave port: it is counted and reported, and the frame
starts (R294). -/
def audioFramingError (i : Fin 8) : Claim where
  row := .audioFsyncEdge i false
  given s := let q := s.audio.ports.look {} i.val
    s.planeRuns = true ∧ (q.mode ≠ 0 ∨ q.ending = true) ∧ q.role = 1 ∧ q.clockLost = false ∧ q.lastFsync.isSome = true
  gives s t :=
    let e := (s.modAp i.val fun q => { q with
      framingErrors := q.framingErrors + 1, framingSince := q.framingSince + 1 }).portEvent i.val 3
    let q := s.audio.ports.look {} i.val
    let ramps := q.outGains.filterMap fun x => (e.slotRamp q x.1 x.2).map fun g => (x.1, g)
    let u := (e.modAp i.val fun q => { q with
      outGains := ramps, frames := if q.lastFsync.isSome = true then q.frames + 1 else q.frames
      lastFsync := some e.now }).frameBoundary i.val
    t = u.modAp i.val fun q => { q with sdout := if q.mode = 0 then [] else u.outFrame q }

/-- The first edge after a loss of the clock is reported as its return, and no frame before it is judged (R294). -/
def audioClockReturn (i : Fin 8) (good : Bool) : Claim where
  row := .audioFsyncEdge i good
  given s := let q := s.audio.ports.look {} i.val
    s.planeRuns = true ∧ q.mode ≠ 0 ∧ q.role = 1 ∧ q.clockLost = true
  gives s t :=
    let e := (s.modAp i.val fun q => { q with clockLost := false }).portEvent i.val 2
    let q := s.audio.ports.look {} i.val
    let ramps := q.outGains.filterMap fun x => (e.slotRamp q x.1 x.2).map fun g => (x.1, g)
    let u := (e.modAp i.val fun q => { q with
      outGains := ramps, frames := if q.lastFsync.isSome = true then q.frames + 1 else q.frames
      lastFsync := some e.now }).frameBoundary i.val
    t = u.modAp i.val fun q => { q with sdout := if q.mode = 0 then [] else u.outFrame q }

/-- A slave port without an edge for 4 sample periods has lost its clock: it is reported, and the good runs of the programs it
feeds end (R294, R306). -/
def audioClockLoss (i : Fin 8) : Claim where
  row := .audioClockLoss i
  given s := let q := s.audio.ports.look {} i.val
    s.planeRuns = true ∧ q.mode ≠ 0 ∧ q.role = 1 ∧ q.clockLost = false ∧
      ∀ l, q.lastFsync = some l → l + 4000000000 / rateHz q.rate ≤ s.now
  gives s t :=
    let h := mkHandle tAudioPort 0xFF i.val
    t = (s.modAudio fun a => { a with
      ports := a.ports.upd i.val fun q => { q with clockLost := true }
      programs := a.programs.mapV fun _ g => if g.source = h then g.breakRuns else g }).portEvent i.val 1

/-- Samples of a program's source that reach at least one of its channels, at the rate that it needs, are taken position by
position: without an ASRC each is the sample of a position, and behind one in its range they let it compute positions from the last
4,096 of them (R304, R307, R311). -/
def audioSampleArrival (p : BitVec 32) (x : AudioSamples) : Claim where
  row := .audioSampleArrival p x
  given s := let u := s.fixTe (s.audio.programs.look {} p.toNat).source x.first.toNat
    let g := u.audio.programs.look {} p.toNat
    s.planeRuns = true ∧ s.audio.programs.has p.toNat = true ∧
      ((s.audio.programs.look {} p.toNat).asrc = none ∨ x.inRange = true) ∧ (g.asrc = none ∨ x.inRange = true) ∧
      u.fedChannels g x.present.toNat ≠ [] ∧ u.rateLost g = false
  gives s t :=
    let u := s.fixTe (s.audio.programs.look {} p.toNat).source x.first.toNat
    let g := u.audio.programs.look {} p.toNat
    let chans := u.fedChannels g x.present.toNat
    let base := u.samplePosition g x.first.toNat
    let rows := x.rows.map (u.sourceSamples g)
    let input := g.input ++ rows
    let fed : Program := if g.asrc.isSome = true then { g with input := input.drop (input.length - 4096) } else g
    let n := if fed.asrc.isSome = true then x.positions.toNat else rows.length
    let y := (List.range n).foldl (fun y i =>
      u.takeSample y (u.positionValues y chans (rows.getD i []) (base + i)) (base + i)) fed
    t = (u.modProg p.toNat fun _ => y).reportOverrun p.toNat

/-- Samples outside the tracking range of a program's ASRC make it lose lock, and are no samples of the program (R304). -/
def audioSamplesOutOfRange (p : BitVec 32) (x : AudioSamples) (a : Nat) : Claim where
  row := .audioSampleArrival p x
  given s := let u := (s.fixTe (s.audio.programs.look {} p.toNat).source x.first.toNat).unlockAsrc a
    s.planeRuns = true ∧ s.audio.programs.has p.toNat = true ∧ x.inRange = false ∧
      (s.audio.programs.look {} p.toNat).asrc = some a ∧ (u.audio.programs.look {} p.toNat).asrc = some a
  gives s t := t = (s.fixTe (s.audio.programs.look {} p.toNat).source x.first.toNat).unlockAsrc a

/-- Samples of a source at another rate than the program needs are not taken (R303, R308). -/
def audioSamplesRateLost (p : BitVec 32) (x : AudioSamples) : Claim where
  row := .audioSampleArrival p x
  given s := let u := s.fixTe (s.audio.programs.look {} p.toNat).source x.first.toNat
    s.planeRuns = true ∧ s.audio.programs.has p.toNat = true ∧ (s.audio.programs.look {} p.toNat).asrc = none ∧
      u.rateLost (u.audio.programs.look {} p.toNat) = true
  gives s t := t = s.fixTe (s.audio.programs.look {} p.toNat).source x.first.toNat

/-- A position is delivered at its time, to every channel, every SDI output that embeds the program and every stream; with the last
of 240 positions of a 48 kHz PCM program its ST 302M packet enters the multiplexes (R300, R305, R312, R331). -/
def audioPositionDelivery (p : BitVec 32) : Claim where
  row := .audioPositionDelivery p
  given s := let g := s.audio.programs.look {} p.toNat
    s.planeRuns = true ∧ s.audio.programs.has p.toNat = true ∧ s.positionDue g g.next = true
  gives s t :=
    let g := s.audio.programs.look {} p.toNat
    let u := (s.applyStaged none fun x => x.kind == .position p.toNat)
    let v := (u.audioStreams p.toNat).foldl (fun s e => s.beginPacket e g.next) u
    let w := (v.deliverChans p.toNat).embedOut p.toNat
    let x := (w.audioStreams p.toNat).foldl (fun s e => s.endPacket e g.next) w
    let q := x.audio.programs.look {} p.toNat
    let pcm := (q.outs.drop (q.outs.length - 240)).map fun r => r.map fun v => twos 24 (v / 256)
    let y := if g.kind = 0 ∧ g.rate = 2 ∧ (g.next + 1) % 240 = 0 then
      x.pesOut p.toNat (g.next + 1 - 240) (Config.st302m pcm) else x
    t = ((y.silentAu p.toNat).noteOwed p.toNat).sendAll

/-- Before its time no position is delivered (R300). -/
def audioPositionEarly (p : BitVec 32) : Claim where
  row := .audioPositionDelivery p
  given s := s.positionDue (s.audio.programs.look {} p.toNat) (s.audio.programs.look {} p.toNat).next = false
  gives s t := t = s

/-- A rate window ends: two windows in a row of a class other than the recognised one change the class, with its event; any other
window only updates the measurement (R303). -/
def rateWindowEnd (h : BitVec 32) (f : BitVec 64) (n : BitVec 32) : Claim where
  row := .rateWindowEnd h f n
  given s := s.planeRuns = true ∧ s.measured h.toNat = true ∧
    ((s.audio.rates.look {} h.toNat).windowEnd = 0 ∨
      (s.audio.rates.look {} h.toNat).windowEnd + 100000000 ≤ s.now)
  gives s t :=
    let r := s.audio.rates.look {} h.toNat
    let c := rateClass f.toNat
    let offset := match c with | some x => rateOffset f.toNat x | none => r.offset
    let moved : Bool := c == r.last && c != r.cls
    let u := s.modAudio fun a => { a with rates := a.rates.put h.toNat { r with
      offset, samples := r.samples + n.toNat, last := c, windowEnd := s.now
      cls := if moved = true then c else r.cls, lost := r.lost || (moved && r.cls.isSome) } }
    t = if moved = true then u.classChanged h.toNat c offset else u

/-- An ASRC locks with its ratio and its input's class, and the channels of its program that are faded may ramp in (R304). -/
def asrcLock (n : Fin 64) (ratio : BitVec 64) : Claim where
  row := .asrcLock n ratio
  given s := let a := mkHandle tAsrc 0xFF n.val
    s.planeRuns = true ∧ s.audio.asrcs.has a = true ∧ (s.audio.asrcs.look {} a).locked = false
  gives s t :=
    let a := mkHandle tAsrc 0xFF n.val
    let x := s.audio.asrcs.look {} a
    let g := s.audio.programs.look {} x.program
    t = (s.modAudio fun u => { u with
      asrcs := u.asrcs.put a { x with
        locked := true, ratio := ratio.toNat, locks := x.locks + 1, inRate := (s.audio.rates.look {} g.source).cls }
      programs := u.programs.upd x.program fun g => { g with chans := g.chans.map fun c => { c with fresh := c.under } }
      }).raise evAsrcLock a 1

/-- A DSP completes the access unit that a program owes; it goes to the multiplexes that carry the program (R315). -/
def aacAuDone (p : BitVec 32) (data : List Byte) : Claim where
  row := .aacAuDone p data
  given s := let g := s.audio.programs.look {} p.toNat
    s.planeRuns = true ∧ g.owes = true ∧ s.auSilent g = false ∧ g.dsp.isSome = true
  gives s t := ∃ d, (s.audio.programs.look {} p.toNat).dsp = some d ∧
    let u := s.modProg p.toNat fun g => { g with aus := g.aus + 1 }
    t = (u.modAudio fun a => { a with dsps := a.dsps.modD {} d fun x => { x with lastAu := u.now } }).pesOut p.toNat
      (1024 * (s.audio.programs.look {} p.toNat).aus) data

/-- A DSP that owes an access unit and has completed none for 5 ms restarts, with an event for each of its programs (R316). -/
noncomputable def dspWatchdog (d : Fin 4) : Claim where
  row := .dspWatchdog d
  given s := let x := s.audio.dsps.look {} d.val
    s.planeRuns = true ∧ x.restarting = none ∧ x.lastAu + 5000000 ≤ s.now ∧
      ((s.onDsp d.val).any fun e => e.2.owes && !s.auSilent e.2) = true
  gives s t :=
    let ps := s.onDsp d.val
    let x := s.audio.dsps.look {} d.val
    t = ps.foldl (fun s e => s.raise evAudioDspRestart e.1 (d.val + ps.length % 256 * 256))
      (s.modAudio fun a => { a with dsps := a.dsps.put d.val { x with restarting := some s.now } })

/-- A DSP that has restarted encodes from the next access unit on, which ramps in; the reset of the unit is counted (R316,
R460). -/
noncomputable def dspRestartDone (d : Fin 4) : Claim where
  row := .dspRestartDone d
  given s := s.planeRuns = true ∧ (s.audio.dsps.look {} d.val).restarting.isSome = true
  gives s t := t = (s.unitReset 2).modAudio fun a => { a with
    dsps := a.dsps.put d.val { s.audio.dsps.look {} d.val with restarting := none, lastAu := s.now }
    programs := a.programs.mapV fun _ g =>
      if g.dsp = some d.val then { g with rampAt := some (1024 * cdiv g.next 1024) } else g }

/-! ### Time (R361 to R378) -/

/-- Time goes on to the next wrap: `WRAP` counts one more and the epoch moves by 2^32 ns (R361, R362). -/
def timeWrap : Claim where
  row := .timeWrap
  given s := s.boot.held = false ∧ s.time.ns < 2 ^ 32 ∧ s.time.frac < 2 ^ 32 ∧
    -4294967 ≤ s.time.adj ∧ s.time.adj ≤ 4294967 ∧ s.time.adjNext = none
  gives s t := t.time.wraps = s.time.wraps + 1 ∧ t.time.epochNs = (s.time.epochNs + 2 ^ 32) % (2 ^ 48 * 1000000000) ∧
    t = { s with time := t.time }

/-- A maintenance pass extends firmware's wrap count by the wraps since the last one, and journals the tuple (R365). -/
def maintenancePass : Claim where
  row := .maintenancePass
  given s := s.firmwareRuns = true
  gives s t := t = s.modTime fun x => { x with
    fwWraps := x.fwWraps + (x.wraps % 256 + 256 - x.fwWrap8) % 256, fwWrap8 := x.wraps % 256, fwSteps := x.steps % 16
    fwEpoch := x.epochNs.toNat, fwSeconds := s.kaSeconds, lastMaintenance := s.now }

/-- A port of the PTP instance hears a message of its domain: the device runs, the mask names the port and its lane is up (R368,
R369, R395). -/
def ptpHears (i : Nat) (d : BitVec 8) (s : State) : Prop :=
  s.boot.held = false ∧ bit s.time.ptp.portMask i = true ∧ (s.lane.lanes.look {} i).up = true ∧ d.toNat = s.time.ptp.domainNum

/-- A one-step Sync on a port in slave state gives the servo an offset: arrival less origin, correction, path delay and
asymmetry (R370, R372). -/
def ptpSync (i : Fin 16) (d : BitVec 8) (o : Nat) (corr : Int) : Claim where
  row := .ptpMessageReceive i d (.sync (some o) corr)
  given s := ptpHears i.val d s ∧ (s.ptpPort i.val).state = .slave ∧ s.time.servoCfg.source = 1
  gives s t :=
    let rx := s.rxStamp i.val
    let u := s.modPtp i.val fun q => { q with syncReceived := rx, syncOrigin := o + corr, syncPending := none }
    t = u.measure (rx - (o + corr) - s.time.pathDelayNs - (s.ptpPort i.val).asymPs / 1000)

/-- A two-step Sync waits for its Follow_Up (R370). -/
def ptpSyncTwoStep (i : Fin 16) (d : BitVec 8) (corr : Int) : Claim where
  row := .ptpMessageReceive i d (.sync none corr)
  given s := ptpHears i.val d s
  gives s t := t = s.modPtp i.val fun q => { q with syncPending := some (s.rxStamp i.val - corr) }

/-- The path delay by Delay_Resp is the mean of both directions (R370). -/
def ptpDelayResp (i : Fin 16) (d : BitVec 8) (r : Nat) (corr : Int) : Claim where
  row := .ptpMessageReceive i d (.delayResp r corr)
  given s := ptpHears i.val d s ∧ s.time.ptp.peerToPeer = false ∧
    ((s.ptpPort i.val).state = .slave ∨ (s.ptpPort i.val).state = .uncalibrated)
  gives s t := let q := s.ptpPort i.val
    t = s.modTime fun x => { x with
      pathDelayNs := (q.syncReceived - q.syncOrigin + ((r : Int) - corr - q.reqSent)) / 2 }

/-- The path delay by Pdelay_Resp is half of the turn (R370). -/
def ptpPdelayResp (i : Fin 16) (d : BitVec 8) (r o : Nat) (corr : Int) : Claim where
  row := .ptpMessageReceive i d (.pdelayResp r o corr)
  given s := ptpHears i.val d s ∧ s.time.ptp.peerToPeer = true ∧
    ((s.ptpPort i.val).state = .slave ∨ (s.ptpPort i.val).state = .uncalibrated)
  gives s t := t = s.modTime fun x => { x with
    pathDelayNs := ((s.rxStamp i.val - (s.ptpPort i.val).reqSent) - ((o : Int) - r) - corr) / 2 }

/-- An Announce is kept with its time of arrival, and a slave port's master is the grandmaster that the device follows
(R369). -/
def ptpAnnounce (i : Fin 16) (d : BitVec 8) (a : Announce) : Claim where
  row := .ptpMessageReceive i d (.announce a)
  given s := ptpHears i.val d s
  gives s t :=
    let u := s.modPtp i.val fun q => { q with best := some a, announceAt := s.now }
    t = if (s.ptpPort i.val).state = .slave then u.follow a.gmId.toNat else u

/-- A master port owes an answer to a Delay_Req, with its time of arrival (R371). -/
def ptpRequests (i : Fin 16) (d : BitVec 8) : Claim where
  row := .ptpMessageReceive i d .delayReq
  given s := ptpHears i.val d s
  gives s t := t = if (s.ptpPort i.val).state = .master then
      s.modPtp i.val fun q => { q with due := q.due ++ [(.delayResp, s.rxStamp i.val)] }
    else s

/-- With the peer-to-peer mechanism a port owes an answer to a Pdelay_Req, with its time of arrival (R371). -/
def ptpPdelayReq (i : Fin 16) (d : BitVec 8) : Claim where
  row := .ptpMessageReceive i d .pdelayReq
  given s := ptpHears i.val d s
  gives s t := t = if s.time.ptp.peerToPeer = true then
      s.modPtp i.val fun q => { q with due := q.due ++ [(.pdelayResp, s.rxStamp i.val)] }
    else s

/-- The Follow_Up of a two-step Sync gives the servo the offset of that Sync's arrival (R370, R372). -/
def ptpFollowUp (i : Fin 16) (d : BitVec 8) (o : Nat) (corr : Int) : Claim where
  row := .ptpMessageReceive i d (.followUp o corr)
  given s := ptpHears i.val d s ∧ (s.ptpPort i.val).state = .slave ∧ s.time.servoCfg.source = 1 ∧
    (s.ptpPort i.val).syncPending.isSome = true
  gives s t := ∃ rx, (s.ptpPort i.val).syncPending = some rx ∧
    let u := s.modPtp i.val fun q => { q with syncReceived := rx, syncOrigin := o + corr, syncPending := none }
    t = u.measure (rx - (o + corr) - s.time.pathDelayNs - (s.ptpPort i.val).asymPs / 1000)

/-- A management GET is answered and a SET refused; both are counted (R368). -/
def ptpManagement (i : Fin 16) (d : BitVec 8) (set : Bool) : Claim where
  row := .ptpMessageReceive i d (.management set)
  given s := ptpHears i.val d s
  gives s t := t = s.modPtp i.val fun q =>
    if set = true then { q with managementRefused := q.managementRefused + 1 }
    else { q with managementAnswered := q.managementAnswered + 1 }

/-- A message of another PTP domain is none of the device's (R368). -/
def ptpOtherDomain (i : Fin 16) (d : BitVec 8) (m : PtpMessage) : Claim where
  row := .ptpMessageReceive i d m
  given s := d.toNat ≠ s.time.ptp.domainNum
  gives s t := t = s

/-- A port outside the instance's mask takes no message (R369). -/
def ptpMasked (i : Fin 16) (d : BitVec 8) (m : PtpMessage) : Claim where
  row := .ptpMessageReceive i d m
  given s := bit s.time.ptp.portMask i.val = false
  gives s t := t = s

/-- No Announce for the time-out: the port's foreign master is forgotten (R369). -/
def announceReceiptTimeout (i : Fin 16) : Claim where
  row := .announceReceiptTimeout i
  given s := (s.ptpPort i.val).best.isSome = true ∧ (s.ptpPort i.val).announceAt + s.time.ptp.receiptNs ≤ s.now
  gives s t := t = s.modPtp i.val fun q => { q with best := none }

/-- A port of the instance changes its state, with `EV_PTP_PORT`; a slave-only instance has no master port (R368, R369). -/
def ptpPortStateChange (i : Fin 16) : Claim where
  row := .ptpPortStateChange i .listening
  given s := s.firmwareRuns = true ∧ (s.ptpPort i.val).state ≠ .listening ∧ bit s.time.ptp.portMask i.val = true
  gives s t := t = ((s.modPtp i.val fun q => { q with state := .listening }).modTime fun x => { x with
    slavePort := if x.slavePort = some i.val then none else x.slavePort }).raise evPtpPort (portHandle i.val) (i.val + 4 * 256)

def ptpMasterRefused (i : Fin 16) : Claim where
  row := .ptpPortStateChange i .master
  given s := s.time.ptp.masterCapable = false
  gives s t := t = s

/-- A locked servo without a usable measurement for its limit holds over, at the mean addend of its last 64 s (R374). -/
def servoHoldoverTimeout : Claim where
  row := .servoHoldoverTimeout
  given s := s.time.servo = .locked ∧ s.time.lastMeasure + s.time.holdLimit ≤ s.time.now
  gives s t := t = (s.modTime fun x => { x with adjNext := some x.meanAdj }).setServo .holdover

/-- `PPS_OUT` rises once in each second, while its gate is open; settings that wait for the second apply first (R377). -/
def ppsOutEdge : Claim where
  row := .ppsOutEdge
  given s := s.boot.held = false ∧ s.boot.stage ≠ .safe
  gives s t :=
    let u := s.applyPps
    let second := u.time.ppsSecondAt
    t = if u.time.ppsSecond = some second then u
      else u.modTime fun x => { x with lastPpsOut := if x.ppsOpen = true then some x.now else x.lastPpsOut, ppsSecond := some second }

/-- An edge of `PPS_IN` of the polarity that is not selected changes nothing but that settings due apply (R377). -/
def ppsInWrongEdge (rising : Bool) : Claim where
  row := .ppsInEdge rising
  given s := s.boot.held = false ∧ s.applyPps.time.pps.inInv = rising
  gives s t := t = s.applyPps

/-- A good edge of `PPS_IN` is noted; the time of day that was set applies at it, and otherwise goes on by a second for each
second (R377). -/
def ppsInEdge (rising : Bool) : Claim where
  row := .ppsInEdge rising
  given s := let u := s.applyPps
    s.boot.held = false ∧ u.time.pps.inInv = (!rising) ∧ u.time.ppsLost = false ∧ u.time.servoCfg.source ≠ 2 ∧
    ∃ l, u.time.lastPpsIn = some l ∧ u.time.now - l ≤ 1500000000
  gives s t := let u := s.applyPps
    ∃ l, u.time.lastPpsIn = some l ∧
    let tod := match u.time.todNext with
      | some v => some v
      | none => u.time.tod.map fun v => v + (u.time.now - l + 500000000) / 1000000000
    t = u.modTime fun x => { x with lastPpsIn := some u.time.now, tod, todNext := none, ppsLost := false, ppsReturn := 0 }

/-- 1.5 s without an edge is a loss of `PPS_IN`, reported once (R377). -/
def ppsInLost : Claim where
  row := .ppsInLost
  given s := s.time.ppsLost = false ∧ ∃ l, s.time.lastPpsIn = some l ∧ l + 1500000000 ≤ s.now
  gives s t := t = (s.modTime fun x => { x with ppsLost := true, ppsReturn := 0 }).timeEvent evPpsIn 1

/-- The loss of the 10 MHz input is reported where the servo takes its frequency from it; its return is noted (R378). -/
def ref10mInLost : Claim where
  row := .ref10mInLost
  given s := s.time.ref10mPresent = true
  gives s t :=
    let u := s.modTime fun x => { x with ref10mPresent := false }
    t = if s.time.servoCfg.freq10m = true then u.timeEvent evPpsIn 3 else u

def ref10mInReturn : Claim where
  row := .ref10mInReturn
  given _ := True
  gives s t := t = s.modTime fun x => { x with ref10mPresent := true }

/-! ### The block as a whole (R7, R8, R30 to R64, R80, R307, R360 to R363, R470, R484, R540) -/

/-- ECI commands and their descriptions, part 1; `SESSION.CLOSE`, which closes sessions besides, is not among them. -/
def eciRows1 (c : Submission) : List (Instr × EciSpec) :=
  [(.deviceIdentify c, specDeviceIdentify), (.deviceStatus c, specDeviceStatus),
    (.deviceEventMask c, specDeviceEventMask), (.queueCreate c, specQueueCreate), (.queueDelete c, specQueueDelete),
    (.objectList c, specObjectList), (.objectReassign c, specObjectReassign), (.deviceVfQuota c, specDeviceVfQuota),
    (.deviceImageLoad c, specDeviceImageLoad), (.deviceRestart c, specDeviceRestart), (.deviceNop c, specDeviceNop),
    (.sessionOpen c, specSessionOpen), (.sessionKeepalive c, specSessionKeepalive),
    (.channelCreate c, specChannelCreate), (.channelAdmitCheck c, specChannelAdmitCheck),
    (.channelSet c, specChannelSet), (.channelStart c, specChannelStart), (.channelStop c, specChannelStop),
    (.channelDestroy c, specChannelDestroy), (.channelQuery c, specChannelQuery), (.slotTableSet c, specSlotTableSet),
    (.slotTableGet c, specSlotTableGet), (.slateCreate c, specSlateCreate), (.slateDestroy c, specSlateDestroy),
    (.dieLoad c, specDieLoad), (.codingTools c, specCodingTools), (.codingToolsGet c, specCodingToolsGet),
    (.analysisSet c, specAnalysisSet), (.analysisQuery c, specAnalysisQuery), (.recipeInfo c, specRecipeInfo),
    (.codingStructure c, specCodingStructure), (.codingSei c, specCodingSei),
    (.codingStructureGet c, specCodingStructureGet), (.rcSet c, specRcSet), (.rcGet c, specRcGet)]

/-- ECI commands and their descriptions, part 2; `SESSION.CLOSE`, which closes sessions besides, is not among them. -/
def eciRows2 (c : Submission) : List (Instr × EciSpec) :=
  [(.rcQuery c, specRcQuery), (.delayQuery c, specDelayQuery), (.schedStatus c, specSchedStatus),
    (.schedLocks c, specSchedLocks), (.schedFlows c, specSchedFlows), (.traceCreate c, specTraceCreate),
    (.traceStart c, specTraceStart), (.traceStop c, specTraceStop), (.traceStatus c, specTraceStatus),
    (.traceDestroy c, specTraceDestroy), (.decodeCreate c, specDecodeCreate), (.decodeSubmit c, specDecodeSubmit),
    (.decodeReturn c, specDecodeReturn), (.decodeQuery c, specDecodeQuery), (.channelMode c, specChannelMode),
    (.picSubmit c, specPicSubmit), (.refRing c, specRefRing), (.jigSet c, specJigSet), (.statsSet c, specStatsSet),
    (.statsRead c, specStatsRead), (.checkBind c, specCheckBind), (.checkUnbind c, specCheckUnbind),
    (.checkExpect c, specCheckExpect), (.checkQuery c, specCheckQuery), (.composeSet c, specComposeSet),
    (.layerCreate c, specLayerCreate), (.layerSet c, specLayerSet), (.layerCommit c, specLayerCommit),
    (.layerDestroy c, specLayerDestroy), (.layerQuery c, specLayerQuery), (.renditionScale c, specRenditionScale),
    (.scalerCoefSet c, specScalerCoefSet), (.scalerCoefGet c, specScalerCoefGet), (.audioPortSet c, specAudioPortSet),
    (.audioPortSlots c, specAudioPortSlots)]

/-- ECI commands and their descriptions, part 3; `SESSION.CLOSE`, which closes sessions besides, is not among them. -/
def eciRows3 (c : Submission) : List (Instr × EciSpec) :=
  [(.audioPortQuery c, specAudioPortQuery), (.frameClockSet c, specFrameClockSet),
    (.audioProgramCreate c, specAudioProgramCreate), (.audioProgramSet c, specAudioProgramSet),
    (.audioProgramDestroy c, specAudioProgramDestroy), (.audioProgramQuery c, specAudioProgramQuery),
    (.asrcQuery c, specAsrcQuery), (.audioRateQuery c, specAudioRateQuery), (.audioEmbedSet c, specAudioEmbedSet),
    (.ingressCreate c, specIngressCreate), (.ingressDestroy c, specIngressDestroy),
    (.ingressQuery c, specIngressQuery), (.egressCreate c, specEgressCreate), (.egressSet c, specEgressSet),
    (.egressDestroy c, specEgressDestroy), (.egressQuery c, specEgressQuery),
    (.egressProvenance c, specEgressProvenance), (.egressKey c, specEgressKey), (.egressImpair c, specEgressImpair),
    (.shaperSet c, specShaperSet), (.gatelistSet c, specGatelistSet), (.gatelistQuery c, specGatelistQuery),
    (.policerCreate c, specPolicerCreate), (.policerSet c, specPolicerSet), (.policerDestroy c, specPolicerDestroy),
    (.portAddr c, specPortAddr), (.provKey c, specProvKey), (.arbiterMode c, specArbiterMode),
    (.timeQuery c, specTimeQuery), (.servoSet c, specServoSet), (.servoReset c, specServoReset),
    (.ptpSet c, specPtpSet), (.ptpPortSet c, specPtpPortSet), (.ppsSet c, specPpsSet),
    (.timeSetTod c, specTimeSetTod)]

/-- ECI commands and their descriptions, part 4; `SESSION.CLOSE`, which closes sessions besides, is not among them. -/
def eciRows4 (c : Submission) : List (Instr × EciSpec) :=
  [(.domainSet c, specDomainSet), (.channelAlign c, specChannelAlign), (.alignQuery c, specAlignQuery),
    (.laneSet c, specLaneSet), (.laneTrain c, specLaneTrain), (.laneQuery c, specLaneQuery),
    (.laneTaps c, specLaneTaps), (.sdiOutSet c, specSdiOutSet), (.memQuery c, specMemQuery), (.memSet c, specMemSet),
    (.memFreq c, specMemFreq), (.memCopy c, specMemCopy), (.secQuote c, specSecQuote), (.secCerts c, specSecCerts),
    (.keyImport c, specKeyImport), (.keyDestroy c, specKeyDestroy), (.secLcAdvance c, specSecLcAdvance),
    (.secOwnerKeyAdd c, specSecOwnerKeyAdd), (.secKeyRevoke c, specSecKeyRevoke), (.secSvnCommit c, specSecSvnCommit),
    (.secDebugChallenge c, specSecDebugChallenge), (.secDebugUnlock c, specSecDebugUnlock),
    (.secTamperSet c, specSecTamperSet), (.secTamperLog c, specSecTamperLog), (.secTamperClear c, specSecTamperClear),
    (.secCounter c, specSecCounter), (.secCredSet c, specSecCredSet), (.healthQuery c, specHealthQuery),
    (.bootSlotSet c, specBootSlotSet), (.dieRepair c, specDieRepair), (.mpRepair c, specMpRepair),
    (.isstQuery c, specIsstQuery), (.kaLog c, specKaLog), (.thermQuery c, specThermQuery)]

/-- ECI commands and their descriptions. -/
def eciRows (c : Submission) : List (Instr × EciSpec) :=
  eciRows1 c ++ eciRows2 c ++ eciRows3 c ++ eciRows4 c

end Claims

end Sys2Proof

/-! ### The obligations -/

open Sys2Proof Sys2Proof.Machine

/-- Every device command completes with the effect of R65 to R70. -/
def Obligations.DeviceCommandsComplete : Prop :=
  ∀ c, (Claims.deviceIdentify c).Holds ∧ (Claims.deviceStatus c).Holds ∧ (Claims.deviceEventMask c).Holds ∧
    (Claims.queueCreate c).Holds ∧ (Claims.queueDelete c).Holds ∧ (Claims.objectList c).Holds ∧
    (Claims.objectReassign c).Holds ∧ (Claims.deviceVfQuota c).Holds ∧ (Claims.deviceImageLoad c).Holds ∧
    (Claims.deviceRestart c).Holds ∧ (Claims.deviceNop c).Holds

/-- The session commands complete with the effect of R461. -/
def Obligations.SessionCommandsComplete : Prop :=
  ∀ c, (Claims.sessionOpen c).Holds ∧ (Claims.sessionClose c).Holds ∧ (Claims.sessionKeepalive c).Holds

/-- Every channel command completes with the effect of R72 to R105. -/
def Obligations.ChannelCommandsComplete : Prop :=
  ∀ c, (Claims.channelCreate c).Holds ∧ (Claims.channelAdmitCheck c).Holds ∧ (Claims.channelSet c).Holds ∧
    (Claims.channelStart c).Holds ∧ (Claims.channelStop c).Holds ∧ (Claims.channelDestroy c).Holds ∧
    (Claims.channelQuery c).Holds ∧ (Claims.slotTableSet c).Holds ∧ (Claims.slotTableGet c).Holds ∧
    (Claims.slateCreate c).Holds ∧ (Claims.slateDestroy c).Holds ∧ (Claims.dieLoad c).Holds

/-- The commands of analysis, tools, structure and rate control complete with the effect of R107 to R206. -/
def Obligations.CodingCommandsComplete : Prop :=
  ∀ c, (Claims.codingTools c).Holds ∧ (Claims.codingToolsGet c).Holds ∧ (Claims.analysisSet c).Holds ∧
    (Claims.analysisQuery c).Holds ∧ (Claims.recipeInfo c).Holds ∧ (Claims.codingStructure c).Holds ∧
    (Claims.codingSei c).Holds ∧ (Claims.codingStructureGet c).Holds ∧ (Claims.rcSet c).Holds ∧ (Claims.rcGet c).Holds ∧
    (Claims.rcQuery c).Holds ∧ (Claims.delayQuery c).Holds

/-- The scheduler and trace commands complete with the effect of R239 to R241. -/
def Obligations.SchedulerCommandsComplete : Prop :=
  ∀ c, (Claims.schedStatus c).Holds ∧ (Claims.schedLocks c).Holds ∧ (Claims.schedFlows c).Holds ∧
    (Claims.traceCreate c).Holds ∧ (Claims.traceStart c).Holds ∧ (Claims.traceStop c).Holds ∧
    (Claims.traceStatus c).Holds ∧ (Claims.traceDestroy c).Holds

/-- The composition commands complete with the effect of R271 to R290. -/
def Obligations.CompositionCommandsComplete : Prop :=
  ∀ c, (Claims.composeSet c).Holds ∧ (Claims.layerCreate c).Holds ∧ (Claims.layerSet c).Holds ∧
    (Claims.layerCommit c).Holds ∧ (Claims.layerDestroy c).Holds ∧ (Claims.layerQuery c).Holds ∧
    (Claims.renditionScale c).Holds ∧ (Claims.scalerCoefSet c).Holds ∧ (Claims.scalerCoefGet c).Holds

/-- The commands of decode channels, reference mode, jig streams, statistics and check units complete with the effect of R243
to R266. -/
def Obligations.DecodeCommandsComplete : Prop :=
  ∀ c, (Claims.decodeCreate c).Holds ∧ (Claims.decodeSubmit c).Holds ∧ (Claims.decodeReturn c).Holds ∧
    (Claims.decodeQuery c).Holds ∧ (Claims.channelMode c).Holds ∧ (Claims.picSubmit c).Holds ∧ (Claims.refRing c).Holds ∧
    (Claims.jigSet c).Holds ∧ (Claims.statsSet c).Holds ∧ (Claims.statsRead c).Holds ∧ (Claims.checkBind c).Holds ∧
    (Claims.checkUnbind c).Holds ∧ (Claims.checkExpect c).Holds ∧ (Claims.checkQuery c).Holds

/-- The audio commands complete with the effect of R293 to R318. -/
def Obligations.AudioCommandsComplete : Prop :=
  ∀ c, (Claims.audioPortSet c).Holds ∧ (Claims.audioPortSetOff c).Holds ∧ (Claims.audioPortSlots c).Holds ∧
    (Claims.audioPortQuery c).Holds ∧ (Claims.frameClockSet c).Holds ∧ (Claims.audioProgramCreate c).Holds ∧
    (Claims.audioProgramSet c).Holds ∧ (Claims.audioProgramDestroy c).Holds ∧ (Claims.audioProgramQuery c).Holds ∧
    (Claims.asrcQuery c).Holds ∧ (Claims.audioRateQuery c).Holds ∧ (Claims.audioEmbedSet c).Holds

/-- The network commands complete with the effect of R319 to R359. -/
def Obligations.NetworkCommandsComplete : Prop :=
  ∀ c, (Claims.ingressCreate c).Holds ∧ (Claims.ingressDestroy c).Holds ∧ (Claims.ingressQuery c).Holds ∧
    (Claims.egressCreate c).Holds ∧ (Claims.egressSet c).Holds ∧ (Claims.egressDestroy c).Holds ∧
    (Claims.egressQuery c).Holds ∧ (Claims.egressProvenance c).Holds ∧ (Claims.egressKey c).Holds ∧
    (Claims.egressImpair c).Holds ∧ (Claims.shaperSet c).Holds ∧ (Claims.gatelistSet c).Holds ∧
    (Claims.gatelistQuery c).Holds ∧ (Claims.policerCreate c).Holds ∧ (Claims.policerSet c).Holds ∧
    (Claims.policerDestroy c).Holds ∧ (Claims.portAddr c).Holds ∧ (Claims.arbiterMode c).Holds

/-- The time and alignment commands complete with the effect of R361 to R384. -/
def Obligations.TimeCommandsComplete : Prop :=
  ∀ c, (Claims.timeQuery c).Holds ∧ (Claims.servoSet c).Holds ∧ (Claims.servoReset c).Holds ∧ (Claims.ptpSet c).Holds ∧
    (Claims.ptpPortSet c).Holds ∧ (Claims.ppsSet c).Holds ∧ (Claims.timeSetTod c).Holds ∧ (Claims.domainSet c).Holds ∧
    (Claims.channelAlign c).Holds ∧ (Claims.alignQuery c).Holds

/-- The lane commands complete with the effect of R385 to R409. -/
def Obligations.LaneCommandsComplete : Prop :=
  ∀ c, (Claims.laneSet c).Holds ∧ (Claims.laneTrain c).Holds ∧ (Claims.laneQuery c).Holds ∧ (Claims.laneTaps c).Holds ∧
    (Claims.sdiOutSet c).Holds

/-- The memory commands complete with the effect of R419 to R443. -/
def Obligations.MemoryCommandsComplete : Prop :=
  ∀ c, (Claims.memQuery c).Holds ∧ (Claims.memSet c).Holds ∧ (Claims.memFreq c).Holds ∧ (Claims.memCopy c).Holds

/-- The security commands complete with the effect of R338 and R447 to R468. -/
def Obligations.SecurityCommandsComplete : Prop :=
  ∀ c, (Claims.secQuote c).Holds ∧ (Claims.secCerts c).Holds ∧ (Claims.provKey c).Holds ∧ (Claims.keyImport c).Holds ∧
    (Claims.keyDestroy c).Holds ∧ (Claims.secLcAdvance c).Holds ∧ (Claims.secOwnerKeyAdd c).Holds ∧
    (Claims.secKeyRevoke c).Holds ∧ (Claims.secSvnCommit c).Holds ∧ (Claims.secDebugChallenge c).Holds ∧
    (Claims.secDebugUnlock c).Holds ∧ (Claims.secTamperSet c).Holds ∧ (Claims.secTamperLog c).Holds ∧
    (Claims.secTamperClear c).Holds ∧ (Claims.secCounter c).Holds ∧ (Claims.secCredSet c).Holds

/-- The health and repair commands complete with the effect of R474 to R505. -/
def Obligations.HealthCommandsComplete : Prop :=
  ∀ c, (Claims.healthQuery c).Holds ∧ (Claims.bootSlotSet c).Holds ∧ (Claims.dieRepair c).Holds ∧
    (Claims.mpRepair c).Holds ∧ (Claims.isstQuery c).Holds ∧ (Claims.kaLog c).Holds ∧ (Claims.thermQuery c).Holds

/-- Register writes, enabling and disabling, interrupt registers, captures and function-level events have the effect of R10 to
R42. -/
def Obligations.HostAccessesTakeEffect : Prop :=
  (∀ f off v, (Claims.registerWrite f off v).Holds) ∧ (∀ off v, (Claims.registerWriteMsix off v).Holds) ∧
  (∀ f bar4 off w v, (Claims.registerWriteOdd f bar4 off w v).Holds) ∧
  (∀ f, (Claims.eciEnable f).Holds ∧ (Claims.eciDisable f).Holds ∧ (Claims.eciRdySet f).Holds ∧
    (Claims.eciRdyRefused f).Holds ∧ (Claims.bootStageCapture f).Holds ∧ (Claims.timeNsCapture f).Holds ∧
    (Claims.mbxCollideCntRead f).Holds ∧ (Claims.functionLevelReset f).Holds ∧ (Claims.vfRemoval f).Holds ∧
    (Claims.vfEnable f).Holds) ∧
  (∀ f v, (Claims.intCauseClear f v).Holds ∧ (Claims.intMaskWrite f v).Holds) ∧
  (∀ f x, (Claims.coalesceTimeout f x).Holds) ∧ Claims.recStateCapture.Holds

/-- Doorbells, polls, the fast path and mailbox writes have the effect of R43 to R52. -/
def Obligations.DoorbellsTakeEffect : Prop :=
  (∀ f q v es, (Claims.dbSqWrite f q v es).Holds ∧ (Claims.dbSqWriteNoQueue f q v es).Holds) ∧
  (∀ f q es, (Claims.sqPoll f q es).Holds) ∧
  (∀ f v, (Claims.dbFastWrite f v).Holds ∧ (Claims.dbFastWriteBusy f v).Holds) ∧
  (∀ f, (Claims.fastPathServe f).Holds) ∧
  (∀ f off v, (Claims.mailboxHostWrite f off v).Holds ∧ (Claims.mailboxCollision f off v).Holds)

/-- Power, resets and the start-up sequence have the effect of R70, R447, R451, R470 to R478, R485, R504, R508 and R523. -/
def Obligations.StartUpTakesEffect : Prop :=
  Claims.powerGood.Holds ∧ Claims.brownOut.Holds ∧ (∀ ns, (Claims.sysRstNLow ns).Holds) ∧ Claims.sysRstNRelease.Holds ∧
  Claims.restartDelayExpiry.Holds ∧ Claims.failedStartRestart.Holds ∧ (∀ h st, (Claims.romStart h st).Holds) ∧
  (∀ h st d, (Claims.romStartFails h st d).Holds) ∧ (∀ h st d f, (Claims.romStartRecovers h st d f).Holds) ∧ (∀ j, (Claims.thermalWaitCheck j).Holds) ∧
  Claims.imageVerifyDone.Holds ∧ Claims.imageVerifyNoSecret.Holds ∧ (∀ a b, (Claims.bistDone a b).Holds) ∧
  (∀ r, (Claims.bistFails r).Holds) ∧ Claims.firmwareReady.Holds ∧
  (∀ d, (Claims.dieReady d).Holds ∧ (Claims.dieReadyTimeout d).Holds) ∧ Claims.firmwareReadyTimeout.Holds ∧
  Claims.kaSwitchToBackup.Holds ∧ Claims.kaSwitchToMain.Holds

/-- The commands of the recovery window have the effect of R480 to R484. -/
def Obligations.RecoveryTakesEffect : Prop :=
  Claims.recGetReasons.Holds ∧ Claims.recGetAttestation.Holds ∧ Claims.recLoadImage.Holds ∧ Claims.recSetBootSlot.Holds ∧
  Claims.recRestart.Holds ∧ Claims.recFinishLcMove.Holds ∧ (Claims.recLocked .recGetAttestation 2).Holds ∧
  (Claims.recLocked .recLoadImage 3).Holds ∧ (Claims.recLocked .recSetBootSlot 4).Holds ∧
  (Claims.recLocked .recRestart 5).Holds ∧ (Claims.recLocked .recFinishLcMove 6).Holds ∧ Claims.recResetNormal.Holds ∧
  Claims.recResetRecovery.Holds

/-- The events of the PCIe link have the effect of R403 to R407 and R542. -/
def Obligations.PcieLinkTakesEffect : Prop :=
  Claims.perstNAssert.Holds ∧ Claims.perstNRelease.Holds ∧ Claims.pcieLinkDown.Holds ∧ Claims.pcieLinkReturn.Holds ∧
  Claims.pcieLinkLossTimeout.Holds ∧ (∀ g w x, (Claims.pcieLinkTrained g w x).Holds) ∧
  (∀ l p, (Claims.pcieEqRequest l p).Holds) ∧ Claims.aspmL0sEntry.Holds ∧ Claims.aspmL1Entry.Holds

/-- BAR2, the memories' scrubs and changes, arbiters and links do what the manual says (the model's choices: log entries 126, 127, 130,
170 and 216). -/
def Obligations.MemoryEventsTakeEffect : Prop :=
  (∀ o d, (Claims.bar2Read o d).Holds) ∧ (∀ o d, (Claims.bar2Write o d).Holds) ∧
  (∀ w o d, (Claims.bar2Unmapped w o d).Holds ∧ (Claims.bar2Pages w o d).Holds) ∧ (∀ o d, (Claims.bar2Staging o d).Holds) ∧
  (∀ d n, (Claims.scrubPass d n).Holds) ∧ (∀ d n, (Claims.freqChangeDone d n).Holds) ∧
  (∀ g r b l w n k, (Claims.arbiterRequest g r b l w n k).Holds ∧ (Claims.arbiterIgnored g r b l w n k).Holds) ∧
  (∀ d r b l, (Claims.arbiterParked d r b l).Holds) ∧ (∀ d r b l w, (Claims.arbiterWaits d r b l w).Holds) ∧ (∀ d r b, (Claims.arbiterCutoff d r b).Holds) ∧
  (∀ r b, (Claims.egressCutoff r b).Holds) ∧ (∀ l f, (Claims.dowelFlitError l f).Holds) ∧
  (∀ l f, (Claims.dowelRetrainDone l f).Holds) ∧ (∀ l f, (Claims.dowelRetrainFails l f).Holds)

/-- Heartbeats, self-test, repair, uncorrectable errors, link stalls and temperatures do what the manual says. -/
def Obligations.HealthEventsTakeEffect : Prop :=
  (∀ d c, (Claims.dieHeartbeat d c).Holds) ∧ (∀ d, (Claims.heartbeatTimeout d).Holds) ∧
  (∀ d, (Claims.isstSliceStart d).Holds) ∧ (∀ d, (Claims.isstSlicePass d).Holds) ∧
  (∀ d, (Claims.isstSliceDeferred d).Holds) ∧ (∀ d, (Claims.isstSliceFail d).Holds) ∧
  (∀ d p, (Claims.dieRepairBistDone d p).Holds) ∧ (∀ d c l, (Claims.dramUncorrectable d c l).Holds) ∧
  (∀ l, (Claims.hostBufferUncorrectable l).Holds) ∧ (∀ l, (Claims.journalUncorrectable l).Holds) ∧
  (∀ l, (Claims.dowelStall l).Holds) ∧ (∀ j, (Claims.thermalSample j).Holds) ∧ Claims.thermTrip.Holds

/-- Tamper, test-port and security-processor events do what the manual says. -/
def Obligations.SecurityEventsTakeEffect : Prop :=
  (∀ i, (Claims.tamperTrip i).Holds) ∧ Claims.wipeDone.Holds ∧ (∀ i, (Claims.tapInstructionLoad i).Holds) ∧
  Claims.spFatalError.Holds ∧ Claims.securityProcessorRestartDone.Holds

/-- Fence, take-over, repair and journal of the management processors do what the manual says. -/
def Obligations.ManagementFailoverTakesEffect : Prop :=
  Claims.mpReport.Holds ∧ Claims.mpReportTimeout.Holds ∧ Claims.mpFatalError.Holds ∧ Claims.mpFatalErrorInStart.Holds ∧
  Claims.standbyStartDone.Holds ∧ Claims.takeoverComplete.Holds ∧ (∀ p, (Claims.mpRepairBistDone p).Holds) ∧
  (∀ w v, (Claims.fencedProcessorLateWrite w v).Holds) ∧ Claims.fencedProcessorLateJournal.Holds ∧
  Claims.firmwareStateJournal.Holds

/-- Connections, handshakes, protected frames and the arrival of staged sets do what the manual says. -/
def Obligations.SessionEventsTakeEffect : Prop :=
  (∀ n p, (Claims.sessionConnect n p).Holds) ∧ (∀ n p, (Claims.sessionLockout n p).Holds) ∧
  (∀ n f, (Claims.handshakeH1 n f).Holds) ∧ (∀ n f, (Claims.handshakeH3 n f).Holds) ∧
  (∀ n, (Claims.handshakeTimeout n).Holds) ∧ Claims.connectionLockoutEnd.Holds ∧
  (∀ n f, (Claims.protectedFrame n f).Holds) ∧ (∀ n, (Claims.sessionIdleTimeout n).Holds) ∧
  Claims.stagedSetArrival.Holds ∧ Claims.stagedSetWaits.Holds ∧ (∀ d c, (Claims.stagedSetPipe3 d c).Holds) ∧
  (∀ d c, (Claims.stagedSetLost d c).Holds) ∧ (∀ h c, (Claims.stagedStartLost h c).Holds)

/-- Picture boundaries, source rows, composition and pre-analysis do what the manual says (the model's choices where it leaves them:
log entries 195 to 200, 203, 213 and 218 to 225). -/
def Obligations.PictureEventsTakeEffect : Prop :=
  (∀ c, (Claims.pictureBoundaryIdle c).Holds) ∧ (∀ c, (Claims.pictureBoundary c).Holds) ∧
  (∀ c, (Claims.pictureBoundaryEarly c).Holds) ∧ (∀ c, (Claims.pictureBoundaryStop c).Holds) ∧
  (∀ d, (Claims.pipe3BoundaryEmpty d).Holds) ∧ (∀ d, (Claims.pipe3BoundaryBusy d).Holds) ∧
  (∀ d, (Claims.pipe3PictureBoundary d).Holds) ∧ (∀ c, (Claims.sourcePictureMissing c).Holds) ∧
  (∀ c, (Claims.sourcePictureMissingPool c).Holds) ∧ (∀ c r m x, (Claims.rowArrivalPost c r m x).Holds) ∧
  (∀ c r m x, (Claims.rowArrivalInOrder c r m x).Holds) ∧ (∀ c r m x, (Claims.rowArrivalOutOfOrder c r m x).Holds) ∧
  (∀ c l x y, (Claims.pictureCopyDone c l x y).Holds) ∧ (∀ c r, (Claims.generatedRowAvailable c r).Holds) ∧
  (∀ c r, (Claims.generatedRowFree c r).Holds) ∧ (∀ c p r, (Claims.compositionRowDone c p r).Holds) ∧
  (∀ c, (Claims.commitAppliedReport c).Holds) ∧ (∀ c p r o, (Claims.analysisRowDone c p r o).Holds) ∧
  (∀ c p r o, (Claims.analysisRowEarly c p r o).Holds)

/-- Judgements, orders, the mitre seam and what the hub keeps of a die do what the manual says (the model's choices: log entries 205
to 207, 226, 230 and 232). -/
def Obligations.RowEventsTakeEffect : Prop :=
  (∀ c, (Claims.rowJudgement c).Holds) ∧ (∀ c, (Claims.rowJudgementS3 c).Holds) ∧
  (∀ c, (Claims.rowJudgementNotYet c).Holds) ∧
  (∀ c p r, (Claims.commitOrder c p r).Holds) ∧ (∀ c p r, (Claims.rewindOrder c p r).Holds) ∧
  (∀ c p r, (Claims.fillOrder c p r).Holds) ∧ (∀ o c p r, (Claims.orderDiscarded o c p r).Holds) ∧
  (∀ o c p r, (Claims.orderAfterDeadline o c p r).Holds) ∧
  (∀ c, (Claims.checkpointRestoreDone c).Holds) ∧ (∀ c, (Claims.partnerOrder c).Holds) ∧
  (∀ c o, (Claims.seamDataArrival c o).Holds) ∧ (∀ c o n k x, (Claims.seamRowArrival c o n k x).Holds) ∧
  (∀ c, (Claims.failoverStateUpdate c).Holds) ∧ (∀ c p t, (Claims.fillSetUpdate c p t).Holds)

/-- Stitching and release do what the manual says (the model's choices: log entries 120, 121, 177, 204, 208 and 233). -/
def Obligations.ReleaseTakesEffect : Prop :=
  (∀ c p d, (Claims.stitchDeadline c p d).Holds) ∧ (∀ c p d, (Claims.stitchDeadlineHole c p d).Holds) ∧
  (∀ c t, (Claims.stitchRelease c t).Holds) ∧ (∀ c, (Claims.duRecordArrival c).Holds) ∧
  (∀ c, (Claims.duRelease c).Holds) ∧ (∀ c, (Claims.duReleaseEarly c).Holds) ∧
  (∀ c, (Claims.duReleaseAbsent c).Holds) ∧ (∀ c, (Claims.duReleaseJoins c).Holds)

/-- Enqueues, posts, dispatch, completion, cancels, deadlines, locks and the watchdog do what the manual says. -/
def Obligations.SchedulerEventsTakeEffect : Prop :=
  (∀ k a d, (Claims.descriptorRefused k a d).Holds) ∧ (∀ k a d, (Claims.descriptorEnqueue k a d).Holds) ∧
  (∀ k a d, (Claims.descriptorHeld k a d).Holds) ∧ (∀ k, (Claims.backpressureEnd k).Holds) ∧
  (∀ k x b, (Claims.taskPost k x b).Holds) ∧ (∀ k f q b, (Claims.sequencePost k f q b).Holds) ∧
  (∀ k f q b, (Claims.sequencePostStale k f q b).Holds) ∧ (∀ k f q b, (Claims.sequencePostWaits k f q b).Holds) ∧
  (∀ k f b, (Claims.flowPost k f b).Holds) ∧ (∀ k a, (Claims.taskDispatch k a).Holds) ∧
  (∀ k a, (Claims.taskDispatchBusy k a).Holds) ∧ (∀ k a x, (Claims.taskComplete k a x).Holds) ∧
  (∀ k a x, (Claims.taskCompleteLate k a x).Holds) ∧ (∀ k a x, (Claims.taskCompleteStale k a x).Holds) ∧ (∀ k x, (Claims.taskCancel k x).Holds) ∧
  (∀ k f q, (Claims.flowSquash k f q).Holds) ∧ (∀ k, (Claims.deadlineExpiry k).Holds) ∧
  (∀ k a l, (Claims.directLockAcquire k a l).Holds) ∧ (∀ k a l, (Claims.directLockRelease k a l).Holds) ∧
  (∀ k a, (Claims.taskWatchdog k a).Holds) ∧ (∀ k a, (Claims.taskWatchdogInTime k a).Holds)

/-- Reception, policing, loss, paths, ticks, transmission, gates, PTP messages and manifests do what the manual says (the model's
choices: log entries 29, 109 to 116, 166, 167, 212 and 213). -/
def Obligations.TrafficEventsTakeEffect : Prop :=
  (∀ i f, (Claims.ingressBad i f).Holds) ∧ (∀ i f, (Claims.ingressUnmatched i f).Holds) ∧
  (∀ i f, (Claims.ingressExempt i f).Holds) ∧ (∀ i f, (Claims.ingressBadChecksum i f).Holds) ∧ (∀ i f, (Claims.ingressPacket i f).Holds) ∧
  (∀ i f, (Claims.ingressPoliced i f).Holds) ∧ (∀ i f, (Claims.ingressShared i f).Holds) ∧
  (∀ g, (Claims.packetLossDeclare g).Holds) ∧
  (∀ g i, (Claims.pathDownTimeout g i).Holds) ∧ (∀ g i, (Claims.pathUp g i).Holds) ∧
  (∀ l x, (Claims.sdiLineDown l x).Holds) ∧ (∀ l x, (Claims.sdiLineReceive l x).Holds) ∧
  (∀ g, (Claims.manifestSigned g).Holds) ∧ (∀ g, (Claims.manifestWaits g).Holds) ∧ Claims.refillTick.Holds ∧
  (∀ i, (Claims.frameTxEnd i).Holds) ∧ (∀ i, (Claims.frameTxBusy i).Holds) ∧
  (∀ i, (Claims.gateEntryChange i).Holds) ∧ (∀ i, (Claims.gatelistStart i).Holds) ∧
  (∀ i m, (Claims.ptpSendTrigger i m).Holds)

/-- Rate lock, detectors, negotiation, training, adaptation and low-power idle of lanes do what the manual says (the model's choices:
log entries 160, 162 and 215). -/
def Obligations.LaneEventsTakeEffect : Prop :=
  (∀ l, (Claims.lpiWakeExpiry l).Holds) ∧ (∀ l r f, (Claims.sdiRateLock l r f).Holds) ∧
  (∀ l v, (Claims.laneDetectorAssert l v).Holds) ∧ (∀ l, (Claims.laneUpTimer l).Holds) ∧
  (∀ l f, (Claims.autonegDone l f).Holds) ∧ (∀ l k u, (Claims.coeffUpdateRequest l k u).Holds) ∧
  (∀ l e, (Claims.trainingDone l e).Holds) ∧ (∀ l, (Claims.trainingWaitTimeout l).Holds) ∧
  (∀ l, (Claims.sdiAdaptationFail l).Holds) ∧ (∀ l, (Claims.lpiEntry l).Holds) ∧
  (∀ l e, (Claims.partnerLpi l e).Holds)

/-- Decoding, check units and SDI outputs do what the manual says (the model's choices: log entries 94 to 99, 210 and 215). -/
def Obligations.DecodeEventsTakeEffect : Prop :=
  (∀ c x, (Claims.decoderAuArrival c x).Holds) ∧ (∀ c x, (Claims.decoderAuRejected c x).Holds) ∧
  (∀ c x, (Claims.decoderAuSkipped c x).Holds) ∧
  (∀ c p, (Claims.decodePictureDone c p).Holds) ∧ (∀ c p, (Claims.decodePictureFull c p).Holds) ∧
  (∀ c p, (Claims.decodePictureEmpty c p).Holds) ∧
  (∀ u p v, (Claims.checkValueComplete u p v).Holds) ∧ (∀ u p v, (Claims.checkValueEmpty u p v).Holds) ∧
  (∀ u p v, (Claims.checkValueAhead u p v).Holds) ∧ (∀ u p v, (Claims.checkValueMissed u p v).Holds) ∧
  (∀ u p v, (Claims.checkValueStale u p v).Holds) ∧
  (∀ l, (Claims.sdiOutPictureBoundary l).Holds) ∧ (∀ l, (Claims.sdiOutEarly l).Holds)

/-- Frame edges, clock loss, samples, delivery, rates, converters and DSPs do what the manual says (the model's choices: log entries
100 to 107 and 211). -/
def Obligations.AudioEventsTakeEffect : Prop :=
  (∀ i, (Claims.audioFsyncEdge i).Holds) ∧ (∀ i, (Claims.audioFramingError i).Holds) ∧
  (∀ i g, (Claims.audioClockReturn i g).Holds) ∧ (∀ i, (Claims.audioClockLoss i).Holds) ∧
  (∀ p x, (Claims.audioSampleArrival p x).Holds) ∧ (∀ p x a, (Claims.audioSamplesOutOfRange p x a).Holds) ∧
  (∀ p x, (Claims.audioSamplesRateLost p x).Holds) ∧ (∀ p, (Claims.audioPositionDelivery p).Holds) ∧
  (∀ p, (Claims.audioPositionEarly p).Holds) ∧ (∀ h f n, (Claims.rateWindowEnd h f n).Holds) ∧
  (∀ n r, (Claims.asrcLock n r).Holds) ∧ (∀ p n, (Claims.aacAuDone p n).Holds) ∧ (∀ d, (Claims.dspWatchdog d).Holds) ∧
  (∀ d, (Claims.dspRestartDone d).Holds)

/-- Wraps, maintenance, PTP messages and ports, the servo, PPS and 10 MHz do what the manual says (the model's choices: log entries 13
to 16 and 214). -/
def Obligations.TimeEventsTakeEffect : Prop :=
  Claims.timeWrap.Holds ∧ Claims.maintenancePass.Holds ∧ (∀ i d o c, (Claims.ptpSync i d o c).Holds) ∧
  (∀ i d c, (Claims.ptpSyncTwoStep i d c).Holds) ∧ (∀ i d o c, (Claims.ptpFollowUp i d o c).Holds) ∧
  (∀ i d r c, (Claims.ptpDelayResp i d r c).Holds) ∧ (∀ i d r o c, (Claims.ptpPdelayResp i d r o c).Holds) ∧
  (∀ i d a, (Claims.ptpAnnounce i d a).Holds) ∧ (∀ i d, (Claims.ptpRequests i d).Holds) ∧
  (∀ i d, (Claims.ptpPdelayReq i d).Holds) ∧ (∀ i d b, (Claims.ptpManagement i d b).Holds) ∧
  (∀ i d m, (Claims.ptpOtherDomain i d m).Holds) ∧ (∀ i d m, (Claims.ptpMasked i d m).Holds) ∧
  (∀ i, (Claims.announceReceiptTimeout i).Holds) ∧ (∀ i, (Claims.ptpPortStateChange i).Holds) ∧
  (∀ i, (Claims.ptpMasterRefused i).Holds) ∧ Claims.servoHoldoverTimeout.Holds ∧ Claims.ppsOutEdge.Holds ∧
  (∀ r, (Claims.ppsInWrongEdge r).Holds) ∧ (∀ r, (Claims.ppsInEdge r).Holds) ∧ Claims.ppsInLost.Holds ∧
  Claims.ref10mInLost.Holds ∧ Claims.ref10mInReturn.Holds

/-- A step runs the command at the front of the queue with the queue's rest. -/
def Obligations.StepRunsFrontCommand : Prop :=
  ∀ (s : State) (c : Instr) (rest : List Instr), s.pending = c :: rest → step s = exec c { s with pending := rest }

/-- No word spells a command: the opcode table gives no row any bits, and placing a word changes nothing. -/
def Obligations.NoWordSpellsACommand : Prop :=
  ∀ (s : State) (n w : Nat), Sys2Proof.decodeTableWord n w = none ∧ s.withFetchWord n w = s

/-- With no command waiting a step is one cycle of `TCLK` (the model's choice, log entry 1), which changes the clock alone:
out of reset the counter with its fraction grows by 2 ns and the addend modulo 2^64 units (R360), and only a carry out
of `TIME_NS` counts a wrap and moves the epoch, by 4.294967296 s (R363); in reset nothing moves. -/
def Obligations.IdleStepIsOneCycle : Prop :=
  ∀ s : State, s.pending = [] → ∃ t, step s = .next t ∧ t = { s with time := t.time } ∧
    (s.boot.held = true → t = s) ∧
    (s.boot.held = false → s.time.sound → -(2 ^ 33 : Int) ≤ s.time.adj →
      let sum := s.time.ns * 2 ^ 32 + s.time.frac + (2 ^ 33 + s.time.adj).toNat
      t.time.ns * 2 ^ 32 + t.time.frac = sum % 2 ^ 64 ∧
        (sum < 2 ^ 64 → t.time.wraps = s.time.wraps ∧ t.time.epochNs = s.time.epochNs) ∧
        (2 ^ 64 ≤ sum → t.time.wraps = s.time.wraps + 1 ∧
          t.time.epochNs = (s.time.epochNs + 4294967296) % (2 ^ 48 * 1000000000)))

/-- Every command completes: whatever the command and the state, `exec` answers a next state, with no fault and no refusal. -/
def Obligations.EveryCommandAnswers : Prop := ∀ (c : Instr) (s : State), ∃ t, exec c s = .next t

/-- No command changes the queue of waiting commands. -/
def Obligations.CommandsKeepTheQueue : Prop := ∀ (c : Instr) (s t : State), exec c s = .next t → t.pending = s.pending

/-- The state after reset is sound: clock and epoch within their bounds (R361, R362), memories canonical. -/
def Obligations.ResetStateSound : Prop := State.reset.sound

/-- Every step keeps a state sound. From any state whose counter and fraction lie within 32 bits, whose epoch holds nanoseconds
below one second and 48-bit seconds (R361 to R363), and whose mailbox and mapped buffers are memories in canonical form, whatever
command is at the front of the queue, or with none, a next state has these properties too. -/
def Obligations.StepsKeepStateSound : Prop := ∀ s t : State, s.sound → step s = .next t → t.sound

/-- After reset the device is held in reset with its stage at RESET, no function enabled for ECI, no command waiting, fetched or
running, no object and no session; each function's causes are clear and its mask holds `BOOT`, `MBX_COLLIDE` and `FAST_DONE`;
its rings and sizes read zero; and device time and epoch are zero (R36 to R40, R363, R470). -/
def Obligations.ResetState : Prop :=
  let s := State.reset
  s.boot.stage = .reset ∧ s.boot.held = true ∧ s.pending = [] ∧ s.eci.fetched = [] ∧ s.eci.running = [] ∧
    s.eci.owners = [] ∧ s.eci.sessions = [] ∧ s.time.ns = 0 ∧ s.time.frac = 0 ∧ s.time.epochNs = 0 ∧ s.time.wraps = 0 ∧
    ∀ f : Fin 33, (s.fn f.val).en = false ∧ (s.fn f.val).rdy = false ∧ (s.fn f.val).intCause = 0 ∧
      (∀ b < 24, bit (s.fn f.val).intMask b = (b == 23 || b == 20 || b == 18)) ∧
      (∀ off ∈ [0x100, 0x104, 0x108, 0x10C, 0x110, 0x114, 0x118, 0x11C, 0x120, 0x2000, 0x2008, 0x2010],
        s.readBar0 f.val off 4 = 0)

/-- In the safe state host writes are discarded: register and doorbell writes, mailbox and BAR2 writes, function-level resets,
SR-IOV changes and the two resets of the recovery window leave the state as it is (R484). -/
def Obligations.SafeStateDiscardsWrites : Prop :=
  ∀ (s : State) (f : Fn) (off : BitVec 18) (w : Fin 9) (v : BitVec 32) (q : QId) (es : List Fetch) (b : Bool)
    (at_ : BitVec 32) (data : List (BitVec 8)) (bar4 : Bool), s.boot.stage = .safe →
      exec (.registerWrite f bar4 off w v) s = .next s ∧ exec (.eciEnable f) s = .next s ∧ exec (.eciDisable f) s = .next s ∧
      exec (.intCauseClear f v) s = .next s ∧ exec (.intMaskWrite f v) s = .next s ∧
      exec (.dbSqWrite f q v es) s = .next s ∧ exec (.dbFastWrite f v) s = .next s ∧
      exec (.mailboxHostWrite f off w v b) s = .next s ∧ exec (.functionLevelReset f) s = .next s ∧
      exec (.vfEnable f) s = .next s ∧ exec (.vfRemoval f) s = .next s ∧ exec (.bar2Access true at_ data) s = .next s ∧
      exec .recResetNormal s = .next s ∧ exec .recResetRecovery s = .next s

/-- Each ring base register pair holds a host address of which a write to the `_LO` register sets bits 31:12 and the write to
the `_HI` register bits 63:32; bits 11:0 of a `_LO` register read zero whatever was written, so that a base names a 4 KiB
boundary, the one at or below the value written (R38). -/
def Obligations.RingBasesAreAligned : Prop :=
  ∀ (s : State) (f : Fn) (v : BitVec 32), s.hostWrites f.val = true →
    ∀ r ∈ ([(0x108, fun g : FnState => g.asqBase), (0x110, fun g => g.acqBase), (0x118, fun g => g.eqBase)] :
        List (BitVec 18 × (FnState → BitVec 64))),
      (∃ t, exec (.registerWrite f false r.1 4 v) s = .next t ∧
        t.readBar0 f.val r.1.toNat 4 = v - v % 4096 ∧ t.readBar0 f.val (r.1.toNat + 4) 4 = s.readBar0 f.val (r.1.toNat + 4) 4 ∧
        (r.2 (t.fn f.val)).toNat % 4096 = 0 ∧ (r.2 (t.fn f.val)).toNat % 2 ^ 32 = v.toNat / 4096 * 4096) ∧
      (∃ t, exec (.registerWrite f false (r.1 + 4) 4 v) s = .next t ∧ t.readBar0 f.val (r.1.toNat + 4) 4 = v ∧
        t.readBar0 f.val r.1.toNat 4 = s.readBar0 f.val r.1.toNat 4 ∧
        (r.2 (t.fn f.val)).toNat / 2 ^ 32 = v.toNat)

/-- A host access of another width than 32 bits, or at an offset that is not a multiple of 4, reads zero and writes nothing
(R36). -/
def Obligations.OddAccessesDoNothing : Prop :=
  ∀ (s : State) (f : Fn) (off : BitVec 18) (w : Fin 9) (v : BitVec 32) (b bar4 : Bool), w.val ≠ 4 ∨ off.toNat % 4 ≠ 0 →
    s.readBar0 f.val off.toNat w.val = 0 ∧ exec (.registerWrite f bar4 off w v) s = .next s ∧
      exec (.mailboxHostWrite f off w v b) s = .next s

/-- A write to one function's instance of a register changes no other function's instance (R37). -/
def Obligations.FunctionsHaveTheirOwnRegisters : Prop :=
  ∀ (s t : State) (f g : Fn) (off : BitVec 18) (w : Fin 9) (v : BitVec 32) (bar4 : Bool) (i : Instr), f ≠ g →
    i ∈ [.registerWrite f bar4 off w v, .eciEnable f, .eciDisable f, .intCauseClear f v, .intMaskWrite f v] →
    exec i s = .next t → t.fn g.val = s.fn g.val

/-- A vector is raised once at each change of its condition from false to true, and at no other time (R42). -/
def Obligations.VectorsAreRaisedOnChange : Prop :=
  ∀ (before after : FnState) (v : Nat), v < 18 →
    (FnState.settle before after).raised.look 0 v =
        after.raised.look 0 v + b2n (!before.vectorCond v && after.vectorCond v) ∧
      (FnState.settle before after).intCause = after.intCause ∧ (FnState.settle before after).intMask = after.intMask

/-- A word stored in a canonical mailbox reads back, every byte outside it reads as before, and the mailbox stays
canonical (R43, R44). -/
def Obligations.MailboxWordsReadBack : Prop :=
  ∀ (s : State) (x v : Nat), Memory.wf s.eci.mailbox = true →
    let t := s.mbxStore x (le 4 v)
    t.mbxWord x = v % 2 ^ 32 ∧
      (∀ a, a < x ∨ x + 4 ≤ a → t.eci.mailbox.get a = s.eci.mailbox.get a) ∧
      Memory.wf t.eci.mailbox = true ∧ t = { s with eci := t.eci }

/-- Two canonical memories that read the same at every address are the same list, and the memory after reset is one. -/
def Obligations.CanonicalMemoriesAreEqual : Prop :=
  Memory.wf State.reset.eci.mailbox = true ∧
    ∀ m n : Cells, Memory.wf m = true → Memory.wf n = true → (∀ a, m.get a = n.get a) → m = n

/-- The events of an object go to the function that owns it and to no other: another function's registers, rings and counters
stay as they are, and nothing but the interface changes (R51). -/
def Obligations.EventsGoToTheOwnerAlone : Prop :=
  ∀ (s : State) (k : EventKind) (h detail g : Nat) (pic : Option Nat), h ≠ deviceHandle → g ≠ s.ownerOf h →
    ((s.raise k h detail pic).eci.fns.look {} g = s.fn g) ∧
      s.raise k h detail pic = { s with eci := (s.raise k h detail pic).eci }

/-- A completion entry takes the slot at `CQ_TAIL` with the phase of the present pass; the tail advances modulo the ring's size,
and the phase turns when the tail comes back to 0 (R50). -/
def Obligations.CompletionsFillTheRing : Prop :=
  ∀ (s : State) (f q : Nat) (c : Completion) (u : Queue), (s.fn f).queues.find q = some u →
    Memory.wf s.eci.mailbox = true →
    let t := s.writeCompletion f q c
    ∃ w, (t.fn f).queues.find q = some w ∧ w.cq.find u.cqTail = some { c with phase := u.phase } ∧
      w.cqTail = (u.cqTail + 1) % 2 ^ u.cqLog2 ∧ (w.phase = u.phase ↔ w.cqTail ≠ 0) ∧
      (∀ i, i ≠ u.cqTail → w.cq.find i = u.cq.find i) ∧ t.mbxWord (indexBlock f q + 8) = w.cqTail % 2 ^ 32

/-- A completion entry is 32 bytes, with each field at its place (table of R50). -/
def Obligations.CompletionEntryLayout : Prop :=
  ∀ c : Completion, c.encode.length = 32 ∧ u16 c.encode 0 = c.status.code % 2 ^ 16 ∧ u16 c.encode 2 = c.cmdId % 2 ^ 16 ∧
    u16 c.encode 4 = c.sqHead % 2 ^ 16 ∧ u8 c.encode 6 = c.queue % 256 ∧ u32 c.encode 8 = c.result % 2 ^ 32 ∧
    u32 c.encode 0xC = c.responseLen % 2 ^ 32 ∧ u64 c.encode 0x18 = c.detail % 2 ^ 64 ∧
    bit (u8 c.encode 7) 0 = c.phase ∧ bit (u8 c.encode 7) 1 = c.boundary.isSome ∧ bit (u8 c.encode 7) 3 = c.trunc ∧
    (c.boundary = none → u64 c.encode 0x10 = 0 ∧ bit (u8 c.encode 7) 2 = false) ∧
    (∀ n, c.boundary = some (.pic n) → u64 c.encode 0x10 = n % 2 ^ 64 ∧ bit (u8 c.encode 7) 2 = false) ∧
    (∀ n, c.boundary = some (.time n) → u64 c.encode 0x10 = n % 2 ^ 64 ∧ bit (u8 c.encode 7) 2 = true)

/-- An ECI command that a common check refuses completes with that check's status and changes nothing else; a submission that is
not among the fetched entries that may start does nothing (R540 steps 2 to 6, R59). -/
def Obligations.RefusedCommandsCompleteUnchanged : Prop :=
  ∀ (c : Submission) (s : State), ∀ p ∈ Claims.eciRows c,
    (s.ready p.2.opcode c = none → exec p.1 s = .next s) ∧
      ∀ t r, s.ready p.2.opcode c = some t → p.2.judge (t.cmd c) (s.takeUp t) = some r →
        r.status ≠ .eBusy ∧ exec p.1 s = .next ((s.takeUp t).complete (t.cmd c) r)

/-- The checks come in the order of R540: the path, the entry, the target handle, its owner, the payload; the first that fails
gives the status. -/
def Obligations.ChecksComeInOrder : Prop :=
  ∀ e ∈ eciTable, ∀ (k : Cmd) (s : State) (r : Reply),
    (e.pathCheck k s = some r → e.judge k s = some r) ∧
    (e.pathCheck k s = none → e.entryCheck k = some r → e.judge k s = some r) ∧
    (e.pathCheck k s = none → e.entryCheck k = none → e.handleCheck k s = some r → e.judge k s = some r) ∧
    (e.pathCheck k s = none → e.entryCheck k = none → e.handleCheck k s = none → e.ownerCheck k s = some r →
      e.judge k s = some r) ∧
    (e.pathCheck k s = none → e.entryCheck k = none → e.handleCheck k s = none → e.ownerCheck k s = none →
      e.judge k s = formFail (e.form k.payload s ++ e.formIn k s))

/-- A command that completes with an error when it is run made no change to the device: its state is as before. -/
def Obligations.ErrorsMakeNoChange : Prop :=
  ∀ e ∈ eciTable, ∀ (k : Cmd) (s t : State) (r : Reply), e.run k s = .done r t → r.status.isError = true →
    t = s

/-- The admin queue takes every command but those of a network session; an I/O queue completes the `QUEUE` commands,
`OBJECT.REASSIGN`, `DEVICE.VF_QUOTA`, `DEVICE.IMAGE_LOAD` and `DEVICE.RESTART` with `E_BAD_OPCODE` and takes the others
(R60, R71). -/
def Obligations.IoQueuesRefuseAdminCommands : Prop :=
  ∀ e ∈ eciTable, ∀ (k : Cmd) (s : State) (f q : Nat), k.tok.via = .ring f q →
    (q ≠ 0 ∧ e.opcode ∈ [0x0004, 0x0005, 0x0007, 0x0008, 0x0009, 0x000A] → e.judge k s = some { status := .eBadOpcode }) ∧
    (e.opcode ∈ [0x0010, 0x0011, 0x0012] → e.judge k s = some { status := .eBadOpcode }) ∧
    ((q = 0 ∨ e.opcode ∉ [0x0004, 0x0005, 0x0007, 0x0008, 0x0009, 0x000A]) → e.opcode ∉ [0x0010, 0x0011, 0x0012] →
      e.pathCheck k s = none)

/-- The opcodes of the commands differ from each other, and they are the opcodes that firmware knows (R58). -/
def Obligations.OpcodesAreDistinct : Prop :=
  (eciTable.map EciSpec.opcode).Nodup ∧ ∀ n, n ∈ eciTable.map EciSpec.opcode ↔ n ∈ knownOpcodes

/-- A handle holds its type in bits 31:24, its die in bits 23:16 and its index in bits 15:0 (R54). -/
def Obligations.HandlesHoldTheirFields : Prop :=
  (∀ type die idx, type < 256 → die < 256 → idx < 65536 →
    mkHandle type die idx < 2 ^ 32 ∧ handleType (mkHandle type die idx) = type ∧ handleDie (mkHandle type die idx) = die ∧
      handleIndex (mkHandle type die idx) = idx) ∧
    mkHandle 0x10 3 5 = 0x10030005 ∧ mkHandle 0x21 0xFF 4000 = 0x21FF0FA0 ∧ mkHandle 1 0xFF 0 = deviceHandle

/-- A freed index comes back only after every index that was free before it (R55). -/
def Obligations.FreedIndicesComeLast : Prop :=
  ∀ (l : FreeList) (limit i : Nat),
    let back : FreeList := { l with freed := l.freed ++ [i] }
    (∀ j m, l.take limit = some (j, m) → back.take limit = some (j, { m with freed := m.freed ++ [i] })) ∧
      (l.take limit = none → back.take limit = some (i, l)) ∧
      (l.take limit = none ↔ limit ≤ l.next ∧ l.freed = [])

/-- CHANNEL.ADMIT_CHECK runs every admission check on a CHANNEL.CREATE payload and reports the result; it creates nothing and
reserves nothing; and a CHANNEL.CREATE with the same payload is admitted only if the checks pass then (R80). -/
def Obligations.AdmitCheckForetellsCreate : Prop :=
  ∀ (k : Cmd) (s : State),
    specChannelAdmitCheck.form k.payload s = specChannelCreate.form k.payload s ∧
    (∃ r, specChannelAdmitCheck.run k s = .done r s) ∧
    (∀ q t, specChannelCreate.run k s = .done q t → q.status.isError = false →
      ∃ r, specChannelAdmitCheck.run k s = .done r s ∧ r.status.isError = false ∧ r.response = q.response) ∧
    (∀ r, specChannelAdmitCheck.run k s = .done r s → r.status.isError = true →
      ∃ q, specChannelCreate.run k s = .done q s ∧ q.status = r.status ∧ q.detail = r.detail)

/-- A sample that arrives after its position has been delivered, or in the cycle of its position's delivery, is late: it is
discarded and counted (R307). -/
def Obligations.LateSamplesAreDiscarded : Prop :=
  ∀ (s : State) (p : BitVec 32) (first mask : BitVec 64) (row : List (BitVec 32)),
    s.planeRuns = true → s.audio.programs.has p.toNat = true → (s.audio.programs.look {} p.toNat).asrc = none →
    let u := s.fixTe (s.audio.programs.look {} p.toNat).source first.toNat
    let g := u.audio.programs.look {} p.toNat
    let k := u.samplePosition g first.toNat
    u.fedChannels g mask.toNat ≠ [] → u.rateLost g = false → (k < g.next ∨ u.positionDue g k = true) →
    exec (.audioSampleArrival p { first, rows := [row], present := mask }) s =
      .next ((u.modProg p.toNat fun _ => { g with late := g.late + 1 }).reportOverrun p.toNat)
end

