-- ==== Sys2Proof/Laws/Bytes.lean ====
section
/-!
SUPPORT. Reading a little-endian field back from the bytes that were put together.
-/

namespace Sys2Proof.Machine

open Sys2Proof (Byte)

@[simp] theorem length_le (n v : Nat) : (le n v).length = n := by
  induction n generalizing v with
  | zero => rfl
  | succ n ih => simp [le, ih]

@[simp] theorem length_slice (p : List Byte) (o n : Nat) : (slice p o n).length = n := by
  simp [slice]

theorem ofLe_le (n v : Nat) : ofLe (le n v) = v % 256 ^ n := by
  induction n generalizing v with
  | zero => simp [le, ofLe, Nat.mod_one]
  | succ n ih =>
    simp only [le, ofLe, ih, BitVec.toNat_ofNat]
    rw [show (2 : Nat) ^ 8 = 256 from rfl, show 256 ^ (n + 1) = 256 * 256 ^ n from Nat.pow_succ', Nat.mod_mul]

/-- A field that lies wholly in the first part. -/
theorem fieldAt_append_left (a b : List Byte) (o n : Nat) (h : o + n ≤ a.length) :
    fieldAt (a ++ b) o n = fieldAt a o n := by
  unfold fieldAt
  rw [List.drop_append_of_le_length (by omega), List.take_append_of_le_length (by simp; omega)]

/-- A field that lies wholly beyond the first part. -/
theorem fieldAt_append_right (a b : List Byte) (o n : Nat) (h : a.length ≤ o) :
    fieldAt (a ++ b) o n = fieldAt b (o - a.length) n := by
  unfold fieldAt
  obtain ⟨k, rfl⟩ := Nat.exists_eq_add_of_le h
  have e : (a ++ b).drop (a.length + k) = b.drop k := by simp
  rw [e]; simp

theorem fieldAt_le (n v : Nat) : fieldAt (le n v) 0 n = v % 256 ^ n := by
  simp [fieldAt, List.take_of_length_le, ofLe_le]

/-- A field that is exactly the first part. -/
theorem fieldAt_le_append (n v : Nat) (b : List Byte) : fieldAt (le n v ++ b) 0 n = v % 256 ^ n := by
  rw [fieldAt_append_left _ _ _ _ (by simp), fieldAt_le]

end Sys2Proof.Machine
end

