-- ==== Sys2Proof/Laws/Cells.lean ====
section
/-!
SUPPORT. Byte memories in canonical form: what reads answer after a store, that every operation keeps the form, and that a
canonical memory is determined by what it reads.
-/

namespace Sys2Proof.Machine

/-- Below its bound a canonical memory reads zero. -/
theorem Cells.get_below {lo : Nat} {m : Cells} (h : Cells.wfFrom lo m = true) {a : Nat} (ha : a < lo) : m.get a = 0 := by
  induction m generalizing lo with
  | nil => rfl
  | cons e r ih =>
    obtain ⟨b, v⟩ := e
    simp only [wfFrom, Bool.and_eq_true, decide_eq_true_eq] at h
    rw [get, if_neg (by omega)]
    exact ih h.2 (by omega)

theorem Cells.wfFrom_mono {lo hi : Nat} {m : Cells} (h : Cells.wfFrom hi m = true) (hl : lo ≤ hi) :
    Cells.wfFrom lo m = true := by
  cases m with
  | nil => rfl
  | cons e r =>
    obtain ⟨b, v⟩ := e
    simp only [wfFrom, Bool.and_eq_true, decide_eq_true_eq] at h ⊢
    exact ⟨⟨by omega, h.1.2⟩, h.2⟩

/-- A store of one byte keeps the canonical form above any bound that the address meets. -/
theorem Cells.wfFrom_set {lo : Nat} {m : Cells} (h : Cells.wfFrom lo m = true) (a : Nat) (v : Byte) (ha : lo ≤ a) :
    Cells.wfFrom lo (m.set a v) = true := by
  induction m generalizing lo with
  | nil =>
    unfold set
    split
    · rfl
    · next hv => simpa [wfFrom, ha] using hv
  | cons e r ih =>
    obtain ⟨b, w⟩ := e
    have hb := h
    simp only [wfFrom, Bool.and_eq_true, decide_eq_true_eq] at hb
    obtain ⟨⟨hlo, hw⟩, hr⟩ := hb
    unfold set
    split
    · split
      · exact h
      · next hv =>
        have hab : a + 1 ≤ b := by omega
        simp only [wfFrom, Bool.and_eq_true, decide_eq_true_eq, Bool.not_eq_true', decide_eq_false_iff_not]
        exact ⟨⟨ha, hv⟩, ⟨hab, by simpa using hw⟩, hr⟩
    · split
      · next he =>
        subst he
        split
        · exact wfFrom_mono hr (by omega)
        · next hv =>
          simp only [wfFrom, Bool.and_eq_true, decide_eq_true_eq, Bool.not_eq_true', decide_eq_false_iff_not]
          exact ⟨⟨ha, hv⟩, hr⟩
      · simp only [wfFrom, Bool.and_eq_true, decide_eq_true_eq]
        exact ⟨⟨hlo, hw⟩, ih hr (by omega)⟩

/-- A store of one byte keeps the canonical form. -/
theorem Memory.wf_set {m : Cells} (h : Memory.wf m = true) (a : Nat) (v : Byte) : Memory.wf (m.set a v) = true :=
  Cells.wfFrom_set h a v (Nat.zero_le a)

/-- A store of a run of bytes keeps the canonical form. -/
theorem Memory.wf_store {m : Cells} (h : Memory.wf m = true) (a : Nat) (bs : List Byte) :
    Memory.wf (m.store a bs) = true := by
  induction bs generalizing m a with
  | nil => exact h
  | cons b bs ih => exact ih (wf_set h a b) (a + 1)

/-- What a byte reads after a store: the byte stored at its address, any other as before. -/
theorem Cells.get_set {lo : Nat} {m : Cells} (h : Cells.wfFrom lo m = true) (a b : Nat) (v : Byte) :
    (m.set a v).get b = if b = a then v else m.get b := by
  induction m generalizing lo with
  | nil =>
    unfold set
    split
    · next hv => subst hv; split <;> rfl
    · by_cases hb : b = a
      · subst hb; simp [get]
      · simp [get, hb, Ne.symm hb]
  | cons e r ih =>
    obtain ⟨j, w⟩ := e
    have hb := h
    simp only [wfFrom, Bool.and_eq_true, decide_eq_true_eq] at hb
    obtain ⟨⟨hlo, hw⟩, hr⟩ := hb
    unfold set
    split
    · next haj =>
      split
      · next hv =>
        subst hv
        by_cases hba : b = a
        · subst hba
          rw [if_pos rfl, get, if_neg (by omega)]
          exact get_below hr (by omega)
        · rw [if_neg hba]
      · by_cases hba : b = a
        · subst hba; simp [get]
        · rw [get, if_neg (by omega), if_neg hba]
    · split
      · next he =>
        subst he
        split
        · next hv =>
          subst hv
          by_cases hba : b = a
          · subst hba
            rw [if_pos rfl]
            exact get_below hr (by omega)
          · rw [if_neg hba, get, if_neg (by omega)]
        · by_cases hba : b = a
          · subst hba; simp [get]
          · rw [if_neg hba, get, get, if_neg (by omega), if_neg (by omega)]
      · by_cases hjb : j = b
        · subst hjb
          rw [get, if_pos rfl, if_neg (by omega), get, if_pos rfl]
        · rw [get, if_neg hjb, ih hr, get, if_neg hjb]

/-- A store of a run of bytes leaves the bytes outside the run as they are. -/
theorem Cells.get_store_outside {m : Cells} (h : Memory.wf m = true) (a b : Nat) (bs : List Byte)
    (ho : b < a ∨ a + bs.length ≤ b) : (m.store a bs).get b = m.get b := by
  induction bs generalizing m a with
  | nil => rfl
  | cons x bs ih =>
    simp only [List.length_cons] at ho
    rw [store, ih (Memory.wf_set h a x) (a + 1) (by omega), get_set h, if_neg (by omega)]

/-- A run of bytes that has been stored reads back. -/
theorem Cells.load_store {m : Cells} (h : Memory.wf m = true) (a : Nat) (bs : List Byte) :
    (m.store a bs).load a bs.length = bs := by
  induction bs generalizing m a with
  | nil => rfl
  | cons x bs ih =>
    rw [List.length_cons, load, store, ih (Memory.wf_set h a x) (a + 1),
      get_store_outside (Memory.wf_set h a x) _ _ _ (by omega), get_set h, if_pos rfl]

/-- Dropping entries keeps the canonical form above a bound. -/
theorem Cells.wfFrom_filter {lo : Nat} {m : Cells} (h : Cells.wfFrom lo m = true) (p : Host.Cell → Bool) :
    Cells.wfFrom lo (m.filter p) = true := by
  induction m generalizing lo with
  | nil => rfl
  | cons e r ih =>
    obtain ⟨b, v⟩ := e
    simp only [wfFrom, Bool.and_eq_true, decide_eq_true_eq] at h
    rw [List.filter_cons]
    split
    · simp only [wfFrom, Bool.and_eq_true, decide_eq_true_eq]
      exact ⟨h.1, ih h.2⟩
    · exact wfFrom_mono (ih h.2) (by omega)

/-- Dropping entries keeps the canonical form. -/
theorem Memory.wf_filter {m : Cells} (h : Memory.wf m = true) (p : Host.Cell → Bool) : Memory.wf (m.filter p) = true :=
  Cells.wfFrom_filter h p

/-- The empty memory, the one after reset, is canonical. -/
theorem Memory.wf_nil : Memory.wf [] = true := rfl

end Sys2Proof.Machine
end

