-- ==== Sys2Proof/Laws/Tab.lean ====
section
/-!
SUPPORT. What a table answers after a change: the entry that was put, and every other entry as before.
-/

namespace Sys2Proof.Machine

variable {α : Type}

@[simp] theorem Tab.find_put_self (t : Tab α) (k : Nat) (v : α) : (t.put k v).find k = some v := by
  induction t with
  | nil => simp [put, find]
  | cons e r ih =>
    obtain ⟨j, w⟩ := e
    unfold put
    split
    · simp [find]
    · split
      · simp [find]
      · simp [find, ih, show ¬ j = k by omega]

theorem Tab.find_put_ne (t : Tab α) {k l : Nat} (v : α) (h : l ≠ k) : (t.put k v).find l = t.find l := by
  induction t with
  | nil => simp [put, find, h.symm]
  | cons e r ih =>
    obtain ⟨j, w⟩ := e
    unfold put
    split
    · simp [find, h.symm]
    · split
      · next he => subst he; simp [find, h.symm]
      · simp [find, ih]

@[simp] theorem Tab.look_put_self (t : Tab α) (d : α) (k : Nat) (v : α) : (t.put k v).look d k = v := by
  simp [look]

theorem Tab.look_put_ne (t : Tab α) (d : α) {k l : Nat} (v : α) (h : l ≠ k) : (t.put k v).look d l = t.look d l := by
  simp [look, find_put_ne t v h]

@[simp] theorem Tab.look_modD_self (t : Tab α) (d : α) (k : Nat) (f : α → α) :
    (t.modD d k f).look d k = f (t.look d k) := by simp [modD]

theorem Tab.look_modD_ne (t : Tab α) (d : α) {k l : Nat} (f : α → α) (h : l ≠ k) :
    (t.modD d k f).look d l = t.look d l := look_put_ne t d _ h

theorem Tab.find_upd (t : Tab α) (k l : Nat) (f : α → α) :
    (t.upd k f).find l = if l = k then (t.find l).map f else t.find l := by
  induction t with
  | nil => simp [upd, find]
  | cons e r ih =>
    obtain ⟨j, w⟩ := e
    simp only [upd, List.map_cons, find] at *
    by_cases hj : j = l
    · subst hj; by_cases hk : j = k <;> simp [hk]
    · by_cases hk : j = k
      · subst hk; simp [hj, ih]
      · simp [hj, hk, ih]

theorem Tab.find_del (t : Tab α) (k l : Nat) : (t.del k).find l = if l = k then none else t.find l := by
  induction t with
  | nil => simp [del, find]
  | cons e r ih =>
    obtain ⟨j, w⟩ := e
    simp only [del, List.filter_cons, bne_iff_ne, find] at *
    by_cases hj : j = k
    · subst hj
      by_cases hl : l = j
      · subst hl; simpa using ih
      · simp [ih, hl, Ne.symm hl]
    · by_cases hl : j = l
      · subst hl; simp [find, hj]
      · simp [find, hj, hl, ih]

end Sys2Proof.Machine
end

