-- ==== Sys2Proof/Laws/Claims.lean ====
section
/-!
SUPPORT. How a claim about an ECI command is proved: from its description's `run` alone.
-/

namespace Sys2Proof.Machine

open Sys2Proof (Submission)

/-- `runEci` on an entry that may start and that no common check refuses runs the command. -/
theorem runEci_run (e : EciSpec) (c : Submission) (s : State) (t : Token) (hr : s.ready e.opcode c = some t)
    (hj : e.judge (t.cmd c) (s.takeUp t) = none) :
    runEci e c s = .next (((e.run (t.cmd c) (s.takeUp t)).fits (t.cmd c) (s.takeUp t)).settle (t.cmd c)) := by
  unfold Token.cmd at hj ⊢
  simp [runEci, EciSpec.serve, hr, hj]

/-- A claim about an ECI command follows from what the command's `run` answers. -/
theorem eciClaim_holds {row : Instr} {e : EciSpec} {op : Nat} {c : Submission} {given : Cmd → State → Prop}
    {gives : Cmd → State → Answer → Prop} (hop : e.opcode = op) (hx : ∀ s, exec row s = runEci e c s)
    (h : ∀ k s, given k s → gives k s (e.run k s)) : (eciClaim row e op c given gives).Holds := by
  intro s ⟨t, hr, hj, hg⟩
  subst hop
  exact ⟨_, (hx s).trans (runEci_run e c s t hr hj), t, _, hr, h _ _ hg, rfl⟩

/-- A list of checks that all pass lets the command go on. -/
theorem checked_pass (s : State) (cs : List (Bool × Reply)) (k : Unit → Answer) (h : firstFail cs = none) :
    checked s cs k = k () := by simp [checked, h]

/-- What firmware captured of a group is what its holding set of the group then holds. -/
@[simp] theorem State.heldOf_captureGroup (s : State) (g : Nat) (vs : List Nat) (i : Nat) :
    (s.captureGroup g vs).heldOf g i = vs.getD i 0 := by
  simp [State.heldOf, State.captureGroup, State.modEci]

/-- A capture of a group changes firmware's holding sets alone. -/
@[simp] theorem State.captureGroup_sched (s : State) (g : Nat) (vs : List Nat) : (s.captureGroup g vs).sched = s.sched := rfl
@[simp] theorem State.captureGroup_sd (s : State) (g : Nat) (vs : List Nat) (n : Nat) : (s.captureGroup g vs).sd n = s.sd n := rfl

end Sys2Proof.Machine
end

