-- ==== Sys2Proof/Laws/State.lean ====
section
/-!
SUPPORT. The parts of the state after a change of one part: one lemma for each part and each update.
-/

namespace Sys2Proof.Machine

variable (s : State)

@[simp] theorem State.modEci_pending (f : Eci → Eci) : (s.modEci f).pending = s.pending := rfl
@[simp] theorem State.modEci_free (f : Eci → Eci) : (s.modEci f).free = s.free := rfl
@[simp] theorem State.modEci_eci (f : Eci → Eci) : (s.modEci f).eci = f s.eci := rfl
@[simp] theorem State.modEci_boot (f : Eci → Eci) : (s.modEci f).boot = s.boot := rfl
@[simp] theorem State.modEci_time (f : Eci → Eci) : (s.modEci f).time = s.time := rfl
@[simp] theorem State.modEci_chan (f : Eci → Eci) : (s.modEci f).chan = s.chan := rfl
@[simp] theorem State.modEci_dec (f : Eci → Eci) : (s.modEci f).dec = s.dec := rfl
@[simp] theorem State.modEci_comp (f : Eci → Eci) : (s.modEci f).comp = s.comp := rfl
@[simp] theorem State.modEci_audio (f : Eci → Eci) : (s.modEci f).audio = s.audio := rfl
@[simp] theorem State.modEci_net (f : Eci → Eci) : (s.modEci f).net = s.net := rfl
@[simp] theorem State.modEci_lane (f : Eci → Eci) : (s.modEci f).lane = s.lane := rfl
@[simp] theorem State.modEci_mem (f : Eci → Eci) : (s.modEci f).mem = s.mem := rfl
@[simp] theorem State.modEci_sched (f : Eci → Eci) : (s.modEci f).sched = s.sched := rfl

@[simp] theorem State.modBoot_pending (f : Boot → Boot) : (s.modBoot f).pending = s.pending := rfl
@[simp] theorem State.modBoot_free (f : Boot → Boot) : (s.modBoot f).free = s.free := rfl
@[simp] theorem State.modBoot_eci (f : Boot → Boot) : (s.modBoot f).eci = s.eci := rfl
@[simp] theorem State.modBoot_boot (f : Boot → Boot) : (s.modBoot f).boot = f s.boot := rfl
@[simp] theorem State.modBoot_time (f : Boot → Boot) : (s.modBoot f).time = s.time := rfl
@[simp] theorem State.modBoot_chan (f : Boot → Boot) : (s.modBoot f).chan = s.chan := rfl
@[simp] theorem State.modBoot_dec (f : Boot → Boot) : (s.modBoot f).dec = s.dec := rfl
@[simp] theorem State.modBoot_comp (f : Boot → Boot) : (s.modBoot f).comp = s.comp := rfl
@[simp] theorem State.modBoot_audio (f : Boot → Boot) : (s.modBoot f).audio = s.audio := rfl
@[simp] theorem State.modBoot_net (f : Boot → Boot) : (s.modBoot f).net = s.net := rfl
@[simp] theorem State.modBoot_lane (f : Boot → Boot) : (s.modBoot f).lane = s.lane := rfl
@[simp] theorem State.modBoot_mem (f : Boot → Boot) : (s.modBoot f).mem = s.mem := rfl
@[simp] theorem State.modBoot_sched (f : Boot → Boot) : (s.modBoot f).sched = s.sched := rfl

@[simp] theorem State.modTime_pending (f : TimeState → TimeState) : (s.modTime f).pending = s.pending := rfl
@[simp] theorem State.modTime_free (f : TimeState → TimeState) : (s.modTime f).free = s.free := rfl
@[simp] theorem State.modTime_eci (f : TimeState → TimeState) : (s.modTime f).eci = s.eci := rfl
@[simp] theorem State.modTime_boot (f : TimeState → TimeState) : (s.modTime f).boot = s.boot := rfl
@[simp] theorem State.modTime_time (f : TimeState → TimeState) : (s.modTime f).time = f s.time := rfl
@[simp] theorem State.modTime_chan (f : TimeState → TimeState) : (s.modTime f).chan = s.chan := rfl
@[simp] theorem State.modTime_dec (f : TimeState → TimeState) : (s.modTime f).dec = s.dec := rfl
@[simp] theorem State.modTime_comp (f : TimeState → TimeState) : (s.modTime f).comp = s.comp := rfl
@[simp] theorem State.modTime_audio (f : TimeState → TimeState) : (s.modTime f).audio = s.audio := rfl
@[simp] theorem State.modTime_net (f : TimeState → TimeState) : (s.modTime f).net = s.net := rfl
@[simp] theorem State.modTime_lane (f : TimeState → TimeState) : (s.modTime f).lane = s.lane := rfl
@[simp] theorem State.modTime_mem (f : TimeState → TimeState) : (s.modTime f).mem = s.mem := rfl
@[simp] theorem State.modTime_sched (f : TimeState → TimeState) : (s.modTime f).sched = s.sched := rfl

@[simp] theorem State.modChan_pending (f : Channels → Channels) : (s.modChan f).pending = s.pending := rfl
@[simp] theorem State.modChan_free (f : Channels → Channels) : (s.modChan f).free = s.free := rfl
@[simp] theorem State.modChan_eci (f : Channels → Channels) : (s.modChan f).eci = s.eci := rfl
@[simp] theorem State.modChan_boot (f : Channels → Channels) : (s.modChan f).boot = s.boot := rfl
@[simp] theorem State.modChan_time (f : Channels → Channels) : (s.modChan f).time = s.time := rfl
@[simp] theorem State.modChan_chan (f : Channels → Channels) : (s.modChan f).chan = f s.chan := rfl
@[simp] theorem State.modChan_dec (f : Channels → Channels) : (s.modChan f).dec = s.dec := rfl
@[simp] theorem State.modChan_comp (f : Channels → Channels) : (s.modChan f).comp = s.comp := rfl
@[simp] theorem State.modChan_audio (f : Channels → Channels) : (s.modChan f).audio = s.audio := rfl
@[simp] theorem State.modChan_net (f : Channels → Channels) : (s.modChan f).net = s.net := rfl
@[simp] theorem State.modChan_lane (f : Channels → Channels) : (s.modChan f).lane = s.lane := rfl
@[simp] theorem State.modChan_mem (f : Channels → Channels) : (s.modChan f).mem = s.mem := rfl
@[simp] theorem State.modChan_sched (f : Channels → Channels) : (s.modChan f).sched = s.sched := rfl

@[simp] theorem State.modDec_pending (f : Dec → Dec) : (s.modDec f).pending = s.pending := rfl
@[simp] theorem State.modDec_free (f : Dec → Dec) : (s.modDec f).free = s.free := rfl
@[simp] theorem State.modDec_eci (f : Dec → Dec) : (s.modDec f).eci = s.eci := rfl
@[simp] theorem State.modDec_boot (f : Dec → Dec) : (s.modDec f).boot = s.boot := rfl
@[simp] theorem State.modDec_time (f : Dec → Dec) : (s.modDec f).time = s.time := rfl
@[simp] theorem State.modDec_chan (f : Dec → Dec) : (s.modDec f).chan = s.chan := rfl
@[simp] theorem State.modDec_dec (f : Dec → Dec) : (s.modDec f).dec = f s.dec := rfl
@[simp] theorem State.modDec_comp (f : Dec → Dec) : (s.modDec f).comp = s.comp := rfl
@[simp] theorem State.modDec_audio (f : Dec → Dec) : (s.modDec f).audio = s.audio := rfl
@[simp] theorem State.modDec_net (f : Dec → Dec) : (s.modDec f).net = s.net := rfl
@[simp] theorem State.modDec_lane (f : Dec → Dec) : (s.modDec f).lane = s.lane := rfl
@[simp] theorem State.modDec_mem (f : Dec → Dec) : (s.modDec f).mem = s.mem := rfl
@[simp] theorem State.modDec_sched (f : Dec → Dec) : (s.modDec f).sched = s.sched := rfl

@[simp] theorem State.modComp_pending (f : Comp → Comp) : (s.modComp f).pending = s.pending := rfl
@[simp] theorem State.modComp_free (f : Comp → Comp) : (s.modComp f).free = s.free := rfl
@[simp] theorem State.modComp_eci (f : Comp → Comp) : (s.modComp f).eci = s.eci := rfl
@[simp] theorem State.modComp_boot (f : Comp → Comp) : (s.modComp f).boot = s.boot := rfl
@[simp] theorem State.modComp_time (f : Comp → Comp) : (s.modComp f).time = s.time := rfl
@[simp] theorem State.modComp_chan (f : Comp → Comp) : (s.modComp f).chan = s.chan := rfl
@[simp] theorem State.modComp_dec (f : Comp → Comp) : (s.modComp f).dec = s.dec := rfl
@[simp] theorem State.modComp_comp (f : Comp → Comp) : (s.modComp f).comp = f s.comp := rfl
@[simp] theorem State.modComp_audio (f : Comp → Comp) : (s.modComp f).audio = s.audio := rfl
@[simp] theorem State.modComp_net (f : Comp → Comp) : (s.modComp f).net = s.net := rfl
@[simp] theorem State.modComp_lane (f : Comp → Comp) : (s.modComp f).lane = s.lane := rfl
@[simp] theorem State.modComp_mem (f : Comp → Comp) : (s.modComp f).mem = s.mem := rfl
@[simp] theorem State.modComp_sched (f : Comp → Comp) : (s.modComp f).sched = s.sched := rfl

@[simp] theorem State.modAudio_pending (f : Audio → Audio) : (s.modAudio f).pending = s.pending := rfl
@[simp] theorem State.modAudio_free (f : Audio → Audio) : (s.modAudio f).free = s.free := rfl
@[simp] theorem State.modAudio_eci (f : Audio → Audio) : (s.modAudio f).eci = s.eci := rfl
@[simp] theorem State.modAudio_boot (f : Audio → Audio) : (s.modAudio f).boot = s.boot := rfl
@[simp] theorem State.modAudio_time (f : Audio → Audio) : (s.modAudio f).time = s.time := rfl
@[simp] theorem State.modAudio_chan (f : Audio → Audio) : (s.modAudio f).chan = s.chan := rfl
@[simp] theorem State.modAudio_dec (f : Audio → Audio) : (s.modAudio f).dec = s.dec := rfl
@[simp] theorem State.modAudio_comp (f : Audio → Audio) : (s.modAudio f).comp = s.comp := rfl
@[simp] theorem State.modAudio_audio (f : Audio → Audio) : (s.modAudio f).audio = f s.audio := rfl
@[simp] theorem State.modAudio_net (f : Audio → Audio) : (s.modAudio f).net = s.net := rfl
@[simp] theorem State.modAudio_lane (f : Audio → Audio) : (s.modAudio f).lane = s.lane := rfl
@[simp] theorem State.modAudio_mem (f : Audio → Audio) : (s.modAudio f).mem = s.mem := rfl
@[simp] theorem State.modAudio_sched (f : Audio → Audio) : (s.modAudio f).sched = s.sched := rfl

@[simp] theorem State.modNet_pending (f : Net → Net) : (s.modNet f).pending = s.pending := rfl
@[simp] theorem State.modNet_free (f : Net → Net) : (s.modNet f).free = s.free := rfl
@[simp] theorem State.modNet_eci (f : Net → Net) : (s.modNet f).eci = s.eci := rfl
@[simp] theorem State.modNet_boot (f : Net → Net) : (s.modNet f).boot = s.boot := rfl
@[simp] theorem State.modNet_time (f : Net → Net) : (s.modNet f).time = s.time := rfl
@[simp] theorem State.modNet_chan (f : Net → Net) : (s.modNet f).chan = s.chan := rfl
@[simp] theorem State.modNet_dec (f : Net → Net) : (s.modNet f).dec = s.dec := rfl
@[simp] theorem State.modNet_comp (f : Net → Net) : (s.modNet f).comp = s.comp := rfl
@[simp] theorem State.modNet_audio (f : Net → Net) : (s.modNet f).audio = s.audio := rfl
@[simp] theorem State.modNet_net (f : Net → Net) : (s.modNet f).net = f s.net := rfl
@[simp] theorem State.modNet_lane (f : Net → Net) : (s.modNet f).lane = s.lane := rfl
@[simp] theorem State.modNet_mem (f : Net → Net) : (s.modNet f).mem = s.mem := rfl
@[simp] theorem State.modNet_sched (f : Net → Net) : (s.modNet f).sched = s.sched := rfl

@[simp] theorem State.modLane_pending (f : Lanes → Lanes) : (s.modLane f).pending = s.pending := rfl
@[simp] theorem State.modLane_free (f : Lanes → Lanes) : (s.modLane f).free = s.free := rfl
@[simp] theorem State.modLane_eci (f : Lanes → Lanes) : (s.modLane f).eci = s.eci := rfl
@[simp] theorem State.modLane_boot (f : Lanes → Lanes) : (s.modLane f).boot = s.boot := rfl
@[simp] theorem State.modLane_time (f : Lanes → Lanes) : (s.modLane f).time = s.time := rfl
@[simp] theorem State.modLane_chan (f : Lanes → Lanes) : (s.modLane f).chan = s.chan := rfl
@[simp] theorem State.modLane_dec (f : Lanes → Lanes) : (s.modLane f).dec = s.dec := rfl
@[simp] theorem State.modLane_comp (f : Lanes → Lanes) : (s.modLane f).comp = s.comp := rfl
@[simp] theorem State.modLane_audio (f : Lanes → Lanes) : (s.modLane f).audio = s.audio := rfl
@[simp] theorem State.modLane_net (f : Lanes → Lanes) : (s.modLane f).net = s.net := rfl
@[simp] theorem State.modLane_lane (f : Lanes → Lanes) : (s.modLane f).lane = f s.lane := rfl
@[simp] theorem State.modLane_mem (f : Lanes → Lanes) : (s.modLane f).mem = s.mem := rfl
@[simp] theorem State.modLane_sched (f : Lanes → Lanes) : (s.modLane f).sched = s.sched := rfl

@[simp] theorem State.modMem_pending (f : Mem → Mem) : (s.modMem f).pending = s.pending := rfl
@[simp] theorem State.modMem_free (f : Mem → Mem) : (s.modMem f).free = s.free := rfl
@[simp] theorem State.modMem_eci (f : Mem → Mem) : (s.modMem f).eci = s.eci := rfl
@[simp] theorem State.modMem_boot (f : Mem → Mem) : (s.modMem f).boot = s.boot := rfl
@[simp] theorem State.modMem_time (f : Mem → Mem) : (s.modMem f).time = s.time := rfl
@[simp] theorem State.modMem_chan (f : Mem → Mem) : (s.modMem f).chan = s.chan := rfl
@[simp] theorem State.modMem_dec (f : Mem → Mem) : (s.modMem f).dec = s.dec := rfl
@[simp] theorem State.modMem_comp (f : Mem → Mem) : (s.modMem f).comp = s.comp := rfl
@[simp] theorem State.modMem_audio (f : Mem → Mem) : (s.modMem f).audio = s.audio := rfl
@[simp] theorem State.modMem_net (f : Mem → Mem) : (s.modMem f).net = s.net := rfl
@[simp] theorem State.modMem_lane (f : Mem → Mem) : (s.modMem f).lane = s.lane := rfl
@[simp] theorem State.modMem_mem (f : Mem → Mem) : (s.modMem f).mem = f s.mem := rfl
@[simp] theorem State.modMem_sched (f : Mem → Mem) : (s.modMem f).sched = s.sched := rfl

@[simp] theorem State.modSched_pending (f : Scheds → Scheds) : (s.modSched f).pending = s.pending := rfl
@[simp] theorem State.modSched_free (f : Scheds → Scheds) : (s.modSched f).free = s.free := rfl
@[simp] theorem State.modSched_eci (f : Scheds → Scheds) : (s.modSched f).eci = s.eci := rfl
@[simp] theorem State.modSched_boot (f : Scheds → Scheds) : (s.modSched f).boot = s.boot := rfl
@[simp] theorem State.modSched_time (f : Scheds → Scheds) : (s.modSched f).time = s.time := rfl
@[simp] theorem State.modSched_chan (f : Scheds → Scheds) : (s.modSched f).chan = s.chan := rfl
@[simp] theorem State.modSched_dec (f : Scheds → Scheds) : (s.modSched f).dec = s.dec := rfl
@[simp] theorem State.modSched_comp (f : Scheds → Scheds) : (s.modSched f).comp = s.comp := rfl
@[simp] theorem State.modSched_audio (f : Scheds → Scheds) : (s.modSched f).audio = s.audio := rfl
@[simp] theorem State.modSched_net (f : Scheds → Scheds) : (s.modSched f).net = s.net := rfl
@[simp] theorem State.modSched_lane (f : Scheds → Scheds) : (s.modSched f).lane = s.lane := rfl
@[simp] theorem State.modSched_mem (f : Scheds → Scheds) : (s.modSched f).mem = s.mem := rfl
@[simp] theorem State.modSched_sched (f : Scheds → Scheds) : (s.modSched f).sched = f s.sched := rfl

@[simp] theorem State.useFree_pending : s.useFree.pending = s.pending := rfl
@[simp] theorem State.useFree_eci : s.useFree.eci = s.eci := rfl
@[simp] theorem State.useFree_boot : s.useFree.boot = s.boot := rfl
@[simp] theorem State.useFree_time : s.useFree.time = s.time := rfl
@[simp] theorem State.useFree_chan : s.useFree.chan = s.chan := rfl
@[simp] theorem State.useFree_dec : s.useFree.dec = s.dec := rfl
@[simp] theorem State.useFree_comp : s.useFree.comp = s.comp := rfl
@[simp] theorem State.useFree_audio : s.useFree.audio = s.audio := rfl
@[simp] theorem State.useFree_net : s.useFree.net = s.net := rfl
@[simp] theorem State.useFree_lane : s.useFree.lane = s.lane := rfl
@[simp] theorem State.useFree_mem : s.useFree.mem = s.mem := rfl
@[simp] theorem State.useFree_sched : s.useFree.sched = s.sched := rfl
@[simp] theorem State.useFree_free : s.useFree.free = s.free + 1 := rfl

end Sys2Proof.Machine
end

