-- ==== Sys2Proof/Laws/Events.lean ====
section
/-!
SUPPORT. What writing the mailbox, setting a cause and raising an event change: the host interface and nothing else. A change of
stage changes the stage besides.
-/

namespace Sys2Proof.Machine

open Sys2Proof (Byte)

/-- Two states that differ in the host interface at most. -/
def State.OnlyEci (s t : State) : Prop := t = { s with eci := t.eci }

theorem State.OnlyEci.refl (s : State) : s.OnlyEci s := rfl

theorem State.OnlyEci.trans {s t u : State} (h : s.OnlyEci t) (k : t.OnlyEci u) : s.OnlyEci u := by
  unfold OnlyEci at *; rw [k, h]

theorem State.OnlyEci.pending {s t : State} (h : s.OnlyEci t) : t.pending = s.pending :=
  Eq.trans (congrArg State.pending h) rfl
theorem State.OnlyEci.free {s t : State} (h : s.OnlyEci t) : t.free = s.free :=
  Eq.trans (congrArg State.free h) rfl
theorem State.OnlyEci.boot {s t : State} (h : s.OnlyEci t) : t.boot = s.boot :=
  Eq.trans (congrArg State.boot h) rfl
theorem State.OnlyEci.time {s t : State} (h : s.OnlyEci t) : t.time = s.time :=
  Eq.trans (congrArg State.time h) rfl
theorem State.OnlyEci.chan {s t : State} (h : s.OnlyEci t) : t.chan = s.chan :=
  Eq.trans (congrArg State.chan h) rfl
theorem State.OnlyEci.dec {s t : State} (h : s.OnlyEci t) : t.dec = s.dec :=
  Eq.trans (congrArg State.dec h) rfl
theorem State.OnlyEci.comp {s t : State} (h : s.OnlyEci t) : t.comp = s.comp :=
  Eq.trans (congrArg State.comp h) rfl
theorem State.OnlyEci.audio {s t : State} (h : s.OnlyEci t) : t.audio = s.audio :=
  Eq.trans (congrArg State.audio h) rfl
theorem State.OnlyEci.net {s t : State} (h : s.OnlyEci t) : t.net = s.net :=
  Eq.trans (congrArg State.net h) rfl
theorem State.OnlyEci.lane {s t : State} (h : s.OnlyEci t) : t.lane = s.lane :=
  Eq.trans (congrArg State.lane h) rfl
theorem State.OnlyEci.mem {s t : State} (h : s.OnlyEci t) : t.mem = s.mem :=
  Eq.trans (congrArg State.mem h) rfl
theorem State.OnlyEci.sched {s t : State} (h : s.OnlyEci t) : t.sched = s.sched :=
  Eq.trans (congrArg State.sched h) rfl

theorem State.OnlyEci.modEci (s : State) (f : Eci → Eci) : s.OnlyEci (s.modEci f) := rfl

theorem State.OnlyEci.modFn (s : State) (f : Nat) (g : FnState → FnState) : s.OnlyEci (s.modFn f g) := rfl

theorem State.OnlyEci.foldl {α : Type} {l : List α} {g : State → α → State} (hg : ∀ (s : State) x, s.OnlyEci (g s x))
    (s : State) :
    s.OnlyEci (l.foldl g s) := by
  induction l generalizing s with
  | nil => exact .refl s
  | cons a l ih => exact (hg s a).trans (ih _)

theorem State.onlyEci_flushHeld (s : State) (f n : Nat) : s.OnlyEci (s.flushHeld f n) := by
  induction n generalizing s with
  | zero => exact .refl s
  | succ n ih =>
    unfold State.flushHeld
    dsimp only
    split
    · exact .refl s
    · split
      · exact .trans (.refl _) (ih _)
      · split
        · exact .refl s
        · exact .trans (.refl _) (ih _)

theorem State.onlyEci_holdEvent (s : State) (f : Nat) (e : Event) : s.OnlyEci (s.holdEvent f e) := rfl

theorem State.onlyEci_raiseTo (s : State) (f : Nat) (e : Event) : s.OnlyEci (s.raiseTo f e) := by
  unfold State.raiseTo
  dsimp only
  split
  · exact .refl s
  · split
    · exact .refl _
    · split
      · exact .trans (.refl _) (State.onlyEci_flushHeld _ _ _)
      · exact .refl _

theorem State.onlyEci_raise (s : State) (k : EventKind) (h d : Nat) (p : Option Nat) : s.OnlyEci (s.raise k h d p) :=
  .trans (u := s.raise k h d p) (.modEci s _) (State.onlyEci_raiseTo _ _ _)

theorem State.onlyEci_raiseOwn (s : State) (f : Nat) (k : EventKind) (d : Nat) : s.OnlyEci (s.raiseOwn f k d) :=
  .trans (u := s.raiseOwn f k d) (.modEci s _) (State.onlyEci_raiseTo _ _ _)

theorem State.onlyEci_raiseAll (s : State) (k : EventKind) (d t : Nat) : s.OnlyEci (s.raiseAll k d t) :=
  .foldl (fun _ _ => State.onlyEci_raiseTo _ _ _) s

theorem State.onlyEci_causeAll (s : State) (c : Nat) : s.OnlyEci (s.causeAll c) :=
  .foldl (fun _ _ => .modFn _ _ _) s

variable (s : State)

@[simp] theorem State.modFn_pending (f : Nat) (g : FnState → FnState) : (s.modFn f g).pending = s.pending := rfl
@[simp] theorem State.modFn_free (f : Nat) (g : FnState → FnState) : (s.modFn f g).free = s.free := rfl
@[simp] theorem State.modFn_boot (f : Nat) (g : FnState → FnState) : (s.modFn f g).boot = s.boot := rfl
@[simp] theorem State.modFn_time (f : Nat) (g : FnState → FnState) : (s.modFn f g).time = s.time := rfl
@[simp] theorem State.modFn_chan (f : Nat) (g : FnState → FnState) : (s.modFn f g).chan = s.chan := rfl
@[simp] theorem State.modFn_dec (f : Nat) (g : FnState → FnState) : (s.modFn f g).dec = s.dec := rfl
@[simp] theorem State.modFn_comp (f : Nat) (g : FnState → FnState) : (s.modFn f g).comp = s.comp := rfl
@[simp] theorem State.modFn_audio (f : Nat) (g : FnState → FnState) : (s.modFn f g).audio = s.audio := rfl
@[simp] theorem State.modFn_net (f : Nat) (g : FnState → FnState) : (s.modFn f g).net = s.net := rfl
@[simp] theorem State.modFn_lane (f : Nat) (g : FnState → FnState) : (s.modFn f g).lane = s.lane := rfl
@[simp] theorem State.modFn_mem (f : Nat) (g : FnState → FnState) : (s.modFn f g).mem = s.mem := rfl
@[simp] theorem State.modFn_sched (f : Nat) (g : FnState → FnState) : (s.modFn f g).sched = s.sched := rfl

@[simp] theorem State.mbxStore_pending (o : Nat) (bs : List Byte) : (s.mbxStore o bs).pending = s.pending := rfl
@[simp] theorem State.mbxStore_free (o : Nat) (bs : List Byte) : (s.mbxStore o bs).free = s.free := rfl
@[simp] theorem State.mbxStore_boot (o : Nat) (bs : List Byte) : (s.mbxStore o bs).boot = s.boot := rfl
@[simp] theorem State.mbxStore_time (o : Nat) (bs : List Byte) : (s.mbxStore o bs).time = s.time := rfl
@[simp] theorem State.mbxStore_chan (o : Nat) (bs : List Byte) : (s.mbxStore o bs).chan = s.chan := rfl
@[simp] theorem State.mbxStore_dec (o : Nat) (bs : List Byte) : (s.mbxStore o bs).dec = s.dec := rfl
@[simp] theorem State.mbxStore_comp (o : Nat) (bs : List Byte) : (s.mbxStore o bs).comp = s.comp := rfl
@[simp] theorem State.mbxStore_audio (o : Nat) (bs : List Byte) : (s.mbxStore o bs).audio = s.audio := rfl
@[simp] theorem State.mbxStore_net (o : Nat) (bs : List Byte) : (s.mbxStore o bs).net = s.net := rfl
@[simp] theorem State.mbxStore_lane (o : Nat) (bs : List Byte) : (s.mbxStore o bs).lane = s.lane := rfl
@[simp] theorem State.mbxStore_mem (o : Nat) (bs : List Byte) : (s.mbxStore o bs).mem = s.mem := rfl
@[simp] theorem State.mbxStore_sched (o : Nat) (bs : List Byte) : (s.mbxStore o bs).sched = s.sched := rfl

@[simp] theorem State.raiseTo_pending (f : Nat) (e : Event) : (s.raiseTo f e).pending = s.pending :=
  (s.onlyEci_raiseTo f e).pending
@[simp] theorem State.raiseTo_free (f : Nat) (e : Event) : (s.raiseTo f e).free = s.free := (s.onlyEci_raiseTo f e).free
@[simp] theorem State.raiseTo_boot (f : Nat) (e : Event) : (s.raiseTo f e).boot = s.boot := (s.onlyEci_raiseTo f e).boot
@[simp] theorem State.raiseTo_time (f : Nat) (e : Event) : (s.raiseTo f e).time = s.time := (s.onlyEci_raiseTo f e).time
@[simp] theorem State.raiseTo_chan (f : Nat) (e : Event) : (s.raiseTo f e).chan = s.chan := (s.onlyEci_raiseTo f e).chan
@[simp] theorem State.raiseTo_dec (f : Nat) (e : Event) : (s.raiseTo f e).dec = s.dec := (s.onlyEci_raiseTo f e).dec
@[simp] theorem State.raiseTo_comp (f : Nat) (e : Event) : (s.raiseTo f e).comp = s.comp := (s.onlyEci_raiseTo f e).comp
@[simp] theorem State.raiseTo_audio (f : Nat) (e : Event) : (s.raiseTo f e).audio = s.audio := (s.onlyEci_raiseTo f e).audio
@[simp] theorem State.raiseTo_net (f : Nat) (e : Event) : (s.raiseTo f e).net = s.net := (s.onlyEci_raiseTo f e).net
@[simp] theorem State.raiseTo_lane (f : Nat) (e : Event) : (s.raiseTo f e).lane = s.lane := (s.onlyEci_raiseTo f e).lane
@[simp] theorem State.raiseTo_mem (f : Nat) (e : Event) : (s.raiseTo f e).mem = s.mem := (s.onlyEci_raiseTo f e).mem
@[simp] theorem State.raiseTo_sched (f : Nat) (e : Event) : (s.raiseTo f e).sched = s.sched := (s.onlyEci_raiseTo f e).sched

@[simp] theorem State.raise_pending (k : EventKind) (h d : Nat) (p : Option Nat) : (s.raise k h d p).pending = s.pending :=
  (s.onlyEci_raise k h d p).pending
@[simp] theorem State.raise_free (k : EventKind) (h d : Nat) (p : Option Nat) : (s.raise k h d p).free = s.free :=
  (s.onlyEci_raise k h d p).free
@[simp] theorem State.raise_boot (k : EventKind) (h d : Nat) (p : Option Nat) : (s.raise k h d p).boot = s.boot :=
  (s.onlyEci_raise k h d p).boot
@[simp] theorem State.raise_time (k : EventKind) (h d : Nat) (p : Option Nat) : (s.raise k h d p).time = s.time :=
  (s.onlyEci_raise k h d p).time
@[simp] theorem State.raise_chan (k : EventKind) (h d : Nat) (p : Option Nat) : (s.raise k h d p).chan = s.chan :=
  (s.onlyEci_raise k h d p).chan
@[simp] theorem State.raise_dec (k : EventKind) (h d : Nat) (p : Option Nat) : (s.raise k h d p).dec = s.dec :=
  (s.onlyEci_raise k h d p).dec
@[simp] theorem State.raise_comp (k : EventKind) (h d : Nat) (p : Option Nat) : (s.raise k h d p).comp = s.comp :=
  (s.onlyEci_raise k h d p).comp
@[simp] theorem State.raise_audio (k : EventKind) (h d : Nat) (p : Option Nat) : (s.raise k h d p).audio = s.audio :=
  (s.onlyEci_raise k h d p).audio
@[simp] theorem State.raise_net (k : EventKind) (h d : Nat) (p : Option Nat) : (s.raise k h d p).net = s.net :=
  (s.onlyEci_raise k h d p).net
@[simp] theorem State.raise_lane (k : EventKind) (h d : Nat) (p : Option Nat) : (s.raise k h d p).lane = s.lane :=
  (s.onlyEci_raise k h d p).lane
@[simp] theorem State.raise_mem (k : EventKind) (h d : Nat) (p : Option Nat) : (s.raise k h d p).mem = s.mem :=
  (s.onlyEci_raise k h d p).mem
@[simp] theorem State.raise_sched (k : EventKind) (h d : Nat) (p : Option Nat) : (s.raise k h d p).sched = s.sched :=
  (s.onlyEci_raise k h d p).sched

@[simp] theorem State.raiseOwn_pending (f : Nat) (k : EventKind) (d : Nat) : (s.raiseOwn f k d).pending = s.pending :=
  (s.onlyEci_raiseOwn f k d).pending
@[simp] theorem State.raiseOwn_free (f : Nat) (k : EventKind) (d : Nat) : (s.raiseOwn f k d).free = s.free :=
  (s.onlyEci_raiseOwn f k d).free
@[simp] theorem State.raiseOwn_boot (f : Nat) (k : EventKind) (d : Nat) : (s.raiseOwn f k d).boot = s.boot :=
  (s.onlyEci_raiseOwn f k d).boot
@[simp] theorem State.raiseOwn_time (f : Nat) (k : EventKind) (d : Nat) : (s.raiseOwn f k d).time = s.time :=
  (s.onlyEci_raiseOwn f k d).time
@[simp] theorem State.raiseOwn_chan (f : Nat) (k : EventKind) (d : Nat) : (s.raiseOwn f k d).chan = s.chan :=
  (s.onlyEci_raiseOwn f k d).chan
@[simp] theorem State.raiseOwn_dec (f : Nat) (k : EventKind) (d : Nat) : (s.raiseOwn f k d).dec = s.dec :=
  (s.onlyEci_raiseOwn f k d).dec
@[simp] theorem State.raiseOwn_comp (f : Nat) (k : EventKind) (d : Nat) : (s.raiseOwn f k d).comp = s.comp :=
  (s.onlyEci_raiseOwn f k d).comp
@[simp] theorem State.raiseOwn_audio (f : Nat) (k : EventKind) (d : Nat) : (s.raiseOwn f k d).audio = s.audio :=
  (s.onlyEci_raiseOwn f k d).audio
@[simp] theorem State.raiseOwn_net (f : Nat) (k : EventKind) (d : Nat) : (s.raiseOwn f k d).net = s.net :=
  (s.onlyEci_raiseOwn f k d).net
@[simp] theorem State.raiseOwn_lane (f : Nat) (k : EventKind) (d : Nat) : (s.raiseOwn f k d).lane = s.lane :=
  (s.onlyEci_raiseOwn f k d).lane
@[simp] theorem State.raiseOwn_mem (f : Nat) (k : EventKind) (d : Nat) : (s.raiseOwn f k d).mem = s.mem :=
  (s.onlyEci_raiseOwn f k d).mem
@[simp] theorem State.raiseOwn_sched (f : Nat) (k : EventKind) (d : Nat) : (s.raiseOwn f k d).sched = s.sched :=
  (s.onlyEci_raiseOwn f k d).sched

@[simp] theorem State.raiseAll_pending (k : EventKind) (d t : Nat) : (s.raiseAll k d t).pending = s.pending :=
  (s.onlyEci_raiseAll k d t).pending
@[simp] theorem State.raiseAll_free (k : EventKind) (d t : Nat) : (s.raiseAll k d t).free = s.free :=
  (s.onlyEci_raiseAll k d t).free
@[simp] theorem State.raiseAll_boot (k : EventKind) (d t : Nat) : (s.raiseAll k d t).boot = s.boot :=
  (s.onlyEci_raiseAll k d t).boot
@[simp] theorem State.raiseAll_time (k : EventKind) (d t : Nat) : (s.raiseAll k d t).time = s.time :=
  (s.onlyEci_raiseAll k d t).time
@[simp] theorem State.raiseAll_chan (k : EventKind) (d t : Nat) : (s.raiseAll k d t).chan = s.chan :=
  (s.onlyEci_raiseAll k d t).chan
@[simp] theorem State.raiseAll_dec (k : EventKind) (d t : Nat) : (s.raiseAll k d t).dec = s.dec :=
  (s.onlyEci_raiseAll k d t).dec
@[simp] theorem State.raiseAll_comp (k : EventKind) (d t : Nat) : (s.raiseAll k d t).comp = s.comp :=
  (s.onlyEci_raiseAll k d t).comp
@[simp] theorem State.raiseAll_audio (k : EventKind) (d t : Nat) : (s.raiseAll k d t).audio = s.audio :=
  (s.onlyEci_raiseAll k d t).audio
@[simp] theorem State.raiseAll_net (k : EventKind) (d t : Nat) : (s.raiseAll k d t).net = s.net :=
  (s.onlyEci_raiseAll k d t).net
@[simp] theorem State.raiseAll_lane (k : EventKind) (d t : Nat) : (s.raiseAll k d t).lane = s.lane :=
  (s.onlyEci_raiseAll k d t).lane
@[simp] theorem State.raiseAll_mem (k : EventKind) (d t : Nat) : (s.raiseAll k d t).mem = s.mem :=
  (s.onlyEci_raiseAll k d t).mem
@[simp] theorem State.raiseAll_sched (k : EventKind) (d t : Nat) : (s.raiseAll k d t).sched = s.sched :=
  (s.onlyEci_raiseAll k d t).sched

@[simp] theorem State.causeAll_pending (c : Nat) : (s.causeAll c).pending = s.pending := (s.onlyEci_causeAll c).pending
@[simp] theorem State.causeAll_free (c : Nat) : (s.causeAll c).free = s.free := (s.onlyEci_causeAll c).free
@[simp] theorem State.causeAll_boot (c : Nat) : (s.causeAll c).boot = s.boot := (s.onlyEci_causeAll c).boot
@[simp] theorem State.causeAll_time (c : Nat) : (s.causeAll c).time = s.time := (s.onlyEci_causeAll c).time
@[simp] theorem State.causeAll_chan (c : Nat) : (s.causeAll c).chan = s.chan := (s.onlyEci_causeAll c).chan
@[simp] theorem State.causeAll_dec (c : Nat) : (s.causeAll c).dec = s.dec := (s.onlyEci_causeAll c).dec
@[simp] theorem State.causeAll_comp (c : Nat) : (s.causeAll c).comp = s.comp := (s.onlyEci_causeAll c).comp
@[simp] theorem State.causeAll_audio (c : Nat) : (s.causeAll c).audio = s.audio := (s.onlyEci_causeAll c).audio
@[simp] theorem State.causeAll_net (c : Nat) : (s.causeAll c).net = s.net := (s.onlyEci_causeAll c).net
@[simp] theorem State.causeAll_lane (c : Nat) : (s.causeAll c).lane = s.lane := (s.onlyEci_causeAll c).lane
@[simp] theorem State.causeAll_mem (c : Nat) : (s.causeAll c).mem = s.mem := (s.onlyEci_causeAll c).mem
@[simp] theorem State.causeAll_sched (c : Nat) : (s.causeAll c).sched = s.sched := (s.onlyEci_causeAll c).sched

@[simp] theorem State.flushEvents_pending (f : Nat) : (s.flushEvents f).pending = s.pending :=
  (s.onlyEci_flushHeld _ _).pending
@[simp] theorem State.flushEvents_free (f : Nat) : (s.flushEvents f).free = s.free := (s.onlyEci_flushHeld _ _).free
@[simp] theorem State.flushEvents_boot (f : Nat) : (s.flushEvents f).boot = s.boot := (s.onlyEci_flushHeld _ _).boot
@[simp] theorem State.flushEvents_time (f : Nat) : (s.flushEvents f).time = s.time := (s.onlyEci_flushHeld _ _).time
@[simp] theorem State.flushEvents_chan (f : Nat) : (s.flushEvents f).chan = s.chan := (s.onlyEci_flushHeld _ _).chan
@[simp] theorem State.flushEvents_dec (f : Nat) : (s.flushEvents f).dec = s.dec := (s.onlyEci_flushHeld _ _).dec
@[simp] theorem State.flushEvents_comp (f : Nat) : (s.flushEvents f).comp = s.comp := (s.onlyEci_flushHeld _ _).comp
@[simp] theorem State.flushEvents_audio (f : Nat) : (s.flushEvents f).audio = s.audio := (s.onlyEci_flushHeld _ _).audio
@[simp] theorem State.flushEvents_net (f : Nat) : (s.flushEvents f).net = s.net := (s.onlyEci_flushHeld _ _).net
@[simp] theorem State.flushEvents_lane (f : Nat) : (s.flushEvents f).lane = s.lane := (s.onlyEci_flushHeld _ _).lane
@[simp] theorem State.flushEvents_mem (f : Nat) : (s.flushEvents f).mem = s.mem := (s.onlyEci_flushHeld _ _).mem
@[simp] theorem State.flushEvents_sched (f : Nat) : (s.flushEvents f).sched = s.sched := (s.onlyEci_flushHeld _ _).sched

@[simp] theorem State.setStage_pending (st : Stage) : (s.setStage st).pending = s.pending := by
  unfold State.setStage; split <;> simp
@[simp] theorem State.setStage_free (st : Stage) : (s.setStage st).free = s.free := by
  unfold State.setStage; split <;> simp
@[simp] theorem State.setStage_time (st : Stage) : (s.setStage st).time = s.time := by
  unfold State.setStage; split <;> simp
@[simp] theorem State.setStage_chan (st : Stage) : (s.setStage st).chan = s.chan := by
  unfold State.setStage; split <;> simp
@[simp] theorem State.setStage_dec (st : Stage) : (s.setStage st).dec = s.dec := by
  unfold State.setStage; split <;> simp
@[simp] theorem State.setStage_comp (st : Stage) : (s.setStage st).comp = s.comp := by
  unfold State.setStage; split <;> simp
@[simp] theorem State.setStage_audio (st : Stage) : (s.setStage st).audio = s.audio := by
  unfold State.setStage; split <;> simp
@[simp] theorem State.setStage_net (st : Stage) : (s.setStage st).net = s.net := by
  unfold State.setStage; split <;> simp
@[simp] theorem State.setStage_lane (st : Stage) : (s.setStage st).lane = s.lane := by
  unfold State.setStage; split <;> simp
@[simp] theorem State.setStage_mem (st : Stage) : (s.setStage st).mem = s.mem := by
  unfold State.setStage; split <;> simp
@[simp] theorem State.setStage_sched (st : Stage) : (s.setStage st).sched = s.sched := by
  unfold State.setStage; split <;> simp

theorem State.setStage_boot (st : Stage) : (s.setStage st).boot = { s.boot with stage := st } := by
  unfold State.setStage
  split
  · rename_i h; rw [← h]
  · simp

end Sys2Proof.Machine
end

