-- ==== Sys2Proof/Laws/Kept.lean ====
section
/-!
SUPPORT. What every operation keeps: the queue of waiting commands, the soundness of the clock and the canonical form of the
byte memories. `State.Kept` says it between two states; the lemmas below carry it through the parts of a state.
-/

namespace Sys2Proof.Machine

/-- Nothing that a command must keep is lost between two states: the queue is the same; and if the clock is sound and
the two byte memories are canonical before, they are so after. -/
def State.Kept (q s : State) : Prop :=
  s.pending = q.pending ∧ (q.time.sound → s.time.sound) ∧
    (Memory.wf q.eci.mailbox = true → Memory.wf s.eci.mailbox = true) ∧
    (Memory.wf q.mem.data = true → Memory.wf s.mem.data = true)

theorem Kept.refl (s : State) : s.Kept s := ⟨rfl, id, id, id⟩
@[simp] theorem useFree_kept {q s : State} (h : q.Kept s) : q.Kept s.useFree := h

/-- The mailbox of one interface state is canonical if the other's is. -/
def Eci.Mail (a b : Eci) : Prop := Memory.wf b.mailbox = true → Memory.wf a.mailbox = true

theorem Eci.Mail.same {a b : Eci} (h : a.mailbox = b.mailbox) : a.Mail b := fun w => h ▸ w

def Mem.Data (a b : Mem) : Prop := Memory.wf b.data = true → Memory.wf a.data = true

theorem Mem.Data.same {a b : Mem} (h : a.data = b.data) : a.Data b := fun w => h ▸ w

def TimeState.Sound (a b : TimeState) : Prop := b.sound → a.sound

theorem TimeState.Sound.same {a b : TimeState} (h1 : a.ns = b.ns) (h2 : a.frac = b.frac) (h3 : a.epNs = b.epNs)
    (h4 : a.epSec = b.epSec) : a.Sound b := by
  intro w; unfold TimeState.sound at *; rw [h1, h2, h3, h4]; exact w

theorem modEci_kept {q s : State} {f : Eci → Eci}
    (hm : (f s.eci).Mail s.eci) (h : q.Kept s) : q.Kept (s.modEci f) :=
  ⟨h.1, h.2.1, fun w => hm (h.2.2.1 w), h.2.2.2⟩

theorem modMem_kept {q s : State} {f : Mem → Mem}
    (hm : (f s.mem).Data s.mem) (h : q.Kept s) : q.Kept (s.modMem f) :=
  ⟨h.1, h.2.1, h.2.2.1, fun w => hm (h.2.2.2 w)⟩

theorem modTime_kept {q s : State} {f : TimeState → TimeState}
    (hm : (f s.time).Sound s.time) (h : q.Kept s) : q.Kept (s.modTime f) :=
  ⟨h.1, fun w => hm (h.2.1 w), h.2.2⟩

theorem foldl_kept {α : Type} {l : List α} {g : State → α → State} {q s : State}
    (hg : ∀ s x, q.Kept s → q.Kept (g s x)) (h : q.Kept s) : q.Kept (l.foldl g s) := by
  induction l generalizing s with
  | nil => exact h
  | cons a l ih => exact ih (hg s a h)

def Out.kept (q : State) (o : Out) : Prop := ∀ t, o = .next t → q.Kept t

theorem next_kept {q t : State} (h : q.Kept t) : Out.kept q (.next t) := by
  intro u hu; cases hu; exact h

def Answer.kept (q : State) (a : Answer) : Prop := match a with | .done _ t => q.Kept t | .wait _ _ t => q.Kept t

theorem done_kept {q t : State} {r : Reply} (h : q.Kept t) : Answer.kept q (.done r t) := h

theorem wait_kept {q t : State} {w : Await} {r : Reply} (h : q.Kept t) : Answer.kept q (.wait w r t) := h

theorem ok_kept {q t : State} {r : Reply} (h : q.Kept t) : Answer.kept q (ok t r) := h

theorem refuse_kept {q t : State} {r : Reply} (h : q.Kept t) : Answer.kept q (refuse t r) := h

theorem stage_kept {q t : State} {k : BoundaryKind} {c : Change} {r : Reply} (h : q.Kept t) :
    Answer.kept q (stage t k c r) := h

theorem checked_kept {q t : State} {l : List (Bool × Reply)} {f : Unit → Answer} (h : q.Kept t)
    (hf : Answer.kept q (f ())) : Answer.kept q (checked t l f) := by
  unfold checked; split
  · exact h
  · exact hf
@[simp] theorem modBoot_kept {q s : State} {f : Boot → Boot} (h : q.Kept s) : q.Kept (s.modBoot f) := h
@[simp] theorem modChan_kept {q s : State} {f : Channels → Channels} (h : q.Kept s) : q.Kept (s.modChan f) := h
@[simp] theorem modDec_kept {q s : State} {f : Dec → Dec} (h : q.Kept s) : q.Kept (s.modDec f) := h
@[simp] theorem modComp_kept {q s : State} {f : Comp → Comp} (h : q.Kept s) : q.Kept (s.modComp f) := h
@[simp] theorem modAudio_kept {q s : State} {f : Audio → Audio} (h : q.Kept s) : q.Kept (s.modAudio f) := h
@[simp] theorem modNet_kept {q s : State} {f : Net → Net} (h : q.Kept s) : q.Kept (s.modNet f) := h
@[simp] theorem modLane_kept {q s : State} {f : Lanes → Lanes} (h : q.Kept s) : q.Kept (s.modLane f) := h
@[simp] theorem modSched_kept {q s : State} {f : Scheds → Scheds} (h : q.Kept s) : q.Kept (s.modSched f) := h

theorem TimeState.setEpoch_sound {t : TimeState} (n : Int) (h : t.sound) : (t.setEpoch n).sound := by
  obtain ⟨h1, h2, _, _⟩ := h
  refine ⟨h1, h2, ?_, ?_⟩ <;> (simp only [TimeState.setEpoch]; omega)

/-- A clock whose counter and fraction are taken modulo their widths is sound. -/
theorem TimeState.sound_of_mod {t u : TimeState} (a b : Nat) (h : t.sound) (hn : u.ns = a % 2 ^ 32)
    (hf : u.frac = b % 2 ^ 32) (h1 : u.epNs = t.epNs) (h2 : u.epSec = t.epSec) : u.sound :=
  ⟨hn ▸ Nat.mod_lt _ (Nat.two_pow_pos 32), hf ▸ Nat.mod_lt _ (Nat.two_pow_pos 32), h1 ▸ h.2.2.1, h2 ▸ h.2.2.2⟩

theorem TimeState.advance_sound (t : TimeState) (n : Nat) (h : t.sound) : (t.advance n).sound := by
  unfold advance
  lift_lets
  intro per adj total t1 t2
  have h1 : t1.epNs = t.epNs ∧ t1.epSec = t.epSec := by
    dsimp only [t1]; split <;> exact ⟨rfl, rfl⟩
  have h2 : t2.sound := TimeState.sound_of_mod (total / 2 ^ 32) total h rfl rfl h1.1 h1.2
  clear_value t2
  split
  · exact h2
  · obtain ⟨a, b, c, d⟩ := TimeState.setEpoch_sound (t2.epochNs + 2 ^ 32) h2
    exact ⟨a, b, c, d⟩

end Sys2Proof.Machine
end

