-- ==== Sys2Proof/Laws/KeptBy.lean ====
section
/-!
SUPPORT. Every operation on the state and every meaning keeps the queue, a sound clock and canonical memories: one lemma for
each, in the order of the model's files.
-/

set_option linter.unusedTactic false
set_option linter.unreachableTactic false
set_option linter.unusedVariables false

namespace Sys2Proof.Machine

open Sys2Proof

/-! ### Ops -/

@[simp] theorem State.modFn_kept {s : State} (f : Nat) (g : FnState → FnState) {s₀ : State} (hk : s₀.Kept s) :
    s₀.Kept (State.modFn s f g) := by
  unfold State.modFn
  repeat' (first
      | with_reducible assumption | with_reducible apply modEci_kept | (with_reducible apply Eci.Mail.same; rfl)
      | split | dsimp only | (simp (maxDischargeDepth := 9) [*]; done))

@[simp] theorem State.mbxStore_kept {s : State} (off : Nat) (bs : List Byte) {q : State} (h : q.Kept s) : q.Kept
    (s.mbxStore off bs) :=
  modEci_kept (fun w => Memory.wf_store w off bs) h

@[simp] theorem State.wakeLink_kept {s : State} {s₀ : State} (hk : s₀.Kept s) : s₀.Kept (State.wakeLink s) := by
  unfold State.wakeLink
  repeat' (first
      | with_reducible assumption | with_reducible apply modEci_kept | (with_reducible apply Eci.Mail.same; rfl)
      | split | dsimp only | (simp (maxDischargeDepth := 9) [*]; done))

@[simp] theorem State.writeEvent_kept {s : State} (f : Nat) (e : Event) {s₀ : State} (hk : s₀.Kept s) : s₀.Kept
    (State.writeEvent s f e) := by
  unfold State.writeEvent
  repeat' (first
      | with_reducible assumption | with_reducible apply State.wakeLink_kept
      | with_reducible apply State.mbxStore_kept | with_reducible apply State.modFn_kept | split | dsimp only
      | (simp (maxDischargeDepth := 9) [*]; done))

@[simp] theorem State.holdEvent_kept {s : State} (f : Nat) (e : Event) {s₀ : State} (hk : s₀.Kept s) : s₀.Kept
    (State.holdEvent s f e) := by
  unfold State.holdEvent
  repeat' (first
      | with_reducible assumption | with_reducible apply State.modFn_kept | split | dsimp only
      | (simp (maxDischargeDepth := 9) [*]; done))

@[simp] theorem State.flushHeld_kept {s : State} (f : Nat) (n : Nat) {s₀ : State} (hk : s₀.Kept s) : s₀.Kept
    (State.flushHeld s f n) := by
  induction n generalizing s with
  | zero => exact hk
  | succ n ih =>
    unfold State.flushHeld
    repeat' (first
        | with_reducible assumption | with_reducible apply State.writeEvent_kept
        | with_reducible apply State.modFn_kept | with_reducible apply ih | split | dsimp only
        | (simp (maxDischargeDepth := 9) [*]; done))

@[simp] theorem State.captureTime_kept {s : State} {s₀ : State} (hk : s₀.Kept s) : s₀.Kept (State.captureTime s) := by
  unfold State.captureTime
  repeat' (first
      | with_reducible assumption | with_reducible apply modEci_kept | (with_reducible apply Eci.Mail.same; rfl)
      | split | dsimp only | (simp (maxDischargeDepth := 9) [*]; done))

@[simp] theorem State.captureGroup_kept {s : State} (g : Nat) (values : List Nat) {s₀ : State} (hk : s₀.Kept s)
    : s₀.Kept (State.captureGroup s g values) := by
  unfold State.captureGroup
  repeat' (first
      | with_reducible assumption | with_reducible apply modEci_kept | (with_reducible apply Eci.Mail.same; rfl)
      | split | dsimp only | (simp (maxDischargeDepth := 9) [*]; done))

@[simp] theorem State.flushEvents_kept {s : State} (f : Nat) {s₀ : State} (hk : s₀.Kept s) : s₀.Kept
    (State.flushEvents s f) := by
  unfold State.flushEvents
  repeat' (first
      | with_reducible assumption | with_reducible apply State.flushHeld_kept | split | dsimp only
      | (simp (maxDischargeDepth := 9) [*]; done))

@[simp] theorem State.sendSessions_kept {s : State} (f : Nat) (e : Event) {s₀ : State} (hk : s₀.Kept s) :
    s₀.Kept (State.sendSessions s f e) := by
  unfold State.sendSessions
  repeat' (first
      | with_reducible assumption | with_reducible apply modEci_kept | (with_reducible apply Eci.Mail.same; rfl)
      | split | dsimp only | (simp (maxDischargeDepth := 9) [*]; done))

@[simp] theorem State.raiseTo_kept {s : State} (f : Nat) (e : Event) {s₀ : State} (hk : s₀.Kept s) : s₀.Kept
    (State.raiseTo s f e) := by
  unfold State.raiseTo
  repeat' (first
      | with_reducible assumption | with_reducible apply State.sendSessions_kept
      | with_reducible apply State.flushEvents_kept | with_reducible apply State.holdEvent_kept
      | with_reducible apply State.writeEvent_kept | with_reducible apply State.modFn_kept | split | dsimp only
      | (simp (maxDischargeDepth := 9) [*]; done))

@[simp] theorem State.raise_kept {s : State} (k : EventKind) (handle : Nat) (detail : Nat) (pic : Option Nat)
    {s₀ : State} (hk : s₀.Kept s) : s₀.Kept (State.raise s k handle detail pic) := by
  unfold State.raise
  repeat' (first
      | with_reducible assumption | with_reducible apply State.raiseTo_kept
      | with_reducible apply State.captureTime_kept | split | dsimp only
      | (simp (maxDischargeDepth := 9) [*]; done))

@[simp] theorem State.raiseOwn_kept {s : State} (f : Nat) (k : EventKind) (detail : Nat) {s₀ : State} (hk :
    s₀.Kept s) : s₀.Kept (State.raiseOwn s f k detail) := by
  unfold State.raiseOwn
  repeat' (first
      | with_reducible assumption | with_reducible apply State.raiseTo_kept
      | with_reducible apply State.captureTime_kept | split | dsimp only
      | (simp (maxDischargeDepth := 9) [*]; done))

@[simp] theorem State.raiseAll_kept {s : State} (k : EventKind) (detail time : Nat) {s₀ : State} (hk : s₀.Kept
    s) : s₀.Kept (State.raiseAll s k detail time) := by
  unfold State.raiseAll
  repeat' (first
      | with_reducible assumption | with_reducible apply State.raiseTo_kept | with_reducible apply foldl_kept
      | split | dsimp only | intro _ | (simp (maxDischargeDepth := 9) [*]; done))

@[simp] theorem State.causeAll_kept {s : State} (c : Nat) {s₀ : State} (hk : s₀.Kept s) : s₀.Kept
    (State.causeAll s c) := by
  unfold State.causeAll
  repeat' (first
      | with_reducible assumption | with_reducible apply State.modFn_kept | with_reducible apply foldl_kept | split
      | dsimp only | intro _ | (simp (maxDischargeDepth := 9) [*]; done))

@[simp] theorem State.setStage_kept {s : State} (st : Stage) {s₀ : State} (hk : s₀.Kept s) : s₀.Kept
    (State.setStage s st) := by
  unfold State.setStage
  repeat' (first
      | with_reducible assumption | with_reducible apply State.causeAll_kept | with_reducible apply stage_kept
      | with_reducible apply modBoot_kept | split | dsimp only | (simp (maxDischargeDepth := 9) [*]; done))

@[simp] theorem State.writeCompletion_kept {s : State} (f q : Nat) (c : Completion) {s₀ : State} (hk : s₀.Kept
    s) : s₀.Kept (State.writeCompletion s f q c) := by
  unfold State.writeCompletion
  repeat' (first
      | with_reducible assumption | with_reducible apply State.wakeLink_kept
      | with_reducible apply State.mbxStore_kept | with_reducible apply State.modFn_kept | split | dsimp only
      | (simp (maxDischargeDepth := 9) [*]; done))

@[simp] theorem State.postCompletion_kept {s : State} (f q : Nat) (c : Completion) {s₀ : State} (hk : s₀.Kept s)
    : s₀.Kept (State.postCompletion s f q c) := by
  unfold State.postCompletion
  repeat' (first
      | with_reducible assumption | with_reducible apply State.writeCompletion_kept
      | with_reducible apply modEci_kept | (with_reducible apply Eci.Mail.same; rfl) | split | dsimp only
      | (simp (maxDischargeDepth := 9) [*]; done))

@[simp] theorem State.noteConfig_kept {s : State} (k : Cmd) (r : Reply) {s₀ : State} (hk : s₀.Kept s) : s₀.Kept
    (State.noteConfig s k r) := by
  unfold State.noteConfig
  repeat' (first
      | with_reducible assumption | with_reducible apply modEci_kept | (with_reducible apply Eci.Mail.same; rfl)
      | split | dsimp only | (simp (maxDischargeDepth := 9) [*]; done))

@[simp] theorem State.sessionCompletion_kept {s : State} (n : Nat) (k : Cmd) (c : Completion) {s₀ : State} (hk :
    s₀.Kept s) : s₀.Kept (State.sessionCompletion s n k c) := by
  unfold State.sessionCompletion
  repeat' (first
      | with_reducible assumption | with_reducible apply modEci_kept | (with_reducible apply Eci.Mail.same; rfl)
      | split | dsimp only | (simp (maxDischargeDepth := 9) [*]; done))

@[simp] theorem State.finishDeletes_kept {s : State} {s₀ : State} (hk : s₀.Kept s) : s₀.Kept
    (State.finishDeletes s) := by
  unfold State.finishDeletes
  repeat' (first
      | with_reducible assumption | with_reducible apply State.sessionCompletion_kept
      | with_reducible apply State.postCompletion_kept | with_reducible apply State.modFn_kept
      | with_reducible apply modEci_kept | with_reducible apply foldl_kept
      | (with_reducible apply Eci.Mail.same; rfl) | split | dsimp only | intro _
      | (simp (maxDischargeDepth := 9) [*]; done))

@[simp] theorem State.complete_kept {s : State} (k : Cmd) (r : Reply) {s₀ : State} (hk : s₀.Kept s) : s₀.Kept
    (State.complete s k r) := by
  unfold State.complete
  repeat' (first
      | with_reducible assumption | with_reducible apply State.finishDeletes_kept
      | with_reducible apply State.sessionCompletion_kept | with_reducible apply State.noteConfig_kept
      | with_reducible apply State.postCompletion_kept | with_reducible apply State.mbxStore_kept
      | with_reducible apply State.modFn_kept | split | dsimp only | (simp (maxDischargeDepth := 9) [*]; done))

@[simp] theorem State.flushCompletions_kept {s : State} {s₀ : State} (hk : s₀.Kept s) : s₀.Kept
    (State.flushCompletions s) := by
  unfold State.flushCompletions
  repeat' (first
      | with_reducible assumption | with_reducible apply State.finishDeletes_kept
      | with_reducible apply State.writeCompletion_kept | with_reducible apply modEci_kept
      | with_reducible apply foldl_kept | (with_reducible apply Eci.Mail.same; rfl) | split | dsimp only | intro _
      | (simp (maxDischargeDepth := 9) [*]; done))

@[simp] theorem State.completeRunning_kept {s : State} (p : Running → Bool) (f : Running → Reply) {s₀ : State}
    (hk : s₀.Kept s) : s₀.Kept (State.completeRunning s p f) := by
  unfold State.completeRunning
  repeat' (first
      | with_reducible assumption | with_reducible apply State.complete_kept | with_reducible apply modEci_kept
      | with_reducible apply foldl_kept | (with_reducible apply Eci.Mail.same; rfl) | split | dsimp only | intro _
      | (simp (maxDischargeDepth := 9) [*]; done))

@[simp] theorem State.transfer_kept {s : State} (h toFn : Nat) {s₀ : State} (hk : s₀.Kept s) : s₀.Kept
    (State.transfer s h toFn) := by
  unfold State.transfer
  repeat' (first
      | with_reducible assumption | with_reducible apply modEci_kept | (with_reducible apply Eci.Mail.same; rfl)
      | split | dsimp only | (simp (maxDischargeDepth := 9) [*]; done))

theorem State.newObject_kept {s t s₀ : State} {type die limit owner h : Nat} (he : s.newObject type die limit
    owner = some (h, t)) (hk : s₀.Kept s) : s₀.Kept t := by
  unfold State.newObject at he
  split at he
  · cases he
  · simp only [Option.some.injEq, Prod.mk.injEq] at he
    rw [← he.2]
    exact modEci_kept (.same rfl) hk

@[simp] theorem State.freeObject_kept {s : State} (h : Nat) {s₀ : State} (hk : s₀.Kept s) : s₀.Kept
    (State.freeObject s h) := by
  unfold State.freeObject
  repeat' (first
      | with_reducible assumption | with_reducible apply modEci_kept | (with_reducible apply Eci.Mail.same; rfl)
      | split | dsimp only | (simp (maxDischargeDepth := 9) [*]; done))

@[simp] theorem State.fresh_kept {s s₀ : State} (hk : s₀.Kept s) : s₀.Kept s.fresh.2 := useFree_kept hk

@[simp] theorem State.unitReset_kept {s : State} (requester : Nat) {s₀ : State} (hk : s₀.Kept s) : s₀.Kept
    (State.unitReset s requester) := by
  unfold State.unitReset
  repeat' (first
      | with_reducible assumption | with_reducible apply modMem_kept | (with_reducible apply Mem.Data.same; rfl)
      | split | dsimp only | (simp (maxDischargeDepth := 9) [*]; done))

/-! ### Command -/

theorem Answer.fits_kept (k : Cmd) {s s₀ : State} {a : Answer} (hk : s₀.Kept s) (ha : Answer.kept s₀ a) :
    Answer.kept s₀ (a.fits k s) := by
  unfold Answer.fits
  split
  · split
    · exact hk
    · exact ha
  · exact ha

theorem EciSpec.serve_kept (e : EciSpec) (k : Cmd) {s q : State} (h : q.Kept s) (hr : Answer.kept q (e.run k s))
    : Answer.kept q (e.serve k s) := by
  unfold EciSpec.serve; split
  · exact h
  · exact Answer.fits_kept k h hr

theorem State.hint_kept (r : Reply) {s s₀ : State} (hk : s₀.Kept s) : s₀.Kept (s.hint r).1 := by
  unfold State.hint; split
  · exact useFree_kept hk
  · exact hk

theorem Answer.settle_kept (k : Cmd) {a : Answer} {s₀ : State} (h : Answer.kept s₀ a) : s₀.Kept (a.settle k) := by
  cases a with
  | done r t => exact State.complete_kept k _ (State.hint_kept _ h)
  | wait w r t =>
    have h1 : s₀.Kept (t.modEci fun e => { e with running := e.running ++ [{ cmd := k, await := w, reply := r }] }) :=
      modEci_kept (.same rfl) h
    simp only [Answer.settle]
    split
    · exact State.modFn_kept _ _ h1
    · exact State.finishDeletes_kept h1

@[simp] theorem State.takeUp_kept {s : State} (t : Token) {s₀ : State} (hk : s₀.Kept s) : s₀.Kept (State.takeUp
    s t) := by
  unfold State.takeUp
  repeat' (first
      | with_reducible assumption | with_reducible apply modEci_kept | (with_reducible apply Eci.Mail.same; rfl)
      | split | dsimp only | (simp (maxDischargeDepth := 9) [*]; done))

theorem runEci_kept (e : EciSpec) (c : Submission) {s q : State} (hr : ∀ k {s q}, q.Kept s → Answer.kept q
    (e.run k s)) (h : q.Kept s) : Out.kept q (runEci e c s) := by
  unfold runEci; split
  · exact next_kept h
  · exact next_kept (Answer.settle_kept _ (EciSpec.serve_kept e _ (State.takeUp_kept _ h) (hr _
      (State.takeUp_kept _ h))))

theorem State.gated_kept {s s₀ : State} (h : Nat) {a : Answer} (hk : s₀.Kept s) (ha : Answer.kept s₀ a) :
    Answer.kept s₀ (s.gated h a) := by
  unfold State.gated
  split
  · split
    · exact ha
    · exact hk
  · exact hk
  · exact ha

/-! ### Admission -/

theorem State.mapBuffer_kept {s t s₀ : State} {o d b a : Nat} (he : s.mapBuffer o d b = some (a, t)) (hk :
    s₀.Kept s) : s₀.Kept t := by
  simp only [State.mapBuffer] at he
  split at he
  · cases he
  · simp only [Option.some.injEq, Prod.mk.injEq] at he
    rw [← he.2]
    exact modMem_kept (.same rfl) hk

theorem State.mapBuffers_kept {s t s₀ : State} {o : Nat} {l : List (Nat × Nat)} {as : List Nat} (he :
    s.mapBuffers o l = some (as, t)) (hk : s₀.Kept s) : s₀.Kept t := by
  induction l generalizing s as with
  | nil => simp only [State.mapBuffers, Option.some.injEq, Prod.mk.injEq] at he; rw [← he.2]; exact hk
  | cons x r ih =>
    obtain ⟨d, b⟩ := x
    simp only [State.mapBuffers] at he
    split at he
    · cases he
    · next a u hu =>
      split at he
      · cases he
      · next as' w hw =>
        simp only [Option.some.injEq, Prod.mk.injEq] at he
        obtain ⟨_, rfl⟩ := he
        exact ih hw (State.mapBuffer_kept hu hk)

@[simp] theorem State.unmapAt_kept {s : State} (off : Nat) {s₀ : State} (hk : s₀.Kept s) : s₀.Kept (s.unmapAt off) := by
  unfold State.unmapAt
  refine modMem_kept ?_ hk
  dsimp only
  split
  · exact .same rfl
  · exact fun w => Memory.wf_filter w _

@[simp] theorem State.unmapObject_kept {s : State} (h : Nat) {s₀ : State} (hk : s₀.Kept s) : s₀.Kept
    (State.unmapObject s h) := by
  unfold State.unmapObject
  repeat' (first
      | with_reducible assumption | with_reducible apply State.unmapAt_kept | with_reducible apply foldl_kept
      | split | dsimp only | intro _ | (simp (maxDischargeDepth := 9) [*]; done))

@[simp] theorem State.bufStore_kept {s : State} (off : Nat) (bs : List Byte) {s₀ : State} (hk : s₀.Kept s) :
    s₀.Kept (s.bufStore off bs) :=
  modMem_kept (fun w => Memory.wf_store w off bs) hk

/-! ### Objects -/

@[simp] theorem State.modCh_kept {s : State} (h : Nat) (f : Channel → Channel) {s₀ : State} (hk : s₀.Kept s) :
    s₀.Kept (State.modCh s h f) := by
  unfold State.modCh
  repeat' (first
      | with_reducible assumption | with_reducible apply modChan_kept | split | dsimp only
      | (simp (maxDischargeDepth := 9) [*]; done))

@[simp] theorem State.captionPacket_kept {s : State} (src time : Nat) (l : List Sys2Proof.Caption) {s₀ : State}
    (hk : s₀.Kept s) : s₀.Kept (State.captionPacket s src time l) := by
  unfold State.captionPacket
  repeat' (first
      | with_reducible assumption | with_reducible apply modChan_kept | split | dsimp only
      | (simp (maxDischargeDepth := 9) [*]; done))

/-! ### Channels -/

theorem specChannelCreate_kept (k : Cmd) {s s₀ : State} (hk : s₀.Kept s) : Answer.kept s₀ (specChannelCreate.run
    k s) := by
  simp only [specChannelCreate]
  repeat' (first
      | with_reducible assumption | with_reducible apply State.raise_kept | with_reducible apply refuse_kept
      | with_reducible apply ok_kept | with_reducible apply useFree_kept | with_reducible apply modChan_kept
      | refine State.newObject_kept (by assumption) ?_ | with_reducible apply checked_kept | split | dsimp only
      | (simp (maxDischargeDepth := 9) [*]; done))

theorem execChannelCreate_kept (c : Submission) {s : State} {s₀ : State} (hk : s₀.Kept s) : Out.kept s₀
    (execChannelCreate c s) := runEci_kept _ _ specChannelCreate_kept hk

theorem specChannelAdmitCheck_kept (k : Cmd) {s s₀ : State} (hk : s₀.Kept s) : Answer.kept s₀
    (specChannelAdmitCheck.run k s) := by
  simp only [specChannelAdmitCheck]
  repeat' (first
      | with_reducible assumption | with_reducible apply refuse_kept | with_reducible apply ok_kept
      | with_reducible apply checked_kept | split | dsimp only | (simp (maxDischargeDepth := 9) [*]; done))

theorem execChannelAdmitCheck_kept (c : Submission) {s : State} {s₀ : State} (hk : s₀.Kept s) : Out.kept s₀
    (execChannelAdmitCheck c s) := runEci_kept _ _ specChannelAdmitCheck_kept hk

theorem specChannelSet_kept (k : Cmd) {s s₀ : State} (hk : s₀.Kept s) : Answer.kept s₀ (specChannelSet.run k s) := by
  simp only [specChannelSet]
  repeat' (first
      | with_reducible assumption | with_reducible apply State.modCh_kept | with_reducible apply refuse_kept
      | with_reducible apply ok_kept | with_reducible apply foldl_kept | with_reducible apply checked_kept | split
      | dsimp only | intro _ | (simp (maxDischargeDepth := 9) [*]; done))

theorem execChannelSet_kept (c : Submission) {s : State} {s₀ : State} (hk : s₀.Kept s) : Out.kept s₀
    (execChannelSet c s) := runEci_kept _ _ specChannelSet_kept hk

theorem specChannelStart_kept (k : Cmd) {s s₀ : State} (hk : s₀.Kept s) : Answer.kept s₀ (specChannelStart.run k
    s) := by
  simp only [specChannelStart]
  repeat' (first
      | with_reducible assumption | with_reducible apply stage_kept | with_reducible apply checked_kept | split
      | dsimp only | (simp (maxDischargeDepth := 9) [*]; done))

theorem execChannelStart_kept (c : Submission) {s : State} {s₀ : State} (hk : s₀.Kept s) : Out.kept s₀
    (execChannelStart c s) := runEci_kept _ _ specChannelStart_kept hk

theorem specChannelStop_kept (k : Cmd) {s s₀ : State} (hk : s₀.Kept s) : Answer.kept s₀ (specChannelStop.run k s) := by
  simp only [specChannelStop]
  repeat' (first
      | with_reducible assumption | with_reducible apply stage_kept | with_reducible apply checked_kept | split
      | dsimp only | (simp (maxDischargeDepth := 9) [*]; done))

theorem execChannelStop_kept (c : Submission) {s : State} {s₀ : State} (hk : s₀.Kept s) : Out.kept s₀
    (execChannelStop c s) := runEci_kept _ _ specChannelStop_kept hk

@[simp] theorem State.dropChannel_kept {s : State} (h : Nat) {s₀ : State} (hk : s₀.Kept s) : s₀.Kept
    (State.dropChannel s h) := by
  unfold State.dropChannel
  repeat' (first
      | with_reducible assumption | with_reducible apply State.unmapObject_kept
      | with_reducible apply State.freeObject_kept | with_reducible apply State.raise_kept
      | with_reducible apply useFree_kept | with_reducible apply modComp_kept | with_reducible apply modDec_kept
      | with_reducible apply modChan_kept | with_reducible apply modEci_kept | with_reducible apply foldl_kept
      | (with_reducible apply Eci.Mail.same; rfl) | split | dsimp only | intro _
      | (simp (maxDischargeDepth := 9) [*]; done))

theorem specChannelDestroy_kept (k : Cmd) {s s₀ : State} (hk : s₀.Kept s) : Answer.kept s₀
    (specChannelDestroy.run k s) := by
  simp only [specChannelDestroy]
  repeat' (first
      | with_reducible assumption | with_reducible apply State.dropChannel_kept | with_reducible apply ok_kept
      | with_reducible apply checked_kept | split | dsimp only | (simp (maxDischargeDepth := 9) [*]; done))

theorem execChannelDestroy_kept (c : Submission) {s : State} {s₀ : State} (hk : s₀.Kept s) : Out.kept s₀
    (execChannelDestroy c s) := runEci_kept _ _ specChannelDestroy_kept hk

theorem specChannelQuery_kept (k : Cmd) {s s₀ : State} (hk : s₀.Kept s) : Answer.kept s₀ (specChannelQuery.run k
    s) := by
  simp only [specChannelQuery]
  repeat' (first
      | with_reducible assumption | with_reducible apply ok_kept | split | dsimp only
      | (simp (maxDischargeDepth := 9) [*]; done))

theorem execChannelQuery_kept (c : Submission) {s : State} {s₀ : State} (hk : s₀.Kept s) : Out.kept s₀
    (execChannelQuery c s) := runEci_kept _ _ specChannelQuery_kept hk

theorem specSlotTableSet_kept (k : Cmd) {s s₀ : State} (hk : s₀.Kept s) : Answer.kept s₀ (specSlotTableSet.run k
    s) := by
  simp only [specSlotTableSet]
  repeat' (first
      | with_reducible assumption | with_reducible apply State.gated_kept | with_reducible apply stage_kept
      | with_reducible apply checked_kept | split | dsimp only | (simp (maxDischargeDepth := 9) [*]; done))

theorem execSlotTableSet_kept (c : Submission) {s : State} {s₀ : State} (hk : s₀.Kept s) : Out.kept s₀
    (execSlotTableSet c s) := runEci_kept _ _ specSlotTableSet_kept hk

theorem specSlotTableGet_kept (k : Cmd) {s s₀ : State} (hk : s₀.Kept s) : Answer.kept s₀ (specSlotTableGet.run k
    s) := by
  simp only [specSlotTableGet]
  repeat' (first
      | with_reducible assumption | with_reducible apply State.gated_kept | with_reducible apply refuse_kept
      | with_reducible apply ok_kept | split | dsimp only | (simp (maxDischargeDepth := 9) [*]; done))

theorem execSlotTableGet_kept (c : Submission) {s : State} {s₀ : State} (hk : s₀.Kept s) : Out.kept s₀
    (execSlotTableGet c s) := runEci_kept _ _ specSlotTableGet_kept hk

theorem specSlateCreate_kept (k : Cmd) {s s₀ : State} (hk : s₀.Kept s) : Answer.kept s₀ (specSlateCreate.run k s) := by
  simp only [specSlateCreate]
  repeat' (first
      | with_reducible assumption | with_reducible apply refuse_kept | with_reducible apply ok_kept
      | with_reducible apply modChan_kept | refine State.newObject_kept (by assumption) ?_
      | refine State.mapBuffers_kept (by assumption) ?_ | refine State.mapBuffer_kept (by assumption) ?_
      | with_reducible apply checked_kept | split | dsimp only | (simp (maxDischargeDepth := 9) [*]; done))

theorem execSlateCreate_kept (c : Submission) {s : State} {s₀ : State} (hk : s₀.Kept s) : Out.kept s₀
    (execSlateCreate c s) := runEci_kept _ _ specSlateCreate_kept hk

theorem specSlateDestroy_kept (k : Cmd) {s s₀ : State} (hk : s₀.Kept s) : Answer.kept s₀ (specSlateDestroy.run k
    s) := by
  simp only [specSlateDestroy]
  repeat' (first
      | with_reducible assumption | with_reducible apply State.unmapObject_kept
      | with_reducible apply State.freeObject_kept | with_reducible apply ok_kept
      | with_reducible apply modChan_kept | with_reducible apply checked_kept | split | dsimp only
      | (simp (maxDischargeDepth := 9) [*]; done))

theorem execSlateDestroy_kept (c : Submission) {s : State} {s₀ : State} (hk : s₀.Kept s) : Out.kept s₀
    (execSlateDestroy c s) := runEci_kept _ _ specSlateDestroy_kept hk

theorem specDieLoad_kept (k : Cmd) {s s₀ : State} (hk : s₀.Kept s) : Answer.kept s₀ (specDieLoad.run k s) := by
  simp only [specDieLoad]
  repeat' (first
      | with_reducible assumption | with_reducible apply State.gated_kept | with_reducible apply refuse_kept
      | with_reducible apply ok_kept | split | dsimp only | (simp (maxDischargeDepth := 9) [*]; done))

theorem execDieLoad_kept (c : Submission) {s : State} {s₀ : State} (hk : s₀.Kept s) : Out.kept s₀ (execDieLoad c
    s) := runEci_kept _ _ specDieLoad_kept hk

/-! ### Coding -/

theorem specCodingTools_kept (k : Cmd) {s s₀ : State} (hk : s₀.Kept s) : Answer.kept s₀ (specCodingTools.run k s) := by
  simp only [specCodingTools]
  repeat' (first
      | with_reducible assumption | with_reducible apply State.modCh_kept | with_reducible apply ok_kept
      | with_reducible apply checked_kept | split | dsimp only | (simp (maxDischargeDepth := 9) [*]; done))

theorem execCodingTools_kept (c : Submission) {s : State} {s₀ : State} (hk : s₀.Kept s) : Out.kept s₀
    (execCodingTools c s) := runEci_kept _ _ specCodingTools_kept hk

theorem specCodingToolsGet_kept (k : Cmd) {s s₀ : State} (hk : s₀.Kept s) : Answer.kept s₀
    (specCodingToolsGet.run k s) := by
  simp only [specCodingToolsGet]
  repeat' (first
      | with_reducible assumption | with_reducible apply ok_kept | with_reducible apply checked_kept | split
      | dsimp only | (simp (maxDischargeDepth := 9) [*]; done))

theorem execCodingToolsGet_kept (c : Submission) {s : State} {s₀ : State} (hk : s₀.Kept s) : Out.kept s₀
    (execCodingToolsGet c s) := runEci_kept _ _ specCodingToolsGet_kept hk

theorem specAnalysisSet_kept (k : Cmd) {s s₀ : State} (hk : s₀.Kept s) : Answer.kept s₀ (specAnalysisSet.run k s) := by
  simp only [specAnalysisSet]
  repeat' (first
      | with_reducible assumption | with_reducible apply stage_kept | with_reducible apply checked_kept | split
      | dsimp only | (simp (maxDischargeDepth := 9) [*]; done))

theorem execAnalysisSet_kept (c : Submission) {s : State} {s₀ : State} (hk : s₀.Kept s) : Out.kept s₀
    (execAnalysisSet c s) := runEci_kept _ _ specAnalysisSet_kept hk

theorem specAnalysisQuery_kept (k : Cmd) {s s₀ : State} (hk : s₀.Kept s) : Answer.kept s₀ (specAnalysisQuery.run
    k s) := by
  simp only [specAnalysisQuery]
  repeat' (first
      | with_reducible assumption | with_reducible apply ok_kept | with_reducible apply checked_kept | split
      | dsimp only | (simp (maxDischargeDepth := 9) [*]; done))

theorem execAnalysisQuery_kept (c : Submission) {s : State} {s₀ : State} (hk : s₀.Kept s) : Out.kept s₀
    (execAnalysisQuery c s) := runEci_kept _ _ specAnalysisQuery_kept hk

theorem specRecipeInfo_kept (k : Cmd) {s s₀ : State} (hk : s₀.Kept s) : Answer.kept s₀ (specRecipeInfo.run k s) := by
  simp only [specRecipeInfo]
  repeat' (first
      | with_reducible assumption | with_reducible apply ok_kept | split | dsimp only
      | (simp (maxDischargeDepth := 9) [*]; done))

theorem execRecipeInfo_kept (c : Submission) {s : State} {s₀ : State} (hk : s₀.Kept s) : Out.kept s₀
    (execRecipeInfo c s) := runEci_kept _ _ specRecipeInfo_kept hk

theorem specCodingStructure_kept (k : Cmd) {s s₀ : State} (hk : s₀.Kept s) : Answer.kept s₀
    (specCodingStructure.run k s) := by
  simp only [specCodingStructure]
  repeat' (first
      | with_reducible assumption | with_reducible apply State.modCh_kept | with_reducible apply ok_kept
      | with_reducible apply checked_kept | split | dsimp only | (simp (maxDischargeDepth := 9) [*]; done))

theorem execCodingStructure_kept (c : Submission) {s : State} {s₀ : State} (hk : s₀.Kept s) : Out.kept s₀
    (execCodingStructure c s) := runEci_kept _ _ specCodingStructure_kept hk

theorem specCodingSei_kept (k : Cmd) {s s₀ : State} (hk : s₀.Kept s) : Answer.kept s₀ (specCodingSei.run k s) := by
  simp only [specCodingSei]
  repeat' (first
      | with_reducible assumption | with_reducible apply stage_kept | with_reducible apply checked_kept | split
      | dsimp only | (simp (maxDischargeDepth := 9) [*]; done))

theorem execCodingSei_kept (c : Submission) {s : State} {s₀ : State} (hk : s₀.Kept s) : Out.kept s₀
    (execCodingSei c s) := runEci_kept _ _ specCodingSei_kept hk

theorem specCodingStructureGet_kept (k : Cmd) {s s₀ : State} (hk : s₀.Kept s) : Answer.kept s₀
    (specCodingStructureGet.run k s) := by
  simp only [specCodingStructureGet]
  repeat' (first
      | with_reducible assumption | with_reducible apply ok_kept | with_reducible apply checked_kept | split
      | dsimp only | (simp (maxDischargeDepth := 9) [*]; done))

theorem execCodingStructureGet_kept (c : Submission) {s : State} {s₀ : State} (hk : s₀.Kept s) : Out.kept s₀
    (execCodingStructureGet c s) := runEci_kept _ _ specCodingStructureGet_kept hk

theorem specRcSet_kept (k : Cmd) {s s₀ : State} (hk : s₀.Kept s) : Answer.kept s₀ (specRcSet.run k s) := by
  simp only [specRcSet]
  repeat' (first
      | with_reducible assumption | with_reducible apply stage_kept | with_reducible apply checked_kept | split
      | dsimp only | (simp (maxDischargeDepth := 9) [*]; done))

theorem execRcSet_kept (c : Submission) {s : State} {s₀ : State} (hk : s₀.Kept s) : Out.kept s₀ (execRcSet c s)
    := runEci_kept _ _ specRcSet_kept hk

theorem specRcGet_kept (k : Cmd) {s s₀ : State} (hk : s₀.Kept s) : Answer.kept s₀ (specRcGet.run k s) := by
  simp only [specRcGet]
  repeat' (first
      | with_reducible assumption | with_reducible apply ok_kept | with_reducible apply checked_kept | split
      | dsimp only | (simp (maxDischargeDepth := 9) [*]; done))

theorem execRcGet_kept (c : Submission) {s : State} {s₀ : State} (hk : s₀.Kept s) : Out.kept s₀ (execRcGet c s)
    := runEci_kept _ _ specRcGet_kept hk

theorem specRcQuery_kept (k : Cmd) {s s₀ : State} (hk : s₀.Kept s) : Answer.kept s₀ (specRcQuery.run k s) := by
  simp only [specRcQuery]
  repeat' (first
      | with_reducible assumption | with_reducible apply stage_kept | with_reducible apply ok_kept
      | with_reducible apply checked_kept | split | dsimp only | (simp (maxDischargeDepth := 9) [*]; done))

theorem execRcQuery_kept (c : Submission) {s : State} {s₀ : State} (hk : s₀.Kept s) : Out.kept s₀ (execRcQuery c
    s) := runEci_kept _ _ specRcQuery_kept hk

theorem specDelayQuery_kept (k : Cmd) {s s₀ : State} (hk : s₀.Kept s) : Answer.kept s₀ (specDelayQuery.run k s) := by
  simp only [specDelayQuery]
  repeat' (first
      | with_reducible assumption | with_reducible apply ok_kept | with_reducible apply next_kept
      | with_reducible apply checked_kept | split | dsimp only | (simp (maxDischargeDepth := 9) [*]; done))

theorem execDelayQuery_kept (c : Submission) {s : State} {s₀ : State} (hk : s₀.Kept s) : Out.kept s₀
    (execDelayQuery c s) := runEci_kept _ _ specDelayQuery_kept hk

/-! ### DecodeCh -/

@[simp] theorem State.putRing_kept {s : State} (au : Bool) (h : Nat) (r : HubRing) {s₀ : State} (hk : s₀.Kept s)
    : s₀.Kept (State.putRing s au h r) := by
  unfold State.putRing
  repeat' (first
      | with_reducible assumption | with_reducible apply modDec_kept | split | dsimp only
      | (simp (maxDischargeDepth := 9) [*]; done))

@[simp] theorem State.ringStore_kept {s : State} (au : Bool) (h : Nat) (r : HubRing) (b : List Byte) {s₀ :
    State} (hk : s₀.Kept s) : s₀.Kept (State.ringStore s au h r b) := by
  unfold State.ringStore
  repeat' (first
      | with_reducible assumption | with_reducible apply State.putRing_kept
      | with_reducible apply State.bufStore_kept | split | dsimp only | (simp (maxDischargeDepth := 9) [*]; done))

@[simp] theorem State.statsOverrun_kept {s : State} (h : Nat) (r : HubRing) {s₀ : State} (hk : s₀.Kept s) :
    s₀.Kept (State.statsOverrun s h r) := by
  unfold State.statsOverrun
  repeat' (first
      | with_reducible assumption | with_reducible apply State.putRing_kept | with_reducible apply State.raise_kept
      | split | dsimp only | (simp (maxDischargeDepth := 9) [*]; done))

@[simp] theorem State.offerRing_kept {s : State} (au : Bool) (h : Nat) (b : List Byte) {s₀ : State} (hk :
    s₀.Kept s) : s₀.Kept (State.offerRing s au h b) := by
  unfold State.offerRing
  repeat' (first
      | with_reducible assumption | with_reducible apply State.statsOverrun_kept
      | with_reducible apply State.ringStore_kept | with_reducible apply State.putRing_kept
      | with_reducible apply Answer.fits_kept | split | dsimp only | (simp (maxDischargeDepth := 9) [*]; done))

@[simp] theorem State.drainRing_kept {s : State} (au : Bool) (h : Nat) (n : Nat) {s₀ : State} (hk : s₀.Kept s) :
    s₀.Kept (State.drainRing s au h n) := by
  induction n generalizing s with
  | zero => exact hk
  | succ n ih =>
    unfold State.drainRing
    repeat' (first
        | with_reducible assumption | with_reducible apply State.ringStore_kept
        | with_reducible apply Answer.fits_kept | with_reducible apply ih | split | dsimp only
        | (simp (maxDischargeDepth := 9) [*]; done))

@[simp] theorem State.readRing_kept {s : State} (au : Bool) (h : Nat) (r : HubRing) (off : Nat) {s₀ : State} (hk
    : s₀.Kept s) : s₀.Kept (State.readRing s au h r off) := by
  unfold State.readRing
  repeat' (first
      | with_reducible assumption | with_reducible apply State.drainRing_kept
      | with_reducible apply State.putRing_kept | split | dsimp only | (simp (maxDischargeDepth := 9) [*]; done))

theorem State.decodeSurfaces_kept {s t s₀ : State} {h d a : Nat} {p : List Byte} (he : s.decodeSurfaces h d p =
    some (a, t)) (hk : s₀.Kept s) : s₀.Kept t := by
  unfold State.decodeSurfaces at he
  split at he
  · simp only [Option.some.injEq, Prod.mk.injEq] at he
    rw [← he.2]; exact hk
  · exact State.mapBuffer_kept he hk

theorem specDecodeCreate_kept (k : Cmd) {s s₀ : State} (hk : s₀.Kept s) : Answer.kept s₀ (specDecodeCreate.run k
    s) := by
  simp only [specDecodeCreate]
  repeat' (first
      | with_reducible assumption | with_reducible apply State.raise_kept | with_reducible apply refuse_kept
      | with_reducible apply ok_kept | with_reducible apply useFree_kept | with_reducible apply modDec_kept
      | with_reducible apply modChan_kept | refine State.newObject_kept (by assumption) ?_
      | refine State.decodeSurfaces_kept (by assumption) ?_ | with_reducible apply checked_kept | split | dsimp only
      | (simp (maxDischargeDepth := 9) [*]; done))

theorem execDecodeCreate_kept (c : Submission) {s : State} {s₀ : State} (hk : s₀.Kept s) : Out.kept s₀
    (execDecodeCreate c s) := runEci_kept _ _ specDecodeCreate_kept hk

@[simp] theorem State.modDecoder_kept {s : State} (h : Nat) (f : Decoder → Decoder) {s₀ : State} (hk : s₀.Kept
    s) : s₀.Kept (State.modDecoder s h f) := by
  unfold State.modDecoder
  repeat' (first
      | with_reducible assumption | with_reducible apply modDec_kept | split | dsimp only
      | (simp (maxDischargeDepth := 9) [*]; done))

theorem specDecodeSubmit_kept (k : Cmd) {s s₀ : State} (hk : s₀.Kept s) : Answer.kept s₀ (specDecodeSubmit.run k
    s) := by
  simp only [specDecodeSubmit]
  repeat' (first
      | with_reducible assumption | with_reducible apply State.modDecoder_kept | with_reducible apply ok_kept
      | with_reducible apply checked_kept | split | dsimp only | (simp (maxDischargeDepth := 9) [*]; done))

theorem execDecodeSubmit_kept (c : Submission) {s : State} {s₀ : State} (hk : s₀.Kept s) : Out.kept s₀
    (execDecodeSubmit c s) := runEci_kept _ _ specDecodeSubmit_kept hk

theorem specDecodeQuery_kept (k : Cmd) {s s₀ : State} (hk : s₀.Kept s) : Answer.kept s₀ (specDecodeQuery.run k s) := by
  simp only [specDecodeQuery]
  repeat' (first
      | with_reducible assumption | with_reducible apply ok_kept | with_reducible apply checked_kept | split
      | dsimp only | (simp (maxDischargeDepth := 9) [*]; done))

theorem execDecodeQuery_kept (c : Submission) {s : State} {s₀ : State} (hk : s₀.Kept s) : Out.kept s₀
    (execDecodeQuery c s) := runEci_kept _ _ specDecodeQuery_kept hk

theorem State.newRing_kept {s t s₀ : State} {o n a : Nat} (he : s.newRing o n = some (a, t)) (hk : s₀.Kept s) :
    s₀.Kept t := by
  unfold State.newRing at he
  split at he
  · simp only [Option.some.injEq, Prod.mk.injEq] at he
    rw [← he.2]; exact hk
  · exact State.mapBuffer_kept he hk

@[simp] theorem State.freeAuRing_kept {s : State} (h : Nat) {s₀ : State} (hk : s₀.Kept s) : s₀.Kept
    (State.freeAuRing s h) := by
  unfold State.freeAuRing
  repeat' (first
      | with_reducible assumption | with_reducible apply State.unmapAt_kept | with_reducible apply modDec_kept
      | split | dsimp only | (simp (maxDischargeDepth := 9) [*]; done))

theorem specChannelMode_kept (k : Cmd) {s s₀ : State} (hk : s₀.Kept s) : Answer.kept s₀ (specChannelMode.run k s) := by
  simp only [specChannelMode]
  repeat' (first
      | with_reducible assumption | with_reducible apply State.freeAuRing_kept
      | with_reducible apply State.putRing_kept | with_reducible apply State.modCh_kept
      | with_reducible apply refuse_kept | with_reducible apply ok_kept
      | refine State.newRing_kept (by assumption) ?_ | with_reducible apply checked_kept | split | dsimp only
      | (simp (maxDischargeDepth := 9) [*]; done))

theorem execChannelMode_kept (c : Submission) {s : State} {s₀ : State} (hk : s₀.Kept s) : Out.kept s₀
    (execChannelMode c s) := runEci_kept _ _ specChannelMode_kept hk

theorem specPicSubmit_kept (k : Cmd) {s s₀ : State} (hk : s₀.Kept s) : Answer.kept s₀ (specPicSubmit.run k s) := by
  simp only [specPicSubmit]
  repeat' (first
      | with_reducible assumption | with_reducible apply wait_kept | with_reducible apply checked_kept | split
      | dsimp only | (simp (maxDischargeDepth := 9) [*]; done))

theorem execPicSubmit_kept (c : Submission) {s : State} {s₀ : State} (hk : s₀.Kept s) : Out.kept s₀
    (execPicSubmit c s) := runEci_kept _ _ specPicSubmit_kept hk

theorem specRefRing_kept (k : Cmd) {s s₀ : State} (hk : s₀.Kept s) : Answer.kept s₀ (specRefRing.run k s) := by
  simp only [specRefRing]
  repeat' (first
      | with_reducible assumption | with_reducible apply State.readRing_kept | with_reducible apply refuse_kept
      | with_reducible apply ok_kept | split | dsimp only | (simp (maxDischargeDepth := 9) [*]; done))

theorem execRefRing_kept (c : Submission) {s : State} {s₀ : State} (hk : s₀.Kept s) : Out.kept s₀ (execRefRing c
    s) := runEci_kept _ _ specRefRing_kept hk

theorem specJigSet_kept (k : Cmd) {s s₀ : State} (hk : s₀.Kept s) : Answer.kept s₀ (specJigSet.run k s) := by
  simp only [specJigSet]
  repeat' (first
      | with_reducible assumption | with_reducible apply ok_kept | with_reducible apply modDec_kept
      | with_reducible apply checked_kept | split | dsimp only | (simp (maxDischargeDepth := 9) [*]; done))

theorem execJigSet_kept (c : Submission) {s : State} {s₀ : State} (hk : s₀.Kept s) : Out.kept s₀ (execJigSet c
    s) := runEci_kept _ _ specJigSet_kept hk

theorem specStatsSet_kept (k : Cmd) {s s₀ : State} (hk : s₀.Kept s) : Answer.kept s₀ (specStatsSet.run k s) := by
  simp only [specStatsSet]
  repeat' (first
      | with_reducible assumption | with_reducible apply stage_kept | with_reducible apply refuse_kept
      | refine State.newRing_kept (by assumption) ?_ | with_reducible apply checked_kept | split | dsimp only
      | (simp (maxDischargeDepth := 9) [*]; done))

theorem execStatsSet_kept (c : Submission) {s : State} {s₀ : State} (hk : s₀.Kept s) : Out.kept s₀ (execStatsSet
    c s) := runEci_kept _ _ specStatsSet_kept hk

theorem specStatsRead_kept (k : Cmd) {s s₀ : State} (hk : s₀.Kept s) : Answer.kept s₀ (specStatsRead.run k s) := by
  simp only [specStatsRead]
  repeat' (first
      | with_reducible assumption | with_reducible apply State.readRing_kept | with_reducible apply refuse_kept
      | with_reducible apply ok_kept | split | dsimp only | (simp (maxDischargeDepth := 9) [*]; done))

theorem execStatsRead_kept (c : Submission) {s : State} {s₀ : State} (hk : s₀.Kept s) : Out.kept s₀
    (execStatsRead c s) := runEci_kept _ _ specStatsRead_kept hk

theorem specCheckBind_kept (k : Cmd) {s s₀ : State} (hk : s₀.Kept s) : Answer.kept s₀ (specCheckBind.run k s) := by
  simp only [specCheckBind]
  repeat' (first
      | with_reducible assumption | with_reducible apply stage_kept | with_reducible apply checked_kept | split
      | dsimp only | (simp (maxDischargeDepth := 9) [*]; done))

theorem execCheckBind_kept (c : Submission) {s : State} {s₀ : State} (hk : s₀.Kept s) : Out.kept s₀
    (execCheckBind c s) := runEci_kept _ _ specCheckBind_kept hk

theorem specCheckUnbind_kept (k : Cmd) {s s₀ : State} (hk : s₀.Kept s) : Answer.kept s₀ (specCheckUnbind.run k s) := by
  simp only [specCheckUnbind]
  repeat' (first
      | with_reducible assumption | with_reducible apply stage_kept | with_reducible apply checked_kept | split
      | dsimp only | (simp (maxDischargeDepth := 9) [*]; done))

theorem execCheckUnbind_kept (c : Submission) {s : State} {s₀ : State} (hk : s₀.Kept s) : Out.kept s₀
    (execCheckUnbind c s) := runEci_kept _ _ specCheckUnbind_kept hk

theorem specCheckExpect_kept (k : Cmd) {s s₀ : State} (hk : s₀.Kept s) : Answer.kept s₀ (specCheckExpect.run k s) := by
  simp only [specCheckExpect]
  repeat' (first
      | with_reducible assumption | with_reducible apply ok_kept | with_reducible apply modDec_kept
      | with_reducible apply checked_kept | split | dsimp only | (simp (maxDischargeDepth := 9) [*]; done))

theorem execCheckExpect_kept (c : Submission) {s : State} {s₀ : State} (hk : s₀.Kept s) : Out.kept s₀
    (execCheckExpect c s) := runEci_kept _ _ specCheckExpect_kept hk

theorem specCheckQuery_kept (k : Cmd) {s s₀ : State} (hk : s₀.Kept s) : Answer.kept s₀ (specCheckQuery.run k s) := by
  simp only [specCheckQuery]
  repeat' (first
      | with_reducible assumption | with_reducible apply ok_kept | with_reducible apply checked_kept | split
      | dsimp only | (simp (maxDischargeDepth := 9) [*]; done))

theorem execCheckQuery_kept (c : Submission) {s : State} {s₀ : State} (hk : s₀.Kept s) : Out.kept s₀
    (execCheckQuery c s) := runEci_kept _ _ specCheckQuery_kept hk

/-! ### Compose -/

theorem specComposeSet_kept (k : Cmd) {s s₀ : State} (hk : s₀.Kept s) : Answer.kept s₀ (specComposeSet.run k s) := by
  simp only [specComposeSet]
  repeat' (first
      | with_reducible assumption | with_reducible apply State.modCh_kept | with_reducible apply ok_kept
      | with_reducible apply checked_kept | split | dsimp only | (simp (maxDischargeDepth := 9) [*]; done))

theorem execComposeSet_kept (c : Submission) {s : State} {s₀ : State} (hk : s₀.Kept s) : Out.kept s₀
    (execComposeSet c s) := runEci_kept _ _ specComposeSet_kept hk

theorem specLayerCreate_kept (k : Cmd) {s s₀ : State} (hk : s₀.Kept s) : Answer.kept s₀ (specLayerCreate.run k s) := by
  simp only [specLayerCreate]
  repeat' (first
      | with_reducible assumption | with_reducible apply refuse_kept | with_reducible apply ok_kept
      | with_reducible apply modComp_kept | refine State.newObject_kept (by assumption) ?_
      | refine State.mapBuffers_kept (by assumption) ?_ | refine State.mapBuffer_kept (by assumption) ?_
      | with_reducible apply checked_kept | split | dsimp only | (simp (maxDischargeDepth := 9) [*]; done))

theorem execLayerCreate_kept (c : Submission) {s : State} {s₀ : State} (hk : s₀.Kept s) : Out.kept s₀
    (execLayerCreate c s) := runEci_kept _ _ specLayerCreate_kept hk

@[simp] theorem State.modLayer_kept {s : State} (l : Nat) (f : Layer → Layer) {s₀ : State} (hk : s₀.Kept s) :
    s₀.Kept (State.modLayer s l f) := by
  unfold State.modLayer
  repeat' (first
      | with_reducible assumption | with_reducible apply modComp_kept | split | dsimp only
      | (simp (maxDischargeDepth := 9) [*]; done))

theorem specLayerSet_kept (k : Cmd) {s s₀ : State} (hk : s₀.Kept s) : Answer.kept s₀ (specLayerSet.run k s) := by
  simp only [specLayerSet]
  repeat' (first
      | with_reducible assumption | with_reducible apply State.modLayer_kept | with_reducible apply Answer.fits_kept
      | with_reducible apply ok_kept | with_reducible apply checked_kept | split | dsimp only
      | (simp (maxDischargeDepth := 9) [*]; done))

theorem execLayerSet_kept (c : Submission) {s : State} {s₀ : State} (hk : s₀.Kept s) : Out.kept s₀ (execLayerSet
    c s) := runEci_kept _ _ specLayerSet_kept hk

@[simp] theorem State.takeStaged_kept {s : State} (h seq : Nat) {s₀ : State} (hk : s₀.Kept s) : s₀.Kept
    (State.takeStaged s h seq) := by
  unfold State.takeStaged
  repeat' (first
      | with_reducible assumption | with_reducible apply State.modLayer_kept | with_reducible apply foldl_kept
      | split | dsimp only | intro _ | (simp (maxDischargeDepth := 9) [*]; done))

theorem specLayerCommit_kept (k : Cmd) {s s₀ : State} (hk : s₀.Kept s) : Answer.kept s₀ (specLayerCommit.run k s) := by
  simp only [specLayerCommit]
  repeat' (first
      | with_reducible assumption | with_reducible apply State.takeStaged_kept | with_reducible apply stage_kept
      | with_reducible apply next_kept | with_reducible apply checked_kept | split | dsimp only
      | (simp (maxDischargeDepth := 9) [*]; done))

theorem execLayerCommit_kept (c : Submission) {s : State} {s₀ : State} (hk : s₀.Kept s) : Out.kept s₀
    (execLayerCommit c s) := runEci_kept _ _ specLayerCommit_kept hk

theorem specLayerDestroy_kept (k : Cmd) {s s₀ : State} (hk : s₀.Kept s) : Answer.kept s₀ (specLayerDestroy.run k
    s) := by
  simp only [specLayerDestroy]
  repeat' (first
      | with_reducible assumption | with_reducible apply State.modLayer_kept | with_reducible apply ok_kept | split
      | dsimp only | (simp (maxDischargeDepth := 9) [*]; done))

theorem execLayerDestroy_kept (c : Submission) {s : State} {s₀ : State} (hk : s₀.Kept s) : Out.kept s₀
    (execLayerDestroy c s) := runEci_kept _ _ specLayerDestroy_kept hk

theorem specLayerQuery_kept (k : Cmd) {s s₀ : State} (hk : s₀.Kept s) : Answer.kept s₀ (specLayerQuery.run k s) := by
  simp only [specLayerQuery]
  repeat' (first
      | with_reducible assumption | with_reducible apply ok_kept | split | dsimp only
      | (simp (maxDischargeDepth := 9) [*]; done))

theorem execLayerQuery_kept (c : Submission) {s : State} {s₀ : State} (hk : s₀.Kept s) : Out.kept s₀
    (execLayerQuery c s) := runEci_kept _ _ specLayerQuery_kept hk

theorem specRenditionScale_kept (k : Cmd) {s s₀ : State} (hk : s₀.Kept s) : Answer.kept s₀
    (specRenditionScale.run k s) := by
  simp only [specRenditionScale]
  repeat' (first
      | with_reducible assumption | with_reducible apply State.modCh_kept | with_reducible apply ok_kept
      | with_reducible apply checked_kept | split | dsimp only | (simp (maxDischargeDepth := 9) [*]; done))

theorem execRenditionScale_kept (c : Submission) {s : State} {s₀ : State} (hk : s₀.Kept s) : Out.kept s₀
    (execRenditionScale c s) := runEci_kept _ _ specRenditionScale_kept hk

theorem specScalerCoefSet_kept (k : Cmd) {s s₀ : State} (hk : s₀.Kept s) : Answer.kept s₀ (specScalerCoefSet.run
    k s) := by
  simp only [specScalerCoefSet]
  repeat' (first
      | with_reducible assumption | with_reducible apply State.gated_kept | with_reducible apply ok_kept
      | with_reducible apply modComp_kept | with_reducible apply checked_kept | split | dsimp only
      | (simp (maxDischargeDepth := 9) [*]; done))

theorem execScalerCoefSet_kept (c : Submission) {s : State} {s₀ : State} (hk : s₀.Kept s) : Out.kept s₀
    (execScalerCoefSet c s) := runEci_kept _ _ specScalerCoefSet_kept hk

theorem specScalerCoefGet_kept (k : Cmd) {s s₀ : State} (hk : s₀.Kept s) : Answer.kept s₀ (specScalerCoefGet.run
    k s) := by
  simp only [specScalerCoefGet]
  repeat' (first
      | with_reducible assumption | with_reducible apply State.gated_kept | with_reducible apply refuse_kept
      | with_reducible apply ok_kept | split | dsimp only | (simp (maxDischargeDepth := 9) [*]; done))

theorem execScalerCoefGet_kept (c : Submission) {s : State} {s₀ : State} (hk : s₀.Kept s) : Out.kept s₀
    (execScalerCoefGet c s) := runEci_kept _ _ specScalerCoefGet_kept hk

/-! ### SchedOps -/

@[simp] theorem State.modSd_kept {s : State} (k : Nat) (f : Sched → Sched) {s₀ : State} (hk : s₀.Kept s) :
    s₀.Kept (State.modSd s k f) := by
  unfold State.modSd
  repeat' (first
      | with_reducible assumption | with_reducible apply modSched_kept | split | dsimp only
      | (simp (maxDischargeDepth := 9) [*]; done))

@[simp] theorem State.traceStore_kept {s : State} (h : Nat) (bs : List Byte) {s₀ : State} (hk : s₀.Kept s) :
    s₀.Kept (State.traceStore s h bs) := by
  unfold State.traceStore
  repeat' (first
      | with_reducible assumption | with_reducible apply State.bufStore_kept | with_reducible apply State.raise_kept
      | with_reducible apply modSched_kept | split | dsimp only | (simp (maxDischargeDepth := 9) [*]; done))

@[simp] theorem State.traceLoss_kept {s : State} (k h : Nat) {s₀ : State} (hk : s₀.Kept s) : s₀.Kept
    (State.traceLoss s k h) := by
  unfold State.traceLoss
  repeat' (first
      | with_reducible assumption | with_reducible apply State.traceStore_kept | split | dsimp only
      | (simp (maxDischargeDepth := 9) [*]; done))

@[simp] theorem State.trace_kept {s : State} (k : Nat) (e : TraceEvent) {s₀ : State} (hk : s₀.Kept s) : s₀.Kept
    (State.trace s k e) := by
  unfold State.trace
  repeat' (first
      | with_reducible assumption | with_reducible apply State.traceLoss_kept
      | with_reducible apply State.traceStore_kept | with_reducible apply State.modSd_kept
      | with_reducible apply modSched_kept | with_reducible apply foldl_kept | split | dsimp only | intro _
      | (simp (maxDischargeDepth := 9) [*]; done))

@[simp] theorem State.grant_kept {s : State} (k l : Nat) {s₀ : State} (hk : s₀.Kept s) : s₀.Kept (State.grant s
    k l) := by
  unfold State.grant
  repeat' (first
      | with_reducible assumption | with_reducible apply State.trace_kept | with_reducible apply State.modSd_kept
      | with_reducible apply State.raise_kept | split | dsimp only | (simp (maxDischargeDepth := 9) [*]; done))

@[simp] theorem State.settleSd_kept {s : State} (k : Nat) {s₀ : State} (hk : s₀.Kept s) : s₀.Kept
    (State.settleSd s k) := by
  unfold State.settleSd
  repeat' (first
      | with_reducible assumption | with_reducible apply State.grant_kept | with_reducible apply State.modSd_kept
      | with_reducible apply foldl_kept | split | dsimp only | intro _ | (simp (maxDischargeDepth := 9) [*]; done))

@[simp] theorem State.releaseLock_kept {s : State} (k l : Nat) (ev : TraceEvent) {s₀ : State} (hk : s₀.Kept s) :
    s₀.Kept (State.releaseLock s k l ev) := by
  unfold State.releaseLock
  repeat' (first
      | with_reducible assumption | with_reducible apply State.trace_kept | with_reducible apply State.modSd_kept
      | split | dsimp only | (simp (maxDischargeDepth := 9) [*]; done))

@[simp] theorem State.breakLock_kept {s : State} (k l cause : Nat) (ev : TraceEvent) {s₀ : State} (hk : s₀.Kept
    s) : s₀.Kept (State.breakLock s k l cause ev) := by
  unfold State.breakLock
  repeat' (first
      | with_reducible assumption | with_reducible apply State.trace_kept | with_reducible apply State.modSd_kept
      | split | dsimp only | (simp (maxDischargeDepth := 9) [*]; done))

@[simp] theorem State.breakLocksOf_kept {s : State} (k agent cause : Nat) {s₀ : State} (hk : s₀.Kept s) :
    s₀.Kept (State.breakLocksOf s k agent cause) := by
  unfold State.breakLocksOf
  repeat' (first
      | with_reducible assumption | with_reducible apply State.breakLock_kept | with_reducible apply foldl_kept
      | split | dsimp only | intro _ | (simp (maxDischargeDepth := 9) [*]; done))

@[simp] theorem State.deliver_kept {s : State} (k fl seq : Nat) (r : Record7) {s₀ : State} (hk : s₀.Kept s) :
    s₀.Kept (State.deliver s k fl seq r) := by
  unfold State.deliver
  repeat' (first
      | with_reducible assumption | with_reducible apply State.trace_kept | with_reducible apply State.modSd_kept
      | with_reducible apply foldl_kept | split | dsimp only | intro _ | (simp (maxDischargeDepth := 9) [*]; done))

@[simp] theorem State.retireFlow_kept {s : State} (k fl : Nat) {s₀ : State} (hk : s₀.Kept s) : s₀.Kept
    (State.retireFlow s k fl) := by
  unfold State.retireFlow
  repeat' (first
      | with_reducible assumption | with_reducible apply State.modSd_kept | split | dsimp only
      | (simp (maxDischargeDepth := 9) [*]; done))

@[simp] theorem State.stale_kept {s : State} (k : Nat) {s₀ : State} (hk : s₀.Kept s) : s₀.Kept (State.stale s k) := by
  unfold State.stale
  repeat' (first
      | with_reducible assumption | with_reducible apply State.modSd_kept | split | dsimp only
      | (simp (maxDischargeDepth := 9) [*]; done))

@[simp] theorem State.orFlags_kept {s : State} (k : Nat) (p : Nat → Task → Bool) (bits : Nat) {s₀ : State} (hk :
    s₀.Kept s) : s₀.Kept (State.orFlags s k p bits) := by
  unfold State.orFlags
  repeat' (first
      | with_reducible assumption | with_reducible apply State.modSd_kept | split | dsimp only
      | (simp (maxDischargeDepth := 9) [*]; done))

@[simp] theorem State.taskPost_kept {s : State} (k id bits : Nat) {s₀ : State} (hk : s₀.Kept s) : s₀.Kept
    (State.taskPost s k id bits) := by
  unfold State.taskPost
  repeat' (first
      | with_reducible assumption | with_reducible apply State.orFlags_kept | with_reducible apply State.stale_kept
      | split | dsimp only | (simp (maxDischargeDepth := 9) [*]; done))

theorem State.seqPost_kept {s t s₀ : State} {k fl q b : Nat} (he : s.seqPost k fl q b = some t) (hk : s₀.Kept s)
    : s₀.Kept t := by
  simp only [State.seqPost] at he
  repeat' split at he
  all_goals first | cases he; done | skip
  all_goals simp only [Option.some.injEq] at he
  all_goals rw [← he]
  all_goals repeat' (first | exact hk | apply State.stale_kept | apply State.orFlags_kept | apply State.modSd_kept)
theorem State.seqPost_getD_kept {s s₀ : State} {k fl q b : Nat} (hk : s₀.Kept s) : s₀.Kept ((s.seqPost k fl q
    b).getD s) := by
  cases he : s.seqPost k fl q b with
  | none => exact hk
  | some t => exact State.seqPost_kept he hk

@[simp] theorem State.flowPost_kept {s : State} (k fl bits : Nat) {s₀ : State} (hk : s₀.Kept s) : s₀.Kept
    (State.flowPost s k fl bits) := by
  unfold State.flowPost
  repeat' (first
      | with_reducible assumption | with_reducible apply State.orFlags_kept | with_reducible apply State.stale_kept
      | split | dsimp only | (simp (maxDischargeDepth := 9) [*]; done))

@[simp] theorem State.stall_kept {s : State} (k : Nat) (x : Stalled) {s₀ : State} (hk : s₀.Kept s) : s₀.Kept
    (State.stall s k x) := by
  unfold State.stall
  repeat' (first
      | with_reducible assumption | with_reducible apply State.modSd_kept | split | dsimp only
      | (simp (maxDischargeDepth := 9) [*]; done))

@[simp] theorem State.noteBp_kept {s : State} (k : Nat) (x : Stalled) {s₀ : State} (hk : s₀.Kept s) : s₀.Kept
    (State.noteBp s k x) := by
  unfold State.noteBp
  repeat' (first
      | with_reducible assumption | with_reducible apply State.trace_kept | with_reducible apply State.modSd_kept
      | split | dsimp only | (simp (maxDischargeDepth := 9) [*]; done))

@[simp] theorem State.donePost_kept {s : State} (k : Nat) (t : Task) {s₀ : State} (hk : s₀.Kept s) : s₀.Kept
    (State.donePost s k t) := by
  unfold State.donePost
  repeat' (first
      | with_reducible assumption | with_reducible apply State.noteBp_kept | with_reducible apply State.stall_kept
      | with_reducible apply State.flowPost_kept | with_reducible apply State.taskPost_kept
      | refine State.seqPost_kept (by assumption) ?_ | with_reducible apply State.seqPost_getD_kept | split
      | dsimp only | (simp (maxDischargeDepth := 9) [*]; done))

@[simp] theorem State.noteOccupancy_kept {s : State} (k : Nat) {s₀ : State} (hk : s₀.Kept s) : s₀.Kept
    (State.noteOccupancy s k) := by
  unfold State.noteOccupancy
  repeat' (first
      | with_reducible assumption | with_reducible apply State.modSd_kept | with_reducible apply State.raise_kept
      | with_reducible apply foldl_kept | split | dsimp only | intro _ | (simp (maxDischargeDepth := 9) [*]; done))

@[simp] theorem State.markLast_kept {s : State} (k : Nat) (t : Task) (last : Bool) {s₀ : State} (hk : s₀.Kept s)
    : s₀.Kept (State.markLast s k t last) := by
  unfold State.markLast
  repeat' (first
      | with_reducible assumption | with_reducible apply State.modSd_kept | split | dsimp only
      | (simp (maxDischargeDepth := 9) [*]; done))

@[simp] theorem State.enqueue_kept {s : State} (k : Nat) (t : Task) (last : Bool) {s₀ : State} (hk : s₀.Kept s)
    : s₀.Kept (State.enqueue s k t last) := by
  unfold State.enqueue
  repeat' (first
      | with_reducible assumption | with_reducible apply State.markLast_kept
      | with_reducible apply State.noteOccupancy_kept | with_reducible apply State.stale_kept
      | with_reducible apply State.deliver_kept | with_reducible apply State.settleSd_kept
      | with_reducible apply State.trace_kept | with_reducible apply State.modSd_kept | split | dsimp only
      | (simp (maxDischargeDepth := 9) [*]; done))

@[simp] theorem State.dropTask_kept {s : State} (k i : Nat) (t : Task) {s₀ : State} (hk : s₀.Kept s) : s₀.Kept
    (State.dropTask s k i t) := by
  unfold State.dropTask
  repeat' (first
      | with_reducible assumption | with_reducible apply State.modSd_kept | split | dsimp only
      | (simp (maxDischargeDepth := 9) [*]; done))

@[simp] theorem State.dropLock_kept {s : State} (k i : Nat) (t : Task) {s₀ : State} (hk : s₀.Kept s) : s₀.Kept
    (State.dropLock s k i t) := by
  unfold State.dropLock
  repeat' (first
      | with_reducible assumption | with_reducible apply State.releaseLock_kept | split | dsimp only
      | (simp (maxDischargeDepth := 9) [*]; done))

@[simp] theorem State.withdraw_kept {s : State} (k i : Nat) {s₀ : State} (hk : s₀.Kept s) : s₀.Kept
    (State.withdraw s k i) := by
  unfold State.withdraw
  repeat' (first
      | with_reducible assumption | with_reducible apply State.dropLock_kept
      | with_reducible apply State.dropTask_kept | split | dsimp only | (simp (maxDischargeDepth := 9) [*]; done))

@[simp] theorem State.cancelTask_kept {s : State} (k i : Nat) (expired : Bool) (why : Nat) {s₀ : State} (hk :
    s₀.Kept s) : s₀.Kept (State.cancelTask s k i expired why) := by
  unfold State.cancelTask
  repeat' (first
      | with_reducible assumption | with_reducible apply State.dropLock_kept
      | with_reducible apply State.dropTask_kept | with_reducible apply State.noteOccupancy_kept
      | with_reducible apply State.deliver_kept | with_reducible apply State.settleSd_kept
      | with_reducible apply State.trace_kept | with_reducible apply State.modSd_kept | split | dsimp only
      | (simp (maxDischargeDepth := 9) [*]; done))

@[simp] theorem State.squash_kept {s : State} (k fl seq : Nat) {s₀ : State} (hk : s₀.Kept s) : s₀.Kept
    (State.squash s k fl seq) := by
  unfold State.squash
  repeat' (first
      | with_reducible assumption | with_reducible apply State.withdraw_kept
      | with_reducible apply State.noteOccupancy_kept | with_reducible apply State.settleSd_kept
      | with_reducible apply State.trace_kept | with_reducible apply State.modSd_kept
      | with_reducible apply foldl_kept | split | dsimp only | intro _ | (simp (maxDischargeDepth := 9) [*]; done))

@[simp] theorem State.requeue_kept {s : State} (k : Nat) (l : List (Task × Bool)) {s₀ : State} (hk : s₀.Kept s)
    : s₀.Kept (State.requeue s k l) := by
  unfold State.requeue
  repeat' (first
      | with_reducible assumption | with_reducible apply State.enqueue_kept | with_reducible apply State.noteBp_kept
      | with_reducible apply State.stall_kept | with_reducible apply foldl_kept | split | dsimp only | intro _
      | (simp (maxDischargeDepth := 9) [*]; done))

@[simp] theorem State.squashAgain_kept {s : State} (k fl seq : Nat) {s₀ : State} (hk : s₀.Kept s) : s₀.Kept
    (State.squashAgain s k fl seq) := by
  unfold State.squashAgain
  repeat' (first
      | with_reducible assumption | with_reducible apply State.requeue_kept | with_reducible apply State.squash_kept
      | split | dsimp only | (simp (maxDischargeDepth := 9) [*]; done))

@[simp] theorem State.dispatch_kept {s : State} (k a : Nat) {s₀ : State} (hk : s₀.Kept s) : s₀.Kept
    (State.dispatch s k a) := by
  unfold State.dispatch
  repeat' (first
      | with_reducible assumption | with_reducible apply State.trace_kept | with_reducible apply State.modSd_kept
      | split | dsimp only | (simp (maxDischargeDepth := 9) [*]; done))

@[simp] theorem State.reportHeld_kept {s : State} (k i : Nat) (h : HeldSlot) {s₀ : State} (hk : s₀.Kept s) :
    s₀.Kept (State.reportHeld s k i h) := by
  unfold State.reportHeld
  repeat' (first
      | with_reducible assumption | with_reducible apply State.stale_kept
      | with_reducible apply State.releaseLock_kept | with_reducible apply State.trace_kept
      | with_reducible apply State.modSd_kept | split | dsimp only | (simp (maxDischargeDepth := 9) [*]; done))

@[simp] theorem State.finishTask_kept {s : State} (k i : Nat) (t : Task) (r : Record7) {s₀ : State} (hk :
    s₀.Kept s) : s₀.Kept (State.finishTask s k i t r) := by
  unfold State.finishTask
  repeat' (first
      | with_reducible assumption | with_reducible apply State.donePost_kept
      | with_reducible apply State.deliver_kept | with_reducible apply State.breakLock_kept
      | with_reducible apply State.releaseLock_kept | with_reducible apply State.trace_kept
      | with_reducible apply State.modSd_kept | with_reducible apply done_kept | split | dsimp only
      | (simp (maxDischargeDepth := 9) [*]; done))

@[simp] theorem State.staleReport_kept {s : State} (k a id : Nat) {s₀ : State} (hk : s₀.Kept s) : s₀.Kept
    (State.staleReport s k a id) := by
  unfold State.staleReport
  repeat' (first
      | with_reducible assumption | with_reducible apply State.stale_kept | with_reducible apply State.trace_kept
      | split | dsimp only | (simp (maxDischargeDepth := 9) [*]; done))

@[simp] theorem State.completeTask_kept {s : State} (k a id : Nat) {s₀ : State} (hk : s₀.Kept s) : s₀.Kept
    (State.completeTask s k a id) := by
  unfold State.completeTask
  repeat' (first
      | with_reducible assumption | with_reducible apply State.staleReport_kept
      | with_reducible apply State.finishTask_kept | with_reducible apply State.reportHeld_kept
      | with_reducible apply State.noteOccupancy_kept | with_reducible apply State.settleSd_kept
      | with_reducible apply done_kept | split | dsimp only | (simp (maxDischargeDepth := 9) [*]; done))

@[simp] theorem State.openFlow_kept {s : State} (k kind chan role head : Nat) {s₀ : State} (hk : s₀.Kept s) :
    s₀.Kept (State.openFlow s k kind chan role head) := by
  unfold State.openFlow
  repeat' (first
      | with_reducible assumption | with_reducible apply State.modSd_kept | split | dsimp only
      | (simp (maxDischargeDepth := 9) [*]; done))

@[simp] theorem State.closeFlows_kept {s : State} (chan : Nat) {s₀ : State} (hk : s₀.Kept s) : s₀.Kept
    (State.closeFlows s chan) := by
  unfold State.closeFlows
  repeat' (first
      | with_reducible assumption | with_reducible apply State.withdraw_kept
      | with_reducible apply State.settleSd_kept | with_reducible apply State.modSd_kept
      | with_reducible apply foldl_kept | split | dsimp only | intro _ | (simp (maxDischargeDepth := 9) [*]; done))

@[simp] theorem State.openFlows_kept {s : State} (chan : Nat) (dies : List Nat) (row du : Nat) {s₀ : State} (hk
    : s₀.Kept s) : s₀.Kept (State.openFlows s chan dies row du) := by
  unfold State.openFlows
  repeat' (first
      | with_reducible assumption | with_reducible apply State.openFlow_kept | with_reducible apply foldl_kept
      | split | dsimp only | intro _ | (simp (maxDischargeDepth := 9) [*]; done))

/-! ### SchedCmds -/

@[simp] theorem State.captureSched_kept {s : State} (n : Nat) {s₀ : State} (hk : s₀.Kept s) : s₀.Kept
    (State.captureSched s n) := by
  unfold State.captureSched
  repeat' (first
      | with_reducible assumption | with_reducible apply State.captureGroup_kept | split | dsimp only
      | (simp (maxDischargeDepth := 9) [*]; done))

theorem specSchedStatus_kept (k : Cmd) {s s₀ : State} (hk : s₀.Kept s) : Answer.kept s₀ (specSchedStatus.run k s) := by
  simp only [specSchedStatus]
  repeat' (first
      | with_reducible assumption | with_reducible apply State.captureSched_kept
      | with_reducible apply State.modSd_kept | with_reducible apply State.gated_kept | with_reducible apply ok_kept
      | split | dsimp only | (simp (maxDischargeDepth := 9) [*]; done))

theorem execSchedStatus_kept (c : Submission) {s : State} {s₀ : State} (hk : s₀.Kept s) : Out.kept s₀
    (execSchedStatus c s) := runEci_kept _ _ specSchedStatus_kept hk

theorem specSchedLocks_kept (k : Cmd) {s s₀ : State} (hk : s₀.Kept s) : Answer.kept s₀ (specSchedLocks.run k s) := by
  simp only [specSchedLocks]
  repeat' (first
      | with_reducible assumption | with_reducible apply State.gated_kept | with_reducible apply ok_kept | split
      | dsimp only | (simp (maxDischargeDepth := 9) [*]; done))

theorem execSchedLocks_kept (c : Submission) {s : State} {s₀ : State} (hk : s₀.Kept s) : Out.kept s₀
    (execSchedLocks c s) := runEci_kept _ _ specSchedLocks_kept hk

theorem specSchedFlows_kept (k : Cmd) {s s₀ : State} (hk : s₀.Kept s) : Answer.kept s₀ (specSchedFlows.run k s) := by
  simp only [specSchedFlows]
  repeat' (first
      | with_reducible assumption | with_reducible apply ok_kept | split | dsimp only
      | (simp (maxDischargeDepth := 9) [*]; done))

theorem execSchedFlows_kept (c : Submission) {s : State} {s₀ : State} (hk : s₀.Kept s) : Out.kept s₀
    (execSchedFlows c s) := runEci_kept _ _ specSchedFlows_kept hk

theorem specTraceCreate_kept (k : Cmd) {s s₀ : State} (hk : s₀.Kept s) : Answer.kept s₀ (specTraceCreate.run k s) := by
  simp only [specTraceCreate]
  repeat' (first
      | with_reducible assumption | with_reducible apply State.gated_kept | with_reducible apply refuse_kept
      | with_reducible apply ok_kept | with_reducible apply modSched_kept
      | refine State.newObject_kept (by assumption) ?_ | refine State.mapBuffer_kept (by assumption) ?_
      | with_reducible apply checked_kept | split | dsimp only | (simp (maxDischargeDepth := 9) [*]; done))

theorem execTraceCreate_kept (c : Submission) {s : State} {s₀ : State} (hk : s₀.Kept s) : Out.kept s₀
    (execTraceCreate c s) := runEci_kept _ _ specTraceCreate_kept hk

@[simp] theorem State.modTrace_kept {s : State} (h : Nat) (f : Trace → Trace) {s₀ : State} (hk : s₀.Kept s) :
    s₀.Kept (State.modTrace s h f) := by
  unfold State.modTrace
  repeat' (first
      | with_reducible assumption | with_reducible apply modSched_kept | split | dsimp only
      | (simp (maxDischargeDepth := 9) [*]; done))

theorem specTraceStart_kept (k : Cmd) {s s₀ : State} (hk : s₀.Kept s) : Answer.kept s₀ (specTraceStart.run k s) := by
  simp only [specTraceStart]
  repeat' (first
      | with_reducible assumption | with_reducible apply State.modTrace_kept | with_reducible apply ok_kept
      | with_reducible apply checked_kept | split | dsimp only | (simp (maxDischargeDepth := 9) [*]; done))

theorem execTraceStart_kept (c : Submission) {s : State} {s₀ : State} (hk : s₀.Kept s) : Out.kept s₀
    (execTraceStart c s) := runEci_kept _ _ specTraceStart_kept hk

theorem specTraceStop_kept (k : Cmd) {s s₀ : State} (hk : s₀.Kept s) : Answer.kept s₀ (specTraceStop.run k s) := by
  simp only [specTraceStop]
  repeat' (first
      | with_reducible assumption | with_reducible apply State.modTrace_kept
      | with_reducible apply State.traceLoss_kept | with_reducible apply ok_kept | with_reducible apply checked_kept
      | split | dsimp only | (simp (maxDischargeDepth := 9) [*]; done))

theorem execTraceStop_kept (c : Submission) {s : State} {s₀ : State} (hk : s₀.Kept s) : Out.kept s₀
    (execTraceStop c s) := runEci_kept _ _ specTraceStop_kept hk

theorem specTraceStatus_kept (k : Cmd) {s s₀ : State} (hk : s₀.Kept s) : Answer.kept s₀ (specTraceStatus.run k s) := by
  simp only [specTraceStatus]
  repeat' (first
      | with_reducible assumption | with_reducible apply State.traceLoss_kept
      | with_reducible apply State.captureGroup_kept | with_reducible apply ok_kept | split | dsimp only
      | (simp (maxDischargeDepth := 9) [*]; done))

theorem execTraceStatus_kept (c : Submission) {s : State} {s₀ : State} (hk : s₀.Kept s) : Out.kept s₀
    (execTraceStatus c s) := runEci_kept _ _ specTraceStatus_kept hk

theorem specTraceDestroy_kept (k : Cmd) {s s₀ : State} (hk : s₀.Kept s) : Answer.kept s₀ (specTraceDestroy.run k
    s) := by
  simp only [specTraceDestroy]
  repeat' (first
      | with_reducible assumption | with_reducible apply State.unmapObject_kept
      | with_reducible apply State.freeObject_kept | with_reducible apply ok_kept
      | with_reducible apply modSched_kept | split | dsimp only | (simp (maxDischargeDepth := 9) [*]; done))

theorem execTraceDestroy_kept (c : Submission) {s : State} {s₀ : State} (hk : s₀.Kept s) : Out.kept s₀
    (execTraceDestroy c s) := runEci_kept _ _ specTraceDestroy_kept hk

/-! ### MemCmds -/

@[simp] theorem State.modDie_kept {s : State} (d : Nat) (f : DieMem → DieMem) {s₀ : State} (hk : s₀.Kept s) :
    s₀.Kept (State.modDie s d f) := by
  unfold State.modDie
  repeat' (first
      | with_reducible assumption | with_reducible apply modMem_kept | (with_reducible apply Mem.Data.same; rfl)
      | split | dsimp only | (simp (maxDischargeDepth := 9) [*]; done))

@[simp] theorem State.traffic_kept {s : State} (d : Nat) {s₀ : State} (hk : s₀.Kept s) : s₀.Kept (s.traffic d) :=
  State.modDie_kept _ _ (State.fresh_kept (State.fresh_kept (State.fresh_kept hk)))

theorem specMemQuery_kept (k : Cmd) {s s₀ : State} (hk : s₀.Kept s) : Answer.kept s₀ (specMemQuery.run k s) := by
  simp only [specMemQuery]
  repeat' (first
      | with_reducible assumption | with_reducible apply State.traffic_kept | with_reducible apply State.grant_kept
      | with_reducible apply State.gated_kept | with_reducible apply State.captureGroup_kept
      | with_reducible apply ok_kept | with_reducible apply foldl_kept | split | dsimp only | intro _
      | (simp (maxDischargeDepth := 9) [*]; done))

theorem execMemQuery_kept (c : Submission) {s : State} {s₀ : State} (hk : s₀.Kept s) : Out.kept s₀ (execMemQuery
    c s) := runEci_kept _ _ specMemQuery_kept hk

theorem specMemSet_kept (k : Cmd) {s s₀ : State} (hk : s₀.Kept s) : Answer.kept s₀ (specMemSet.run k s) := by
  simp only [specMemSet]
  repeat' (first
      | with_reducible assumption | with_reducible apply State.traffic_kept | with_reducible apply State.modDie_kept
      | with_reducible apply State.grant_kept | with_reducible apply State.gated_kept | with_reducible apply ok_kept
      | split | dsimp only | (simp (maxDischargeDepth := 9) [*]; done))

theorem execMemSet_kept (c : Submission) {s : State} {s₀ : State} (hk : s₀.Kept s) : Out.kept s₀ (execMemSet c
    s) := runEci_kept _ _ specMemSet_kept hk

theorem specMemFreq_kept (k : Cmd) {s s₀ : State} (hk : s₀.Kept s) : Answer.kept s₀ (specMemFreq.run k s) := by
  simp only [specMemFreq]
  repeat' (first
      | with_reducible assumption | with_reducible apply State.gated_kept | with_reducible apply stage_kept
      | with_reducible apply refuse_kept | split | dsimp only | (simp (maxDischargeDepth := 9) [*]; done))

theorem execMemFreq_kept (c : Submission) {s : State} {s₀ : State} (hk : s₀.Kept s) : Out.kept s₀ (execMemFreq c
    s) := runEci_kept _ _ specMemFreq_kept hk

@[simp] theorem State.dropFreq_kept {s : State} (d : Nat) {s₀ : State} (hk : s₀.Kept s) : s₀.Kept
    (State.dropFreq s d) := by
  unfold State.dropFreq
  repeat' (first
      | with_reducible assumption | with_reducible apply State.modDie_kept | with_reducible apply modEci_kept
      | (with_reducible apply Eci.Mail.same; rfl) | split | dsimp only | (simp (maxDischargeDepth := 9) [*]; done))

@[simp] theorem State.beginFreq_kept {s : State} (d p : Nat) {s₀ : State} (hk : s₀.Kept s) : s₀.Kept
    (State.beginFreq s d p) := by
  unfold State.beginFreq
  repeat' (first
      | with_reducible assumption | with_reducible apply State.dropFreq_kept
      | with_reducible apply State.modDie_kept | with_reducible apply State.raise_kept | split | dsimp only
      | (simp (maxDischargeDepth := 9) [*]; done))

theorem execFreqChangeDone_kept (d : DieNo) (stallNs : BitVec 16) {s : State} {s₀ : State} (hk : s₀.Kept s) :
    Out.kept s₀ (execFreqChangeDone d stallNs s) := by
  unfold execFreqChangeDone
  repeat' (first
      | with_reducible assumption | with_reducible apply State.beginFreq_kept
      | with_reducible apply State.modDie_kept | with_reducible apply State.raise_kept
      | with_reducible apply next_kept | with_reducible apply modSched_kept | with_reducible apply modMem_kept
      | (with_reducible apply Mem.Data.same; rfl) | split | dsimp only | (simp (maxDischargeDepth := 9) [*]; done))

@[simp] theorem State.takeTokens_kept {s : State} (d n : Nat) {s₀ : State} (hk : s₀.Kept s) : s₀.Kept
    (State.takeTokens s d n) := by
  unfold State.takeTokens
  repeat' (first
      | with_reducible assumption | with_reducible apply modMem_kept | (with_reducible apply Mem.Data.same; rfl)
      | split | dsimp only | (simp (maxDischargeDepth := 9) [*]; done))

@[simp] theorem State.writeBytes_kept {s : State} (d off : Nat) (bs : List Byte) {s₀ : State} (hk : s₀.Kept s) :
    s₀.Kept (State.writeBytes s d off bs) := by
  unfold State.writeBytes
  repeat' (first
      | with_reducible assumption | with_reducible apply State.modDie_kept
      | with_reducible apply State.bufStore_kept | split | dsimp only | (simp (maxDischargeDepth := 9) [*]; done))

theorem specMemCopy_kept (k : Cmd) {s s₀ : State} (hk : s₀.Kept s) : Answer.kept s₀ (specMemCopy.run k s) := by
  simp only [specMemCopy]
  repeat' (first
      | with_reducible assumption | with_reducible apply State.writeBytes_kept
      | with_reducible apply State.takeTokens_kept | with_reducible apply refuse_kept | with_reducible apply ok_kept
      | split | dsimp only | (simp (maxDischargeDepth := 9) [*]; done))

theorem execMemCopy_kept (c : Submission) {s : State} {s₀ : State} (hk : s₀.Kept s) : Out.kept s₀ (execMemCopy c
    s) := runEci_kept _ _ specMemCopy_kept hk

@[simp] theorem State.bar2Write_kept {s : State} (off : Nat) (data : List Byte) {s₀ : State} (hk : s₀.Kept s) :
    s₀.Kept (State.bar2Write s off data) := by
  unfold State.bar2Write
  repeat' (first
      | with_reducible assumption | with_reducible apply State.writeBytes_kept
      | with_reducible apply State.takeTokens_kept | split | dsimp only | (simp (maxDischargeDepth := 9) [*]; done))

@[simp] theorem State.bar2Load_kept {s : State} (off n : Nat) {s₀ : State} (hk : s₀.Kept s) : s₀.Kept
    (State.bar2Load s off n) := by
  unfold State.bar2Load
  repeat' (first
      | with_reducible assumption | with_reducible apply State.takeTokens_kept | with_reducible apply modMem_kept
      | (with_reducible apply Mem.Data.same; rfl) | split | dsimp only | (simp (maxDischargeDepth := 9) [*]; done))

theorem execBar2Access_kept (write : Bool) (offset : BitVec 32) (data : List (BitVec 8)) {s : State} {s₀ :
    State} (hk : s₀.Kept s) : Out.kept s₀ (execBar2Access write offset data s) := by
  unfold execBar2Access
  repeat' (first
      | with_reducible assumption | with_reducible apply State.bar2Load_kept
      | with_reducible apply State.bar2Write_kept | with_reducible apply State.bufStore_kept
      | with_reducible apply stage_kept | with_reducible apply next_kept | with_reducible apply modMem_kept
      | with_reducible apply foldl_kept | (with_reducible apply Mem.Data.same; rfl) | split | dsimp only | intro _
      | (simp (maxDischargeDepth := 9) [*]; done))

@[simp] theorem State.noteCorrected_kept {s : State} (d n : Nat) {s₀ : State} (hk : s₀.Kept s) : s₀.Kept
    (State.noteCorrected s d n) := by
  unfold State.noteCorrected
  repeat' (first
      | with_reducible assumption | with_reducible apply State.modDie_kept | with_reducible apply State.raise_kept
      | split | dsimp only | (simp (maxDischargeDepth := 9) [*]; done))

theorem execScrubPass_kept (die : DramNo) (corrected : BitVec 32) {s : State} {s₀ : State} (hk : s₀.Kept s) :
    Out.kept s₀ (execScrubPass die corrected s) := by
  unfold execScrubPass
  repeat' (first
      | with_reducible assumption | with_reducible apply State.noteCorrected_kept
      | with_reducible apply State.modDie_kept | with_reducible apply next_kept | split | dsimp only
      | (simp (maxDischargeDepth := 9) [*]; done))

theorem execArbiterRequest_kept (arbiter : ArbiterId) (requester : BitVec 6) (beats : BitVec 9) (line : BitVec
    27) (write : Bool) (cycles : BitVec 12) (drained : BitVec 7) {s : State} {s₀ : State} (hk : s₀.Kept s) :
    Out.kept s₀ (execArbiterRequest arbiter requester beats line write cycles drained s) := by
  unfold execArbiterRequest
  repeat' (first
      | with_reducible assumption | with_reducible apply State.modDie_kept | with_reducible apply next_kept
      | with_reducible apply modMem_kept | (with_reducible apply Mem.Data.same; rfl) | split | dsimp only
      | (simp (maxDischargeDepth := 9) [*]; done))

theorem execArbiterCutoff_kept (arbiter : ArbiterId) (requester : BitVec 6) (beat : BitVec 16) {s : State} {s₀ :
    State} (hk : s₀.Kept s) : Out.kept s₀ (execArbiterCutoff arbiter requester beat s) := by
  unfold execArbiterCutoff
  repeat' (first
      | with_reducible assumption | with_reducible apply State.modDie_kept | with_reducible apply State.raise_kept
      | with_reducible apply next_kept | with_reducible apply modMem_kept | with_reducible apply modNet_kept
      | (with_reducible apply Mem.Data.same; rfl) | split | dsimp only | (simp (maxDischargeDepth := 9) [*]; done))

@[simp] theorem State.freePort_kept {s : State} (k agent : Nat) {s₀ : State} (hk : s₀.Kept s) : s₀.Kept
    (State.freePort s k agent) := by
  unfold State.freePort
  repeat' (first
      | with_reducible assumption | with_reducible apply modMem_kept | (with_reducible apply Mem.Data.same; rfl)
      | split | dsimp only | (simp (maxDischargeDepth := 9) [*]; done))

theorem execDowelFlitError_kept (link : Fin 16) (first : BitVec 16) {s : State} {s₀ : State} (hk : s₀.Kept s) :
    Out.kept s₀ (execDowelFlitError link first s) := by
  unfold execDowelFlitError
  repeat' (first
      | with_reducible assumption | with_reducible apply State.raise_kept | with_reducible apply next_kept
      | with_reducible apply modMem_kept | (with_reducible apply Mem.Data.same; rfl) | split | dsimp only
      | (simp (maxDischargeDepth := 9) [*]; done))

theorem execDowelRetrainDone_kept (link : Fin 16) (failedLane : Option (Fin 17)) {s : State} {s₀ : State} (hk :
    s₀.Kept s) : Out.kept s₀ (execDowelRetrainDone link failedLane s) := by
  unfold execDowelRetrainDone
  repeat' (first
      | with_reducible assumption | with_reducible apply State.raise_kept | with_reducible apply next_kept
      | with_reducible apply modMem_kept | (with_reducible apply Mem.Data.same; rfl) | split | dsimp only
      | (simp (maxDischargeDepth := 9) [*]; done))

/-! ### Registers -/

@[simp] theorem State.recDone_kept {s : State} (cmd : Nat) (st : Status) (resp : List Byte) {s₀ : State} (hk :
    s₀.Kept s) : s₀.Kept (State.recDone s cmd st resp) := by
  unfold State.recDone
  repeat' (first
      | with_reducible assumption | with_reducible apply State.mbxStore_kept | with_reducible apply modBoot_kept
      | split | dsimp only | (simp (maxDischargeDepth := 9) [*]; done))

@[simp] theorem State.recUnknown_kept {s : State} (cmd : Nat) {s₀ : State} (hk : s₀.Kept s) : s₀.Kept
    (State.recUnknown s cmd) := by
  unfold State.recUnknown
  repeat' (first
      | with_reducible assumption | with_reducible apply State.recDone_kept | split | dsimp only
      | (simp (maxDischargeDepth := 9) [*]; done))

theorem execRegisterWrite_kept (f : Fn) (bar4 : Bool) (offset : BitVec 18) (width : Fin 9) (value : BitVec 32)
    {s : State} {s₀ : State} (hk : s₀.Kept s) : Out.kept s₀ (execRegisterWrite f bar4 offset width value s) := by
  unfold execRegisterWrite
  repeat' (first
      | with_reducible assumption | with_reducible apply State.recUnknown_kept
      | with_reducible apply State.modFn_kept | with_reducible apply next_kept | with_reducible apply modBoot_kept
      | split | dsimp only | (simp (maxDischargeDepth := 9) [*]; done))

theorem execEciEnable_kept (f : Fn) {s : State} {s₀ : State} (hk : s₀.Kept s) : Out.kept s₀ (execEciEnable f s) := by
  unfold execEciEnable
  repeat' (first
      | with_reducible assumption | with_reducible apply State.modFn_kept | with_reducible apply next_kept | split
      | dsimp only | (simp (maxDischargeDepth := 9) [*]; done))

@[simp] theorem State.disableEci_kept {s : State} (f : Nat) {s₀ : State} (hk : s₀.Kept s) : s₀.Kept
    (State.disableEci s f) := by
  unfold State.disableEci
  repeat' (first
      | with_reducible assumption | with_reducible apply State.modFn_kept | with_reducible apply modEci_kept
      | with_reducible apply foldl_kept | (with_reducible apply Eci.Mail.same; rfl) | split | dsimp only | intro _
      | (simp (maxDischargeDepth := 9) [*]; done))

theorem execEciDisable_kept (f : Fn) {s : State} {s₀ : State} (hk : s₀.Kept s) : Out.kept s₀ (execEciDisable f s) := by
  unfold execEciDisable
  repeat' (first
      | with_reducible assumption | with_reducible apply State.disableEci_kept
      | with_reducible apply State.modFn_kept | with_reducible apply next_kept | split | dsimp only
      | (simp (maxDischargeDepth := 9) [*]; done))

theorem execIntCauseClear_kept (f : Fn) (value : BitVec 32) {s : State} {s₀ : State} (hk : s₀.Kept s) : Out.kept
    s₀ (execIntCauseClear f value s) := by
  unfold execIntCauseClear
  repeat' (first
      | with_reducible assumption | with_reducible apply Answer.settle_kept | with_reducible apply State.modFn_kept
      | with_reducible apply next_kept | with_reducible apply foldl_kept | split | dsimp only | intro _
      | (simp (maxDischargeDepth := 9) [*]; done))

theorem execIntMaskWrite_kept (f : Fn) (value : BitVec 32) {s : State} {s₀ : State} (hk : s₀.Kept s) : Out.kept
    s₀ (execIntMaskWrite f value s) := by
  unfold execIntMaskWrite
  repeat' (first
      | with_reducible assumption | with_reducible apply Answer.settle_kept | with_reducible apply State.modFn_kept
      | with_reducible apply next_kept | split | dsimp only | (simp (maxDischargeDepth := 9) [*]; done))

theorem execCoalesceTimeout_kept (f : Fn) (cause : Fin 18) {s : State} {s₀ : State} (hk : s₀.Kept s) : Out.kept
    s₀ (execCoalesceTimeout f cause s) := by
  unfold execCoalesceTimeout
  repeat' (first
      | with_reducible assumption | with_reducible apply Answer.settle_kept | with_reducible apply State.modFn_kept
      | with_reducible apply next_kept | split | dsimp only | (simp (maxDischargeDepth := 9) [*]; done))

theorem execBootStageCapture_kept (f : Fn) {s : State} {s₀ : State} (hk : s₀.Kept s) : Out.kept s₀
    (execBootStageCapture f s) := by
  unfold execBootStageCapture
  repeat' (first
      | with_reducible assumption | with_reducible apply State.modFn_kept | with_reducible apply stage_kept
      | with_reducible apply next_kept | split | dsimp only | (simp (maxDischargeDepth := 9) [*]; done))

theorem execTimeNsCapture_kept (f : Fn) {s : State} {s₀ : State} (hk : s₀.Kept s) : Out.kept s₀
    (execTimeNsCapture f s) := by
  unfold execTimeNsCapture
  repeat' (first
      | with_reducible assumption | with_reducible apply State.modFn_kept | with_reducible apply next_kept | split
      | dsimp only | (simp (maxDischargeDepth := 9) [*]; done))

theorem execRecStateCapture_kept {s : State} {s₀ : State} (hk : s₀.Kept s) : Out.kept s₀ (execRecStateCapture s) := by
  unfold execRecStateCapture
  repeat' (first
      | with_reducible assumption | with_reducible apply State.modFn_kept | with_reducible apply next_kept | split
      | dsimp only | (simp (maxDischargeDepth := 9) [*]; done))

theorem execMbxCollideCntRead_kept (f : Fn) {s : State} {s₀ : State} (hk : s₀.Kept s) : Out.kept s₀
    (execMbxCollideCntRead f s) := by
  unfold execMbxCollideCntRead
  repeat' (first
      | with_reducible assumption | with_reducible apply State.modFn_kept | with_reducible apply next_kept | split
      | dsimp only | (simp (maxDischargeDepth := 9) [*]; done))

@[simp] theorem State.closeSession_kept {s : State} (n cause : Nat) {s₀ : State} (hk : s₀.Kept s) : s₀.Kept
    (State.closeSession s n cause) := by
  unfold State.closeSession
  repeat' (first
      | with_reducible assumption | with_reducible apply State.raiseOwn_kept | with_reducible apply modEci_kept
      | (with_reducible apply Eci.Mail.same; rfl) | split | dsimp only | (simp (maxDischargeDepth := 9) [*]; done))

@[simp] theorem State.objectsToPf0_kept {s : State} (f : Nat) {s₀ : State} (hk : s₀.Kept s) : s₀.Kept
    (State.objectsToPf0 s f) := by
  unfold State.objectsToPf0
  repeat' (first
      | with_reducible assumption | with_reducible apply State.transfer_kept | with_reducible apply State.raise_kept
      | with_reducible apply foldl_kept | split | dsimp only | intro _ | (simp (maxDischargeDepth := 9) [*]; done))

@[simp] theorem State.resetFunction_kept {s : State} (f : Nat) {s₀ : State} (hk : s₀.Kept s) : s₀.Kept
    (State.resetFunction s f) := by
  unfold State.resetFunction
  repeat' (first
      | with_reducible assumption | with_reducible apply State.objectsToPf0_kept
      | with_reducible apply State.disableEci_kept | with_reducible apply State.modFn_kept | split | dsimp only
      | (simp (maxDischargeDepth := 9) [*]; done))

theorem execFunctionLevelReset_kept (f : Fn) {s : State} {s₀ : State} (hk : s₀.Kept s) : Out.kept s₀
    (execFunctionLevelReset f s) := by
  unfold execFunctionLevelReset
  repeat' (first
      | with_reducible assumption | with_reducible apply State.resetFunction_kept | with_reducible apply next_kept
      | split | dsimp only | (simp (maxDischargeDepth := 9) [*]; done))

@[simp] theorem State.removeVf_kept {s : State} (v : Nat) {s₀ : State} (hk : s₀.Kept s) : s₀.Kept
    (State.removeVf s v) := by
  unfold State.removeVf
  repeat' (first
      | with_reducible assumption | with_reducible apply State.resetFunction_kept
      | with_reducible apply State.closeSession_kept | with_reducible apply State.modFn_kept
      | with_reducible apply foldl_kept | split | dsimp only | intro _ | (simp (maxDischargeDepth := 9) [*]; done))

theorem execVfRemoval_kept (n : Fn) {s : State} {s₀ : State} (hk : s₀.Kept s) : Out.kept s₀ (execVfRemoval n s) := by
  unfold execVfRemoval
  repeat' (first
      | with_reducible assumption | with_reducible apply State.removeVf_kept | with_reducible apply next_kept
      | with_reducible apply modEci_kept | with_reducible apply foldl_kept
      | (with_reducible apply Eci.Mail.same; rfl) | split | dsimp only | intro _
      | (simp (maxDischargeDepth := 9) [*]; done))

theorem execVfEnable_kept (n : Fn) {s : State} {s₀ : State} (hk : s₀.Kept s) : Out.kept s₀ (execVfEnable n s) := by
  unfold execVfEnable
  repeat' (first
      | with_reducible assumption | with_reducible apply State.modFn_kept | with_reducible apply stage_kept
      | with_reducible apply next_kept | with_reducible apply modEci_kept | with_reducible apply foldl_kept
      | (with_reducible apply Eci.Mail.same; rfl) | split | dsimp only | intro _
      | (simp (maxDischargeDepth := 9) [*]; done))

/-! ### DeviceCmds -/

theorem specDeviceIdentify_kept (k : Cmd) {s s₀ : State} (hk : s₀.Kept s) : Answer.kept s₀
    (specDeviceIdentify.run k s) := by
  simp only [specDeviceIdentify]
  repeat' (first
      | with_reducible assumption | with_reducible apply ok_kept | split | dsimp only
      | (simp (maxDischargeDepth := 9) [*]; done))

theorem execDeviceIdentify_kept (c : Submission) {s : State} {s₀ : State} (hk : s₀.Kept s) : Out.kept s₀
    (execDeviceIdentify c s) := runEci_kept _ _ specDeviceIdentify_kept hk

theorem specDeviceStatus_kept (k : Cmd) {s s₀ : State} (hk : s₀.Kept s) : Answer.kept s₀ (specDeviceStatus.run k
    s) := by
  simp only [specDeviceStatus]
  repeat' (first
      | with_reducible assumption | with_reducible apply stage_kept | with_reducible apply ok_kept
      | with_reducible apply foldl_kept | split | dsimp only | intro _ | (simp (maxDischargeDepth := 9) [*]; done))

theorem execDeviceStatus_kept (c : Submission) {s : State} {s₀ : State} (hk : s₀.Kept s) : Out.kept s₀
    (execDeviceStatus c s) := runEci_kept _ _ specDeviceStatus_kept hk

theorem specDeviceEventMask_kept (k : Cmd) {s s₀ : State} (hk : s₀.Kept s) : Answer.kept s₀
    (specDeviceEventMask.run k s) := by
  simp only [specDeviceEventMask]
  repeat' (first
      | with_reducible assumption | with_reducible apply State.modFn_kept | with_reducible apply ok_kept | split
      | dsimp only | (simp (maxDischargeDepth := 9) [*]; done))

theorem execDeviceEventMask_kept (c : Submission) {s : State} {s₀ : State} (hk : s₀.Kept s) : Out.kept s₀
    (execDeviceEventMask c s) := runEci_kept _ _ specDeviceEventMask_kept hk

theorem specQueueCreate_kept (k : Cmd) {s s₀ : State} (hk : s₀.Kept s) : Answer.kept s₀ (specQueueCreate.run k s) := by
  simp only [specQueueCreate]
  repeat' (first
      | with_reducible assumption | with_reducible apply State.mbxStore_kept | with_reducible apply State.modFn_kept
      | with_reducible apply ok_kept | with_reducible apply checked_kept | split | dsimp only
      | (simp (maxDischargeDepth := 9) [*]; done))

theorem execQueueCreate_kept (c : Submission) {s : State} {s₀ : State} (hk : s₀.Kept s) : Out.kept s₀
    (execQueueCreate c s) := runEci_kept _ _ specQueueCreate_kept hk

theorem specQueueDelete_kept (k : Cmd) {s s₀ : State} (hk : s₀.Kept s) : Answer.kept s₀ (specQueueDelete.run k s) := by
  simp only [specQueueDelete]
  repeat' (first
      | with_reducible assumption | with_reducible apply State.modFn_kept | with_reducible apply refuse_kept
      | with_reducible apply wait_kept | split | dsimp only | (simp (maxDischargeDepth := 9) [*]; done))

theorem execQueueDelete_kept (c : Submission) {s : State} {s₀ : State} (hk : s₀.Kept s) : Out.kept s₀
    (execQueueDelete c s) := runEci_kept _ _ specQueueDelete_kept hk

theorem specObjectList_kept (k : Cmd) {s s₀ : State} (hk : s₀.Kept s) : Answer.kept s₀ (specObjectList.run k s) := by
  simp only [specObjectList]
  repeat' (first
      | with_reducible assumption | with_reducible apply ok_kept | split | dsimp only
      | (simp (maxDischargeDepth := 9) [*]; done))

theorem execObjectList_kept (c : Submission) {s : State} {s₀ : State} (hk : s₀.Kept s) : Out.kept s₀
    (execObjectList c s) := runEci_kept _ _ specObjectList_kept hk

@[simp] theorem State.reassign_kept {s : State} (h g : Nat) {s₀ : State} (hk : s₀.Kept s) : s₀.Kept
    (State.reassign s h g) := by
  unfold State.reassign
  repeat' (first
      | with_reducible assumption | with_reducible apply State.transfer_kept
      | with_reducible apply State.raiseTo_kept | split | dsimp only | (simp (maxDischargeDepth := 9) [*]; done))

theorem specObjectReassign_kept (k : Cmd) {s s₀ : State} (hk : s₀.Kept s) : Answer.kept s₀
    (specObjectReassign.run k s) := by
  simp only [specObjectReassign]
  repeat' (first
      | with_reducible assumption | with_reducible apply State.reassign_kept | with_reducible apply ok_kept
      | with_reducible apply foldl_kept | with_reducible apply checked_kept | split | dsimp only | intro _
      | (simp (maxDischargeDepth := 9) [*]; done))

theorem execObjectReassign_kept (c : Submission) {s : State} {s₀ : State} (hk : s₀.Kept s) : Out.kept s₀
    (execObjectReassign c s) := runEci_kept _ _ specObjectReassign_kept hk

theorem specDeviceVfQuota_kept (k : Cmd) {s s₀ : State} (hk : s₀.Kept s) : Answer.kept s₀ (specDeviceVfQuota.run
    k s) := by
  simp only [specDeviceVfQuota]
  repeat' (first
      | with_reducible assumption | with_reducible apply State.modFn_kept | with_reducible apply ok_kept | split
      | dsimp only | (simp (maxDischargeDepth := 9) [*]; done))

theorem execDeviceVfQuota_kept (c : Submission) {s : State} {s₀ : State} (hk : s₀.Kept s) : Out.kept s₀
    (execDeviceVfQuota c s) := runEci_kept _ _ specDeviceVfQuota_kept hk

theorem specDeviceRestart_kept (k : Cmd) {s s₀ : State} (hk : s₀.Kept s) : Answer.kept s₀ (specDeviceRestart.run
    k s) := by
  simp only [specDeviceRestart]
  repeat' (first
      | with_reducible assumption | with_reducible apply ok_kept | with_reducible apply modBoot_kept | split
      | dsimp only | (simp (maxDischargeDepth := 9) [*]; done))

theorem execDeviceRestart_kept (c : Submission) {s : State} {s₀ : State} (hk : s₀.Kept s) : Out.kept s₀
    (execDeviceRestart c s) := runEci_kept _ _ specDeviceRestart_kept hk

theorem specDeviceNop_kept (k : Cmd) {s s₀ : State} (hk : s₀.Kept s) : Answer.kept s₀ (specDeviceNop.run k s) := by
  simp only [specDeviceNop]
  repeat' (first
      | with_reducible assumption | with_reducible apply ok_kept | split | dsimp only
      | (simp (maxDischargeDepth := 9) [*]; done))

theorem execDeviceNop_kept (c : Submission) {s : State} {s₀ : State} (hk : s₀.Kept s) : Out.kept s₀
    (execDeviceNop c s) := runEci_kept _ _ specDeviceNop_kept hk

/-! ### Trust -/

@[simp] theorem State.countUp_kept {s : State} {s₀ : State} (hk : s₀.Kept s) : s₀.Kept (State.countUp s) := by
  unfold State.countUp
  repeat' (first
      | with_reducible assumption | with_reducible apply modBoot_kept | split | dsimp only
      | (simp (maxDischargeDepth := 9) [*]; done))

@[simp] theorem State.acceptBlock_kept {s : State} (opcode target : Nat) {s₀ : State} (hk : s₀.Kept s) : s₀.Kept
    (State.acceptBlock s opcode target) := by
  unfold State.acceptBlock
  repeat' (first
      | with_reducible assumption | with_reducible apply State.countUp_kept | split | dsimp only
      | (simp (maxDischargeDepth := 9) [*]; done))

/-! ### Audio -/

@[simp] theorem State.silenceSlots_kept {s : State} (i : Nat) {s₀ : State} (hk : s₀.Kept s) : s₀.Kept
    (State.silenceSlots s i) := by
  unfold State.silenceSlots
  repeat' (first
      | with_reducible assumption | with_reducible apply modAudio_kept | split | dsimp only
      | (simp (maxDischargeDepth := 9) [*]; done))

theorem specAudioPortSet_kept (k : Cmd) {s s₀ : State} (hk : s₀.Kept s) : Answer.kept s₀ (specAudioPortSet.run k
    s) := by
  simp only [specAudioPortSet]
  repeat' (first
      | with_reducible assumption | with_reducible apply State.silenceSlots_kept | with_reducible apply ok_kept
      | with_reducible apply modAudio_kept | with_reducible apply checked_kept | split | dsimp only
      | (simp (maxDischargeDepth := 9) [*]; done))

theorem execAudioPortSet_kept (c : Submission) {s : State} {s₀ : State} (hk : s₀.Kept s) : Out.kept s₀
    (execAudioPortSet c s) := runEci_kept _ _ specAudioPortSet_kept hk

theorem specAudioPortSlots_kept (k : Cmd) {s s₀ : State} (hk : s₀.Kept s) : Answer.kept s₀
    (specAudioPortSlots.run k s) := by
  simp only [specAudioPortSlots]
  repeat' (first
      | with_reducible assumption | with_reducible apply stage_kept | with_reducible apply checked_kept | split
      | dsimp only | (simp (maxDischargeDepth := 9) [*]; done))

theorem execAudioPortSlots_kept (c : Submission) {s : State} {s₀ : State} (hk : s₀.Kept s) : Out.kept s₀
    (execAudioPortSlots c s) := runEci_kept _ _ specAudioPortSlots_kept hk

theorem specAudioPortQuery_kept (k : Cmd) {s s₀ : State} (hk : s₀.Kept s) : Answer.kept s₀
    (specAudioPortQuery.run k s) := by
  simp only [specAudioPortQuery]
  repeat' (first
      | with_reducible assumption | with_reducible apply ok_kept | split | dsimp only
      | (simp (maxDischargeDepth := 9) [*]; done))

theorem execAudioPortQuery_kept (c : Submission) {s : State} {s₀ : State} (hk : s₀.Kept s) : Out.kept s₀
    (execAudioPortQuery c s) := runEci_kept _ _ specAudioPortQuery_kept hk

theorem specFrameClockSet_kept (k : Cmd) {s s₀ : State} (hk : s₀.Kept s) : Answer.kept s₀ (specFrameClockSet.run
    k s) := by
  simp only [specFrameClockSet]
  repeat' (first
      | with_reducible assumption | with_reducible apply ok_kept | with_reducible apply modAudio_kept
      | with_reducible apply checked_kept | split | dsimp only | (simp (maxDischargeDepth := 9) [*]; done))

theorem execFrameClockSet_kept (c : Submission) {s : State} {s₀ : State} (hk : s₀.Kept s) : Out.kept s₀
    (execFrameClockSet c s) := runEci_kept _ _ specFrameClockSet_kept hk

theorem State.takeAsrc_kept {s t s₀ : State} {n : Bool} {o : Nat} {a : Option Nat} (he : s.takeAsrc n o = some
    (a, t)) (hk : s₀.Kept s) : s₀.Kept t := by
  unfold State.takeAsrc at he
  split at he
  · obtain ⟨⟨i, u⟩, hu, hx⟩ := Option.map_eq_some_iff.mp he
    simp only [Prod.mk.injEq] at hx
    rw [← hx.2]
    exact State.newObject_kept hu hk
  · simp only [Option.some.injEq, Prod.mk.injEq] at he
    rw [← he.2]; exact hk

theorem specAudioProgramCreate_kept (k : Cmd) {s s₀ : State} (hk : s₀.Kept s) : Answer.kept s₀
    (specAudioProgramCreate.run k s) := by
  simp only [specAudioProgramCreate]
  repeat' (first
      | with_reducible assumption | with_reducible apply refuse_kept | with_reducible apply ok_kept
      | with_reducible apply modAudio_kept | refine State.newObject_kept (by assumption) ?_
      | refine State.takeAsrc_kept (by assumption) ?_ | with_reducible apply checked_kept | split | dsimp only
      | (simp (maxDischargeDepth := 9) [*]; done))

theorem execAudioProgramCreate_kept (c : Submission) {s : State} {s₀ : State} (hk : s₀.Kept s) : Out.kept s₀
    (execAudioProgramCreate c s) := runEci_kept _ _ specAudioProgramCreate_kept hk

theorem specAudioProgramSet_kept (k : Cmd) {s s₀ : State} (hk : s₀.Kept s) : Answer.kept s₀
    (specAudioProgramSet.run k s) := by
  simp only [specAudioProgramSet]
  repeat' (first
      | with_reducible assumption | with_reducible apply stage_kept | split | dsimp only
      | (simp (maxDischargeDepth := 9) [*]; done))

theorem execAudioProgramSet_kept (c : Submission) {s : State} {s₀ : State} (hk : s₀.Kept s) : Out.kept s₀
    (execAudioProgramSet c s) := runEci_kept _ _ specAudioProgramSet_kept hk

theorem specAudioProgramDestroy_kept (k : Cmd) {s s₀ : State} (hk : s₀.Kept s) : Answer.kept s₀
    (specAudioProgramDestroy.run k s) := by
  simp only [specAudioProgramDestroy]
  repeat' (first
      | with_reducible assumption | with_reducible apply State.freeObject_kept | with_reducible apply ok_kept
      | with_reducible apply modAudio_kept | with_reducible apply checked_kept | split | dsimp only
      | (simp (maxDischargeDepth := 9) [*]; done))

theorem execAudioProgramDestroy_kept (c : Submission) {s : State} {s₀ : State} (hk : s₀.Kept s) : Out.kept s₀
    (execAudioProgramDestroy c s) := runEci_kept _ _ specAudioProgramDestroy_kept hk

theorem specAudioProgramQuery_kept (k : Cmd) {s s₀ : State} (hk : s₀.Kept s) : Answer.kept s₀
    (specAudioProgramQuery.run k s) := by
  simp only [specAudioProgramQuery]
  repeat' (first
      | with_reducible assumption | with_reducible apply ok_kept | split | dsimp only
      | (simp (maxDischargeDepth := 9) [*]; done))

theorem execAudioProgramQuery_kept (c : Submission) {s : State} {s₀ : State} (hk : s₀.Kept s) : Out.kept s₀
    (execAudioProgramQuery c s) := runEci_kept _ _ specAudioProgramQuery_kept hk

theorem specAsrcQuery_kept (k : Cmd) {s s₀ : State} (hk : s₀.Kept s) : Answer.kept s₀ (specAsrcQuery.run k s) := by
  simp only [specAsrcQuery]
  repeat' (first
      | with_reducible assumption | with_reducible apply State.captureGroup_kept | with_reducible apply ok_kept
      | split | dsimp only | (simp (maxDischargeDepth := 9) [*]; done))

theorem execAsrcQuery_kept (c : Submission) {s : State} {s₀ : State} (hk : s₀.Kept s) : Out.kept s₀
    (execAsrcQuery c s) := runEci_kept _ _ specAsrcQuery_kept hk

theorem specAudioRateQuery_kept (k : Cmd) {s s₀ : State} (hk : s₀.Kept s) : Answer.kept s₀
    (specAudioRateQuery.run k s) := by
  simp only [specAudioRateQuery]
  repeat' (first
      | with_reducible assumption | with_reducible apply State.captureGroup_kept | with_reducible apply ok_kept
      | split | dsimp only | (simp (maxDischargeDepth := 9) [*]; done))

theorem execAudioRateQuery_kept (c : Submission) {s : State} {s₀ : State} (hk : s₀.Kept s) : Out.kept s₀
    (execAudioRateQuery c s) := runEci_kept _ _ specAudioRateQuery_kept hk

theorem specAudioEmbedSet_kept (k : Cmd) {s s₀ : State} (hk : s₀.Kept s) : Answer.kept s₀ (specAudioEmbedSet.run
    k s) := by
  simp only [specAudioEmbedSet]
  repeat' (first
      | with_reducible assumption | with_reducible apply stage_kept | with_reducible apply checked_kept | split
      | dsimp only | (simp (maxDischargeDepth := 9) [*]; done))

theorem execAudioEmbedSet_kept (c : Submission) {s : State} {s₀ : State} (hk : s₀.Kept s) : Out.kept s₀
    (execAudioEmbedSet c s) := runEci_kept _ _ specAudioEmbedSet_kept hk

/-! ### AudioOps -/

@[simp] theorem State.modProg_kept {s : State} (h : Nat) (f : Program → Program) {s₀ : State} (hk : s₀.Kept s) :
    s₀.Kept (State.modProg s h f) := by
  unfold State.modProg
  repeat' (first
      | with_reducible assumption | with_reducible apply modAudio_kept | split | dsimp only
      | (simp (maxDischargeDepth := 9) [*]; done))

@[simp] theorem State.rephaseAudio_kept {s : State} {s₀ : State} (hk : s₀.Kept s) : s₀.Kept (State.rephaseAudio s) := by
  unfold State.rephaseAudio
  repeat' (first
      | with_reducible assumption | with_reducible apply next_kept | with_reducible apply modAudio_kept | split
      | dsimp only | (simp (maxDischargeDepth := 9) [*]; done))

/-! ### Time -/

@[simp] theorem State.tick_kept {s s₀ : State} (hk : s₀.Kept s) : s₀.Kept s.tick := by
  unfold State.tick
  split
  · exact hk
  · exact modTime_kept (fun h => TimeState.advance_sound _ _ h) hk

theorem execTimeWrap_kept {s s₀ : State} (hk : s₀.Kept s) : Out.kept s₀ (execTimeWrap s) := by
  unfold execTimeWrap
  split
  · exact next_kept hk
  · exact next_kept (modTime_kept (fun _ => TimeState.advance_sound _ _ ‹_›) hk)

@[simp] theorem State.timeEvent_kept {s : State} (k : EventKind) (detail : Nat) {s₀ : State} (hk : s₀.Kept s) :
    s₀.Kept (State.timeEvent s k detail) := by
  unfold State.timeEvent
  repeat' (first
      | with_reducible assumption | with_reducible apply State.raise_kept | split | dsimp only
      | (simp (maxDischargeDepth := 9) [*]; done))

@[simp] theorem State.stepEpoch_kept {s : State} (d : Int) {s₀ : State} (hk : s₀.Kept s) : s₀.Kept (s.stepEpoch d) := by
  unfold State.stepEpoch
  refine State.rephaseAudio_kept (State.timeEvent_kept _ _ (modTime_kept (fun w => w) (modNet_kept (modTime_kept
      (fun w => ?_) hk))))
  have := TimeState.setEpoch_sound (s.time.epochNs + d) w
  exact this

@[simp] theorem State.journalTuple_kept {s : State} {s₀ : State} (hk : s₀.Kept s) : s₀.Kept (State.journalTuple s) := by
  unfold State.journalTuple
  repeat' (first
      | with_reducible assumption | with_reducible apply modTime_kept
      | (with_reducible apply TimeState.Sound.same <;> rfl) | split | dsimp only
      | (simp (maxDischargeDepth := 9) [*]; done))

theorem execMaintenancePass_kept {s : State} {s₀ : State} (hk : s₀.Kept s) : Out.kept s₀ (execMaintenancePass s) := by
  unfold execMaintenancePass
  repeat' (first
      | with_reducible assumption | with_reducible apply State.journalTuple_kept | with_reducible apply next_kept
      | with_reducible apply modTime_kept | (with_reducible apply TimeState.Sound.same <;> rfl) | split | dsimp only
      | (simp (maxDischargeDepth := 9) [*]; done))

@[simp] theorem State.resolveWraps_kept {s : State} {s₀ : State} (hk : s₀.Kept s) : s₀.Kept (State.resolveWraps s) := by
  unfold State.resolveWraps
  repeat' (first
      | with_reducible assumption | with_reducible apply State.journalTuple_kept
      | with_reducible apply State.timeEvent_kept | with_reducible apply modTime_kept
      | (with_reducible apply TimeState.Sound.same <;> rfl) | split | dsimp only
      | (simp (maxDischargeDepth := 9) [*]; done))

@[simp] theorem State.setServo_kept {s : State} (v : Servo) {s₀ : State} (hk : s₀.Kept s) : s₀.Kept
    (State.setServo s v) := by
  unfold State.setServo
  repeat' (first
      | with_reducible assumption | with_reducible apply State.timeEvent_kept
      | with_reducible apply State.fresh_kept | with_reducible apply modTime_kept
      | (with_reducible apply TimeState.Sound.same <;> rfl) | split | dsimp only
      | (simp (maxDischargeDepth := 9) [*]; done))

@[simp] theorem State.updateAdj_kept {s : State} (offset : Int) {s₀ : State} (hk : s₀.Kept s) : s₀.Kept
    (State.updateAdj s offset) := by
  unfold State.updateAdj
  repeat' (first
      | with_reducible assumption | with_reducible apply useFree_kept | with_reducible apply modTime_kept
      | (with_reducible apply TimeState.Sound.same <;> rfl) | split | dsimp only
      | (simp (maxDischargeDepth := 9) [*]; done))

@[simp] theorem State.measure_kept {s : State} (offset : Int) {s₀ : State} (hk : s₀.Kept s) : s₀.Kept
    (State.measure s offset) := by
  unfold State.measure
  repeat' (first
      | with_reducible assumption | with_reducible apply State.updateAdj_kept
      | with_reducible apply State.setServo_kept | with_reducible apply State.stepEpoch_kept
      | with_reducible apply State.fresh_kept | with_reducible apply modTime_kept
      | (with_reducible apply TimeState.Sound.same <;> rfl) | split | dsimp only
      | (simp (maxDischargeDepth := 9) [*]; done))

theorem execServoHoldoverTimeout_kept {s : State} {s₀ : State} (hk : s₀.Kept s) : Out.kept s₀
    (execServoHoldoverTimeout s) := by
  unfold execServoHoldoverTimeout
  repeat' (first
      | with_reducible assumption | with_reducible apply State.setServo_kept | with_reducible apply next_kept
      | with_reducible apply modTime_kept | (with_reducible apply TimeState.Sound.same <;> rfl) | split | dsimp only
      | (simp (maxDischargeDepth := 9) [*]; done))

@[simp] theorem State.modPtp_kept {s : State} (p : Nat) (f : PtpPort → PtpPort) {s₀ : State} (hk : s₀.Kept s) :
    s₀.Kept (State.modPtp s p f) := by
  unfold State.modPtp
  repeat' (first
      | with_reducible assumption | with_reducible apply modTime_kept
      | (with_reducible apply TimeState.Sound.same <;> rfl) | split | dsimp only
      | (simp (maxDischargeDepth := 9) [*]; done))

@[simp] theorem State.syncOffset_kept {s : State} (p : Nat) (received origin : Int) {s₀ : State} (hk : s₀.Kept
    s) : s₀.Kept (State.syncOffset s p received origin) := by
  unfold State.syncOffset
  repeat' (first
      | with_reducible assumption | with_reducible apply State.modPtp_kept | with_reducible apply State.measure_kept
      | split | dsimp only | (simp (maxDischargeDepth := 9) [*]; done))

@[simp] theorem State.follow_kept {s : State} (gm : Nat) {s₀ : State} (hk : s₀.Kept s) : s₀.Kept (State.follow s
    gm) := by
  unfold State.follow
  repeat' (first
      | with_reducible assumption | with_reducible apply State.timeEvent_kept | with_reducible apply modTime_kept
      | (with_reducible apply TimeState.Sound.same <;> rfl) | split | dsimp only
      | (simp (maxDischargeDepth := 9) [*]; done))

theorem execPtpMessageReceive_kept (port : Fin 16) (domain : BitVec 8) (m : PtpMessage) {s : State} {s₀ : State}
    (hk : s₀.Kept s) : Out.kept s₀ (execPtpMessageReceive port domain m s) := by
  unfold execPtpMessageReceive
  repeat' (first
      | with_reducible assumption | with_reducible apply State.follow_kept
      | with_reducible apply State.syncOffset_kept | with_reducible apply State.modPtp_kept
      | with_reducible apply next_kept | with_reducible apply modTime_kept
      | (with_reducible apply TimeState.Sound.same <;> rfl) | split | dsimp only
      | (simp (maxDischargeDepth := 9) [*]; done))

theorem execAnnounceReceiptTimeout_kept (port : Fin 16) {s : State} {s₀ : State} (hk : s₀.Kept s) : Out.kept s₀
    (execAnnounceReceiptTimeout port s) := by
  unfold execAnnounceReceiptTimeout
  repeat' (first
      | with_reducible assumption | with_reducible apply State.modPtp_kept | with_reducible apply next_kept | split
      | dsimp only | (simp (maxDischargeDepth := 9) [*]; done))

theorem execPtpPortStateChange_kept (port : Fin 16) (target : PtpPortState) {s : State} {s₀ : State} (hk :
    s₀.Kept s) : Out.kept s₀ (execPtpPortStateChange port target s) := by
  unfold execPtpPortStateChange
  repeat' (first
      | with_reducible assumption | with_reducible apply State.follow_kept | with_reducible apply State.modPtp_kept
      | with_reducible apply State.raise_kept | with_reducible apply next_kept | with_reducible apply modTime_kept
      | (with_reducible apply TimeState.Sound.same <;> rfl) | split | dsimp only
      | (simp (maxDischargeDepth := 9) [*]; done))

@[simp] theorem State.applyPps_kept {s : State} {s₀ : State} (hk : s₀.Kept s) : s₀.Kept (State.applyPps s) := by
  unfold State.applyPps
  repeat' (first
      | with_reducible assumption | with_reducible apply modTime_kept | with_reducible apply modEci_kept
      | with_reducible apply foldl_kept | (with_reducible apply Eci.Mail.same; rfl)
      | (with_reducible apply TimeState.Sound.same <;> rfl) | split | dsimp only | intro _
      | (simp (maxDischargeDepth := 9) [*]; done))

theorem execPpsOutEdge_kept {s : State} {s₀ : State} (hk : s₀.Kept s) : Out.kept s₀ (execPpsOutEdge s) := by
  unfold execPpsOutEdge
  repeat' (first
      | with_reducible assumption | with_reducible apply State.applyPps_kept | with_reducible apply stage_kept
      | with_reducible apply next_kept | with_reducible apply modTime_kept
      | (with_reducible apply TimeState.Sound.same <;> rfl) | split | dsimp only
      | (simp (maxDischargeDepth := 9) [*]; done))

theorem execPpsInEdge_kept (rising : Bool) {s : State} {s₀ : State} (hk : s₀.Kept s) : Out.kept s₀
    (execPpsInEdge rising s) := by
  unfold execPpsInEdge
  repeat' (first
      | with_reducible assumption | with_reducible apply State.applyPps_kept
      | with_reducible apply State.measure_kept | with_reducible apply State.timeEvent_kept
      | with_reducible apply next_kept | with_reducible apply modTime_kept
      | (with_reducible apply TimeState.Sound.same <;> rfl) | split | dsimp only
      | (simp (maxDischargeDepth := 9) [*]; done))

theorem execPpsInLost_kept {s : State} {s₀ : State} (hk : s₀.Kept s) : Out.kept s₀ (execPpsInLost s) := by
  unfold execPpsInLost
  repeat' (first
      | with_reducible assumption | with_reducible apply State.timeEvent_kept | with_reducible apply next_kept
      | with_reducible apply modTime_kept | (with_reducible apply TimeState.Sound.same <;> rfl) | split | dsimp only
      | (simp (maxDischargeDepth := 9) [*]; done))

theorem execRef10mInLost_kept {s : State} {s₀ : State} (hk : s₀.Kept s) : Out.kept s₀ (execRef10mInLost s) := by
  unfold execRef10mInLost
  repeat' (first
      | with_reducible assumption | with_reducible apply State.timeEvent_kept | with_reducible apply next_kept
      | with_reducible apply modTime_kept | (with_reducible apply TimeState.Sound.same <;> rfl) | split | dsimp only
      | (simp (maxDischargeDepth := 9) [*]; done))

theorem execRef10mInReturn_kept {s : State} {s₀ : State} (hk : s₀.Kept s) : Out.kept s₀ (execRef10mInReturn s) := by
  unfold execRef10mInReturn
  repeat' (first
      | with_reducible assumption | with_reducible apply next_kept | with_reducible apply modTime_kept
      | (with_reducible apply TimeState.Sound.same <;> rfl) | split | dsimp only
      | (simp (maxDischargeDepth := 9) [*]; done))

theorem specTimeQuery_kept (k : Cmd) {s s₀ : State} (hk : s₀.Kept s) : Answer.kept s₀ (specTimeQuery.run k s) := by
  simp only [specTimeQuery]
  repeat' (first
      | with_reducible assumption | with_reducible apply State.captureTime_kept | with_reducible apply ok_kept
      | split | dsimp only | (simp (maxDischargeDepth := 9) [*]; done))

theorem execTimeQuery_kept (c : Submission) {s : State} {s₀ : State} (hk : s₀.Kept s) : Out.kept s₀
    (execTimeQuery c s) := runEci_kept _ _ specTimeQuery_kept hk

theorem specServoSet_kept (k : Cmd) {s s₀ : State} (hk : s₀.Kept s) : Answer.kept s₀ (specServoSet.run k s) := by
  simp only [specServoSet]
  repeat' (first
      | with_reducible assumption | with_reducible apply State.setServo_kept | with_reducible apply ok_kept
      | with_reducible apply modTime_kept | (with_reducible apply TimeState.Sound.same <;> rfl) | split | dsimp only
      | (simp (maxDischargeDepth := 9) [*]; done))

theorem execServoSet_kept (c : Submission) {s : State} {s₀ : State} (hk : s₀.Kept s) : Out.kept s₀ (execServoSet
    c s) := runEci_kept _ _ specServoSet_kept hk

theorem specServoReset_kept (k : Cmd) {s s₀ : State} (hk : s₀.Kept s) : Answer.kept s₀ (specServoReset.run k s) := by
  simp only [specServoReset]
  repeat' (first
      | with_reducible assumption | with_reducible apply State.setServo_kept | with_reducible apply State.fresh_kept
      | with_reducible apply ok_kept | with_reducible apply modTime_kept | with_reducible apply checked_kept
      | (with_reducible apply TimeState.Sound.same <;> rfl) | split | dsimp only
      | (simp (maxDischargeDepth := 9) [*]; done))

theorem execServoReset_kept (c : Submission) {s : State} {s₀ : State} (hk : s₀.Kept s) : Out.kept s₀
    (execServoReset c s) := runEci_kept _ _ specServoReset_kept hk

theorem specPtpSet_kept (k : Cmd) {s s₀ : State} (hk : s₀.Kept s) : Answer.kept s₀ (specPtpSet.run k s) := by
  simp only [specPtpSet]
  repeat' (first
      | with_reducible assumption | with_reducible apply ok_kept | with_reducible apply modTime_kept
      | with_reducible apply modLane_kept | with_reducible apply foldl_kept
      | (with_reducible apply TimeState.Sound.same <;> rfl) | split | dsimp only | intro _
      | (simp (maxDischargeDepth := 9) [*]; done))

theorem execPtpSet_kept (c : Submission) {s : State} {s₀ : State} (hk : s₀.Kept s) : Out.kept s₀ (execPtpSet c
    s) := runEci_kept _ _ specPtpSet_kept hk

theorem specPtpPortSet_kept (k : Cmd) {s s₀ : State} (hk : s₀.Kept s) : Answer.kept s₀ (specPtpPortSet.run k s) := by
  simp only [specPtpPortSet]
  repeat' (first
      | with_reducible assumption | with_reducible apply State.modPtp_kept | with_reducible apply ok_kept | split
      | dsimp only | (simp (maxDischargeDepth := 9) [*]; done))

theorem execPtpPortSet_kept (c : Submission) {s : State} {s₀ : State} (hk : s₀.Kept s) : Out.kept s₀
    (execPtpPortSet c s) := runEci_kept _ _ specPtpPortSet_kept hk

theorem specPpsSet_kept (k : Cmd) {s s₀ : State} (hk : s₀.Kept s) : Answer.kept s₀ (specPpsSet.run k s) := by
  simp only [specPpsSet]
  repeat' (first
      | with_reducible assumption | with_reducible apply stage_kept | split | dsimp only
      | (simp (maxDischargeDepth := 9) [*]; done))

theorem execPpsSet_kept (c : Submission) {s : State} {s₀ : State} (hk : s₀.Kept s) : Out.kept s₀ (execPpsSet c
    s) := runEci_kept _ _ specPpsSet_kept hk

theorem specTimeSetTod_kept (k : Cmd) {s s₀ : State} (hk : s₀.Kept s) : Answer.kept s₀ (specTimeSetTod.run k s) := by
  simp only [specTimeSetTod]
  repeat' (first
      | with_reducible assumption | with_reducible apply ok_kept | with_reducible apply modTime_kept
      | (with_reducible apply TimeState.Sound.same <;> rfl) | split | dsimp only
      | (simp (maxDischargeDepth := 9) [*]; done))

theorem execTimeSetTod_kept (c : Submission) {s : State} {s₀ : State} (hk : s₀.Kept s) : Out.kept s₀
    (execTimeSetTod c s) := runEci_kept _ _ specTimeSetTod_kept hk

theorem specDomainSet_kept (k : Cmd) {s s₀ : State} (hk : s₀.Kept s) : Answer.kept s₀ (specDomainSet.run k s) := by
  simp only [specDomainSet]
  repeat' (first
      | with_reducible assumption | with_reducible apply ok_kept | with_reducible apply modTime_kept
      | with_reducible apply checked_kept | (with_reducible apply TimeState.Sound.same <;> rfl) | split | dsimp only
      | (simp (maxDischargeDepth := 9) [*]; done))

theorem execDomainSet_kept (c : Submission) {s : State} {s₀ : State} (hk : s₀.Kept s) : Out.kept s₀
    (execDomainSet c s) := runEci_kept _ _ specDomainSet_kept hk

theorem specChannelAlign_kept (k : Cmd) {s s₀ : State} (hk : s₀.Kept s) : Answer.kept s₀ (specChannelAlign.run k
    s) := by
  simp only [specChannelAlign]
  repeat' (first
      | with_reducible assumption | with_reducible apply State.modCh_kept | with_reducible apply ok_kept
      | with_reducible apply checked_kept | split | dsimp only | (simp (maxDischargeDepth := 9) [*]; done))

theorem execChannelAlign_kept (c : Submission) {s : State} {s₀ : State} (hk : s₀.Kept s) : Out.kept s₀
    (execChannelAlign c s) := runEci_kept _ _ specChannelAlign_kept hk

theorem specAlignQuery_kept (k : Cmd) {s s₀ : State} (hk : s₀.Kept s) : Answer.kept s₀ (specAlignQuery.run k s) := by
  simp only [specAlignQuery]
  repeat' (first
      | with_reducible assumption | with_reducible apply ok_kept | split | dsimp only
      | (simp (maxDischargeDepth := 9) [*]; done))

theorem execAlignQuery_kept (c : Submission) {s : State} {s₀ : State} (hk : s₀.Kept s) : Out.kept s₀
    (execAlignQuery c s) := runEci_kept _ _ specAlignQuery_kept hk

/-! ### BootOps -/

@[simp] theorem State.logReason_kept {s : State} (reason : Nat) (detail : Nat) {s₀ : State} (hk : s₀.Kept s) :
    s₀.Kept (State.logReason s reason detail) := by
  unfold State.logReason
  repeat' (first
      | with_reducible assumption | with_reducible apply stage_kept | with_reducible apply modBoot_kept | split
      | dsimp only | (simp (maxDischargeDepth := 9) [*]; done))

@[simp] theorem State.intoReset_kept {s s₀ : State} (hk : s₀.Kept s) : s₀.Kept s.intoReset :=
  ⟨hk.1, fun _ => by simp [State.intoReset, TimeState.sound], fun _ => Memory.wf_nil, fun _ => Memory.wf_nil⟩

@[simp] theorem State.leaveReset_kept {s : State} {s₀ : State} (hk : s₀.Kept s) : s₀.Kept (State.leaveReset s) := by
  unfold State.leaveReset
  repeat' (first
      | with_reducible assumption | with_reducible apply modBoot_kept | split | dsimp only
      | (simp (maxDischargeDepth := 9) [*]; done))

@[simp] theorem State.restart_kept {s : State} {s₀ : State} (hk : s₀.Kept s) : s₀.Kept (State.restart s) := by
  unfold State.restart
  repeat' (first
      | with_reducible assumption | with_reducible apply State.leaveReset_kept
      | with_reducible apply State.intoReset_kept | split | dsimp only | (simp (maxDischargeDepth := 9) [*]; done))

@[simp] theorem State.failStart_kept {s : State} (reason : Nat) {s₀ : State} (hk : s₀.Kept s) : s₀.Kept
    (State.failStart s reason) := by
  unfold State.failStart
  repeat' (first
      | with_reducible assumption | with_reducible apply State.logReason_kept | with_reducible apply modBoot_kept
      | split | dsimp only | (simp (maxDischargeDepth := 9) [*]; done))

@[simp] theorem State.enterSafe_kept {s : State} (reason : Nat) {s₀ : State} (hk : s₀.Kept s) : s₀.Kept
    (State.enterSafe s reason) := by
  unfold State.enterSafe
  repeat' (first
      | with_reducible assumption | with_reducible apply State.logReason_kept
      | with_reducible apply State.setStage_kept | with_reducible apply modSched_kept
      | with_reducible apply modLane_kept | with_reducible apply modNet_kept | with_reducible apply modAudio_kept
      | with_reducible apply modChan_kept | with_reducible apply modBoot_kept | split | dsimp only
      | (simp (maxDischargeDepth := 9) [*]; done))

@[simp] theorem State.logTrip_kept {s : State} (e : TamperEntry) {s₀ : State} (hk : s₀.Kept s) : s₀.Kept
    (State.logTrip s e) := by
  unfold State.logTrip
  repeat' (first
      | with_reducible assumption | with_reducible apply modBoot_kept | split | dsimp only
      | (simp (maxDischargeDepth := 9) [*]; done))

@[simp] theorem State.raiseTamper_kept {s : State} (e : TamperEntry) (safe : Bool) {s₀ : State} (hk : s₀.Kept s)
    : s₀.Kept (State.raiseTamper s e safe) := by
  unfold State.raiseTamper
  repeat' (first
      | with_reducible assumption | with_reducible apply State.raise_kept | split | dsimp only
      | (simp (maxDischargeDepth := 9) [*]; done))

@[simp] theorem State.startWipe_kept {s : State} (trips : List TamperEntry) (response : Nat) {s₀ : State} (hk :
    s₀.Kept s) : s₀.Kept (State.startWipe s trips response) := by
  unfold State.startWipe
  repeat' (first
      | with_reducible assumption | with_reducible apply State.completeRunning_kept
      | with_reducible apply modNet_kept | with_reducible apply modBoot_kept | with_reducible apply modEci_kept
      | (with_reducible apply Eci.Mail.same; rfl) | split | dsimp only | (simp (maxDischargeDepth := 9) [*]; done))

@[simp] theorem State.deleteKeys_kept {s : State} {s₀ : State} (hk : s₀.Kept s) : s₀.Kept (State.deleteKeys s) := by
  unfold State.deleteKeys
  repeat' (first
      | with_reducible assumption | with_reducible apply State.freeObject_kept | with_reducible apply modNet_kept
      | with_reducible apply modBoot_kept | with_reducible apply foldl_kept | split | dsimp only | intro _
      | (simp (maxDischargeDepth := 9) [*]; done))

@[simp] theorem State.finishWipe_kept {s : State} {s₀ : State} (hk : s₀.Kept s) : s₀.Kept (State.finishWipe s) := by
  unfold State.finishWipe
  repeat' (first
      | with_reducible assumption | with_reducible apply State.deleteKeys_kept
      | with_reducible apply State.raiseTamper_kept | with_reducible apply State.enterSafe_kept
      | with_reducible apply State.closeSession_kept | with_reducible apply State.raise_kept
      | with_reducible apply modBoot_kept | with_reducible apply foldl_kept | split | dsimp only | intro _
      | (simp (maxDischargeDepth := 9) [*]; done))

@[simp] theorem State.fencePrimary_kept {s : State} {s₀ : State} (hk : s₀.Kept s) : s₀.Kept (State.fencePrimary s) := by
  unfold State.fencePrimary
  repeat' (first
      | with_reducible assumption | with_reducible apply State.logReason_kept
      | with_reducible apply State.breakLocksOf_kept | with_reducible apply State.modSd_kept
      | with_reducible apply State.causeAll_kept | with_reducible apply State.raise_kept
      | with_reducible apply modBoot_kept | split | dsimp only | (simp (maxDischargeDepth := 9) [*]; done))

/-! ### Life -/

@[simp] theorem State.toChState_kept {s : State} (h : Nat) (new : ChState) (pic : Nat) {s₀ : State} (hk :
    s₀.Kept s) : s₀.Kept (State.toChState s h new pic) := by
  unfold State.toChState
  repeat' (first
      | with_reducible assumption | with_reducible apply State.modCh_kept | with_reducible apply State.raise_kept
      | split | dsimp only | (simp (maxDischargeDepth := 9) [*]; done))

@[simp] theorem State.startChannel_kept {s : State} (h : Nat) {s₀ : State} (hk : s₀.Kept s) : s₀.Kept
    (State.startChannel s h) := by
  unfold State.startChannel
  repeat' (first
      | with_reducible assumption | with_reducible apply State.toChState_kept
      | with_reducible apply State.openFlows_kept | with_reducible apply State.modCh_kept | split | dsimp only
      | (simp (maxDischargeDepth := 9) [*]; done))

@[simp] theorem State.idleChannel_kept {s : State} (h : Nat) {s₀ : State} (hk : s₀.Kept s) : s₀.Kept
    (State.idleChannel s h) := by
  unfold State.idleChannel
  repeat' (first
      | with_reducible assumption | with_reducible apply State.toChState_kept
      | with_reducible apply State.beginFreq_kept | with_reducible apply State.closeFlows_kept
      | with_reducible apply State.modCh_kept | with_reducible apply modEci_kept | with_reducible apply foldl_kept
      | (with_reducible apply Eci.Mail.same; rfl) | split | dsimp only | intro _
      | (simp (maxDischargeDepth := 9) [*]; done))

@[simp] theorem State.endDrain_kept {s : State} (h : Nat) {s₀ : State} (hk : s₀.Kept s) : s₀.Kept
    (State.endDrain s h) := by
  unfold State.endDrain
  repeat' (first
      | with_reducible assumption | with_reducible apply State.idleChannel_kept | split | dsimp only
      | (simp (maxDischargeDepth := 9) [*]; done))

@[simp] theorem State.stopChannel_kept {s : State} (h : Nat) {s₀ : State} (hk : s₀.Kept s) : s₀.Kept
    (State.stopChannel s h) := by
  unfold State.stopChannel
  repeat' (first
      | with_reducible assumption | with_reducible apply State.endDrain_kept
      | with_reducible apply State.toChState_kept | with_reducible apply State.modCh_kept | split | dsimp only
      | (simp (maxDischargeDepth := 9) [*]; done))

@[simp] theorem State.haltChannel_kept {s : State} (h : Nat) {s₀ : State} (hk : s₀.Kept s) : s₀.Kept
    (State.haltChannel s h) := by
  unfold State.haltChannel
  repeat' (first
      | with_reducible assumption | with_reducible apply State.toChState_kept
      | with_reducible apply State.closeFlows_kept | with_reducible apply State.modCh_kept | split | dsimp only
      | (simp (maxDischargeDepth := 9) [*]; done))

@[simp] theorem State.applySlotTable_kept {s : State} (d : Nat) (slots : List Nat) {s₀ : State} (hk : s₀.Kept s)
    : s₀.Kept (State.applySlotTable s d slots) := by
  unfold State.applySlotTable
  repeat' (first
      | with_reducible assumption | with_reducible apply State.stopChannel_kept
      | with_reducible apply State.modCh_kept | with_reducible apply State.raise_kept
      | with_reducible apply modChan_kept | with_reducible apply foldl_kept | split | dsimp only | intro _
      | (simp (maxDischargeDepth := 9) [*]; done))

@[simp] theorem State.enterEligible_kept {s : State} (d : Nat) (e : Eligible) {s₀ : State} (hk : s₀.Kept s) :
    s₀.Kept (State.enterEligible s d e) := by
  unfold State.enterEligible
  repeat' (first
      | with_reducible assumption | with_reducible apply modChan_kept | split | dsimp only
      | (simp (maxDischargeDepth := 9) [*]; done))

@[simp] theorem State.setAnchor_kept {s : State} (h n m : Nat) {s₀ : State} (hk : s₀.Kept s) : s₀.Kept
    (State.setAnchor s h n m) := by
  unfold State.setAnchor
  repeat' (first
      | with_reducible assumption | with_reducible apply State.modCh_kept | split | dsimp only
      | (simp (maxDischargeDepth := 9) [*]; done))

@[simp] theorem State.slip_kept {s : State} (h n kind : Nat) (e : Int) {s₀ : State} (hk : s₀.Kept s) : s₀.Kept
    (State.slip s h n kind e) := by
  unfold State.slip
  repeat' (first
      | with_reducible assumption | with_reducible apply State.modCh_kept | with_reducible apply State.raise_kept
      | split | dsimp only | (simp (maxDischargeDepth := 9) [*]; done))

@[simp] theorem State.firstRow_kept {s : State} (h m sampling depth : Nat) {s₀ : State} (hk : s₀.Kept s) :
    s₀.Kept (State.firstRow s h m sampling depth) := by
  unfold State.firstRow
  repeat' (first
      | with_reducible assumption | with_reducible apply State.slip_kept | with_reducible apply State.setAnchor_kept
      | with_reducible apply State.modCh_kept | split | dsimp only | (simp (maxDischargeDepth := 9) [*]; done))

@[simp] theorem State.lastRow_kept {s : State} (h : Nat) {s₀ : State} (hk : s₀.Kept s) : s₀.Kept (State.lastRow
    s h) := by
  unfold State.lastRow
  repeat' (first
      | with_reducible assumption | with_reducible apply State.enterEligible_kept
      | with_reducible apply State.modCh_kept | split | dsimp only | (simp (maxDischargeDepth := 9) [*]; done))

@[simp] theorem State.postRow_kept {s : State} (h n row : Nat) (kind : Nat) {s₀ : State} (hk : s₀.Kept s) :
    s₀.Kept (State.postRow s h n row kind) := by
  unfold State.postRow
  repeat' (first
      | with_reducible assumption | with_reducible apply State.noteBp_kept | with_reducible apply State.stall_kept
      | with_reducible apply State.settleSd_kept | with_reducible apply foldl_kept
      | refine State.seqPost_kept (by assumption) ?_ | with_reducible apply State.seqPost_getD_kept | split
      | dsimp only | intro _ | (simp (maxDischargeDepth := 9) [*]; done))

@[simp] theorem State.poolRestart_kept {s : State} (h : Nat) {s₀ : State} (hk : s₀.Kept s) : s₀.Kept
    (State.poolRestart s h) := by
  unfold State.poolRestart
  repeat' (first
      | with_reducible assumption | with_reducible apply State.modCh_kept | split | dsimp only
      | (simp (maxDischargeDepth := 9) [*]; done))

@[simp] theorem State.feed_kept {s : State} (h n k : Nat) {s₀ : State} (hk : s₀.Kept s) : s₀.Kept (State.feed s
    h n k) := by
  unfold State.feed
  repeat' (first
      | with_reducible assumption | with_reducible apply State.modCh_kept | with_reducible apply modChan_kept
      | split | dsimp only | (simp (maxDischargeDepth := 9) [*]; done))

@[simp] theorem State.storeRow_kept {s : State} (h o k : Nat) (d : SourceRow) {s₀ : State} (hk : s₀.Kept s) :
    s₀.Kept (State.storeRow s h o k d) := by
  unfold State.storeRow
  repeat' (first
      | with_reducible assumption | with_reducible apply State.feed_kept | with_reducible apply State.postRow_kept
      | with_reducible apply State.modCh_kept | split | dsimp only | (simp (maxDischargeDepth := 9) [*]; done))

@[simp] theorem State.rowArrives_kept {s : State} (h row m : Nat) (d : SourceRow) {s₀ : State} (hk : s₀.Kept s)
    : s₀.Kept (State.rowArrives s h row m d) := by
  unfold State.rowArrives
  repeat' (first
      | with_reducible assumption | with_reducible apply State.storeRow_kept
      | with_reducible apply State.poolRestart_kept | with_reducible apply State.lastRow_kept
      | with_reducible apply State.firstRow_kept | with_reducible apply State.modCh_kept | split | dsimp only
      | (simp (maxDischargeDepth := 9) [*]; done))

/-! ### Check -/

@[simp] theorem State.checkAu_kept {s : State} (h n : Nat) (nals : List (List Byte)) {s₀ : State} (hk : s₀.Kept
    s) : s₀.Kept (State.checkAu s h n nals) := by
  unfold State.checkAu
  repeat' (first
      | with_reducible assumption | with_reducible apply modDec_kept | split | dsimp only
      | (simp (maxDischargeDepth := 9) [*]; done))

@[simp] theorem State.checkFrame_kept {s : State} (h n point : Nat) (f : Frame) (sampling depth : Nat) {s₀ :
    State} (hk : s₀.Kept s) : s₀.Kept (State.checkFrame s h n point f sampling depth) := by
  unfold State.checkFrame
  repeat' (first
      | with_reducible assumption | with_reducible apply modDec_kept | split | dsimp only
      | (simp (maxDischargeDepth := 9) [*]; done))

/-! ### Picture -/

@[simp] theorem State.sceneChange_kept {s : State} (h n cause pct : Nat) {s₀ : State} (hk : s₀.Kept s) : s₀.Kept
    (State.sceneChange s h n cause pct) := by
  unfold State.sceneChange
  repeat' (first
      | with_reducible assumption | with_reducible apply State.raise_kept | split | dsimp only
      | (simp (maxDischargeDepth := 9) [*]; done))

@[simp] theorem State.beginRows_kept {s : State} (h : Nat) {s₀ : State} (hk : s₀.Kept s) : s₀.Kept
    (State.beginRows s h) := by
  unfold State.beginRows
  repeat' (first
      | with_reducible assumption | with_reducible apply State.modCh_kept | with_reducible apply stage_kept | split
      | dsimp only | (simp (maxDischargeDepth := 9) [*]; done))

@[simp] theorem State.squashFlow_kept {s : State} (h d k : Nat) {s₀ : State} (hk : s₀.Kept s) : s₀.Kept
    (State.squashFlow s h d k) := by
  unfold State.squashFlow
  repeat' (first
      | with_reducible assumption | with_reducible apply State.squash_kept | split | dsimp only
      | (simp (maxDischargeDepth := 9) [*]; done))

@[simp] theorem State.squashRow_kept {s : State} (h d k : Nat) {s₀ : State} (hk : s₀.Kept s) : s₀.Kept
    (State.squashRow s h d k) := by
  unfold State.squashRow
  repeat' (first
      | with_reducible assumption | with_reducible apply State.squashAgain_kept | split | dsimp only
      | (simp (maxDischargeDepth := 9) [*]; done))

@[simp] theorem State.cross_kept {s : State} (h half : Nat) (gen : Nat) (item : SeamItem) {s₀ : State} (hk :
    s₀.Kept s) : s₀.Kept (State.cross s h half gen item) := by
  unfold State.cross
  repeat' (first
      | with_reducible assumption | with_reducible apply State.modCh_kept | split | dsimp only
      | (simp (maxDischargeDepth := 9) [*]; done))

@[simp] theorem State.crossOrder_kept {s : State} (h key kind : Nat) {s₀ : State} (hk : s₀.Kept s) : s₀.Kept
    (State.crossOrder s h key kind) := by
  unfold State.crossOrder
  repeat' (first
      | with_reducible assumption | with_reducible apply State.cross_kept | split | dsimp only
      | (simp (maxDischargeDepth := 9) [*]; done))

@[simp] theorem State.squashHere_kept {s : State} (h k : Nat) {s₀ : State} (hk : s₀.Kept s) : s₀.Kept
    (State.squashHere s h k) := by
  unfold State.squashHere
  repeat' (first
      | with_reducible assumption | with_reducible apply State.squashFlow_kept
      | with_reducible apply State.modCh_kept | split | dsimp only | (simp (maxDischargeDepth := 9) [*]; done))

@[simp] theorem State.squashFrom_kept {s : State} (h k : Nat) {s₀ : State} (hk : s₀.Kept s) : s₀.Kept
    (State.squashFrom s h k) := by
  unfold State.squashFrom
  repeat' (first
      | with_reducible assumption | with_reducible apply State.squashHere_kept
      | with_reducible apply State.crossOrder_kept | split | dsimp only | (simp (maxDischargeDepth := 9) [*]; done))

@[simp] theorem State.captionsFor_kept {s : State} (h n : Nat) {s₀ : State} (hk : s₀.Kept s) : s₀.Kept
    (State.captionsFor s h n) := by
  unfold State.captionsFor
  repeat' (first
      | with_reducible assumption | with_reducible apply State.modCh_kept | with_reducible apply State.raise_kept
      | split | dsimp only | (simp (maxDischargeDepth := 9) [*]; done))

@[simp] theorem State.startRate_kept {s : State} (h n : Nat) {s₀ : State} (hk : s₀.Kept s) : s₀.Kept
    (State.startRate s h n) := by
  unfold State.startRate
  repeat' (first
      | with_reducible assumption | with_reducible apply State.captionsFor_kept
      | with_reducible apply State.modCh_kept | split | dsimp only | (simp (maxDischargeDepth := 9) [*]; done))

@[simp] theorem State.rateBegin_kept {s : State} (h n : Nat) {s₀ : State} (hk : s₀.Kept s) : s₀.Kept
    (State.rateBegin s h n) := by
  unfold State.rateBegin
  repeat' (first
      | with_reducible assumption | with_reducible apply State.startRate_kept
      | with_reducible apply State.squashFrom_kept | split | dsimp only | (simp (maxDischargeDepth := 9) [*]; done))

@[simp] theorem State.deadlineEvent_kept {s : State} (h n : Nat) {s₀ : State} (hk : s₀.Kept s) : s₀.Kept
    (State.deadlineEvent s h n) := by
  unfold State.deadlineEvent
  repeat' (first
      | with_reducible assumption | with_reducible apply State.modCh_kept | with_reducible apply State.raise_kept
      | split | dsimp only | (simp (maxDischargeDepth := 9) [*]; done))

@[simp] theorem State.endPicture_kept {s : State} (h n : Nat) {s₀ : State} (hk : s₀.Kept s) : s₀.Kept
    (State.endPicture s h n) := by
  unfold State.endPicture
  repeat' (first
      | with_reducible assumption | with_reducible apply State.deadlineEvent_kept
      | with_reducible apply State.modCh_kept | with_reducible apply State.raise_kept
      | with_reducible apply stage_kept | split | dsimp only | (simp (maxDischargeDepth := 9) [*]; done))

@[simp] theorem State.sendSeam_kept {s : State} (h : Nat) {s₀ : State} (hk : s₀.Kept s) : s₀.Kept
    (State.sendSeam s h) := by
  unfold State.sendSeam
  repeat' (first
      | with_reducible assumption | with_reducible apply State.cross_kept | with_reducible apply State.modCh_kept
      | with_reducible apply foldl_kept | split | dsimp only | intro _ | (simp (maxDischargeDepth := 9) [*]; done))

@[simp] theorem State.advance_kept {s : State} (h : Nat) {s₀ : State} (hk : s₀.Kept s) : s₀.Kept (State.advance
    s h) := by
  unfold State.advance
  repeat' (first
      | with_reducible assumption | with_reducible apply State.sendSeam_kept
      | with_reducible apply State.checkFrame_kept | with_reducible apply State.postRow_kept
      | with_reducible apply State.modCh_kept | with_reducible apply State.fresh_kept
      | with_reducible apply foldl_kept | split | dsimp only | intro _ | (simp (maxDischargeDepth := 9) [*]; done))

@[simp] theorem State.rowSettled_kept {s : State} (h n row qp stage lowRun : Nat) (fill : Bool) {s₀ : State} (hk
    : s₀.Kept s) : s₀.Kept (State.rowSettled s h n row qp stage lowRun fill) := by
  unfold State.rowSettled
  repeat' (first
      | with_reducible assumption | with_reducible apply State.endPicture_kept
      | with_reducible apply State.rateBegin_kept | with_reducible apply State.crossOrder_kept
      | with_reducible apply State.modCh_kept | with_reducible apply stage_kept | split | dsimp only
      | (simp (maxDischargeDepth := 9) [*]; done))

@[simp] theorem State.afterRow_kept {s : State} (h n row qp stage lowRun : Nat) (fill : Bool) {s₀ : State} (hk :
    s₀.Kept s) : s₀.Kept (State.afterRow s h n row qp stage lowRun fill) := by
  unfold State.afterRow
  repeat' (first
      | with_reducible assumption | with_reducible apply State.rowSettled_kept
      | with_reducible apply State.advance_kept | with_reducible apply State.squashFrom_kept
      | with_reducible apply State.squashHere_kept | with_reducible apply State.beginRows_kept
      | with_reducible apply stage_kept | split | dsimp only | (simp (maxDischargeDepth := 9) [*]; done))

@[simp] theorem State.beginPicture_kept {s : State} (h : Nat) (kind : PicKind) (cause : Nat) {s₀ : State} (hk :
    s₀.Kept s) : s₀.Kept (State.beginPicture s h kind cause) := by
  unfold State.beginPicture
  repeat' (first
      | with_reducible assumption | with_reducible apply State.rateBegin_kept
      | with_reducible apply State.beginRows_kept | with_reducible apply State.sceneChange_kept
      | with_reducible apply State.feed_kept | with_reducible apply State.modCh_kept
      | with_reducible apply foldl_kept | split | dsimp only | intro _ | (simp (maxDischargeDepth := 9) [*]; done))

/-! ### Lane -/

@[simp] theorem State.modLn_kept {s : State} (i : Nat) (f : Lane → Lane) {s₀ : State} (hk : s₀.Kept s) : s₀.Kept
    (State.modLn s i f) := by
  unfold State.modLn
  repeat' (first
      | with_reducible assumption | with_reducible apply modLane_kept | split | dsimp only
      | (simp (maxDischargeDepth := 9) [*]; done))

@[simp] theorem State.trainDone_kept {s : State} (i : Nat) (r : Reply) {s₀ : State} (hk : s₀.Kept s) : s₀.Kept
    (State.trainDone s i r) := by
  unfold State.trainDone
  repeat' (first
      | with_reducible assumption | with_reducible apply State.completeRunning_kept | split | dsimp only
      | (simp (maxDischargeDepth := 9) [*]; done))

@[simp] theorem State.assertCauses_kept {s : State} (i causes : Nat) (report : Bool) {s₀ : State} (hk : s₀.Kept
    s) : s₀.Kept (State.assertCauses s i causes report) := by
  unfold State.assertCauses
  repeat' (first
      | with_reducible assumption | with_reducible apply State.modLn_kept | with_reducible apply State.raise_kept
      | with_reducible apply modTime_kept | with_reducible apply modLane_kept | with_reducible apply foldl_kept
      | (with_reducible apply TimeState.Sound.same <;> rfl) | split | dsimp only | intro _
      | (simp (maxDischargeDepth := 9) [*]; done))

@[simp] theorem State.clearCauses_kept {s : State} (i causes : Nat) {s₀ : State} (hk : s₀.Kept s) : s₀.Kept
    (State.clearCauses s i causes) := by
  unfold State.clearCauses
  repeat' (first
      | with_reducible assumption | with_reducible apply State.modLn_kept | with_reducible apply foldl_kept | split
      | dsimp only | intro _ | (simp (maxDischargeDepth := 9) [*]; done))

theorem specLaneSet_kept (k : Cmd) {s s₀ : State} (hk : s₀.Kept s) : Answer.kept s₀ (specLaneSet.run k s) := by
  simp only [specLaneSet]
  repeat' (first
      | with_reducible assumption | with_reducible apply State.clearCauses_kept
      | with_reducible apply State.assertCauses_kept | with_reducible apply State.modLn_kept
      | with_reducible apply ok_kept | with_reducible apply foldl_kept | with_reducible apply checked_kept | split
      | dsimp only | intro _ | (simp (maxDischargeDepth := 9) [*]; done))

theorem execLaneSet_kept (c : Submission) {s : State} {s₀ : State} (hk : s₀.Kept s) : Out.kept s₀ (execLaneSet c
    s) := runEci_kept _ _ specLaneSet_kept hk

theorem specLaneTrain_kept (k : Cmd) {s s₀ : State} (hk : s₀.Kept s) : Answer.kept s₀ (specLaneTrain.run k s) := by
  simp only [specLaneTrain]
  repeat' (first
      | with_reducible assumption | with_reducible apply State.assertCauses_kept
      | with_reducible apply State.modLn_kept | with_reducible apply wait_kept | with_reducible apply checked_kept
      | split | dsimp only | (simp (maxDischargeDepth := 9) [*]; done))

theorem execLaneTrain_kept (c : Submission) {s : State} {s₀ : State} (hk : s₀.Kept s) : Out.kept s₀
    (execLaneTrain c s) := runEci_kept _ _ specLaneTrain_kept hk

theorem specLaneQuery_kept (k : Cmd) {s s₀ : State} (hk : s₀.Kept s) : Answer.kept s₀ (specLaneQuery.run k s) := by
  simp only [specLaneQuery]
  repeat' (first
      | with_reducible assumption | with_reducible apply State.captureGroup_kept | with_reducible apply ok_kept
      | split | dsimp only | (simp (maxDischargeDepth := 9) [*]; done))

theorem execLaneQuery_kept (c : Submission) {s : State} {s₀ : State} (hk : s₀.Kept s) : Out.kept s₀
    (execLaneQuery c s) := runEci_kept _ _ specLaneQuery_kept hk

theorem specLaneTaps_kept (k : Cmd) {s s₀ : State} (hk : s₀.Kept s) : Answer.kept s₀ (specLaneTaps.run k s) := by
  simp only [specLaneTaps]
  repeat' (first
      | with_reducible assumption | with_reducible apply State.modLn_kept | with_reducible apply ok_kept
      | with_reducible apply checked_kept | split | dsimp only | (simp (maxDischargeDepth := 9) [*]; done))

theorem execLaneTaps_kept (c : Submission) {s : State} {s₀ : State} (hk : s₀.Kept s) : Out.kept s₀ (execLaneTaps
    c s) := runEci_kept _ _ specLaneTaps_kept hk

theorem specSdiOutSet_kept (k : Cmd) {s s₀ : State} (hk : s₀.Kept s) : Answer.kept s₀ (specSdiOutSet.run k s) := by
  simp only [specSdiOutSet]
  repeat' (first
      | with_reducible assumption | with_reducible apply stage_kept | with_reducible apply checked_kept | split
      | dsimp only | (simp (maxDischargeDepth := 9) [*]; done))

theorem execSdiOutSet_kept (c : Submission) {s : State} {s₀ : State} (hk : s₀.Kept s) : Out.kept s₀
    (execSdiOutSet c s) := runEci_kept _ _ specSdiOutSet_kept hk

theorem execLaneDetectorAssert_kept (lane : Fin 104) (levels : BitVec 5) {s : State} {s₀ : State} (hk : s₀.Kept
    s) : Out.kept s₀ (execLaneDetectorAssert lane levels s) := by
  unfold execLaneDetectorAssert
  repeat' (first
      | with_reducible assumption | with_reducible apply State.clearCauses_kept
      | with_reducible apply State.assertCauses_kept | with_reducible apply next_kept
      | with_reducible apply foldl_kept | split | dsimp only | intro _ | (simp (maxDischargeDepth := 9) [*]; done))

theorem execLaneUpTimer_kept (lane : Fin 104) {s : State} {s₀ : State} (hk : s₀.Kept s) : Out.kept s₀
    (execLaneUpTimer lane s) := by
  unfold execLaneUpTimer
  repeat' (first
      | with_reducible assumption | with_reducible apply State.trainDone_kept
      | with_reducible apply State.modLn_kept | with_reducible apply State.raise_kept
      | with_reducible apply next_kept | with_reducible apply modTime_kept | with_reducible apply modAudio_kept
      | (with_reducible apply TimeState.Sound.same <;> rfl) | split | dsimp only
      | (simp (maxDischargeDepth := 9) [*]; done))

theorem execAutonegDone_kept (lane : Fin 18) (fec : Fin 4) {s : State} {s₀ : State} (hk : s₀.Kept s) : Out.kept
    s₀ (execAutonegDone lane fec s) := by
  unfold execAutonegDone
  repeat' (first
      | with_reducible assumption | with_reducible apply State.clearCauses_kept
      | with_reducible apply State.modLn_kept | with_reducible apply next_kept | split | dsimp only
      | (simp (maxDischargeDepth := 9) [*]; done))

theorem execCoeffUpdateRequest_kept (lane : Fin 16) (tap : Fin 5) (up : Bool) {s : State} {s₀ : State} (hk :
    s₀.Kept s) : Out.kept s₀ (execCoeffUpdateRequest lane tap up s) := by
  unfold execCoeffUpdateRequest
  repeat' (first
      | with_reducible assumption | with_reducible apply State.modLn_kept | with_reducible apply next_kept | split
      | dsimp only | (simp (maxDischargeDepth := 9) [*]; done))

theorem execTrainingDone_kept (lane : Fin 16) (eye : Fin 101) {s : State} {s₀ : State} (hk : s₀.Kept s) :
    Out.kept s₀ (execTrainingDone lane eye s) := by
  unfold execTrainingDone
  repeat' (first
      | with_reducible assumption | with_reducible apply State.clearCauses_kept
      | with_reducible apply State.modLn_kept | with_reducible apply next_kept | split | dsimp only
      | (simp (maxDischargeDepth := 9) [*]; done))

theorem execTrainingWaitTimeout_kept (lane : Fin 16) {s : State} {s₀ : State} (hk : s₀.Kept s) : Out.kept s₀
    (execTrainingWaitTimeout lane s) := by
  unfold execTrainingWaitTimeout
  repeat' (first
      | with_reducible assumption | with_reducible apply State.assertCauses_kept
      | with_reducible apply State.trainDone_kept | with_reducible apply next_kept | split | dsimp only
      | (simp (maxDischargeDepth := 9) [*]; done))

theorem execSdiAdaptationFail_kept (lane : Fin 16) {s : State} {s₀ : State} (hk : s₀.Kept s) : Out.kept s₀
    (execSdiAdaptationFail lane s) := by
  unfold execSdiAdaptationFail
  repeat' (first
      | with_reducible assumption | with_reducible apply State.trainDone_kept
      | with_reducible apply State.modLn_kept | with_reducible apply next_kept | split | dsimp only
      | (simp (maxDischargeDepth := 9) [*]; done))

@[simp] theorem State.laneErrors_kept {s : State} (i code corr uncorr : Nat) {s₀ : State} (hk : s₀.Kept s) :
    s₀.Kept (State.laneErrors s i code corr uncorr) := by
  unfold State.laneErrors
  repeat' (first
      | with_reducible assumption | with_reducible apply State.modLn_kept | with_reducible apply State.raise_kept
      | split | dsimp only | (simp (maxDischargeDepth := 9) [*]; done))

@[simp] theorem State.endLpi_kept {s : State} (ports : List Nat) {s₀ : State} (hk : s₀.Kept s) : s₀.Kept
    (State.endLpi s ports) := by
  unfold State.endLpi
  repeat' (first
      | with_reducible assumption | with_reducible apply State.modLn_kept | with_reducible apply foldl_kept | split
      | dsimp only | intro _ | (simp (maxDischargeDepth := 9) [*]; done))

theorem execLpiEntry_kept (lane : Fin 16) {s : State} {s₀ : State} (hk : s₀.Kept s) : Out.kept s₀ (execLpiEntry
    lane s) := by
  unfold execLpiEntry
  repeat' (first
      | with_reducible assumption | with_reducible apply State.modLn_kept | with_reducible apply next_kept | split
      | dsimp only | (simp (maxDischargeDepth := 9) [*]; done))

theorem execPartnerLpi_kept (lane : Fin 16) (enter : Bool) {s : State} {s₀ : State} (hk : s₀.Kept s) : Out.kept
    s₀ (execPartnerLpi lane enter s) := by
  unfold execPartnerLpi
  repeat' (first
      | with_reducible assumption | with_reducible apply State.modLn_kept | with_reducible apply next_kept | split
      | dsimp only | (simp (maxDischargeDepth := 9) [*]; done))

theorem execSdiRateLock_kept (lane : Fin 16) (rate : Fin 5) (fractional : Bool) {s : State} {s₀ : State} (hk :
    s₀.Kept s) : Out.kept s₀ (execSdiRateLock lane rate fractional s) := by
  unfold execSdiRateLock
  repeat' (first
      | with_reducible assumption | with_reducible apply State.clearCauses_kept
      | with_reducible apply State.modLn_kept | with_reducible apply next_kept | split | dsimp only
      | (simp (maxDischargeDepth := 9) [*]; done))

@[simp] theorem State.sdiPicture_kept {s : State} (i : Nat) (f : SdiFormat) {s₀ : State} (hk : s₀.Kept s) :
    s₀.Kept (State.sdiPicture s i f) := by
  unfold State.sdiPicture
  repeat' (first
      | with_reducible assumption | with_reducible apply State.modLn_kept | with_reducible apply State.raise_kept
      | split | dsimp only | (simp (maxDischargeDepth := 9) [*]; done))

@[simp] theorem State.sdiCrc_kept {s : State} (i : Nat) {s₀ : State} (hk : s₀.Kept s) : s₀.Kept (State.sdiCrc s i) := by
  unfold State.sdiCrc
  repeat' (first
      | with_reducible assumption | with_reducible apply State.modLn_kept | with_reducible apply State.raise_kept
      | split | dsimp only | (simp (maxDischargeDepth := 9) [*]; done))

@[simp] theorem State.sdiLine_kept {s : State} (lane : Fin 16) (line : SdiLine) {s₀ : State} (hk : s₀.Kept s) :
    s₀.Kept (s.sdiLine lane line) := by
  unfold State.sdiLine
  lift_lets
  intro i l g s1 s2 s3 s4 links known whole k was s5
  split
  · exact hk
  · have h1 : s₀.Kept s1 := by
      dsimp only [s1]; split
      · exact State.sdiCrc_kept _ hk
      · exact hk
    have h2 : s₀.Kept s2 := State.captionPacket_kept _ _ _ h1
    have h3 : s₀.Kept s3 := by
      dsimp only [s3]
      repeat' (first | exact h2 | exact State.sdiPicture_kept _ _ h2 | split)
    have h4 : s₀.Kept s4 := by
      dsimp only [s4]; split
      · exact State.modLn_kept _ _ h3
      · exact h3
    have h5 : s₀.Kept s5 := State.modLn_kept _ _ h4
    repeat' (first
        | exact h3 | exact h4 | exact h5 | exact State.modLn_kept _ _ h4 | exact State.raise_kept _ _ _ _ h5 | split
        | dsimp only)

/-! ### Net -/

theorem specIngressCreate_kept (k : Cmd) {s s₀ : State} (hk : s₀.Kept s) : Answer.kept s₀ (specIngressCreate.run
    k s) := by
  simp only [specIngressCreate]
  repeat' (first
      | with_reducible assumption | with_reducible apply refuse_kept | with_reducible apply ok_kept
      | with_reducible apply modNet_kept | refine State.newObject_kept (by assumption) ?_
      | with_reducible apply checked_kept | split | dsimp only | (simp (maxDischargeDepth := 9) [*]; done))

theorem execIngressCreate_kept (c : Submission) {s : State} {s₀ : State} (hk : s₀.Kept s) : Out.kept s₀
    (execIngressCreate c s) := runEci_kept _ _ specIngressCreate_kept hk

theorem specIngressDestroy_kept (k : Cmd) {s s₀ : State} (hk : s₀.Kept s) : Answer.kept s₀
    (specIngressDestroy.run k s) := by
  simp only [specIngressDestroy]
  repeat' (first
      | with_reducible assumption | with_reducible apply State.freeObject_kept | with_reducible apply ok_kept
      | with_reducible apply modNet_kept | with_reducible apply checked_kept | split | dsimp only
      | (simp (maxDischargeDepth := 9) [*]; done))

theorem execIngressDestroy_kept (c : Submission) {s : State} {s₀ : State} (hk : s₀.Kept s) : Out.kept s₀
    (execIngressDestroy c s) := runEci_kept _ _ specIngressDestroy_kept hk

theorem specIngressQuery_kept (k : Cmd) {s s₀ : State} (hk : s₀.Kept s) : Answer.kept s₀ (specIngressQuery.run k
    s) := by
  simp only [specIngressQuery]
  repeat' (first
      | with_reducible assumption | with_reducible apply State.captureGroup_kept | with_reducible apply ok_kept
      | with_reducible apply State.police_kept | refine State.police_kept' (by assumption) ?_ | split | dsimp only
      | (simp (maxDischargeDepth := 9) [*]; done))

theorem execIngressQuery_kept (c : Submission) {s : State} {s₀ : State} (hk : s₀.Kept s) : Out.kept s₀
    (execIngressQuery c s) := runEci_kept _ _ specIngressQuery_kept hk

theorem specEgressCreate_kept (k : Cmd) {s s₀ : State} (hk : s₀.Kept s) : Answer.kept s₀ (specEgressCreate.run k
    s) := by
  simp only [specEgressCreate]
  repeat' (first
      | with_reducible assumption | with_reducible apply State.endLpi_kept | with_reducible apply refuse_kept
      | with_reducible apply ok_kept | with_reducible apply modNet_kept
      | refine State.newObject_kept (by assumption) ?_ | with_reducible apply checked_kept | split | dsimp only
      | (simp (maxDischargeDepth := 9) [*]; done))

theorem execEgressCreate_kept (c : Submission) {s : State} {s₀ : State} (hk : s₀.Kept s) : Out.kept s₀
    (execEgressCreate c s) := runEci_kept _ _ specEgressCreate_kept hk

theorem specEgressSet_kept (k : Cmd) {s s₀ : State} (hk : s₀.Kept s) : Answer.kept s₀ (specEgressSet.run k s) := by
  simp only [specEgressSet]
  repeat' (first
      | with_reducible assumption | with_reducible apply stage_kept | with_reducible apply refuse_kept
      | with_reducible apply checked_kept | split | dsimp only | (simp (maxDischargeDepth := 9) [*]; done))

theorem execEgressSet_kept (c : Submission) {s : State} {s₀ : State} (hk : s₀.Kept s) : Out.kept s₀
    (execEgressSet c s) := runEci_kept _ _ specEgressSet_kept hk

theorem specEgressDestroy_kept (k : Cmd) {s s₀ : State} (hk : s₀.Kept s) : Answer.kept s₀ (specEgressDestroy.run
    k s) := by
  simp only [specEgressDestroy]
  repeat' (first
      | with_reducible assumption | with_reducible apply stage_kept | with_reducible apply checked_kept | split
      | dsimp only | (simp (maxDischargeDepth := 9) [*]; done))

theorem execEgressDestroy_kept (c : Submission) {s : State} {s₀ : State} (hk : s₀.Kept s) : Out.kept s₀
    (execEgressDestroy c s) := runEci_kept _ _ specEgressDestroy_kept hk

theorem specEgressQuery_kept (k : Cmd) {s s₀ : State} (hk : s₀.Kept s) : Answer.kept s₀ (specEgressQuery.run k s) := by
  simp only [specEgressQuery]
  repeat' (first
      | with_reducible assumption | with_reducible apply State.captureGroup_kept | with_reducible apply ok_kept
      | split | dsimp only | (simp (maxDischargeDepth := 9) [*]; done))

theorem execEgressQuery_kept (c : Submission) {s : State} {s₀ : State} (hk : s₀.Kept s) : Out.kept s₀
    (execEgressQuery c s) := runEci_kept _ _ specEgressQuery_kept hk

theorem specEgressProvenance_kept (k : Cmd) {s s₀ : State} (hk : s₀.Kept s) : Answer.kept s₀
    (specEgressProvenance.run k s) := by
  simp only [specEgressProvenance]
  repeat' (first
      | with_reducible assumption | with_reducible apply stage_kept | with_reducible apply checked_kept | split
      | dsimp only | (simp (maxDischargeDepth := 9) [*]; done))

theorem execEgressProvenance_kept (c : Submission) {s : State} {s₀ : State} (hk : s₀.Kept s) : Out.kept s₀
    (execEgressProvenance c s) := runEci_kept _ _ specEgressProvenance_kept hk

theorem specEgressKey_kept (k : Cmd) {s s₀ : State} (hk : s₀.Kept s) : Answer.kept s₀ (specEgressKey.run k s) := by
  simp only [specEgressKey]
  repeat' (first
      | with_reducible assumption | with_reducible apply stage_kept | with_reducible apply refuse_kept
      | with_reducible apply checked_kept | split | dsimp only | (simp (maxDischargeDepth := 9) [*]; done))

theorem execEgressKey_kept (c : Submission) {s : State} {s₀ : State} (hk : s₀.Kept s) : Out.kept s₀
    (execEgressKey c s) := runEci_kept _ _ specEgressKey_kept hk

theorem specEgressImpair_kept (k : Cmd) {s s₀ : State} (hk : s₀.Kept s) : Answer.kept s₀ (specEgressImpair.run k
    s) := by
  simp only [specEgressImpair]
  repeat' (first
      | with_reducible assumption | with_reducible apply stage_kept | with_reducible apply checked_kept | split
      | dsimp only | (simp (maxDischargeDepth := 9) [*]; done))

theorem execEgressImpair_kept (c : Submission) {s : State} {s₀ : State} (hk : s₀.Kept s) : Out.kept s₀
    (execEgressImpair c s) := runEci_kept _ _ specEgressImpair_kept hk

theorem specShaperSet_kept (k : Cmd) {s s₀ : State} (hk : s₀.Kept s) : Answer.kept s₀ (specShaperSet.run k s) := by
  simp only [specShaperSet]
  repeat' (first
      | with_reducible assumption | with_reducible apply stage_kept | with_reducible apply refuse_kept | split
      | dsimp only | (simp (maxDischargeDepth := 9) [*]; done))

theorem execShaperSet_kept (c : Submission) {s : State} {s₀ : State} (hk : s₀.Kept s) : Out.kept s₀
    (execShaperSet c s) := runEci_kept _ _ specShaperSet_kept hk

theorem specGatelistSet_kept (k : Cmd) {s s₀ : State} (hk : s₀.Kept s) : Answer.kept s₀ (specGatelistSet.run k s) := by
  simp only [specGatelistSet]
  repeat' (first
      | with_reducible assumption | with_reducible apply stage_kept | with_reducible apply checked_kept | split
      | dsimp only | (simp (maxDischargeDepth := 9) [*]; done))

theorem execGatelistSet_kept (c : Submission) {s : State} {s₀ : State} (hk : s₀.Kept s) : Out.kept s₀
    (execGatelistSet c s) := runEci_kept _ _ specGatelistSet_kept hk

theorem specGatelistQuery_kept (k : Cmd) {s s₀ : State} (hk : s₀.Kept s) : Answer.kept s₀ (specGatelistQuery.run
    k s) := by
  simp only [specGatelistQuery]
  repeat' (first
      | with_reducible assumption | with_reducible apply ok_kept | split | dsimp only
      | (simp (maxDischargeDepth := 9) [*]; done))

theorem execGatelistQuery_kept (c : Submission) {s : State} {s₀ : State} (hk : s₀.Kept s) : Out.kept s₀
    (execGatelistQuery c s) := runEci_kept _ _ specGatelistQuery_kept hk

theorem specPolicerCreate_kept (k : Cmd) {s s₀ : State} (hk : s₀.Kept s) : Answer.kept s₀ (specPolicerCreate.run
    k s) := by
  simp only [specPolicerCreate]
  repeat' (first
      | with_reducible assumption | with_reducible apply refuse_kept | with_reducible apply ok_kept
      | with_reducible apply modNet_kept | refine State.newObject_kept (by assumption) ?_
      | with_reducible apply State.police_kept | refine State.police_kept' (by assumption) ?_
      | with_reducible apply checked_kept | split | dsimp only | (simp (maxDischargeDepth := 9) [*]; done))

theorem execPolicerCreate_kept (c : Submission) {s : State} {s₀ : State} (hk : s₀.Kept s) : Out.kept s₀
    (execPolicerCreate c s) := runEci_kept _ _ specPolicerCreate_kept hk

theorem specPolicerSet_kept (k : Cmd) {s s₀ : State} (hk : s₀.Kept s) : Answer.kept s₀ (specPolicerSet.run k s) := by
  simp only [specPolicerSet]
  repeat' (first
      | with_reducible assumption | with_reducible apply stage_kept | with_reducible apply State.police_kept
      | refine State.police_kept' (by assumption) ?_ | split | dsimp only
      | (simp (maxDischargeDepth := 9) [*]; done))

theorem execPolicerSet_kept (c : Submission) {s : State} {s₀ : State} (hk : s₀.Kept s) : Out.kept s₀
    (execPolicerSet c s) := runEci_kept _ _ specPolicerSet_kept hk

theorem specPolicerDestroy_kept (k : Cmd) {s s₀ : State} (hk : s₀.Kept s) : Answer.kept s₀
    (specPolicerDestroy.run k s) := by
  simp only [specPolicerDestroy]
  repeat' (first
      | with_reducible assumption | with_reducible apply State.freeObject_kept | with_reducible apply ok_kept
      | with_reducible apply modNet_kept | with_reducible apply State.police_kept
      | refine State.police_kept' (by assumption) ?_ | split | dsimp only
      | (simp (maxDischargeDepth := 9) [*]; done))

theorem execPolicerDestroy_kept (c : Submission) {s : State} {s₀ : State} (hk : s₀.Kept s) : Out.kept s₀
    (execPolicerDestroy c s) := runEci_kept _ _ specPolicerDestroy_kept hk

theorem specPortAddr_kept (k : Cmd) {s s₀ : State} (hk : s₀.Kept s) : Answer.kept s₀ (specPortAddr.run k s) := by
  simp only [specPortAddr]
  repeat' (first
      | with_reducible assumption | with_reducible apply ok_kept | with_reducible apply modNet_kept
      | with_reducible apply modBoot_kept | split | dsimp only | (simp (maxDischargeDepth := 9) [*]; done))

theorem execPortAddr_kept (c : Submission) {s : State} {s₀ : State} (hk : s₀.Kept s) : Out.kept s₀ (execPortAddr
    c s) := runEci_kept _ _ specPortAddr_kept hk

theorem specArbiterMode_kept (k : Cmd) {s s₀ : State} (hk : s₀.Kept s) : Answer.kept s₀ (specArbiterMode.run k s) := by
  simp only [specArbiterMode]
  repeat' (first
      | with_reducible assumption | with_reducible apply ok_kept | with_reducible apply modNet_kept
      | with_reducible apply checked_kept | split | dsimp only | (simp (maxDischargeDepth := 9) [*]; done))

theorem execArbiterMode_kept (c : Submission) {s : State} {s₀ : State} (hk : s₀.Kept s) : Out.kept s₀
    (execArbiterMode c s) := runEci_kept _ _ specArbiterMode_kept hk

/-! ### Security -/

theorem State.whenSigning_kept {s : State} (r : Reply) {s₀ : State} (hk : s₀.Kept s) : Answer.kept s₀
    (State.whenSigning s r) := by
  unfold State.whenSigning
  repeat' (first
      | with_reducible assumption | with_reducible apply ok_kept | with_reducible apply wait_kept | split
      | dsimp only | (simp (maxDischargeDepth := 9) [*]; done))

theorem specSecQuote_kept (k : Cmd) {s s₀ : State} (hk : s₀.Kept s) : Answer.kept s₀ (specSecQuote.run k s) := by
  simp only [specSecQuote]
  repeat' (first
      | with_reducible assumption | with_reducible apply State.whenSigning_kept | split | dsimp only
      | (simp (maxDischargeDepth := 9) [*]; done))

theorem execSecQuote_kept (c : Submission) {s : State} {s₀ : State} (hk : s₀.Kept s) : Out.kept s₀ (execSecQuote
    c s) := runEci_kept _ _ specSecQuote_kept hk

theorem specSecCerts_kept (k : Cmd) {s s₀ : State} (hk : s₀.Kept s) : Answer.kept s₀ (specSecCerts.run k s) := by
  simp only [specSecCerts]
  repeat' (first
      | with_reducible assumption | with_reducible apply State.whenSigning_kept | split | dsimp only
      | (simp (maxDischargeDepth := 9) [*]; done))

theorem execSecCerts_kept (c : Submission) {s : State} {s₀ : State} (hk : s₀.Kept s) : Out.kept s₀ (execSecCerts
    c s) := runEci_kept _ _ specSecCerts_kept hk

theorem specProvKey_kept (k : Cmd) {s s₀ : State} (hk : s₀.Kept s) : Answer.kept s₀ (specProvKey.run k s) := by
  simp only [specProvKey]
  repeat' (first
      | with_reducible assumption | with_reducible apply State.whenSigning_kept | split | dsimp only
      | (simp (maxDischargeDepth := 9) [*]; done))

theorem execProvKey_kept (c : Submission) {s : State} {s₀ : State} (hk : s₀.Kept s) : Out.kept s₀ (execProvKey c
    s) := runEci_kept _ _ specProvKey_kept hk

theorem execSecurityProcessorRestartDone_kept {s : State} {s₀ : State} (hk : s₀.Kept s) : Out.kept s₀
    (execSecurityProcessorRestartDone s) := by
  unfold execSecurityProcessorRestartDone
  repeat' (first
      | with_reducible assumption | with_reducible apply State.unitReset_kept
      | with_reducible apply State.completeRunning_kept | with_reducible apply next_kept
      | with_reducible apply modBoot_kept | split | dsimp only | (simp (maxDischargeDepth := 9) [*]; done))

theorem execSpFatalError_kept {s : State} {s₀ : State} (hk : s₀.Kept s) : Out.kept s₀ (execSpFatalError s) := by
  unfold execSpFatalError
  repeat' (first
      | with_reducible assumption | with_reducible apply State.startWipe_kept
      | with_reducible apply State.breakLocksOf_kept | with_reducible apply State.settleSd_kept
      | with_reducible apply stage_kept | with_reducible apply next_kept | with_reducible apply modBoot_kept | split
      | dsimp only | (simp (maxDischargeDepth := 9) [*]; done))

theorem specKeyImport_kept (k : Cmd) {s s₀ : State} (hk : s₀.Kept s) : Answer.kept s₀ (specKeyImport.run k s) := by
  simp only [specKeyImport]
  repeat' (first
      | with_reducible assumption | with_reducible apply refuse_kept | with_reducible apply ok_kept
      | with_reducible apply modBoot_kept | refine State.newObject_kept (by assumption) ?_
      | with_reducible apply checked_kept | split | dsimp only | (simp (maxDischargeDepth := 9) [*]; done))

theorem execKeyImport_kept (c : Submission) {s : State} {s₀ : State} (hk : s₀.Kept s) : Out.kept s₀
    (execKeyImport c s) := runEci_kept _ _ specKeyImport_kept hk

theorem specKeyDestroy_kept (k : Cmd) {s s₀ : State} (hk : s₀.Kept s) : Answer.kept s₀ (specKeyDestroy.run k s) := by
  simp only [specKeyDestroy]
  repeat' (first
      | with_reducible assumption | with_reducible apply State.freeObject_kept | with_reducible apply ok_kept
      | with_reducible apply modBoot_kept | with_reducible apply checked_kept | split | dsimp only
      | (simp (maxDischargeDepth := 9) [*]; done))

theorem execKeyDestroy_kept (c : Submission) {s : State} {s₀ : State} (hk : s₀.Kept s) : Out.kept s₀
    (execKeyDestroy c s) := runEci_kept _ _ specKeyDestroy_kept hk

@[simp] theorem State.enrolAgain_kept {s : State} (p : List Byte) {s₀ : State} (hk : s₀.Kept s) : s₀.Kept
    (State.enrolAgain s p) := by
  unfold State.enrolAgain
  repeat' (first
      | with_reducible assumption | with_reducible apply modBoot_kept | split | dsimp only
      | (simp (maxDischargeDepth := 9) [*]; done))

@[simp] theorem State.lcMove_kept {s : State} (p : List Byte) {s₀ : State} (hk : s₀.Kept s) : s₀.Kept
    (State.lcMove s p) := by
  unfold State.lcMove
  repeat' (first
      | with_reducible assumption | with_reducible apply State.advance_kept
      | with_reducible apply State.startWipe_kept | with_reducible apply State.countUp_kept
      | with_reducible apply modBoot_kept | split | dsimp only | (simp (maxDischargeDepth := 9) [*]; done))

theorem specSecLcAdvance_kept (k : Cmd) {s s₀ : State} (hk : s₀.Kept s) : Answer.kept s₀ (specSecLcAdvance.run k
    s) := by
  simp only [specSecLcAdvance]
  repeat' (first
      | with_reducible assumption | with_reducible apply State.lcMove_kept | with_reducible apply refuse_kept
      | with_reducible apply ok_kept | split | dsimp only | (simp (maxDischargeDepth := 9) [*]; done))

theorem execSecLcAdvance_kept (c : Submission) {s : State} {s₀ : State} (hk : s₀.Kept s) : Out.kept s₀
    (execSecLcAdvance c s) := runEci_kept _ _ specSecLcAdvance_kept hk

theorem specSecOwnerKeyAdd_kept (k : Cmd) {s s₀ : State} (hk : s₀.Kept s) : Answer.kept s₀
    (specSecOwnerKeyAdd.run k s) := by
  simp only [specSecOwnerKeyAdd]
  repeat' (first
      | with_reducible assumption | with_reducible apply State.acceptBlock_kept | with_reducible apply refuse_kept
      | with_reducible apply ok_kept | with_reducible apply modBoot_kept | split | dsimp only
      | (simp (maxDischargeDepth := 9) [*]; done))

theorem execSecOwnerKeyAdd_kept (c : Submission) {s : State} {s₀ : State} (hk : s₀.Kept s) : Out.kept s₀
    (execSecOwnerKeyAdd c s) := runEci_kept _ _ specSecOwnerKeyAdd_kept hk

theorem specSecKeyRevoke_kept (k : Cmd) {s s₀ : State} (hk : s₀.Kept s) : Answer.kept s₀ (specSecKeyRevoke.run k
    s) := by
  simp only [specSecKeyRevoke]
  repeat' (first
      | with_reducible assumption | with_reducible apply State.acceptBlock_kept | with_reducible apply refuse_kept
      | with_reducible apply ok_kept | with_reducible apply modBoot_kept | with_reducible apply checked_kept | split
      | dsimp only | (simp (maxDischargeDepth := 9) [*]; done))

theorem execSecKeyRevoke_kept (c : Submission) {s : State} {s₀ : State} (hk : s₀.Kept s) : Out.kept s₀
    (execSecKeyRevoke c s) := runEci_kept _ _ specSecKeyRevoke_kept hk

theorem specSecSvnCommit_kept (k : Cmd) {s s₀ : State} (hk : s₀.Kept s) : Answer.kept s₀ (specSecSvnCommit.run k
    s) := by
  simp only [specSecSvnCommit]
  repeat' (first
      | with_reducible assumption | with_reducible apply State.acceptBlock_kept | with_reducible apply refuse_kept
      | with_reducible apply ok_kept | with_reducible apply modBoot_kept | with_reducible apply checked_kept | split
      | dsimp only | (simp (maxDischargeDepth := 9) [*]; done))

theorem execSecSvnCommit_kept (c : Submission) {s : State} {s₀ : State} (hk : s₀.Kept s) : Out.kept s₀
    (execSecSvnCommit c s) := runEci_kept _ _ specSecSvnCommit_kept hk

theorem specSecDebugChallenge_kept (k : Cmd) {s s₀ : State} (hk : s₀.Kept s) : Answer.kept s₀
    (specSecDebugChallenge.run k s) := by
  simp only [specSecDebugChallenge]
  repeat' (first
      | with_reducible assumption | with_reducible apply ok_kept | with_reducible apply useFree_kept
      | with_reducible apply modBoot_kept | split | dsimp only | (simp (maxDischargeDepth := 9) [*]; done))

theorem execSecDebugChallenge_kept (c : Submission) {s : State} {s₀ : State} (hk : s₀.Kept s) : Out.kept s₀
    (execSecDebugChallenge c s) := runEci_kept _ _ specSecDebugChallenge_kept hk

@[simp] theorem State.openDebug_kept {s : State} (scope : Nat) {s₀ : State} (hk : s₀.Kept s) : s₀.Kept
    (State.openDebug s scope) := by
  unfold State.openDebug
  repeat' (first
      | with_reducible assumption | with_reducible apply State.startWipe_kept
      | with_reducible apply State.enterSafe_kept | with_reducible apply State.countUp_kept
      | with_reducible apply State.raise_kept | with_reducible apply useFree_kept
      | with_reducible apply modBoot_kept | split | dsimp only | (simp (maxDischargeDepth := 9) [*]; done))

theorem specSecDebugUnlock_kept (k : Cmd) {s s₀ : State} (hk : s₀.Kept s) : Answer.kept s₀
    (specSecDebugUnlock.run k s) := by
  simp only [specSecDebugUnlock]
  repeat' (first
      | with_reducible assumption | with_reducible apply State.openDebug_kept | with_reducible apply refuse_kept
      | with_reducible apply ok_kept | split | dsimp only | (simp (maxDischargeDepth := 9) [*]; done))

theorem execSecDebugUnlock_kept (c : Submission) {s : State} {s₀ : State} (hk : s₀.Kept s) : Out.kept s₀
    (execSecDebugUnlock c s) := runEci_kept _ _ specSecDebugUnlock_kept hk

theorem execTapInstructionLoad_kept (i : TapInstruction) {s : State} {s₀ : State} (hk : s₀.Kept s) : Out.kept s₀
    (execTapInstructionLoad i s) := by
  unfold execTapInstructionLoad
  repeat' (first
      | with_reducible assumption | with_reducible apply State.enterSafe_kept | with_reducible apply stage_kept
      | with_reducible apply next_kept | with_reducible apply modBoot_kept | split | dsimp only
      | (simp (maxDischargeDepth := 9) [*]; done))

theorem specSecTamperSet_kept (k : Cmd) {s s₀ : State} (hk : s₀.Kept s) : Answer.kept s₀ (specSecTamperSet.run k
    s) := by
  simp only [specSecTamperSet]
  repeat' (first
      | with_reducible assumption | with_reducible apply State.acceptBlock_kept | with_reducible apply refuse_kept
      | with_reducible apply ok_kept | with_reducible apply modBoot_kept | split | dsimp only
      | (simp (maxDischargeDepth := 9) [*]; done))

theorem execSecTamperSet_kept (c : Submission) {s : State} {s₀ : State} (hk : s₀.Kept s) : Out.kept s₀
    (execSecTamperSet c s) := runEci_kept _ _ specSecTamperSet_kept hk

theorem specSecTamperLog_kept (k : Cmd) {s s₀ : State} (hk : s₀.Kept s) : Answer.kept s₀ (specSecTamperLog.run k
    s) := by
  simp only [specSecTamperLog]
  repeat' (first
      | with_reducible assumption | with_reducible apply ok_kept | split | dsimp only
      | (simp (maxDischargeDepth := 9) [*]; done))

theorem execSecTamperLog_kept (c : Submission) {s : State} {s₀ : State} (hk : s₀.Kept s) : Out.kept s₀
    (execSecTamperLog c s) := runEci_kept _ _ specSecTamperLog_kept hk

theorem specSecTamperClear_kept (k : Cmd) {s s₀ : State} (hk : s₀.Kept s) : Answer.kept s₀
    (specSecTamperClear.run k s) := by
  simp only [specSecTamperClear]
  repeat' (first
      | with_reducible assumption | with_reducible apply State.acceptBlock_kept | with_reducible apply refuse_kept
      | with_reducible apply ok_kept | with_reducible apply modBoot_kept | split | dsimp only
      | (simp (maxDischargeDepth := 9) [*]; done))

theorem execSecTamperClear_kept (c : Submission) {s : State} {s₀ : State} (hk : s₀.Kept s) : Out.kept s₀
    (execSecTamperClear c s) := runEci_kept _ _ specSecTamperClear_kept hk

theorem execTamperTrip_kept (sensor : Fin 6) (second : Option (Fin 6)) (whileOff : Bool) {s : State} {s₀ :
    State} (hk : s₀.Kept s) : Out.kept s₀ (execTamperTrip sensor second whileOff s) := by
  unfold execTamperTrip
  repeat' (first
      | with_reducible assumption | with_reducible apply State.startWipe_kept
      | with_reducible apply State.raiseTamper_kept | with_reducible apply State.logTrip_kept
      | with_reducible apply next_kept | with_reducible apply modBoot_kept | with_reducible apply foldl_kept | split
      | dsimp only | intro _ | (simp (maxDischargeDepth := 9) [*]; done))

theorem execWipeDone_kept {s : State} {s₀ : State} (hk : s₀.Kept s) : Out.kept s₀ (execWipeDone s) := by
  unfold execWipeDone
  repeat' (first
      | with_reducible assumption | with_reducible apply State.finishWipe_kept | with_reducible apply next_kept
      | split | dsimp only | (simp (maxDischargeDepth := 9) [*]; done))

theorem specSecCounter_kept (k : Cmd) {s s₀ : State} (hk : s₀.Kept s) : Answer.kept s₀ (specSecCounter.run k s) := by
  simp only [specSecCounter]
  repeat' (first
      | with_reducible assumption | with_reducible apply State.countUp_kept | with_reducible apply ok_kept | split
      | dsimp only | (simp (maxDischargeDepth := 9) [*]; done))

theorem execSecCounter_kept (c : Submission) {s : State} {s₀ : State} (hk : s₀.Kept s) : Out.kept s₀
    (execSecCounter c s) := runEci_kept _ _ specSecCounter_kept hk

theorem specSecCredSet_kept (k : Cmd) {s s₀ : State} (hk : s₀.Kept s) : Answer.kept s₀ (specSecCredSet.run k s) := by
  simp only [specSecCredSet]
  repeat' (first
      | with_reducible assumption | with_reducible apply State.acceptBlock_kept
      | with_reducible apply State.closeSession_kept | with_reducible apply refuse_kept
      | with_reducible apply ok_kept | with_reducible apply modBoot_kept | with_reducible apply foldl_kept | split
      | dsimp only | intro _ | (simp (maxDischargeDepth := 9) [*]; done))

theorem execSecCredSet_kept (c : Submission) {s : State} {s₀ : State} (hk : s₀.Kept s) : Out.kept s₀
    (execSecCredSet c s) := runEci_kept _ _ specSecCredSet_kept hk

theorem specDeviceImageLoad_kept (k : Cmd) {s s₀ : State} (hk : s₀.Kept s) : Answer.kept s₀
    (specDeviceImageLoad.run k s) := by
  simp only [specDeviceImageLoad]
  repeat' (first
      | with_reducible assumption | with_reducible apply ok_kept | with_reducible apply modBoot_kept
      | with_reducible apply checked_kept | split | dsimp only | (simp (maxDischargeDepth := 9) [*]; done))

theorem execDeviceImageLoad_kept (c : Submission) {s : State} {s₀ : State} (hk : s₀.Kept s) : Out.kept s₀
    (execDeviceImageLoad c s) := runEci_kept _ _ specDeviceImageLoad_kept hk

/-! ### Startup -/

theorem execPowerGood_kept {s : State} {s₀ : State} (hk : s₀.Kept s) : Out.kept s₀ (execPowerGood s) := by
  unfold execPowerGood
  repeat' (first
      | with_reducible assumption | with_reducible apply State.leaveReset_kept
      | with_reducible apply State.fresh_kept | with_reducible apply next_kept | with_reducible apply modBoot_kept
      | split | dsimp only | (simp (maxDischargeDepth := 9) [*]; done))

theorem execBrownOut_kept {s : State} {s₀ : State} (hk : s₀.Kept s) : Out.kept s₀ (execBrownOut s) := by
  unfold execBrownOut
  repeat' (first
      | with_reducible assumption | with_reducible apply State.logTrip_kept
      | with_reducible apply State.intoReset_kept | with_reducible apply next_kept
      | with_reducible apply modBoot_kept | split | dsimp only | (simp (maxDischargeDepth := 9) [*]; done))

theorem execSysRstNLow_kept (ns : Nat) {s : State} {s₀ : State} (hk : s₀.Kept s) : Out.kept s₀ (execSysRstNLow
    ns s) := by
  unfold execSysRstNLow
  repeat' (first
      | with_reducible assumption | with_reducible apply State.intoReset_kept | with_reducible apply next_kept
      | with_reducible apply useFree_kept | with_reducible apply modBoot_kept | split | dsimp only
      | (simp (maxDischargeDepth := 9) [*]; done))

theorem execSysRstNRelease_kept {s : State} {s₀ : State} (hk : s₀.Kept s) : Out.kept s₀ (execSysRstNRelease s) := by
  unfold execSysRstNRelease
  repeat' (first
      | with_reducible assumption | with_reducible apply State.leaveReset_kept | with_reducible apply next_kept
      | with_reducible apply modBoot_kept | split | dsimp only | (simp (maxDischargeDepth := 9) [*]; done))

theorem execRestartDelayExpiry_kept {s : State} {s₀ : State} (hk : s₀.Kept s) : Out.kept s₀
    (execRestartDelayExpiry s) := by
  unfold execRestartDelayExpiry
  repeat' (first
      | with_reducible assumption | with_reducible apply State.restart_kept | with_reducible apply next_kept
      | with_reducible apply modBoot_kept | split | dsimp only | (simp (maxDischargeDepth := 9) [*]; done))

theorem execFailedStartRestart_kept {s : State} {s₀ : State} (hk : s₀.Kept s) : Out.kept s₀
    (execFailedStartRestart s) := by
  unfold execFailedStartRestart
  repeat' (first
      | with_reducible assumption | with_reducible apply State.restart_kept | with_reducible apply next_kept | split
      | dsimp only | (simp (maxDischargeDepth := 9) [*]; done))

@[simp] theorem State.enterRecovery_kept {s : State} (reason : Nat) {s₀ : State} (hk : s₀.Kept s) : s₀.Kept
    (State.enterRecovery s reason) := by
  unfold State.enterRecovery
  repeat' (first
      | with_reducible assumption | with_reducible apply State.logReason_kept
      | with_reducible apply State.setStage_kept | with_reducible apply modBoot_kept | split | dsimp only
      | (simp (maxDischargeDepth := 9) [*]; done))

@[simp] theorem State.chooseSlot_kept {s : State} {s₀ : State} (hk : s₀.Kept s) : s₀.Kept (State.chooseSlot s) := by
  unfold State.chooseSlot
  repeat' (first
      | with_reducible assumption | with_reducible apply State.logReason_kept | with_reducible apply modBoot_kept
      | split | dsimp only | (simp (maxDischargeDepth := 9) [*]; done))

@[simp] theorem State.romGoesOn_kept {s : State} {s₀ : State} (hk : s₀.Kept s) : s₀.Kept (State.romGoesOn s) := by
  unfold State.romGoesOn
  repeat' (first
      | with_reducible assumption | with_reducible apply State.chooseSlot_kept
      | with_reducible apply State.enterRecovery_kept | with_reducible apply modBoot_kept | split | dsimp only
      | (simp (maxDischargeDepth := 9) [*]; done))

theorem execRomStart_kept (bootHost bootRecovery dramOk flashOk : Bool) {s : State} {s₀ : State} (hk : s₀.Kept
    s) : Out.kept s₀ (execRomStart bootHost bootRecovery dramOk flashOk s) := by
  unfold execRomStart
  repeat' (first
      | with_reducible assumption | with_reducible apply State.romGoesOn_kept
      | with_reducible apply State.logTrip_kept | with_reducible apply State.failStart_kept
      | with_reducible apply State.countUp_kept | with_reducible apply State.setStage_kept
      | with_reducible apply stage_kept | with_reducible apply next_kept | with_reducible apply useFree_kept
      | with_reducible apply modBoot_kept | split | dsimp only | (simp (maxDischargeDepth := 9) [*]; done))

theorem execThermalWaitCheck_kept (junctions : Junctions) {s : State} {s₀ : State} (hk : s₀.Kept s) : Out.kept
    s₀ (execThermalWaitCheck junctions s) := by
  unfold execThermalWaitCheck
  repeat' (first
      | with_reducible assumption | with_reducible apply State.romGoesOn_kept | with_reducible apply next_kept
      | with_reducible apply modBoot_kept | split | dsimp only | (simp (maxDischargeDepth := 9) [*]; done))

theorem execImageVerifyDone_kept (pufOk : Bool) {s : State} {s₀ : State} (hk : s₀.Kept s) : Out.kept s₀
    (execImageVerifyDone pufOk s) := by
  unfold execImageVerifyDone
  repeat' (first
      | with_reducible assumption | with_reducible apply State.failStart_kept
      | with_reducible apply State.setStage_kept | with_reducible apply stage_kept | with_reducible apply next_kept
      | with_reducible apply modBoot_kept | split | dsimp only | (simp (maxDischargeDepth := 9) [*]; done))

@[simp] theorem State.modHealth_kept {s : State} (d : Nat) (f : DieHealth → DieHealth) {s₀ : State} (hk :
    s₀.Kept s) : s₀.Kept (State.modHealth s d f) := by
  unfold State.modHealth
  repeat' (first
      | with_reducible assumption | with_reducible apply modBoot_kept | split | dsimp only
      | (simp (maxDischargeDepth := 9) [*]; done))

@[simp] theorem State.shareMsu_kept {s : State} (d c : Nat) {s₀ : State} (hk : s₀.Kept s) : s₀.Kept
    (State.shareMsu s d c) := by
  unfold State.shareMsu
  repeat' (first
      | with_reducible assumption | with_reducible apply State.raise_kept | with_reducible apply modChan_kept
      | split | dsimp only | (simp (maxDischargeDepth := 9) [*]; done))

@[simp] theorem State.swapSpares_kept {s : State} (d : Nat) {s₀ : State} (hk : s₀.Kept s) : s₀.Kept
    (State.swapSpares s d) := by
  unfold State.swapSpares
  repeat' (first
      | with_reducible assumption | with_reducible apply State.modHealth_kept
      | with_reducible apply State.modDie_kept | with_reducible apply State.raise_kept
      | with_reducible apply foldl_kept | split | dsimp only | intro _ | (simp (maxDischargeDepth := 9) [*]; done))

@[simp] theorem State.fenceElement_kept {s : State} (d : Nat) (e : Element) {s₀ : State} (hk : s₀.Kept s) :
    s₀.Kept (State.fenceElement s d e) := by
  unfold State.fenceElement
  repeat' (first
      | with_reducible assumption | with_reducible apply State.swapSpares_kept
      | with_reducible apply State.shareMsu_kept | with_reducible apply State.modHealth_kept
      | with_reducible apply State.raise_kept | with_reducible apply modChan_kept | with_reducible apply foldl_kept
      | split | dsimp only | intro _ | (simp (maxDischargeDepth := 9) [*]; done))

@[simp] theorem State.holdDie_kept {s : State} (d : Nat) {s₀ : State} (hk : s₀.Kept s) : s₀.Kept (State.holdDie
    s d) := by
  unfold State.holdDie
  repeat' (first
      | with_reducible assumption | with_reducible apply modBoot_kept | split | dsimp only
      | (simp (maxDischargeDepth := 9) [*]; done))

theorem execBistDone_kept (report : BistReport) {s : State} {s₀ : State} (hk : s₀.Kept s) : Out.kept s₀
    (execBistDone report s) := by
  unfold execBistDone
  repeat' (first
      | with_reducible assumption | with_reducible apply State.holdDie_kept
      | with_reducible apply State.fenceElement_kept | with_reducible apply State.failStart_kept
      | with_reducible apply State.setStage_kept | with_reducible apply stage_kept | with_reducible apply next_kept
      | with_reducible apply modBoot_kept | with_reducible apply foldl_kept | split | dsimp only | intro _
      | (simp (maxDischargeDepth := 9) [*]; done))

@[simp] theorem State.degrade_kept {s : State} {s₀ : State} (hk : s₀.Kept s) : s₀.Kept (State.degrade s) := by
  unfold State.degrade
  repeat' (first
      | with_reducible assumption | with_reducible apply State.raise_kept | with_reducible apply modBoot_kept
      | split | dsimp only | (simp (maxDischargeDepth := 9) [*]; done))

theorem execFirmwareReady_kept {s : State} {s₀ : State} (hk : s₀.Kept s) : Out.kept s₀ (execFirmwareReady s) := by
  unfold execFirmwareReady
  repeat' (first
      | with_reducible assumption | with_reducible apply State.degrade_kept
      | with_reducible apply State.raiseTamper_kept | with_reducible apply State.setStage_kept
      | with_reducible apply State.raise_kept | with_reducible apply stage_kept | with_reducible apply next_kept
      | with_reducible apply modNet_kept | with_reducible apply modBoot_kept | with_reducible apply modEci_kept
      | with_reducible apply foldl_kept | (with_reducible apply Eci.Mail.same; rfl) | split | dsimp only | intro _
      | (simp (maxDischargeDepth := 9) [*]; done))

theorem execDieReady_kept (d : DieNo) {s : State} {s₀ : State} (hk : s₀.Kept s) : Out.kept s₀ (execDieReady d s) := by
  unfold execDieReady
  repeat' (first
      | with_reducible assumption | with_reducible apply State.modHealth_kept | with_reducible apply stage_kept
      | with_reducible apply next_kept | with_reducible apply modBoot_kept | split | dsimp only
      | (simp (maxDischargeDepth := 9) [*]; done))

theorem execDieReadyTimeout_kept (d : DieNo) {s : State} {s₀ : State} (hk : s₀.Kept s) : Out.kept s₀
    (execDieReadyTimeout d s) := by
  unfold execDieReadyTimeout
  repeat' (first
      | with_reducible assumption | with_reducible apply State.degrade_kept
      | with_reducible apply State.holdDie_kept | with_reducible apply State.raise_kept
      | with_reducible apply stage_kept | with_reducible apply next_kept | split | dsimp only
      | (simp (maxDischargeDepth := 9) [*]; done))

theorem execFirmwareReadyTimeout_kept {s : State} {s₀ : State} (hk : s₀.Kept s) : Out.kept s₀
    (execFirmwareReadyTimeout s) := by
  unfold execFirmwareReadyTimeout
  repeat' (first
      | with_reducible assumption | with_reducible apply State.failStart_kept | with_reducible apply stage_kept
      | with_reducible apply next_kept | split | dsimp only | (simp (maxDischargeDepth := 9) [*]; done))

theorem State.recLocked_kept {s t s₀ : State} {n : Nat} (he : s.recLocked n = some t) (hk : s₀.Kept s) : s₀.Kept t := by
  unfold State.recLocked at he
  split at he
  · simp only [Option.some.injEq] at he; rw [← he]; exact State.recDone_kept _ _ _ hk
  · cases he

theorem execRecGetReasons_kept {s : State} {s₀ : State} (hk : s₀.Kept s) : Out.kept s₀ (execRecGetReasons s) := by
  unfold execRecGetReasons
  repeat' (first
      | with_reducible assumption | with_reducible apply State.recDone_kept | with_reducible apply ok_kept
      | with_reducible apply next_kept | split | dsimp only | (simp (maxDischargeDepth := 9) [*]; done))

theorem execRecGetAttestation_kept {s : State} {s₀ : State} (hk : s₀.Kept s) : Out.kept s₀
    (execRecGetAttestation s) := by
  unfold execRecGetAttestation
  repeat' (first
      | with_reducible assumption | with_reducible apply State.recDone_kept | with_reducible apply ok_kept
      | with_reducible apply next_kept | refine State.recLocked_kept (by assumption) ?_ | split | dsimp only
      | (simp (maxDischargeDepth := 9) [*]; done))

theorem execRecLoadImage_kept {s : State} {s₀ : State} (hk : s₀.Kept s) : Out.kept s₀ (execRecLoadImage s) := by
  unfold execRecLoadImage
  repeat' (first
      | with_reducible assumption | with_reducible apply State.recDone_kept | with_reducible apply ok_kept
      | with_reducible apply next_kept | with_reducible apply modBoot_kept
      | refine State.recLocked_kept (by assumption) ?_ | split | dsimp only
      | (simp (maxDischargeDepth := 9) [*]; done))

theorem execRecSetBootSlot_kept {s : State} {s₀ : State} (hk : s₀.Kept s) : Out.kept s₀ (execRecSetBootSlot s) := by
  unfold execRecSetBootSlot
  repeat' (first
      | with_reducible assumption | with_reducible apply State.recDone_kept | with_reducible apply ok_kept
      | with_reducible apply next_kept | with_reducible apply modBoot_kept
      | refine State.recLocked_kept (by assumption) ?_ | split | dsimp only
      | (simp (maxDischargeDepth := 9) [*]; done))

theorem execRecRestart_kept {s : State} {s₀ : State} (hk : s₀.Kept s) : Out.kept s₀ (execRecRestart s) := by
  unfold execRecRestart
  repeat' (first
      | with_reducible assumption | with_reducible apply State.restart_kept
      | with_reducible apply State.recDone_kept | with_reducible apply next_kept | with_reducible apply modBoot_kept
      | refine State.recLocked_kept (by assumption) ?_ | split | dsimp only
      | (simp (maxDischargeDepth := 9) [*]; done))

theorem execRecFinishLcMove_kept {s : State} {s₀ : State} (hk : s₀.Kept s) : Out.kept s₀ (execRecFinishLcMove s) := by
  unfold execRecFinishLcMove
  repeat' (first
      | with_reducible assumption | with_reducible apply State.lcMove_kept | with_reducible apply State.recDone_kept
      | with_reducible apply ok_kept | with_reducible apply next_kept
      | refine State.recLocked_kept (by assumption) ?_ | split | dsimp only
      | (simp (maxDischargeDepth := 9) [*]; done))

theorem execRecResetNormal_kept {s : State} {s₀ : State} (hk : s₀.Kept s) : Out.kept s₀ (execRecResetNormal s) := by
  unfold execRecResetNormal
  repeat' (first
      | with_reducible assumption | with_reducible apply State.restart_kept | with_reducible apply next_kept | split
      | dsimp only | (simp (maxDischargeDepth := 9) [*]; done))

theorem execRecResetRecovery_kept {s : State} {s₀ : State} (hk : s₀.Kept s) : Out.kept s₀ (execRecResetRecovery s) := by
  unfold execRecResetRecovery
  repeat' (first
      | with_reducible assumption | with_reducible apply State.restart_kept | with_reducible apply next_kept
      | with_reducible apply modBoot_kept | split | dsimp only | (simp (maxDischargeDepth := 9) [*]; done))

@[simp] theorem State.kaSwitch_kept {s : State} (backup : Bool) {s₀ : State} (hk : s₀.Kept s) : s₀.Kept
    (State.kaSwitch s backup) := by
  unfold State.kaSwitch
  repeat' (first
      | with_reducible assumption | with_reducible apply State.raise_kept | with_reducible apply stage_kept
      | with_reducible apply modBoot_kept | split | dsimp only | (simp (maxDischargeDepth := 9) [*]; done))

theorem execKaSwitchToBackup_kept {s : State} {s₀ : State} (hk : s₀.Kept s) : Out.kept s₀ (execKaSwitchToBackup s) := by
  unfold execKaSwitchToBackup
  repeat' (first
      | with_reducible assumption | with_reducible apply State.kaSwitch_kept | with_reducible apply next_kept
      | split | dsimp only | (simp (maxDischargeDepth := 9) [*]; done))

theorem execKaSwitchToMain_kept {s : State} {s₀ : State} (hk : s₀.Kept s) : Out.kept s₀ (execKaSwitchToMain s) := by
  unfold execKaSwitchToMain
  repeat' (first
      | with_reducible assumption | with_reducible apply State.kaSwitch_kept | with_reducible apply next_kept
      | split | dsimp only | (simp (maxDischargeDepth := 9) [*]; done))

@[simp] theorem State.pcieLanes_kept {s : State} (width : Nat) (up : Bool) {s₀ : State} (hk : s₀.Kept s) :
    s₀.Kept (State.pcieLanes s width up) := by
  unfold State.pcieLanes
  repeat' (first
      | with_reducible assumption | with_reducible apply State.assertCauses_kept
      | with_reducible apply State.modLn_kept | with_reducible apply State.raise_kept
      | with_reducible apply foldl_kept | split | dsimp only | intro _ | (simp (maxDischargeDepth := 9) [*]; done))

@[simp] theorem State.pcieReset_kept {s : State} {s₀ : State} (hk : s₀.Kept s) : s₀.Kept (State.pcieReset s) := by
  unfold State.pcieReset
  repeat' (first
      | with_reducible assumption | with_reducible apply State.pcieLanes_kept
      | with_reducible apply State.removeVf_kept | with_reducible apply State.resetFunction_kept
      | with_reducible apply State.unitReset_kept | with_reducible apply State.modFn_kept
      | with_reducible apply modEci_kept | with_reducible apply foldl_kept
      | (with_reducible apply Eci.Mail.same; rfl) | split | dsimp only | intro _
      | (simp (maxDischargeDepth := 9) [*]; done))

theorem execPerstNAssert_kept {s : State} {s₀ : State} (hk : s₀.Kept s) : Out.kept s₀ (execPerstNAssert s) := by
  unfold execPerstNAssert
  repeat' (first
      | with_reducible assumption | with_reducible apply State.pcieReset_kept | with_reducible apply next_kept
      | with_reducible apply modEci_kept | (with_reducible apply Eci.Mail.same; rfl) | split | dsimp only
      | (simp (maxDischargeDepth := 9) [*]; done))

theorem execPerstNRelease_kept {s : State} {s₀ : State} (hk : s₀.Kept s) : Out.kept s₀ (execPerstNRelease s) := by
  unfold execPerstNRelease
  repeat' (first
      | with_reducible assumption | with_reducible apply next_kept | with_reducible apply modEci_kept
      | (with_reducible apply Eci.Mail.same; rfl) | split | dsimp only | (simp (maxDischargeDepth := 9) [*]; done))

theorem execPcieLinkDown_kept {s : State} {s₀ : State} (hk : s₀.Kept s) : Out.kept s₀ (execPcieLinkDown s) := by
  unfold execPcieLinkDown
  repeat' (first
      | with_reducible assumption | with_reducible apply State.pcieLanes_kept | with_reducible apply next_kept
      | with_reducible apply modEci_kept | (with_reducible apply Eci.Mail.same; rfl) | split | dsimp only
      | (simp (maxDischargeDepth := 9) [*]; done))

@[simp] theorem State.flushAll_kept {s : State} {s₀ : State} (hk : s₀.Kept s) : s₀.Kept (State.flushAll s) := by
  unfold State.flushAll
  repeat' (first
      | with_reducible assumption | with_reducible apply State.flushCompletions_kept
      | with_reducible apply State.flushEvents_kept | with_reducible apply foldl_kept | split | dsimp only | intro _
      | (simp (maxDischargeDepth := 9) [*]; done))

theorem execPcieLinkReturn_kept {s : State} {s₀ : State} (hk : s₀.Kept s) : Out.kept s₀ (execPcieLinkReturn s) := by
  unfold execPcieLinkReturn
  repeat' (first
      | with_reducible assumption | with_reducible apply State.flushAll_kept
      | with_reducible apply State.pcieLanes_kept | with_reducible apply next_kept
      | with_reducible apply modEci_kept | (with_reducible apply Eci.Mail.same; rfl) | split | dsimp only
      | (simp (maxDischargeDepth := 9) [*]; done))

theorem execPcieLinkLossTimeout_kept {s : State} {s₀ : State} (hk : s₀.Kept s) : Out.kept s₀
    (execPcieLinkLossTimeout s) := by
  unfold execPcieLinkLossTimeout
  repeat' (first
      | with_reducible assumption | with_reducible apply State.pcieReset_kept | with_reducible apply next_kept
      | split | dsimp only | (simp (maxDischargeDepth := 9) [*]; done))

theorem execPcieLinkTrained_kept (gen : Fin 6) (width : Fin 9) (settled : Fin 11) {s : State} {s₀ : State} (hk :
    s₀.Kept s) : Out.kept s₀ (execPcieLinkTrained gen width settled s) := by
  unfold execPcieLinkTrained
  repeat' (first
      | with_reducible assumption | with_reducible apply State.flushAll_kept
      | with_reducible apply State.pcieLanes_kept | with_reducible apply State.raise_kept
      | with_reducible apply next_kept | with_reducible apply modEci_kept
      | (with_reducible apply Eci.Mail.same; rfl) | split | dsimp only | (simp (maxDischargeDepth := 9) [*]; done))

theorem execPcieEqRequest_kept (lane : Fin 8) (preset : Fin 11) {s : State} {s₀ : State} (hk : s₀.Kept s) :
    Out.kept s₀ (execPcieEqRequest lane preset s) := by
  unfold execPcieEqRequest
  repeat' (first
      | with_reducible assumption | with_reducible apply State.modLn_kept | with_reducible apply next_kept
      | with_reducible apply modEci_kept | (with_reducible apply Eci.Mail.same; rfl) | split | dsimp only
      | (simp (maxDischargeDepth := 9) [*]; done))

theorem execAspmL0sEntry_kept {s : State} {s₀ : State} (hk : s₀.Kept s) : Out.kept s₀ (execAspmL0sEntry s) := by
  unfold execAspmL0sEntry
  repeat' (first
      | with_reducible assumption | with_reducible apply next_kept | with_reducible apply modEci_kept
      | (with_reducible apply Eci.Mail.same; rfl) | split | dsimp only | (simp (maxDischargeDepth := 9) [*]; done))

theorem execAspmL1Entry_kept {s : State} {s₀ : State} (hk : s₀.Kept s) : Out.kept s₀ (execAspmL1Entry s) := by
  unfold execAspmL1Entry
  repeat' (first
      | with_reducible assumption | with_reducible apply next_kept | with_reducible apply modEci_kept
      | (with_reducible apply Eci.Mail.same; rfl) | split | dsimp only | (simp (maxDischargeDepth := 9) [*]; done))

/-! ### Rings -/

@[simp] theorem State.queueError_kept {s : State} (f q kind : Nat) {s₀ : State} (hk : s₀.Kept s) : s₀.Kept
    (State.queueError s f q kind) := by
  unfold State.queueError
  repeat' (first
      | with_reducible assumption | with_reducible apply State.raiseOwn_kept | with_reducible apply State.modFn_kept
      | split | dsimp only | (simp (maxDischargeDepth := 9) [*]; done))

@[simp] theorem State.eventRingError_kept {s : State} (f : Nat) {s₀ : State} (hk : s₀.Kept s) : s₀.Kept
    (State.eventRingError s f) := by
  unfold State.eventRingError
  repeat' (first
      | with_reducible assumption | with_reducible apply State.sendSessions_kept
      | with_reducible apply State.modFn_kept | split | dsimp only | (simp (maxDischargeDepth := 9) [*]; done))

@[simp] theorem State.fetchOne_kept {s : State} (f q : Nat) (u : Queue) (e : Fetch) {s₀ : State} (hk : s₀.Kept
    s) : s₀.Kept (State.fetchOne s f q u e) := by
  unfold State.fetchOne
  repeat' (first
      | with_reducible assumption | with_reducible apply State.complete_kept
      | with_reducible apply State.mbxStore_kept | with_reducible apply State.modFn_kept
      | with_reducible apply modEci_kept | (with_reducible apply Eci.Mail.same; rfl) | split | dsimp only
      | (simp (maxDischargeDepth := 9) [*]; done))

@[simp] theorem State.visit_kept {s : State} (f q : Nat) (es : List Fetch) (n : Nat) {s₀ : State} (hk : s₀.Kept
    s) : s₀.Kept (s.visit f q es n) := by
  induction n generalizing s es with
  | zero => exact hk
  | succ n ih =>
    unfold State.visit
    repeat' (first
        | with_reducible assumption | with_reducible apply ih | with_reducible apply State.fetchOne_kept
        | with_reducible apply State.queueError_kept | split | dsimp only)

@[simp] theorem State.serveQueue_kept {s : State} (f q : Nat) (es : List Fetch) {s₀ : State} (hk : s₀.Kept s) :
    s₀.Kept (State.serveQueue s f q es) := by
  unfold State.serveQueue
  repeat' (first
      | with_reducible assumption | with_reducible apply State.visit_kept | with_reducible apply State.modFn_kept
      | with_reducible apply modEci_kept | (with_reducible apply Eci.Mail.same; rfl) | split | dsimp only
      | (simp (maxDischargeDepth := 9) [*]; done))

theorem execDbSqWrite_kept (f : Fn) (q : QId) (value : BitVec 32) (entries : List Fetch) {s : State} {s₀ :
    State} (hk : s₀.Kept s) : Out.kept s₀ (execDbSqWrite f q value entries s) := by
  unfold execDbSqWrite
  repeat' (first
      | with_reducible assumption | with_reducible apply State.serveQueue_kept
      | with_reducible apply State.raiseOwn_kept | with_reducible apply State.modFn_kept
      | with_reducible apply next_kept | split | dsimp only | (simp (maxDischargeDepth := 9) [*]; done))

theorem execSqPoll_kept (f : Fn) (q : QId) (entries : List Fetch) {s : State} {s₀ : State} (hk : s₀.Kept s) :
    Out.kept s₀ (execSqPoll f q entries s) := by
  unfold execSqPoll
  repeat' (first
      | with_reducible assumption | with_reducible apply State.serveQueue_kept | with_reducible apply next_kept
      | split | dsimp only | (simp (maxDischargeDepth := 9) [*]; done))

theorem execDbFastWrite_kept (f : Fn) (value : BitVec 32) {s : State} {s₀ : State} (hk : s₀.Kept s) : Out.kept
    s₀ (execDbFastWrite f value s) := by
  unfold execDbFastWrite
  repeat' (first
      | with_reducible assumption | with_reducible apply State.raiseOwn_kept | with_reducible apply State.modFn_kept
      | with_reducible apply next_kept | split | dsimp only | (simp (maxDischargeDepth := 9) [*]; done))

@[simp] theorem State.collide_kept {s : State} (f x : Nat) {s₀ : State} (hk : s₀.Kept s) : s₀.Kept
    (State.collide s f x) := by
  unfold State.collide
  repeat' (first
      | with_reducible assumption | with_reducible apply State.raiseOwn_kept | with_reducible apply State.modFn_kept
      | split | dsimp only | (simp (maxDischargeDepth := 9) [*]; done))

@[simp] theorem State.judgeIndex_kept {s : State} (f x : Nat) {s₀ : State} (hk : s₀.Kept s) : s₀.Kept
    (State.judgeIndex s f x) := by
  unfold State.judgeIndex
  repeat' (first
      | with_reducible assumption | with_reducible apply State.eventRingError_kept
      | with_reducible apply State.queueError_kept | with_reducible apply State.flushEvents_kept | split
      | dsimp only | (simp (maxDischargeDepth := 9) [*]; done))

theorem execEciRdySet_kept (f : Fn) {s : State} {s₀ : State} (hk : s₀.Kept s) : Out.kept s₀ (execEciRdySet f s) := by
  unfold execEciRdySet
  repeat' (first
      | with_reducible assumption | with_reducible apply State.judgeIndex_kept
      | with_reducible apply State.flushEvents_kept | with_reducible apply State.mbxStore_kept
      | with_reducible apply State.modFn_kept | with_reducible apply next_kept | with_reducible apply foldl_kept
      | split | dsimp only | intro _ | (simp (maxDischargeDepth := 9) [*]; done))

theorem execMailboxHostWrite_kept (f : Fn) (offset : BitVec 18) (width : Fin 9) (value : BitVec 32) (collides :
    Bool) {s : State} {s₀ : State} (hk : s₀.Kept s) : Out.kept s₀ (execMailboxHostWrite f offset width value
    collides s) := by
  unfold execMailboxHostWrite
  repeat' (first
      | with_reducible assumption | with_reducible apply State.judgeIndex_kept
      | with_reducible apply State.collide_kept | with_reducible apply State.mbxStore_kept
      | with_reducible apply stage_kept | with_reducible apply next_kept | split | dsimp only
      | (simp (maxDischargeDepth := 9) [*]; done))

/-! ### Mp -/

theorem execMpReport_kept {s : State} {s₀ : State} (hk : s₀.Kept s) : Out.kept s₀ (execMpReport s) := by
  unfold execMpReport
  repeat' (first
      | with_reducible assumption | with_reducible apply next_kept | with_reducible apply modBoot_kept | split
      | dsimp only | (simp (maxDischargeDepth := 9) [*]; done))

theorem execMpReportTimeout_kept {s : State} {s₀ : State} (hk : s₀.Kept s) : Out.kept s₀ (execMpReportTimeout s) := by
  unfold execMpReportTimeout
  repeat' (first
      | with_reducible assumption | with_reducible apply State.fencePrimary_kept | with_reducible apply next_kept
      | split | dsimp only | (simp (maxDischargeDepth := 9) [*]; done))

theorem execMpFatalError_kept {s : State} {s₀ : State} (hk : s₀.Kept s) : Out.kept s₀ (execMpFatalError s) := by
  unfold execMpFatalError
  repeat' (first
      | with_reducible assumption | with_reducible apply State.fencePrimary_kept
      | with_reducible apply State.failStart_kept | with_reducible apply next_kept | split | dsimp only
      | (simp (maxDischargeDepth := 9) [*]; done))

theorem execStandbyStartDone_kept {s : State} {s₀ : State} (hk : s₀.Kept s) : Out.kept s₀ (execStandbyStartDone s) := by
  unfold execStandbyStartDone
  repeat' (first
      | with_reducible assumption | with_reducible apply next_kept | with_reducible apply modBoot_kept | split
      | dsimp only | (simp (maxDischargeDepth := 9) [*]; done))

theorem execFirmwareStateJournal_kept {s : State} {s₀ : State} (hk : s₀.Kept s) : Out.kept s₀
    (execFirmwareStateJournal s) := by
  unfold execFirmwareStateJournal
  repeat' (first
      | with_reducible assumption | with_reducible apply State.journalTuple_kept | with_reducible apply next_kept
      | with_reducible apply modBoot_kept | split | dsimp only | (simp (maxDischargeDepth := 9) [*]; done))

@[simp] theorem State.insertTakeover_kept {s : State} (f fence : Nat) (e0 e1 : Event) {s₀ : State} (hk : s₀.Kept
    s) : s₀.Kept (State.insertTakeover s f fence e0 e1) := by
  unfold State.insertTakeover
  repeat' (first
      | with_reducible assumption | with_reducible apply State.sendSessions_kept
      | with_reducible apply State.flushEvents_kept | with_reducible apply State.modFn_kept | split | dsimp only
      | (simp (maxDischargeDepth := 9) [*]; done))

@[simp] theorem State.loseCommands_kept {s : State} {s₀ : State} (hk : s₀.Kept s) : s₀.Kept (State.loseCommands s) := by
  unfold State.loseCommands
  repeat' (first
      | with_reducible assumption | with_reducible apply State.complete_kept | with_reducible apply modEci_kept
      | with_reducible apply foldl_kept | (with_reducible apply Eci.Mail.same; rfl) | split | dsimp only | intro _
      | (simp (maxDischargeDepth := 9) [*]; done))

@[simp] theorem State.takeJournal_kept {s : State} (agent : Nat) {s₀ : State} (hk : s₀.Kept s) : s₀.Kept
    (State.takeJournal s agent) := by
  unfold State.takeJournal
  repeat' (first
      | with_reducible assumption | with_reducible apply State.releaseLock_kept
      | with_reducible apply State.settleSd_kept | with_reducible apply State.modSd_kept | split | dsimp only
      | (simp (maxDischargeDepth := 9) [*]; done))

theorem execFencedProcessorLateWrite_kept (w : LateWrite) {s : State} {s₀ : State} (hk : s₀.Kept s) : Out.kept
    s₀ (execFencedProcessorLateWrite w s) := by
  unfold execFencedProcessorLateWrite
  repeat' (first
      | with_reducible assumption | with_reducible apply State.mbxStore_kept | with_reducible apply State.modFn_kept
      | with_reducible apply next_kept | with_reducible apply modBoot_kept | split | dsimp only
      | (simp (maxDischargeDepth := 9) [*]; done))

@[simp] theorem State.rewriteLate_kept {s : State} {s₀ : State} (hk : s₀.Kept s) : s₀.Kept (State.rewriteLate s) := by
  unfold State.rewriteLate
  repeat' (first
      | with_reducible assumption | with_reducible apply State.mbxStore_kept | with_reducible apply State.modFn_kept
      | with_reducible apply modBoot_kept | with_reducible apply foldl_kept | split | dsimp only | intro _
      | (simp (maxDischargeDepth := 9) [*]; done))

theorem execTakeoverComplete_kept {s : State} {s₀ : State} (hk : s₀.Kept s) : Out.kept s₀ (execTakeoverComplete s) := by
  unfold execTakeoverComplete
  repeat' (first
      | with_reducible assumption | with_reducible apply State.rewriteLate_kept
      | with_reducible apply State.takeJournal_kept | with_reducible apply State.loseCommands_kept
      | with_reducible apply State.insertTakeover_kept | with_reducible apply State.flushAll_kept
      | with_reducible apply State.resolveWraps_kept | with_reducible apply State.unitReset_kept
      | with_reducible apply State.flushCompletions_kept | with_reducible apply State.causeAll_kept
      | with_reducible apply next_kept | with_reducible apply modBoot_kept | with_reducible apply foldl_kept | split
      | dsimp only | intro _ | (simp (maxDischargeDepth := 9) [*]; done))

theorem execMpRepairBistDone_kept (pass : Bool) {s : State} {s₀ : State} (hk : s₀.Kept s) : Out.kept s₀
    (execMpRepairBistDone pass s) := by
  unfold execMpRepairBistDone
  repeat' (first
      | with_reducible assumption | with_reducible apply State.completeRunning_kept
      | with_reducible apply State.raise_kept | with_reducible apply next_kept | with_reducible apply modBoot_kept
      | split | dsimp only | (simp (maxDischargeDepth := 9) [*]; done))

theorem specMpRepair_kept (k : Cmd) {s s₀ : State} (hk : s₀.Kept s) : Answer.kept s₀ (specMpRepair.run k s) := by
  simp only [specMpRepair]
  repeat' (first
      | with_reducible assumption | with_reducible apply wait_kept | with_reducible apply modBoot_kept
      | with_reducible apply checked_kept | split | dsimp only | (simp (maxDischargeDepth := 9) [*]; done))

theorem execMpRepair_kept (c : Submission) {s : State} {s₀ : State} (hk : s₀.Kept s) : Out.kept s₀ (execMpRepair
    c s) := runEci_kept _ _ specMpRepair_kept hk

theorem specHealthQuery_kept (k : Cmd) {s s₀ : State} (hk : s₀.Kept s) : Answer.kept s₀ (specHealthQuery.run k s) := by
  simp only [specHealthQuery]
  repeat' (first
      | with_reducible assumption | with_reducible apply ok_kept | split | dsimp only
      | (simp (maxDischargeDepth := 9) [*]; done))

theorem execHealthQuery_kept (c : Submission) {s : State} {s₀ : State} (hk : s₀.Kept s) : Out.kept s₀
    (execHealthQuery c s) := runEci_kept _ _ specHealthQuery_kept hk

theorem specBootSlotSet_kept (k : Cmd) {s s₀ : State} (hk : s₀.Kept s) : Answer.kept s₀ (specBootSlotSet.run k s) := by
  simp only [specBootSlotSet]
  repeat' (first
      | with_reducible assumption | with_reducible apply ok_kept | with_reducible apply modBoot_kept
      | with_reducible apply checked_kept | split | dsimp only | (simp (maxDischargeDepth := 9) [*]; done))

theorem execBootSlotSet_kept (c : Submission) {s : State} {s₀ : State} (hk : s₀.Kept s) : Out.kept s₀
    (execBootSlotSet c s) := runEci_kept _ _ specBootSlotSet_kept hk

theorem specIsstQuery_kept (k : Cmd) {s s₀ : State} (hk : s₀.Kept s) : Answer.kept s₀ (specIsstQuery.run k s) := by
  simp only [specIsstQuery]
  repeat' (first
      | with_reducible assumption | with_reducible apply State.gated_kept | with_reducible apply ok_kept | split
      | dsimp only | (simp (maxDischargeDepth := 9) [*]; done))

theorem execIsstQuery_kept (c : Submission) {s : State} {s₀ : State} (hk : s₀.Kept s) : Out.kept s₀
    (execIsstQuery c s) := runEci_kept _ _ specIsstQuery_kept hk

theorem specKaLog_kept (k : Cmd) {s s₀ : State} (hk : s₀.Kept s) : Answer.kept s₀ (specKaLog.run k s) := by
  simp only [specKaLog]
  repeat' (first
      | with_reducible assumption | with_reducible apply ok_kept | split | dsimp only
      | (simp (maxDischargeDepth := 9) [*]; done))

theorem execKaLog_kept (c : Submission) {s : State} {s₀ : State} (hk : s₀.Kept s) : Out.kept s₀ (execKaLog c s)
    := runEci_kept _ _ specKaLog_kept hk

theorem specThermQuery_kept (k : Cmd) {s s₀ : State} (hk : s₀.Kept s) : Answer.kept s₀ (specThermQuery.run k s) := by
  simp only [specThermQuery]
  repeat' (first
      | with_reducible assumption | with_reducible apply ok_kept | split | dsimp only
      | (simp (maxDischargeDepth := 9) [*]; done))

theorem execThermQuery_kept (c : Submission) {s : State} {s₀ : State} (hk : s₀.Kept s) : Out.kept s₀
    (execThermQuery c s) := runEci_kept _ _ specThermQuery_kept hk

/-! ### DieFault -/

@[simp] theorem State.toHubFill_kept {s : State} (h : Nat) {s₀ : State} (hk : s₀.Kept s) : s₀.Kept
    (State.toHubFill s h) := by
  unfold State.toHubFill
  repeat' (first
      | with_reducible assumption | with_reducible apply State.closeFlows_kept
      | with_reducible apply State.modCh_kept | with_reducible apply State.raise_kept | split | dsimp only
      | (simp (maxDischargeDepth := 9) [*]; done))

@[simp] theorem State.toStandby_kept {s : State} (h pipe : Nat) (partner : Option Nat) (faulted : Bool) {s₀ :
    State} (hk : s₀.Kept s) : s₀.Kept (State.toStandby s h pipe partner faulted) := by
  unfold State.toStandby
  repeat' (first
      | with_reducible assumption | with_reducible apply State.openFlows_kept
      | with_reducible apply State.closeFlows_kept | with_reducible apply State.modCh_kept
      | with_reducible apply modChan_kept | split | dsimp only | (simp (maxDischargeDepth := 9) [*]; done))

@[simp] theorem State.idleDecoder_kept {s : State} (h : Nat) {s₀ : State} (hk : s₀.Kept s) : s₀.Kept
    (State.idleDecoder s h) := by
  unfold State.idleDecoder
  repeat' (first
      | with_reducible assumption | with_reducible apply State.toChState_kept | with_reducible apply modDec_kept
      | split | dsimp only | (simp (maxDischargeDepth := 9) [*]; done))

@[simp] theorem State.failChannel_kept {s : State} (h halt : Nat) {s₀ : State} (hk : s₀.Kept s) : s₀.Kept
    (State.failChannel s h halt) := by
  unfold State.failChannel
  repeat' (first
      | with_reducible assumption | with_reducible apply State.idleDecoder_kept
      | with_reducible apply State.toStandby_kept | with_reducible apply State.toHubFill_kept
      | with_reducible apply State.haltChannel_kept | with_reducible apply State.raise_kept | split | dsimp only
      | (simp (maxDischargeDepth := 9) [*]; done))

@[simp] theorem State.fenceDie_kept {s : State} (d : Nat) {s₀ : State} (hk : s₀.Kept s) : s₀.Kept
    (State.fenceDie s d) := by
  unfold State.fenceDie
  repeat' (first
      | with_reducible assumption | with_reducible apply State.modHealth_kept
      | with_reducible apply State.modDie_kept | with_reducible apply State.completeRunning_kept
      | with_reducible apply modSched_kept | with_reducible apply modChan_kept | with_reducible apply modBoot_kept
      | with_reducible apply modEci_kept | (with_reducible apply Eci.Mail.same; rfl) | split | dsimp only
      | (simp (maxDischargeDepth := 9) [*]; done))

@[simp] theorem State.dieFault_kept {s : State} (d cause : Nat) (halt : Nat) {s₀ : State} (hk : s₀.Kept s) :
    s₀.Kept (State.dieFault s d cause halt) := by
  unfold State.dieFault
  repeat' (first
      | with_reducible assumption | with_reducible apply State.fenceDie_kept
      | with_reducible apply State.failChannel_kept | with_reducible apply State.raise_kept
      | with_reducible apply foldl_kept | split | dsimp only | intro _ | (simp (maxDischargeDepth := 9) [*]; done))

@[simp] theorem State.policiesDue_kept {s : State} (d : Nat) {s₀ : State} (hk : s₀.Kept s) : s₀.Kept
    (State.policiesDue s d) := by
  unfold State.policiesDue
  repeat' (first
      | with_reducible assumption | with_reducible apply State.modHealth_kept | with_reducible apply modChan_kept
      | split | dsimp only | (simp (maxDischargeDepth := 9) [*]; done))

@[simp] theorem State.policiesDone_kept {s : State} (d : Nat) {s₀ : State} (hk : s₀.Kept s) : s₀.Kept
    (State.policiesDone s d) := by
  unfold State.policiesDone
  repeat' (first
      | with_reducible assumption | with_reducible apply State.dieFault_kept
      | with_reducible apply State.modHealth_kept | split | dsimp only | (simp (maxDischargeDepth := 9) [*]; done))

@[simp] theorem State.policiesSettled_kept {s : State} {s₀ : State} (hk : s₀.Kept s) : s₀.Kept
    (State.policiesSettled s) := by
  unfold State.policiesSettled
  repeat' (first
      | with_reducible assumption | with_reducible apply State.policiesDone_kept | with_reducible apply foldl_kept
      | split | dsimp only | intro _ | (simp (maxDischargeDepth := 9) [*]; done))

@[simp] theorem State.applyPolicy_kept {s : State} (h : Nat) {s₀ : State} (hk : s₀.Kept s) : s₀.Kept
    (State.applyPolicy s h) := by
  unfold State.applyPolicy
  repeat' (first
      | with_reducible assumption | with_reducible apply State.policiesDone_kept
      | with_reducible apply State.toStandby_kept | with_reducible apply State.modCh_kept
      | with_reducible apply State.raise_kept | with_reducible apply foldl_kept | split | dsimp only | intro _
      | (simp (maxDischargeDepth := 9) [*]; done))

/-! ### NetOps -/

@[simp] theorem State.modEg_kept {s : State} (h : Nat) (f : Egress → Egress) {s₀ : State} (hk : s₀.Kept s) :
    s₀.Kept (State.modEg s h f) := by
  unfold State.modEg
  repeat' (first
      | with_reducible assumption | with_reducible apply modNet_kept | split | dsimp only
      | (simp (maxDischargeDepth := 9) [*]; done))

@[simp] theorem State.modNp_kept {s : State} (i : Nat) (f : NetPort → NetPort) {s₀ : State} (hk : s₀.Kept s) :
    s₀.Kept (State.modNp s i f) := by
  unfold State.modNp
  repeat' (first
      | with_reducible assumption | with_reducible apply modNet_kept | split | dsimp only
      | (simp (maxDischargeDepth := 9) [*]; done))

@[simp] theorem State.modShp_kept {s : State} (i : Nat) (f : Shaper → Shaper) {s₀ : State} (hk : s₀.Kept s) :
    s₀.Kept (State.modShp s i f) := by
  unfold State.modShp
  repeat' (first
      | with_reducible assumption | with_reducible apply modNet_kept | split | dsimp only
      | (simp (maxDischargeDepth := 9) [*]; done))

@[simp] theorem State.stampPtp_kept {s : State} (port : Nat) (m : PtpSend) (ref : Int) {s₀ : State} (hk :
    s₀.Kept s) : s₀.Kept (State.stampPtp s port m ref) := by
  unfold State.stampPtp
  repeat' (first
      | with_reducible assumption | with_reducible apply State.modPtp_kept | split | dsimp only
      | (simp (maxDischargeDepth := 9) [*]; done))

@[simp] theorem State.select_kept {s : State} (port : Nat) (n : Nat) {s₀ : State} (hk : s₀.Kept s) : s₀.Kept
    (State.select s port n) := by
  induction n generalizing s with
  | zero => exact hk
  | succ n ih =>
    unfold State.select
    repeat' (first
        | with_reducible assumption | with_reducible apply State.stampPtp_kept
        | with_reducible apply State.modShp_kept | with_reducible apply State.modNp_kept | with_reducible apply ih
        | split | dsimp only | (simp (maxDischargeDepth := 9) [*]; done))

@[simp] theorem State.trySend_kept {s : State} (port : Nat) {s₀ : State} (hk : s₀.Kept s) : s₀.Kept
    (State.trySend s port) := by
  unfold State.trySend
  repeat' (first
      | with_reducible assumption | with_reducible apply State.select_kept | split | dsimp only
      | (simp (maxDischargeDepth := 9) [*]; done))

@[simp] theorem State.sendAll_kept {s : State} {s₀ : State} (hk : s₀.Kept s) : s₀.Kept (State.sendAll s) := by
  unfold State.sendAll
  repeat' (first
      | with_reducible assumption | with_reducible apply State.trySend_kept | with_reducible apply foldl_kept
      | split | dsimp only | intro _ | (simp (maxDischargeDepth := 9) [*]; done))

@[simp] theorem State.enqueueFrame_kept {s : State} (port : Nat) (f : Packet) {s₀ : State} (hk : s₀.Kept s) :
    s₀.Kept (State.enqueueFrame s port f) := by
  unfold State.enqueueFrame
  repeat' (first
      | with_reducible assumption | with_reducible apply State.modNp_kept | with_reducible apply State.modLn_kept
      | split | dsimp only | (simp (maxDischargeDepth := 9) [*]; done))

@[simp] theorem State.toPorts_kept {s : State} (h : Nat) (f : Packet) {s₀ : State} (hk : s₀.Kept s) : s₀.Kept
    (State.toPorts s h f) := by
  unfold State.toPorts
  repeat' (first
      | with_reducible assumption | with_reducible apply State.enqueueFrame_kept | split | dsimp only
      | (simp (maxDischargeDepth := 9) [*]; done))

@[simp] theorem State.leavePacer_kept {s : State} (h : Nat) (f : Packet) {s₀ : State} (hk : s₀.Kept s) : s₀.Kept
    (State.leavePacer s h f) := by
  unfold State.leavePacer
  repeat' (first
      | with_reducible assumption | with_reducible apply State.toPorts_kept | with_reducible apply State.modEg_kept
      | with_reducible apply foldl_kept | split | dsimp only | intro _ | (simp (maxDischargeDepth := 9) [*]; done))

@[simp] theorem State.runPacer_kept {s : State} (h : Nat) (n : Nat) {s₀ : State} (hk : s₀.Kept s) : s₀.Kept
    (State.runPacer s h n) := by
  induction n generalizing s with
  | zero => exact hk
  | succ n ih =>
    unfold State.runPacer
    repeat' (first
        | with_reducible assumption | with_reducible apply State.leavePacer_kept
        | with_reducible apply State.modEg_kept | with_reducible apply ih | split | dsimp only
        | (simp (maxDischargeDepth := 9) [*]; done))

@[simp] theorem State.queuePacket_kept {s : State} (h : Nat) (payload : Parts) (time pic : Nat) (marker last :
    Bool) {s₀ : State} (hk : s₀.Kept s) : s₀.Kept (State.queuePacket s h payload time pic marker last) := by
  unfold State.queuePacket
  repeat' (first
      | with_reducible assumption | with_reducible apply State.modEg_kept | split | dsimp only
      | (simp (maxDischargeDepth := 9) [*]; done))

@[simp] theorem State.tsDatagram_kept {s : State} (h : Nat) {s₀ : State} (hk : s₀.Kept s) : s₀.Kept
    (State.tsDatagram s h) := by
  unfold State.tsDatagram
  repeat' (first
      | with_reducible assumption | with_reducible apply State.queuePacket_kept
      | with_reducible apply State.modEg_kept | split | dsimp only | (simp (maxDischargeDepth := 9) [*]; done))

@[simp] theorem State.pesInto_kept {s : State} (e pid id pts : Nat) (dts : Option Nat) (open_ : Bool) (pic :
    Nat) (b : List Byte) {s₀ : State} (hk : s₀.Kept s) : s₀.Kept (State.pesInto s e pid id pts dts open_ pic b) :=
    by
  unfold State.pesInto
  repeat' (first
      | with_reducible assumption | with_reducible apply State.modEg_kept | split | dsimp only
      | (simp (maxDischargeDepth := 9) [*]; done))

@[simp] theorem State.closeSegment_kept {s : State} (h : Nat) {s₀ : State} (hk : s₀.Kept s) : s₀.Kept
    (State.closeSegment s h) := by
  unfold State.closeSegment
  repeat' (first
      | with_reducible assumption | with_reducible apply State.modEg_kept | split | dsimp only
      | (simp (maxDischargeDepth := 9) [*]; done))

@[simp] theorem State.coverUnit_kept {s : State} (h pic : Nat) (hash : List Byte) (flags started : Nat) {s₀ :
    State} (hk : s₀.Kept s) : s₀.Kept (State.coverUnit s h pic hash flags started) := by
  unfold State.coverUnit
  repeat' (first
      | with_reducible assumption | with_reducible apply State.closeSegment_kept
      | with_reducible apply State.modEg_kept | split | dsimp only | (simp (maxDischargeDepth := 9) [*]; done))

@[simp] theorem State.endStream_kept {s : State} (h : Nat) {s₀ : State} (hk : s₀.Kept s) : s₀.Kept
    (State.endStream s h) := by
  unfold State.endStream
  repeat' (first
      | with_reducible assumption | with_reducible apply State.freeObject_kept | with_reducible apply modNet_kept
      | with_reducible apply modEci_kept | (with_reducible apply Eci.Mail.same; rfl) | split | dsimp only
      | (simp (maxDischargeDepth := 9) [*]; done))

@[simp] theorem State.stopStream_kept {s : State} (h : Nat) {s₀ : State} (hk : s₀.Kept s) : s₀.Kept
    (State.stopStream s h) := by
  unfold State.stopStream
  repeat' (first
      | with_reducible assumption | with_reducible apply State.endStream_kept
      | with_reducible apply State.closeSegment_kept | with_reducible apply State.toPorts_kept
      | with_reducible apply State.modEg_kept | with_reducible apply foldl_kept | split | dsimp only | intro _
      | (simp (maxDischargeDepth := 9) [*]; done))

/-! ### Apply -/

@[simp] theorem State.applyStats_kept {s : State} (h : Nat) (p : List Byte) {s₀ : State} (hk : s₀.Kept s) :
    s₀.Kept (State.applyStats s h p) := by
  unfold State.applyStats
  repeat' (first
      | with_reducible assumption | with_reducible apply State.putRing_kept
      | with_reducible apply State.unmapAt_kept | with_reducible apply modDec_kept | split | dsimp only
      | (simp (maxDischargeDepth := 9) [*]; done))

@[simp] theorem State.applyCheckBind_kept {s : State} (u : Nat) (p : List Byte) (pic : Option Nat) {s₀ : State}
    (hk : s₀.Kept s) : s₀.Kept (State.applyCheckBind s u p pic) := by
  unfold State.applyCheckBind
  repeat' (first
      | with_reducible assumption | with_reducible apply modDec_kept | split | dsimp only
      | (simp (maxDischargeDepth := 9) [*]; done))

@[simp] theorem State.applyLayers_kept {s : State} (h : Nat) (sets : Tab (List Byte)) (removed : List Nat) (pic
    : Option Nat) {s₀ : State} (hk : s₀.Kept s) : s₀.Kept (State.applyLayers s h sets removed pic) := by
  unfold State.applyLayers
  repeat' (first
      | with_reducible assumption | with_reducible apply State.modLayer_kept
      | with_reducible apply State.freeObject_kept | with_reducible apply modComp_kept
      | with_reducible apply foldl_kept | split | dsimp only | intro _ | (simp (maxDischargeDepth := 9) [*]; done))

@[simp] theorem State.applyEgress_kept {s : State} (h : Nat) (p : List Byte) {s₀ : State} (hk : s₀.Kept s) :
    s₀.Kept (State.applyEgress s h p) := by
  unfold State.applyEgress
  repeat' (first
      | with_reducible assumption | with_reducible apply State.modEg_kept | with_reducible apply State.endLpi_kept
      | split | dsimp only | (simp (maxDischargeDepth := 9) [*]; done))

@[simp] theorem State.applyProvenance_kept {s : State} (h : Nat) (p : List Byte) {s₀ : State} (hk : s₀.Kept s) :
    s₀.Kept (State.applyProvenance s h p) := by
  unfold State.applyProvenance
  repeat' (first
      | with_reducible assumption | with_reducible apply State.closeSegment_kept
      | with_reducible apply State.modEg_kept | split | dsimp only | (simp (maxDischargeDepth := 9) [*]; done))

@[simp] theorem State.applyKey_kept {s : State} (h key ext : Nat) (pic : Option Nat) {s₀ : State} (hk : s₀.Kept
    s) : s₀.Kept (State.applyKey s h key ext pic) := by
  unfold State.applyKey
  repeat' (first
      | with_reducible assumption | with_reducible apply State.modEg_kept | with_reducible apply State.raise_kept
      | split | dsimp only | (simp (maxDischargeDepth := 9) [*]; done))

@[simp] theorem State.applyImpair_kept {s : State} (h : Nat) (p : List Byte) {s₀ : State} (hk : s₀.Kept s) :
    s₀.Kept (State.applyImpair s h p) := by
  unfold State.applyImpair
  repeat' (first
      | with_reducible assumption | with_reducible apply State.toPorts_kept | with_reducible apply State.modEg_kept
      | with_reducible apply foldl_kept | split | dsimp only | intro _ | (simp (maxDischargeDepth := 9) [*]; done))

@[simp] theorem State.applySlots_kept {s : State} (i : Nat) (p : List Byte) {s₀ : State} (hk : s₀.Kept s) :
    s₀.Kept (State.applySlots s i p) := by
  unfold State.applySlots
  repeat' (first
      | with_reducible assumption | with_reducible apply State.raise_kept | with_reducible apply modAudio_kept
      | with_reducible apply foldl_kept | split | dsimp only | intro _ | (simp (maxDischargeDepth := 9) [*]; done))

@[simp] theorem State.applySdiOut_kept {s : State} (h : Nat) (p : List Byte) {s₀ : State} (hk : s₀.Kept s) :
    s₀.Kept (State.applySdiOut s h p) := by
  unfold State.applySdiOut
  repeat' (first
      | with_reducible assumption | with_reducible apply modLane_kept | split | dsimp only
      | (simp (maxDischargeDepth := 9) [*]; done))

@[simp] theorem State.applyChange_kept {s : State} (pic : Option Nat) (c : Change) {s₀ : State} (hk : s₀.Kept s)
    : s₀.Kept (s.applyChange pic c) := by
  unfold State.applyChange
  repeat' (first
      | with_reducible assumption | with_reducible apply State.applySdiOut_kept
      | with_reducible apply State.applySlots_kept | with_reducible apply State.applyImpair_kept
      | with_reducible apply State.applyKey_kept | with_reducible apply State.applyProvenance_kept
      | with_reducible apply State.applyEgress_kept | with_reducible apply State.applyLayers_kept
      | with_reducible apply State.applyCheckBind_kept | with_reducible apply State.applyStats_kept
      | with_reducible apply State.stopStream_kept | with_reducible apply State.modShp_kept
      | with_reducible apply State.modNp_kept | with_reducible apply State.idleDecoder_kept
      | with_reducible apply State.applySlotTable_kept | with_reducible apply State.stopChannel_kept
      | with_reducible apply State.startChannel_kept | with_reducible apply State.toChState_kept
      | with_reducible apply State.modProg_kept | with_reducible apply State.beginFreq_kept
      | with_reducible apply State.modCh_kept | with_reducible apply modTime_kept | with_reducible apply modNet_kept
      | with_reducible apply modAudio_kept | with_reducible apply modDec_kept
      | with_reducible apply State.police_kept | refine State.police_kept' (by assumption) ?_
      | (with_reducible apply TimeState.Sound.same <;> rfl) | split | dsimp only
      | (simp (maxDischargeDepth := 9) [*]; done))

@[simp] theorem State.applyStaged_kept {s : State} (pic : Option Nat) (due : Staged → Bool) {s₀ : State} (hk :
    s₀.Kept s) : s₀.Kept (State.applyStaged s pic due) := by
  unfold State.applyStaged
  repeat' (first
      | with_reducible assumption | with_reducible apply State.applyChange_kept | with_reducible apply modEci_kept
      | with_reducible apply foldl_kept | (with_reducible apply Eci.Mail.same; rfl) | split | dsimp only | intro _
      | (simp (maxDischargeDepth := 9) [*]; done))

@[simp] theorem State.noteStaged_kept {s : State} (k : BoundaryKind) (b : Boundary) (seq : Nat) (c : Change) {s₀
    : State} (hk : s₀.Kept s) : s₀.Kept (State.noteStaged s k b seq c) := by
  unfold State.noteStaged
  repeat' (first
      | with_reducible assumption | with_reducible apply State.modNp_kept | with_reducible apply State.modDie_kept
      | with_reducible apply modEci_kept | (with_reducible apply Eci.Mail.same; rfl) | split | dsimp only
      | (simp (maxDischargeDepth := 9) [*]; done))

theorem execStagedSetArrival_kept {s : State} {s₀ : State} (hk : s₀.Kept s) : Out.kept s₀ (execStagedSetArrival s) := by
  unfold execStagedSetArrival
  repeat' (first
      | with_reducible assumption | with_reducible apply State.noteStaged_kept
      | with_reducible apply State.applyChange_kept | with_reducible apply State.complete_kept
      | with_reducible apply wait_kept | with_reducible apply next_kept | with_reducible apply modEci_kept
      | (with_reducible apply Eci.Mail.same; rfl) | split | dsimp only | (simp (maxDischargeDepth := 9) [*]; done))

/-! ### PictureData -/

@[simp] theorem State.retime_kept {s : State} (h n d : Nat) {s₀ : State} (hk : s₀.Kept s) : s₀.Kept
    (State.retime s h n d) := by
  unfold State.retime
  repeat' (first
      | with_reducible assumption | with_reducible apply State.modCh_kept | with_reducible apply State.raise_kept
      | split | dsimp only | (simp (maxDischargeDepth := 9) [*]; done))

@[simp] theorem State.restoreOne_kept {s : State} (h n : Nat) {s₀ : State} (hk : s₀.Kept s) : s₀.Kept
    (State.restoreOne s h n) := by
  unfold State.restoreOne
  repeat' (first
      | with_reducible assumption | with_reducible apply State.retime_kept | with_reducible apply State.modCh_kept
      | with_reducible apply State.raise_kept | split | dsimp only | (simp (maxDischargeDepth := 9) [*]; done))

@[simp] theorem State.restoreInput_kept {s : State} (h n : Nat) {s₀ : State} (hk : s₀.Kept s) : s₀.Kept
    (State.restoreInput s h n) := by
  unfold State.restoreInput
  repeat' (first
      | with_reducible assumption | with_reducible apply State.restoreOne_kept
      | with_reducible apply State.modCh_kept | with_reducible apply foldl_kept | split | dsimp only | intro _
      | (simp (maxDischargeDepth := 9) [*]; done))

@[simp] theorem State.enterSlate_kept {s : State} (h n : Nat) {s₀ : State} (hk : s₀.Kept s) : s₀.Kept
    (State.enterSlate s h n) := by
  unfold State.enterSlate
  repeat' (first
      | with_reducible assumption | with_reducible apply State.modCh_kept | with_reducible apply State.raise_kept
      | split | dsimp only | (simp (maxDischargeDepth := 9) [*]; done))

@[simp] theorem State.goOn_kept {s : State} (h : Nat) {s₀ : State} (hk : s₀.Kept s) : s₀.Kept (State.goOn s h) := by
  unfold State.goOn
  repeat' (first
      | with_reducible assumption | with_reducible apply State.rateBegin_kept
      | with_reducible apply State.beginRows_kept | with_reducible apply foldl_kept | split | dsimp only | intro _
      | (simp (maxDischargeDepth := 9) [*]; done))

@[simp] theorem State.loseInput_kept {s : State} (h n : Nat) {s₀ : State} (hk : s₀.Kept s) : s₀.Kept
    (State.loseInput s h n) := by
  unfold State.loseInput
  repeat' (first
      | with_reducible assumption | with_reducible apply State.goOn_kept | with_reducible apply State.modCh_kept
      | with_reducible apply State.raise_kept | split | dsimp only | (simp (maxDischargeDepth := 9) [*]; done))

@[simp] theorem State.hubPicture_kept {s : State} (h : Nat) {s₀ : State} (hk : s₀.Kept s) : s₀.Kept
    (State.hubPicture s h) := by
  unfold State.hubPicture
  repeat' (first
      | with_reducible assumption | with_reducible apply State.beginPicture_kept
      | with_reducible apply State.modCh_kept | split | dsimp only | (simp (maxDischargeDepth := 9) [*]; done))

@[simp] theorem State.beginNext_kept {s : State} (h : Nat) {s₀ : State} (hk : s₀.Kept s) : s₀.Kept
    (State.beginNext s h) := by
  unfold State.beginNext
  lift_lets
  intro s1 c n slot led back s2 slate s3 c2 o cond blank kind lost missing s4 first cause s5
  have h1 : s₀.Kept s1 := State.applyPolicy_kept _ hk
  clear_value s1
  split
  · exact State.hubPicture_kept _ h1
  · have h2 : s₀.Kept s2 := by
      dsimp only [s2]; split
      · exact State.restoreInput_kept _ _ h1
      · exact h1
    clear_value s2
    have h3 : s₀.Kept s3 := by
      dsimp only [s3]; split
      · refine foldl_kept (fun s x hs => ?_) (State.enterSlate_kept _ _ h2)
        split
        · exact State.enterSlate_kept _ _ hs
        · exact hs
      · exact h2
    clear_value s3
    have h5 : s₀.Kept s5 := State.beginPicture_kept _ _ _ (State.modCh_kept _ _ h3)
    clear_value s5
    split
    · exact State.modCh_kept _ _ h5
    · exact h5

@[simp] theorem State.applyAt_kept {s : State} (h n : Nat) {s₀ : State} (hk : s₀.Kept s) : s₀.Kept
    (State.applyAt s h n) := by
  unfold State.applyAt
  repeat' (first
      | with_reducible assumption | with_reducible apply State.applyStaged_kept | split | dsimp only
      | (simp (maxDischargeDepth := 9) [*]; done))

theorem execPictureBoundary_kept (chan : BitVec 32) {s : State} {s₀ : State} (hk : s₀.Kept s) : Out.kept s₀
    (execPictureBoundary chan s) := by
  unfold execPictureBoundary
  repeat' (first
      | with_reducible assumption | with_reducible apply State.applyAt_kept
      | with_reducible apply State.beginNext_kept | with_reducible apply State.goOn_kept
      | with_reducible apply State.policiesSettled_kept | with_reducible apply State.swapSpares_kept
      | with_reducible apply next_kept | with_reducible apply foldl_kept | split | dsimp only | intro _
      | (simp (maxDischargeDepth := 9) [*]; done))

@[simp] theorem State.endPipe3_kept {s : State} (d : Nat) {s₀ : State} (hk : s₀.Kept s) : s₀.Kept
    (State.endPipe3 s d) := by
  unfold State.endPipe3
  repeat' (first
      | with_reducible assumption | with_reducible apply State.applyChange_kept
      | with_reducible apply State.completeRunning_kept | with_reducible apply modChan_kept | split | dsimp only
      | (simp (maxDischargeDepth := 9) [*]; done))

@[simp] theorem State.takeTurn_kept {s : State} (d : Nat) (e : Eligible) {s₀ : State} (hk : s₀.Kept s) : s₀.Kept
    (State.takeTurn s d e) := by
  unfold State.takeTurn
  repeat' (first
      | with_reducible assumption | with_reducible apply State.applyAt_kept
      | with_reducible apply State.beginNext_kept | with_reducible apply State.startChannel_kept
      | with_reducible apply State.modCh_kept | with_reducible apply modChan_kept | split | dsimp only
      | (simp (maxDischargeDepth := 9) [*]; done))

theorem execPipe3PictureBoundary_kept (die : DieNo) {s : State} {s₀ : State} (hk : s₀.Kept s) : Out.kept s₀
    (execPipe3PictureBoundary die s) := by
  unfold execPipe3PictureBoundary
  repeat' (first
      | with_reducible assumption | with_reducible apply State.takeTurn_kept
      | with_reducible apply State.endPipe3_kept | with_reducible apply State.policiesSettled_kept
      | with_reducible apply State.swapSpares_kept | with_reducible apply next_kept | split | dsimp only
      | (simp (maxDischargeDepth := 9) [*]; done))

theorem execSourcePictureMissing_kept (chan : BitVec 32) {s : State} {s₀ : State} (hk : s₀.Kept s) : Out.kept s₀
    (execSourcePictureMissing chan s) := by
  unfold execSourcePictureMissing
  repeat' (first
      | with_reducible assumption | with_reducible apply State.loseInput_kept
      | with_reducible apply State.enterEligible_kept | with_reducible apply State.modCh_kept
      | with_reducible apply next_kept | with_reducible apply foldl_kept | split | dsimp only | intro _
      | (simp (maxDischargeDepth := 9) [*]; done))

/-! ### SourceData -/

@[simp] theorem State.poolReturn_kept {s : State} (h : Nat) {s₀ : State} (hk : s₀.Kept s) : s₀.Kept
    (State.poolReturn s h) := by
  unfold State.poolReturn
  repeat' (first
      | with_reducible assumption | with_reducible apply State.restoreInput_kept | split | dsimp only
      | (simp (maxDischargeDepth := 9) [*]; done))

@[simp] theorem State.takeRow_kept {s : State} (h row m : Nat) (d : SourceRow) {s₀ : State} (hk : s₀.Kept s) :
    s₀.Kept (State.takeRow s h row m d) := by
  unfold State.takeRow
  repeat' (first
      | with_reducible assumption | with_reducible apply State.poolReturn_kept
      | with_reducible apply State.goOn_kept | with_reducible apply State.rowArrives_kept | split | dsimp only
      | (simp (maxDischargeDepth := 9) [*]; done))

@[simp] theorem State.keepFed_kept {s : State} (h k : Nat) (f : Frame) {s₀ : State} (hk : s₀.Kept s) : s₀.Kept
    (State.keepFed s h k f) := by
  unfold State.keepFed
  repeat' (first
      | with_reducible assumption | with_reducible apply State.feed_kept | with_reducible apply State.modCh_kept
      | with_reducible apply next_kept | split | dsimp only | (simp (maxDischargeDepth := 9) [*]; done))

@[simp] theorem State.watchRow_kept {s : State} (h k m : Nat) (d : SourceRow) {s₀ : State} (hk : s₀.Kept s) :
    s₀.Kept (State.watchRow s h k m d) := by
  unfold State.watchRow
  repeat' (first
      | with_reducible assumption | with_reducible apply State.modCh_kept | split | dsimp only
      | (simp (maxDischargeDepth := 9) [*]; done))

/-! ### AnalysisData -/

@[simp] theorem State.applyScene_kept {s : State} (h n cause pct : Nat) {s₀ : State} (hk : s₀.Kept s) : s₀.Kept
    (State.applyScene s h n cause pct) := by
  unfold State.applyScene
  repeat' (first
      | with_reducible assumption | with_reducible apply State.sceneChange_kept
      | with_reducible apply State.modCh_kept | split | dsimp only | (simp (maxDischargeDepth := 9) [*]; done))

@[simp] theorem State.dropFlag_kept {s : State} (h n : Nat) (found : Option (Nat × Nat)) {s₀ : State} (hk :
    s₀.Kept s) : s₀.Kept (State.dropFlag s h n found) := by
  unfold State.dropFlag
  repeat' (first
      | with_reducible assumption | with_reducible apply State.applyScene_kept
      | with_reducible apply State.postRow_kept | with_reducible apply State.modCh_kept | split | dsimp only
      | (simp (maxDischargeDepth := 9) [*]; done))

@[simp] theorem State.decideScene_kept {s : State} (h n : Nat) {s₀ : State} (hk : s₀.Kept s) : s₀.Kept
    (State.decideScene s h n) := by
  unfold State.decideScene
  repeat' (first
      | with_reducible assumption | with_reducible apply State.dropFlag_kept | split | dsimp only
      | (simp (maxDischargeDepth := 9) [*]; done))

@[simp] theorem State.passFlag_kept {s : State} (h : Nat) (q : Pic) {s₀ : State} (hk : s₀.Kept s) : s₀.Kept
    (State.passFlag s h q) := by
  unfold State.passFlag
  repeat' (first
      | with_reducible assumption | with_reducible apply State.decideScene_kept | with_reducible apply foldl_kept
      | split | dsimp only | intro _ | (simp (maxDischargeDepth := 9) [*]; done))

@[simp] theorem State.passGm_kept {s : State} (h capture : Nat) (g : List Int) (kept : Nat) {s₀ : State} (hk :
    s₀.Kept s) : s₀.Kept (State.passGm s h capture g kept) := by
  unfold State.passGm
  repeat' (first
      | with_reducible assumption | with_reducible apply State.modCh_kept | with_reducible apply foldl_kept | split
      | dsimp only | intro _ | (simp (maxDischargeDepth := 9) [*]; done))

@[simp] theorem State.fitMotion_kept {s : State} (h n : Nat) {s₀ : State} (hk : s₀.Kept s) : s₀.Kept
    (State.fitMotion s h n) := by
  unfold State.fitMotion
  repeat' (first
      | with_reducible assumption | with_reducible apply State.passGm_kept | with_reducible apply State.cross_kept
      | with_reducible apply State.modCh_kept | with_reducible apply done_kept | split | dsimp only
      | (simp (maxDischargeDepth := 9) [*]; done))

@[simp] theorem State.watchedRow_kept {s : State} (h k : Nat) {s₀ : State} (hk : s₀.Kept s) : s₀.Kept
    (State.watchedRow s h k) := by
  unfold State.watchedRow
  repeat' (first
      | with_reducible assumption | with_reducible apply State.passGm_kept
      | with_reducible apply State.passFlag_kept | with_reducible apply State.modCh_kept | split | dsimp only
      | (simp (maxDischargeDepth := 9) [*]; done))

@[simp] theorem State.weltEvents_kept {s : State} (h n : Nat) {s₀ : State} (hk : s₀.Kept s) : s₀.Kept
    (State.weltEvents s h n) := by
  unfold State.weltEvents
  repeat' (first
      | with_reducible assumption | with_reducible apply State.raise_kept | with_reducible apply foldl_kept | split
      | dsimp only | intro _ | (simp (maxDischargeDepth := 9) [*]; done))

@[simp] theorem State.rowMeasured_kept {s : State} (h n k : Nat) {s₀ : State} (hk : s₀.Kept s) : s₀.Kept
    (State.rowMeasured s h n k) := by
  unfold State.rowMeasured
  repeat' (first
      | with_reducible assumption | with_reducible apply State.weltEvents_kept
      | with_reducible apply State.checkFrame_kept | with_reducible apply State.postRow_kept
      | with_reducible apply State.modCh_kept | split | dsimp only | (simp (maxDischargeDepth := 9) [*]; done))

@[simp] theorem State.searchDone_kept {s : State} (h n k half : Nat) {s₀ : State} (hk : s₀.Kept s) : s₀.Kept
    (State.searchDone s h n k half) := by
  unfold State.searchDone
  repeat' (first
      | with_reducible assumption | with_reducible apply State.fitMotion_kept
      | with_reducible apply State.cross_kept | with_reducible apply State.modCh_kept | split | dsimp only
      | (simp (maxDischargeDepth := 9) [*]; done))

@[simp] theorem State.searches_kept {s : State} (h : Nat) {s₀ : State} (hk : s₀.Kept s) : s₀.Kept
    (State.searches s h) := by
  unfold State.searches
  repeat' (first
      | with_reducible assumption | with_reducible apply State.searchDone_kept | with_reducible apply foldl_kept
      | split | dsimp only | intro _ | (simp (maxDischargeDepth := 9) [*]; done))

@[simp] theorem State.proceedOne_kept {s : State} (h : Nat) {s₀ : State} (hk : s₀.Kept s) : s₀.Kept
    (State.proceedOne s h) := by
  unfold State.proceedOne
  repeat' (first
      | with_reducible assumption | with_reducible apply State.searches_kept | with_reducible apply State.goOn_kept
      | with_reducible apply State.advance_kept | split | dsimp only | (simp (maxDischargeDepth := 9) [*]; done))

@[simp] theorem State.proceed_kept {s : State} (h : Nat) {s₀ : State} (hk : s₀.Kept s) : s₀.Kept (State.proceed
    s h) := by
  unfold State.proceed
  repeat' (first
      | with_reducible assumption | with_reducible apply State.proceedOne_kept | with_reducible apply foldl_kept
      | split | dsimp only | intro _ | (simp (maxDischargeDepth := 9) [*]; done))

@[simp] theorem State.countScene_kept {s : State} (h n half gen : Nat) {s₀ : State} (hk : s₀.Kept s) : s₀.Kept
    (State.countScene s h n half gen) := by
  unfold State.countScene
  repeat' (first
      | with_reducible assumption | with_reducible apply State.decideScene_kept
      | with_reducible apply State.cross_kept | with_reducible apply State.modCh_kept | split | dsimp only
      | (simp (maxDischargeDepth := 9) [*]; done))

@[simp] theorem State.ownField_kept {s : State} (h n k : Nat) {s₀ : State} (hk : s₀.Kept s) : s₀.Kept
    (State.ownField s h n k) := by
  unfold State.ownField
  repeat' (first
      | with_reducible assumption | with_reducible apply State.passGm_kept | with_reducible apply State.modCh_kept
      | split | dsimp only | (simp (maxDischargeDepth := 9) [*]; done))

theorem execAnalysisRowDone_kept (chan : BitVec 32) (pic : BitVec 64) (row : BitVec 8) (odd : Bool) {s : State}
    {s₀ : State} (hk : s₀.Kept s) : Out.kept s₀ (execAnalysisRowDone chan pic row odd s) := by
  unfold execAnalysisRowDone
  repeat' (first
      | with_reducible assumption | with_reducible apply State.ownField_kept
      | with_reducible apply State.countScene_kept | with_reducible apply State.proceed_kept
      | with_reducible apply State.rowMeasured_kept | with_reducible apply State.passFlag_kept
      | with_reducible apply State.cross_kept | with_reducible apply State.modCh_kept
      | with_reducible apply next_kept | split | dsimp only | (simp (maxDischargeDepth := 9) [*]; done))

/-! ### AudioData -/

@[simp] theorem State.modAp_kept {s : State} (i : Nat) (f : AudioPort → AudioPort) {s₀ : State} (hk : s₀.Kept s)
    : s₀.Kept (State.modAp s i f) := by
  unfold State.modAp
  repeat' (first
      | with_reducible assumption | with_reducible apply modAudio_kept | split | dsimp only
      | (simp (maxDischargeDepth := 9) [*]; done))

@[simp] theorem State.portEvent_kept {s : State} (i kind : Nat) {s₀ : State} (hk : s₀.Kept s) : s₀.Kept
    (State.portEvent s i kind) := by
  unfold State.portEvent
  repeat' (first
      | with_reducible assumption | with_reducible apply State.modAp_kept | with_reducible apply State.raise_kept
      | split | dsimp only | (simp (maxDischargeDepth := 9) [*]; done))

@[simp] theorem State.frameBoundary_kept {s : State} (i : Nat) {s₀ : State} (hk : s₀.Kept s) : s₀.Kept
    (State.frameBoundary s i) := by
  unfold State.frameBoundary
  repeat' (first
      | with_reducible assumption | with_reducible apply State.modAp_kept
      | with_reducible apply State.applyStaged_kept | with_reducible apply State.applySlots_kept | split
      | dsimp only | (simp (maxDischargeDepth := 9) [*]; done))

theorem execAudioFsyncEdge_kept (port : Fin 8) (goodLength : Bool) {s : State} {s₀ : State} (hk : s₀.Kept s) :
    Out.kept s₀ (execAudioFsyncEdge port goodLength s) := by
  unfold execAudioFsyncEdge
  repeat' (first
      | with_reducible assumption | with_reducible apply State.frameBoundary_kept
      | with_reducible apply State.portEvent_kept | with_reducible apply State.modAp_kept
      | with_reducible apply next_kept | split | dsimp only | (simp (maxDischargeDepth := 9) [*]; done))

theorem execAudioClockLoss_kept (port : Fin 8) {s : State} {s₀ : State} (hk : s₀.Kept s) : Out.kept s₀
    (execAudioClockLoss port s) := by
  unfold execAudioClockLoss
  repeat' (first
      | with_reducible assumption | with_reducible apply State.portEvent_kept | with_reducible apply next_kept
      | with_reducible apply modAudio_kept | split | dsimp only | (simp (maxDischargeDepth := 9) [*]; done))

@[simp] theorem State.fixTe_kept {s : State} (h n : Nat) {s₀ : State} (hk : s₀.Kept s) : s₀.Kept (State.fixTe s
    h n) := by
  unfold State.fixTe
  repeat' (first
      | with_reducible assumption | with_reducible apply modAudio_kept | split | dsimp only
      | (simp (maxDischargeDepth := 9) [*]; done))

@[simp] theorem State.unlockAsrc_kept {s : State} (a : Nat) {s₀ : State} (hk : s₀.Kept s) : s₀.Kept
    (State.unlockAsrc s a) := by
  unfold State.unlockAsrc
  repeat' (first
      | with_reducible assumption | with_reducible apply State.raise_kept | with_reducible apply modAudio_kept
      | split | dsimp only | (simp (maxDischargeDepth := 9) [*]; done))

@[simp] theorem State.reportOverrun_kept {s : State} (h : Nat) {s₀ : State} (hk : s₀.Kept s) : s₀.Kept
    (State.reportOverrun s h) := by
  unfold State.reportOverrun
  repeat' (first
      | with_reducible assumption | with_reducible apply State.modProg_kept | with_reducible apply State.raise_kept
      | split | dsimp only | (simp (maxDischargeDepth := 9) [*]; done))

theorem execAudioSampleArrival_kept (prog : BitVec 32) (samples : AudioSamples) {s : State} {s₀ : State} (hk :
    s₀.Kept s) : Out.kept s₀ (execAudioSampleArrival prog samples s) := by
  unfold execAudioSampleArrival
  repeat' (first
      | with_reducible assumption | with_reducible apply State.reportOverrun_kept
      | with_reducible apply State.unlockAsrc_kept | with_reducible apply State.fixTe_kept
      | with_reducible apply State.modProg_kept | with_reducible apply next_kept | with_reducible apply foldl_kept
      | split | dsimp only | intro _ | (simp (maxDischargeDepth := 9) [*]; done))

@[simp] theorem State.deliverChans_kept {s : State} (h : Nat) {s₀ : State} (hk : s₀.Kept s) : s₀.Kept
    (State.deliverChans s h) := by
  unfold State.deliverChans
  repeat' (first
      | with_reducible assumption | with_reducible apply State.modProg_kept | with_reducible apply State.raise_kept
      | with_reducible apply next_kept | with_reducible apply modAudio_kept | with_reducible apply foldl_kept
      | split | dsimp only | intro _ | (simp (maxDischargeDepth := 9) [*]; done))

@[simp] theorem State.beginPacket_kept {s : State} (h k : Nat) {s₀ : State} (hk : s₀.Kept s) : s₀.Kept
    (State.beginPacket s h k) := by
  unfold State.beginPacket
  repeat' (first
      | with_reducible assumption | with_reducible apply State.applyStaged_kept
      | with_reducible apply State.modEg_kept | split | dsimp only | (simp (maxDischargeDepth := 9) [*]; done))

@[simp] theorem State.endPacket_kept {s : State} (h k : Nat) {s₀ : State} (hk : s₀.Kept s) : s₀.Kept
    (State.endPacket s h k) := by
  unfold State.endPacket
  repeat' (first
      | with_reducible assumption | with_reducible apply State.queuePacket_kept
      | with_reducible apply State.runPacer_kept | split | dsimp only | (simp (maxDischargeDepth := 9) [*]; done))

@[simp] theorem State.pesOut_kept {s : State} (h k : Nat) (b : List Byte) {s₀ : State} (hk : s₀.Kept s) :
    s₀.Kept (State.pesOut s h k b) := by
  unfold State.pesOut
  repeat' (first
      | with_reducible assumption | with_reducible apply State.pesInto_kept | with_reducible apply foldl_kept
      | split | dsimp only | intro _ | (simp (maxDischargeDepth := 9) [*]; done))

@[simp] theorem State.silentAu_kept {s : State} (h : Nat) {s₀ : State} (hk : s₀.Kept s) : s₀.Kept
    (State.silentAu s h) := by
  unfold State.silentAu
  repeat' (first
      | with_reducible assumption | with_reducible apply State.pesOut_kept | with_reducible apply State.modProg_kept
      | with_reducible apply next_kept | split | dsimp only | (simp (maxDischargeDepth := 9) [*]; done))

@[simp] theorem State.noteOwed_kept {s : State} (h : Nat) {s₀ : State} (hk : s₀.Kept s) : s₀.Kept
    (State.noteOwed s h) := by
  unfold State.noteOwed
  repeat' (first
      | with_reducible assumption | with_reducible apply next_kept | with_reducible apply modAudio_kept | split
      | dsimp only | (simp (maxDischargeDepth := 9) [*]; done))

@[simp] theorem State.embedOut_kept {s : State} (h : Nat) {s₀ : State} (hk : s₀.Kept s) : s₀.Kept
    (State.embedOut s h) := by
  unfold State.embedOut
  repeat' (first
      | with_reducible assumption | with_reducible apply modAudio_kept | with_reducible apply foldl_kept | split
      | dsimp only | intro _ | (simp (maxDischargeDepth := 9) [*]; done))

theorem execAudioPositionDelivery_kept (prog : BitVec 32) {s : State} {s₀ : State} (hk : s₀.Kept s) : Out.kept
    s₀ (execAudioPositionDelivery prog s) := by
  unfold execAudioPositionDelivery
  repeat' (first
      | with_reducible assumption | with_reducible apply State.embedOut_kept
      | with_reducible apply State.noteOwed_kept | with_reducible apply State.silentAu_kept
      | with_reducible apply State.pesOut_kept | with_reducible apply State.endPacket_kept
      | with_reducible apply State.beginPacket_kept | with_reducible apply State.deliverChans_kept
      | with_reducible apply State.applyStaged_kept | with_reducible apply State.sendAll_kept
      | with_reducible apply next_kept | with_reducible apply foldl_kept | split | dsimp only | intro _
      | (simp (maxDischargeDepth := 9) [*]; done))

@[simp] theorem State.classChanged_kept {s : State} (h : Nat) (c : Option Nat) (offset : Int) {s₀ : State} (hk :
    s₀.Kept s) : s₀.Kept (State.classChanged s h c offset) := by
  unfold State.classChanged
  repeat' (first
      | with_reducible assumption | with_reducible apply State.unlockAsrc_kept
      | with_reducible apply State.raise_kept | with_reducible apply modAudio_kept | with_reducible apply foldl_kept
      | split | dsimp only | intro _ | (simp (maxDischargeDepth := 9) [*]; done))

theorem execRateWindowEnd_kept (source : BitVec 32) (microHz : BitVec 64) (samples : BitVec 32) {s : State} {s₀
    : State} (hk : s₀.Kept s) : Out.kept s₀ (execRateWindowEnd source microHz samples s) := by
  unfold execRateWindowEnd
  repeat' (first
      | with_reducible assumption | with_reducible apply State.classChanged_kept | with_reducible apply next_kept
      | with_reducible apply modAudio_kept | split | dsimp only | (simp (maxDischargeDepth := 9) [*]; done))

theorem execAsrcLock_kept (asrc : Fin 64) (ratio : BitVec 64) {s : State} {s₀ : State} (hk : s₀.Kept s) :
    Out.kept s₀ (execAsrcLock asrc ratio s) := by
  unfold execAsrcLock
  repeat' (first
      | with_reducible assumption | with_reducible apply State.fresh_kept | with_reducible apply State.raise_kept
      | with_reducible apply next_kept | with_reducible apply modAudio_kept | split | dsimp only
      | (simp (maxDischargeDepth := 9) [*]; done))

theorem execAacAuDone_kept (prog : BitVec 32) (data : List Byte) {s : State} {s₀ : State} (hk : s₀.Kept s) :
    Out.kept s₀ (execAacAuDone prog data s) := by
  unfold execAacAuDone
  repeat' (first
      | with_reducible assumption | with_reducible apply State.pesOut_kept | with_reducible apply State.modProg_kept
      | with_reducible apply next_kept | with_reducible apply modAudio_kept | split | dsimp only
      | (simp (maxDischargeDepth := 9) [*]; done))

theorem execDspWatchdog_kept (dsp : Fin 4) {s : State} {s₀ : State} (hk : s₀.Kept s) : Out.kept s₀
    (execDspWatchdog dsp s) := by
  unfold execDspWatchdog
  repeat' (first
      | with_reducible assumption | with_reducible apply State.raise_kept | with_reducible apply next_kept
      | with_reducible apply modAudio_kept | with_reducible apply foldl_kept | split | dsimp only | intro _
      | (simp (maxDischargeDepth := 9) [*]; done))

theorem execDspRestartDone_kept (dsp : Fin 4) {s : State} {s₀ : State} (hk : s₀.Kept s) : Out.kept s₀
    (execDspRestartDone dsp s) := by
  unfold execDspRestartDone
  repeat' (first
      | with_reducible assumption | with_reducible apply State.unitReset_kept | with_reducible apply next_kept
      | with_reducible apply modAudio_kept | split | dsimp only | (simp (maxDischargeDepth := 9) [*]; done))

/-! ### DecodeOut -/

@[simp] theorem State.showPicture_kept {s : State} (h : Nat) (d : Decoder) (o : Shown) {s₀ : State} (hk :
    s₀.Kept s) : s₀.Kept (State.showPicture s h d o) := by
  unfold State.showPicture
  repeat' (first
      | with_reducible assumption | with_reducible apply State.checkFrame_kept
      | with_reducible apply State.bufStore_kept | with_reducible apply modLane_kept
      | with_reducible apply foldl_kept | split | dsimp only | intro _ | (simp (maxDischargeDepth := 9) [*]; done))

@[simp] theorem State.showPictures_kept {s : State} (h : Nat) {s₀ : State} (hk : s₀.Kept s) : s₀.Kept
    (State.showPictures s h) := by
  unfold State.showPictures
  repeat' (first
      | with_reducible assumption | with_reducible apply State.showPicture_kept
      | with_reducible apply State.modDecoder_kept | with_reducible apply foldl_kept | split | dsimp only | intro _
      | (simp (maxDischargeDepth := 9) [*]; done))

theorem specDecodeReturn_kept (k : Cmd) {s s₀ : State} (hk : s₀.Kept s) : Answer.kept s₀ (specDecodeReturn.run k
    s) := by
  simp only [specDecodeReturn]
  repeat' (first
      | with_reducible assumption | with_reducible apply State.showPictures_kept
      | with_reducible apply State.modDecoder_kept | with_reducible apply ok_kept | with_reducible apply foldl_kept
      | with_reducible apply checked_kept | split | dsimp only | intro _
      | (simp (maxDischargeDepth := 9) [*]; done))

theorem execDecodeReturn_kept (c : Submission) {s : State} {s₀ : State} (hk : s₀.Kept s) : Out.kept s₀
    (execDecodeReturn c s) := runEci_kept _ _ specDecodeReturn_kept hk

/-! ### DecodeData -/

@[simp] theorem State.discardAu_kept {s : State} (h kind : Nat) {s₀ : State} (hk : s₀.Kept s) : s₀.Kept
    (State.discardAu s h kind) := by
  unfold State.discardAu
  repeat' (first
      | with_reducible assumption | with_reducible apply State.modDecoder_kept
      | with_reducible apply State.raise_kept | split | dsimp only | (simp (maxDischargeDepth := 9) [*]; done))

theorem execDecoderAuArrival_kept (chan : BitVec 32) (au : ArrivedAu) {s : State} {s₀ : State} (hk : s₀.Kept s)
    : Out.kept s₀ (execDecoderAuArrival chan au s) := by
  unfold execDecoderAuArrival
  repeat' (first
      | with_reducible assumption | with_reducible apply State.discardAu_kept
      | with_reducible apply State.modDecoder_kept | with_reducible apply Answer.fits_kept
      | with_reducible apply next_kept | split | dsimp only | (simp (maxDischargeDepth := 9) [*]; done))

@[simp] theorem State.concealEvents_kept {s : State} (h n : Nat) (dpb : List DpbPic) (missing : List Int) (flags
    : Nat) {s₀ : State} (hk : s₀.Kept s) : s₀.Kept (State.concealEvents s h n dpb missing flags) := by
  unfold State.concealEvents
  repeat' (first
      | with_reducible assumption | with_reducible apply State.raise_kept | with_reducible apply foldl_kept | split
      | dsimp only | intro _ | (simp (maxDischargeDepth := 9) [*]; done))

@[simp] theorem State.nonconform_kept {s : State} (h n flags : Nat) {s₀ : State} (hk : s₀.Kept s) : s₀.Kept
    (State.nonconform s h n flags) := by
  unfold State.nonconform
  repeat' (first
      | with_reducible assumption | with_reducible apply State.modDecoder_kept
      | with_reducible apply State.raise_kept | with_reducible apply foldl_kept | split | dsimp only | intro _
      | (simp (maxDischargeDepth := 9) [*]; done))

theorem execDecodePictureDone_kept (chan : BitVec 32) (p : DecodedPicture) {s : State} {s₀ : State} (hk :
    s₀.Kept s) : Out.kept s₀ (execDecodePictureDone chan p s) := by
  unfold execDecodePictureDone
  repeat' (first
      | with_reducible assumption | with_reducible apply State.nonconform_kept
      | with_reducible apply State.concealEvents_kept | with_reducible apply State.showPictures_kept
      | with_reducible apply State.applyStaged_kept | with_reducible apply State.toChState_kept
      | with_reducible apply State.modDecoder_kept | with_reducible apply State.offerRing_kept
      | with_reducible apply next_kept | split | dsimp only | (simp (maxDischargeDepth := 9) [*]; done))

theorem execCheckValueComplete_kept (unit : BitVec 32) (pic : BitVec 64) (value : BitVec 64) {s : State} {s₀ :
    State} (hk : s₀.Kept s) : Out.kept s₀ (execCheckValueComplete unit pic value s) := by
  unfold execCheckValueComplete
  repeat' (first
      | with_reducible assumption | with_reducible apply State.stale_kept | with_reducible apply State.raise_kept
      | with_reducible apply next_kept | with_reducible apply modDec_kept | with_reducible apply foldl_kept
      | with_reducible apply checked_kept | split | dsimp only | intro _
      | (simp (maxDischargeDepth := 9) [*]; done))

theorem execSdiOutPictureBoundary_kept (lane : Fin 8) {s : State} {s₀ : State} (hk : s₀.Kept s) : Out.kept s₀
    (execSdiOutPictureBoundary lane s) := by
  unfold execSdiOutPictureBoundary
  repeat' (first
      | with_reducible assumption | with_reducible apply State.applyStaged_kept | with_reducible apply next_kept
      | with_reducible apply modLane_kept | split | dsimp only | (simp (maxDischargeDepth := 9) [*]; done))

/-! ### Sessions -/

@[simp] theorem State.modSession_kept {s : State} (n : Nat) (f : Session → Session) {s₀ : State} (hk : s₀.Kept
    s) : s₀.Kept (State.modSession s n f) := by
  unfold State.modSession
  repeat' (first
      | with_reducible assumption | with_reducible apply modEci_kept | (with_reducible apply Eci.Mail.same; rfl)
      | split | dsimp only | (simp (maxDischargeDepth := 9) [*]; done))

@[simp] theorem State.rejectSession_kept {s : State} (n code : Nat) {s₀ : State} (hk : s₀.Kept s) : s₀.Kept
    (State.rejectSession s n code) := by
  unfold State.rejectSession
  repeat' (first
      | with_reducible assumption | with_reducible apply State.raise_kept | with_reducible apply modEci_kept
      | (with_reducible apply Eci.Mail.same; rfl) | split | dsimp only | (simp (maxDischargeDepth := 9) [*]; done))

theorem execSessionConnect_kept (conn : Fin 5) (port : BitVec 16) {s : State} {s₀ : State} (hk : s₀.Kept s) :
    Out.kept s₀ (execSessionConnect conn port s) := by
  unfold execSessionConnect
  repeat' (first
      | with_reducible assumption | with_reducible apply State.rejectSession_kept
      | with_reducible apply State.raise_kept | with_reducible apply next_kept | with_reducible apply modEci_kept
      | (with_reducible apply Eci.Mail.same; rfl) | split | dsimp only | (simp (maxDischargeDepth := 9) [*]; done))

theorem execHandshakeH1_kept (conn : Fin 5) (frame : List (BitVec 8)) {s : State} {s₀ : State} (hk : s₀.Kept s)
    : Out.kept s₀ (execHandshakeH1 conn frame s) := by
  unfold execHandshakeH1
  repeat' (first
      | with_reducible assumption | with_reducible apply State.rejectSession_kept
      | with_reducible apply State.modSession_kept | with_reducible apply next_kept
      | with_reducible apply useFree_kept | split | dsimp only | (simp (maxDischargeDepth := 9) [*]; done))

theorem execHandshakeH3_kept (conn : Fin 5) (frame : List (BitVec 8)) {s : State} {s₀ : State} (hk : s₀.Kept s)
    : Out.kept s₀ (execHandshakeH3 conn frame s) := by
  unfold execHandshakeH3
  repeat' (first
      | with_reducible assumption | with_reducible apply State.rejectSession_kept
      | with_reducible apply State.modSession_kept | with_reducible apply next_kept | split | dsimp only
      | (simp (maxDischargeDepth := 9) [*]; done))

theorem execHandshakeTimeout_kept (conn : Fin 5) {s : State} {s₀ : State} (hk : s₀.Kept s) : Out.kept s₀
    (execHandshakeTimeout conn s) := by
  unfold execHandshakeTimeout
  repeat' (first
      | with_reducible assumption | with_reducible apply State.rejectSession_kept | with_reducible apply next_kept
      | split | dsimp only | (simp (maxDischargeDepth := 9) [*]; done))

theorem execConnectionLockoutEnd_kept {s : State} {s₀ : State} (hk : s₀.Kept s) : Out.kept s₀
    (execConnectionLockoutEnd s) := by
  unfold execConnectionLockoutEnd
  repeat' (first
      | with_reducible assumption | with_reducible apply next_kept | with_reducible apply modEci_kept
      | (with_reducible apply Eci.Mail.same; rfl) | split | dsimp only | (simp (maxDischargeDepth := 9) [*]; done))

@[simp] theorem State.takeSubmit_kept {s : State} (n : Nat) (e : List Byte) {s₀ : State} (hk : s₀.Kept s) :
    s₀.Kept (State.takeSubmit s n e) := by
  unfold State.takeSubmit
  repeat' (first
      | with_reducible assumption | with_reducible apply State.hint_kept | with_reducible apply State.complete_kept
      | with_reducible apply modEci_kept | (with_reducible apply Eci.Mail.same; rfl) | split | dsimp only
      | (simp (maxDischargeDepth := 9) [*]; done))

@[simp] theorem State.takePayload_kept {s : State} (n : Nat) (b : List Byte) {s₀ : State} (hk : s₀.Kept s) :
    s₀.Kept (State.takePayload s n b) := by
  unfold State.takePayload
  repeat' (first
      | with_reducible assumption | with_reducible apply modEci_kept | (with_reducible apply Eci.Mail.same; rfl)
      | split | dsimp only | (simp (maxDischargeDepth := 9) [*]; done))

@[simp] theorem State.takeRecord_kept {s : State} (n : Nat) (r : Nat × List Byte) {s₀ : State} (hk : s₀.Kept s)
    : s₀.Kept (State.takeRecord s n r) := by
  unfold State.takeRecord
  repeat' (first
      | with_reducible assumption | with_reducible apply State.takePayload_kept
      | with_reducible apply State.takeSubmit_kept | split | dsimp only | (simp (maxDischargeDepth := 9) [*]; done))

theorem execProtectedFrame_kept (n : Fin 4) (frame : List (BitVec 8)) {s : State} {s₀ : State} (hk : s₀.Kept s)
    : Out.kept s₀ (execProtectedFrame n frame s) := by
  unfold execProtectedFrame
  repeat' (first
      | with_reducible assumption | with_reducible apply State.takeRecord_kept
      | with_reducible apply State.modSession_kept | with_reducible apply State.closeSession_kept
      | with_reducible apply next_kept | with_reducible apply foldl_kept | split | dsimp only | intro _
      | (simp (maxDischargeDepth := 9) [*]; done))

theorem execSessionIdleTimeout_kept (n : Fin 4) {s : State} {s₀ : State} (hk : s₀.Kept s) : Out.kept s₀
    (execSessionIdleTimeout n s) := by
  unfold execSessionIdleTimeout
  repeat' (first
      | with_reducible assumption | with_reducible apply State.closeSession_kept | with_reducible apply next_kept
      | split | dsimp only | (simp (maxDischargeDepth := 9) [*]; done))

theorem specSessionOpen_kept (k : Cmd) {s s₀ : State} (hk : s₀.Kept s) : Answer.kept s₀ (specSessionOpen.run k s) := by
  simp only [specSessionOpen]
  repeat' (first
      | with_reducible assumption | with_reducible apply State.modSession_kept | with_reducible apply ok_kept
      | with_reducible apply modBoot_kept | with_reducible apply modEci_kept | with_reducible apply checked_kept
      | (with_reducible apply Eci.Mail.same; rfl) | split | dsimp only | (simp (maxDischargeDepth := 9) [*]; done))

theorem execSessionOpen_kept (c : Submission) {s : State} {s₀ : State} (hk : s₀.Kept s) : Out.kept s₀
    (execSessionOpen c s) := runEci_kept _ _ specSessionOpen_kept hk

theorem specSessionClose_kept (k : Cmd) {s s₀ : State} (hk : s₀.Kept s) : Answer.kept s₀ (specSessionClose.run k
    s) := by
  simp only [specSessionClose]
  repeat' (first
      | with_reducible assumption | with_reducible apply State.modSession_kept | with_reducible apply ok_kept
      | split | dsimp only | (simp (maxDischargeDepth := 9) [*]; done))

theorem Out.closeAfter_kept {o : Out} {s₀ : State} (hk : Out.kept s₀ o) : Out.kept s₀ o.closeAfter := by
  cases o with
  | next s => exact next_kept (foldl_kept (fun s x h => State.closeSession_kept _ _ h) (hk s rfl))
  | fault => exact fun t h => nomatch h
  | refused => exact fun t h => nomatch h

theorem execSessionClose_kept {s : State} (c : Submission) {s₀ : State} (hk : s₀.Kept s) : Out.kept s₀
    (execSessionClose c s) :=
  Out.closeAfter_kept (runEci_kept _ _ specSessionClose_kept hk)

theorem specSessionKeepalive_kept (k : Cmd) {s s₀ : State} (hk : s₀.Kept s) : Answer.kept s₀
    (specSessionKeepalive.run k s) := by
  simp only [specSessionKeepalive]
  repeat' (first
      | with_reducible assumption | with_reducible apply ok_kept | split | dsimp only
      | (simp (maxDischargeDepth := 9) [*]; done))

theorem execSessionKeepalive_kept (c : Submission) {s : State} {s₀ : State} (hk : s₀.Kept s) : Out.kept s₀
    (execSessionKeepalive c s) := runEci_kept _ _ specSessionKeepalive_kept hk

/-! ### SourceRows -/

@[simp] theorem State.sourceRowIn_kept {s : State} (h k m : Nat) (d : SourceRow) {s₀ : State} (hk : s₀.Kept s) :
    s₀.Kept (State.sourceRowIn s h k m d) := by
  unfold State.sourceRowIn
  repeat' (first
      | with_reducible assumption | with_reducible apply State.watchedRow_kept
      | with_reducible apply State.watchRow_kept | with_reducible apply State.takeRow_kept | split | dsimp only
      | (simp (maxDischargeDepth := 9) [*]; done))

theorem execRowArrivalPost_kept (chan : BitVec 32) (row : BitVec 8) (capture : BitVec 64) (samples : RowSamples)
    {s : State} {s₀ : State} (hk : s₀.Kept s) : Out.kept s₀ (execRowArrivalPost chan row capture samples s) := by
  unfold execRowArrivalPost
  repeat' (first
      | with_reducible assumption | with_reducible apply State.sourceRowIn_kept
      | with_reducible apply State.keepFed_kept | with_reducible apply next_kept | split | dsimp only
      | (simp (maxDischargeDepth := 9) [*]; done))

theorem execPictureCopyDone_kept (chan : BitVec 32) (luma chroma captions : List Byte) {s : State} {s₀ : State}
    (hk : s₀.Kept s) : Out.kept s₀ (execPictureCopyDone chan luma chroma captions s) := by
  unfold execPictureCopyDone
  repeat' (first
      | with_reducible assumption | with_reducible apply State.sourceRowIn_kept
      | with_reducible apply State.modCh_kept | with_reducible apply State.complete_kept
      | with_reducible apply next_kept | with_reducible apply modEci_kept | with_reducible apply foldl_kept
      | (with_reducible apply Eci.Mail.same; rfl) | split | dsimp only | intro _
      | (simp (maxDischargeDepth := 9) [*]; done))

theorem execGeneratedRowAvailable_kept (chan : BitVec 32) (row : BitVec 8) {s : State} {s₀ : State} (hk :
    s₀.Kept s) : Out.kept s₀ (execGeneratedRowAvailable chan row s) := by
  unfold execGeneratedRowAvailable
  repeat' (first
      | with_reducible assumption | with_reducible apply State.sourceRowIn_kept | with_reducible apply next_kept
      | split | dsimp only | (simp (maxDischargeDepth := 9) [*]; done))

theorem execCompositionRowDone_kept (chan : BitVec 32) (pic : BitVec 64) (row : BitVec 8) {s : State} {s₀ :
    State} (hk : s₀.Kept s) : Out.kept s₀ (execCompositionRowDone chan pic row s) := by
  unfold execCompositionRowDone
  repeat' (first
      | with_reducible assumption | with_reducible apply State.weltEvents_kept
      | with_reducible apply State.goOn_kept | with_reducible apply State.feed_kept
      | with_reducible apply State.postRow_kept | with_reducible apply State.modCh_kept
      | with_reducible apply next_kept | split | dsimp only | (simp (maxDischargeDepth := 9) [*]; done))

theorem execCommitAppliedReport_kept (chan : BitVec 32) {s : State} {s₀ : State} (hk : s₀.Kept s) : Out.kept s₀
    (execCommitAppliedReport chan s) := by
  unfold execCommitAppliedReport
  repeat' (first
      | with_reducible assumption | with_reducible apply State.unmapAt_kept | with_reducible apply State.raise_kept
      | with_reducible apply next_kept | with_reducible apply modComp_kept | with_reducible apply foldl_kept | split
      | dsimp only | intro _ | (simp (maxDischargeDepth := 9) [*]; done))

/-! ### RowData -/

@[simp] theorem State.taskDone_kept {s : State} (d : Nat) (t : Task) {s₀ : State} (hk : s₀.Kept s) : s₀.Kept
    (State.taskDone s d t) := by
  unfold State.taskDone
  repeat' (first
      | with_reducible assumption | with_reducible apply State.proceed_kept | with_reducible apply State.modCh_kept
      | with_reducible apply stage_kept | split | dsimp only | (simp (maxDischargeDepth := 9) [*]; done))

@[simp] theorem State.lateWrite_kept {s : State} (d : Nat) (g : HeldSlot) {s₀ : State} (hk : s₀.Kept s) :
    s₀.Kept (State.lateWrite s d g) := by
  unfold State.lateWrite
  repeat' (first
      | with_reducible assumption | with_reducible apply State.modCh_kept | split | dsimp only
      | (simp (maxDischargeDepth := 9) [*]; done))

theorem execRowJudgement_kept (chan : BitVec 32) {s : State} {s₀ : State} (hk : s₀.Kept s) : Out.kept s₀
    (execRowJudgement chan s) := by
  unfold execRowJudgement
  repeat' (first
      | with_reducible assumption | with_reducible apply State.modCh_kept | with_reducible apply stage_kept
      | with_reducible apply next_kept | with_reducible apply foldl_kept | split | dsimp only | intro _
      | (simp (maxDischargeDepth := 9) [*]; done))

@[simp] theorem State.badOrder_kept {s : State} (h : Nat) {s₀ : State} (hk : s₀.Kept s) : s₀.Kept
    (State.badOrder s h) := by
  unfold State.badOrder
  repeat' (first
      | with_reducible assumption | with_reducible apply modChan_kept | split | dsimp only
      | (simp (maxDischargeDepth := 9) [*]; done))

theorem State.carryOut_kept {s : State} (h n k : Nat) {f : Judgement → Option State} {s₀ : State} (hf : ∀ j t, f
    j = some t → s₀.Kept t) (hk : s₀.Kept s) : s₀.Kept (s.carryOut h n k f) := by
  unfold State.carryOut
  split
  · exact State.badOrder_kept _ hk
  · next j _ =>
    split
    · exact hk
    · cases e : f j with
      | none => exact State.badOrder_kept _ hk
      | some t => exact State.proceed_kept _ (hf j t e)

theorem execCommitOrder_kept (chan : BitVec 32) (pic : BitVec 64) (row : BitVec 8) {s : State} {s₀ : State} (hk
    : s₀.Kept s) : Out.kept s₀ (execCommitOrder chan pic row s) := by
  refine next_kept (State.carryOut_kept _ _ _ (fun j t e => ?_) hk)
  split at e
  · cases e; exact State.afterRow_kept _ _ _ _ _ _ _ (State.modCh_kept _ _ hk)
  · cases e

@[simp] theorem State.rewindRow_kept {s : State} (h n k qp : Nat) {s₀ : State} (hk : s₀.Kept s) : s₀.Kept
    (State.rewindRow s h n k qp) := by
  unfold State.rewindRow
  repeat' (first
      | with_reducible assumption | with_reducible apply State.crossOrder_kept
      | with_reducible apply State.squashRow_kept | with_reducible apply State.beginRows_kept
      | with_reducible apply State.modCh_kept | with_reducible apply stage_kept | split | dsimp only
      | (simp (maxDischargeDepth := 9) [*]; done))

theorem execRewindOrder_kept (chan : BitVec 32) (pic : BitVec 64) (row : BitVec 8) {s : State} {s₀ : State} (hk
    : s₀.Kept s) : Out.kept s₀ (execRewindOrder chan pic row s) := by
  refine next_kept (State.carryOut_kept _ _ _ (fun j t e => ?_) hk)
  split at e
  · cases e; exact State.rewindRow_kept _ _ _ _ hk
  · cases e

theorem execFillOrder_kept (chan : BitVec 32) (pic : BitVec 64) (row : BitVec 8) {s : State} {s₀ : State} (hk :
    s₀.Kept s) : Out.kept s₀ (execFillOrder chan pic row s) := by
  refine next_kept (State.carryOut_kept _ _ _ (fun j t e => ?_) hk)
  split at e
  · cases e; exact State.afterRow_kept _ _ _ _ _ _ _ (State.modCh_kept _ _ hk)
  · cases e

theorem execCheckpointRestoreDone_kept (chan : BitVec 32) {s : State} {s₀ : State} (hk : s₀.Kept s) : Out.kept
    s₀ (execCheckpointRestoreDone chan s) := by
  unfold execCheckpointRestoreDone
  repeat' (first
      | with_reducible assumption | with_reducible apply State.proceed_kept
      | with_reducible apply State.postRow_kept | with_reducible apply State.modCh_kept
      | with_reducible apply next_kept | split | dsimp only | (simp (maxDischargeDepth := 9) [*]; done))

@[simp] theorem State.takeItem_kept {s : State} (h : Nat) (x : Crossing) {s₀ : State} (hk : s₀.Kept s) : s₀.Kept
    (State.takeItem s h x) := by
  unfold State.takeItem
  repeat' (first
      | with_reducible assumption | with_reducible apply State.modCh_kept | split | dsimp only
      | (simp (maxDischargeDepth := 9) [*]; done))

theorem execPartnerOrder_kept (chan : BitVec 32) {s : State} {s₀ : State} (hk : s₀.Kept s) : Out.kept s₀
    (execPartnerOrder chan s) := by
  unfold execPartnerOrder
  repeat' (first
      | with_reducible assumption | with_reducible apply State.takeItem_kept
      | with_reducible apply State.proceed_kept | with_reducible apply State.squashRow_kept
      | with_reducible apply State.squashFlow_kept | with_reducible apply State.stale_kept
      | with_reducible apply next_kept | split | dsimp only | (simp (maxDischargeDepth := 9) [*]; done))

@[simp] theorem State.keepItem_kept {s : State} (h : Nat) (x : Crossing) {s₀ : State} (hk : s₀.Kept s) : s₀.Kept
    (State.keepItem s h x) := by
  unfold State.keepItem
  repeat' (first
      | with_reducible assumption | with_reducible apply State.rowMeasured_kept
      | with_reducible apply State.fitMotion_kept | with_reducible apply State.passFlag_kept
      | with_reducible apply State.decideScene_kept | with_reducible apply State.postRow_kept
      | with_reducible apply State.modCh_kept | split | dsimp only | (simp (maxDischargeDepth := 9) [*]; done))

theorem execSeamDataArrival_kept (chan : BitVec 32) (odd : Bool) {s : State} {s₀ : State} (hk : s₀.Kept s) :
    Out.kept s₀ (execSeamDataArrival chan odd s) := by
  unfold execSeamDataArrival
  repeat' (first
      | with_reducible assumption | with_reducible apply State.keepItem_kept
      | with_reducible apply State.takeItem_kept | with_reducible apply State.proceed_kept
      | with_reducible apply State.stale_kept | with_reducible apply next_kept | split | dsimp only
      | (simp (maxDischargeDepth := 9) [*]; done))

theorem execFailoverStateUpdate_kept (chan : BitVec 32) {s : State} {s₀ : State} (hk : s₀.Kept s) : Out.kept s₀
    (execFailoverStateUpdate chan s) := by
  unfold execFailoverStateUpdate
  repeat' (first
      | with_reducible assumption | with_reducible apply State.modCh_kept | with_reducible apply stage_kept
      | with_reducible apply done_kept | with_reducible apply next_kept | split | dsimp only
      | (simp (maxDischargeDepth := 9) [*]; done))

theorem execFillSetUpdate_kept (chan : BitVec 32) (pic : BitVec 64) (tile : Fin 3) {s : State} {s₀ : State} (hk
    : s₀.Kept s) : Out.kept s₀ (execFillSetUpdate chan pic tile s) := by
  unfold execFillSetUpdate
  repeat' (first
      | with_reducible assumption | with_reducible apply State.modCh_kept | with_reducible apply next_kept | split
      | dsimp only | (simp (maxDischargeDepth := 9) [*]; done))

/-! ### Release -/

@[simp] theorem State.fillRows_kept {s : State} (h n : Nat) (rows : List Nat) {s₀ : State} (hk : s₀.Kept s) :
    s₀.Kept (State.fillRows s h n rows) := by
  unfold State.fillRows
  repeat' (first
      | with_reducible assumption | with_reducible apply State.proceed_kept
      | with_reducible apply State.rowSettled_kept | with_reducible apply State.startRate_kept
      | with_reducible apply State.squashHere_kept | with_reducible apply State.modCh_kept
      | with_reducible apply stage_kept | with_reducible apply foldl_kept | split | dsimp only | intro _
      | (simp (maxDischargeDepth := 9) [*]; done))

@[simp] theorem State.cancelRelease_kept {s : State} (h n j : Nat) {s₀ : State} (hk : s₀.Kept s) : s₀.Kept
    (State.cancelRelease s h n j) := by
  unfold State.cancelRelease
  repeat' (first
      | with_reducible assumption | with_reducible apply State.cancelTask_kept | with_reducible apply foldl_kept
      | split | dsimp only | intro _ | (simp (maxDischargeDepth := 9) [*]; done))

theorem execStitchDeadline_kept (chan : BitVec 32) (pic : BitVec 64) (du : BitVec 8) {s : State} {s₀ : State}
    (hk : s₀.Kept s) : Out.kept s₀ (execStitchDeadline chan pic du s) := by
  unfold execStitchDeadline
  repeat' (first
      | with_reducible assumption | with_reducible apply State.cancelRelease_kept
      | with_reducible apply State.fillRows_kept | with_reducible apply State.deadlineEvent_kept
      | with_reducible apply State.modCh_kept | with_reducible apply next_kept | split | dsimp only
      | (simp (maxDischargeDepth := 9) [*]; done))

theorem execStitchRelease_kept (chan : BitVec 32) (tile : Fin 3) {s : State} {s₀ : State} (hk : s₀.Kept s) :
    Out.kept s₀ (execStitchRelease chan tile s) := by
  unfold execStitchRelease
  repeat' (first
      | with_reducible assumption | with_reducible apply State.modCh_kept | with_reducible apply next_kept
      | with_reducible apply foldl_kept | split | dsimp only | intro _ | (simp (maxDischargeDepth := 9) [*]; done))

theorem execDuRecordArrival_kept (chan : BitVec 32) {s : State} {s₀ : State} (hk : s₀.Kept s) : Out.kept s₀
    (execDuRecordArrival chan s) := by
  unfold execDuRecordArrival
  repeat' (first
      | with_reducible assumption | with_reducible apply State.modCh_kept | with_reducible apply next_kept | split
      | dsimp only | (simp (maxDischargeDepth := 9) [*]; done))

@[simp] theorem State.paceQueue_kept {s : State} (g n : Nat) {s₀ : State} (hk : s₀.Kept s) : s₀.Kept
    (State.paceQueue s g n) := by
  unfold State.paceQueue
  repeat' (first
      | with_reducible assumption | with_reducible apply State.modEg_kept | with_reducible apply State.raise_kept
      | split | dsimp only | (simp (maxDischargeDepth := 9) [*]; done))

@[simp] theorem State.packetise_kept {s : State} (g n : Nat) (nals au : List (List Byte)) (last : Bool) {s₀ :
    State} (hk : s₀.Kept s) : s₀.Kept (State.packetise s g n nals au last) := by
  unfold State.packetise
  repeat' (first
      | with_reducible assumption | with_reducible apply State.paceQueue_kept
      | with_reducible apply State.pesInto_kept | with_reducible apply State.queuePacket_kept
      | with_reducible apply State.runPacer_kept | with_reducible apply foldl_kept | split | dsimp only | intro _
      | (simp (maxDischargeDepth := 9) [*]; done))

@[simp] theorem State.openUnit_kept {s : State} (h n : Nat) {s₀ : State} (hk : s₀.Kept s) : s₀.Kept
    (State.openUnit s h n) := by
  unfold State.openUnit
  repeat' (first
      | with_reducible assumption | with_reducible apply State.applyStaged_kept
      | with_reducible apply State.modEg_kept | with_reducible apply State.toChState_kept
      | with_reducible apply State.modCh_kept | with_reducible apply State.raise_kept
      | with_reducible apply foldl_kept | split | dsimp only | intro _ | (simp (maxDischargeDepth := 9) [*]; done))

@[simp] theorem State.toDecoders_kept {s : State} (h : Nat) (nals : List (List Byte)) {s₀ : State} (hk : s₀.Kept
    s) : s₀.Kept (State.toDecoders s h nals) := by
  unfold State.toDecoders
  repeat' (first
      | with_reducible assumption | with_reducible apply modDec_kept | split | dsimp only
      | (simp (maxDischargeDepth := 9) [*]; done))

@[simp] theorem State.closeUnit_kept {s : State} (h n : Nat) {s₀ : State} (hk : s₀.Kept s) : s₀.Kept
    (State.closeUnit s h n) := by
  unfold State.closeUnit
  repeat' (first
      | with_reducible assumption | with_reducible apply State.toDecoders_kept
      | with_reducible apply State.coverUnit_kept | with_reducible apply State.policiesSettled_kept
      | with_reducible apply State.checkAu_kept | with_reducible apply State.endDrain_kept
      | with_reducible apply State.offerRing_kept | with_reducible apply State.modCh_kept
      | with_reducible apply foldl_kept | split | dsimp only | intro _ | (simp (maxDischargeDepth := 9) [*]; done))

@[simp] theorem State.releaseDu_kept {s : State} (h n j : Nat) {s₀ : State} (hk : s₀.Kept s) : s₀.Kept
    (State.releaseDu s h n j) := by
  unfold State.releaseDu
  repeat' (first
      | with_reducible assumption | with_reducible apply State.closeUnit_kept
      | with_reducible apply State.openUnit_kept | with_reducible apply State.packetise_kept
      | with_reducible apply State.sendAll_kept | with_reducible apply State.modCh_kept
      | with_reducible apply foldl_kept | split | dsimp only | intro _ | (simp (maxDischargeDepth := 9) [*]; done))

theorem execDuRelease_kept (chan : BitVec 32) {s : State} {s₀ : State} (hk : s₀.Kept s) : Out.kept s₀
    (execDuRelease chan s) := by
  unfold execDuRelease
  repeat' (first
      | with_reducible assumption | with_reducible apply State.releaseDu_kept
      | with_reducible apply State.dieFault_kept | with_reducible apply next_kept | split | dsimp only
      | (simp (maxDischargeDepth := 9) [*]; done))

/-! ### SchedRows -/

@[simp] theorem State.elementFails_kept {s : State} (d : Nat) (e : Element) {s₀ : State} (hk : s₀.Kept s) :
    s₀.Kept (State.elementFails s d e) := by
  unfold State.elementFails
  repeat' (first
      | with_reducible assumption | with_reducible apply State.policiesDone_kept
      | with_reducible apply State.policiesDue_kept | with_reducible apply State.dieFault_kept
      | with_reducible apply State.fenceElement_kept | with_reducible apply State.raise_kept | split | dsimp only
      | (simp (maxDischargeDepth := 9) [*]; done))

@[simp] theorem State.rateRecover_kept {s : State} (h : Nat) {s₀ : State} (hk : s₀.Kept s) : s₀.Kept
    (State.rateRecover s h) := by
  unfold State.rateRecover
  repeat' (first
      | with_reducible assumption | with_reducible apply State.proceed_kept
      | with_reducible apply State.squashFrom_kept | with_reducible apply State.modCh_kept
      | with_reducible apply State.raise_kept | with_reducible apply stage_kept | split | dsimp only
      | (simp (maxDischargeDepth := 9) [*]; done))

@[simp] theorem State.failRecover_kept {s : State} (l : Nat) {s₀ : State} (hk : s₀.Kept s) : s₀.Kept
    (State.failRecover s l) := by
  unfold State.failRecover
  repeat' (first
      | with_reducible assumption | with_reducible apply modChan_kept | split | dsimp only
      | (simp (maxDischargeDepth := 9) [*]; done))

@[simp] theorem State.recoverLocks_kept {s : State} (k : Nat) {s₀ : State} (hk : s₀.Kept s) : s₀.Kept
    (State.recoverLocks s k) := by
  unfold State.recoverLocks
  repeat' (first
      | with_reducible assumption | with_reducible apply State.failRecover_kept
      | with_reducible apply State.rateRecover_kept | with_reducible apply State.modSd_kept
      | with_reducible apply foldl_kept | split | dsimp only | intro _ | (simp (maxDischargeDepth := 9) [*]; done))

@[simp] theorem State.noteHoles_kept {s : State} (k : Nat) {s₀ : State} (hk : s₀.Kept s) : s₀.Kept
    (State.noteHoles s k) := by
  unfold State.noteHoles
  repeat' (first
      | with_reducible assumption | with_reducible apply State.modCh_kept | with_reducible apply foldl_kept | split
      | dsimp only | intro _ | (simp (maxDischargeDepth := 9) [*]; done))

@[simp] theorem State.afterSched_kept {s : State} (k : Nat) {s₀ : State} (hk : s₀.Kept s) : s₀.Kept
    (State.afterSched s k) := by
  unfold State.afterSched
  repeat' (first
      | with_reducible assumption | with_reducible apply State.noteHoles_kept
      | with_reducible apply State.recoverLocks_kept | split | dsimp only
      | (simp (maxDischargeDepth := 9) [*]; done))

@[simp] theorem State.answerEnqueue_kept {s : State} (k : Nat) (st : Status) (detail : Nat) {s₀ : State} (hk :
    s₀.Kept s) : s₀.Kept (State.answerEnqueue s k st detail) := by
  unfold State.answerEnqueue
  repeat' (first
      | with_reducible assumption | with_reducible apply State.modSd_kept | split | dsimp only
      | (simp (maxDischargeDepth := 9) [*]; done))

@[simp] theorem State.holdBack_kept {s : State} (k : Nat) (x : Stalled) {s₀ : State} (hk : s₀.Kept s) : s₀.Kept
    (State.holdBack s k x) := by
  unfold State.holdBack
  repeat' (first
      | with_reducible assumption | with_reducible apply State.answerEnqueue_kept
      | with_reducible apply State.noteBp_kept | with_reducible apply State.stall_kept
      | with_reducible apply State.trace_kept | split | dsimp only | (simp (maxDischargeDepth := 9) [*]; done))

theorem execDescriptorEnqueue_kept (sched : SchedNo) (producer : AgentId) (d : Descriptor) {s : State} {s₀ :
    State} (hk : s₀.Kept s) : Out.kept s₀ (execDescriptorEnqueue sched producer d s) := by
  unfold execDescriptorEnqueue
  repeat' (first
      | with_reducible assumption | with_reducible apply State.holdBack_kept
      | with_reducible apply State.answerEnqueue_kept | with_reducible apply State.afterSched_kept
      | with_reducible apply State.enqueue_kept | with_reducible apply State.modSd_kept
      | with_reducible apply next_kept | split | dsimp only | (simp (maxDischargeDepth := 9) [*]; done))

theorem execBackpressureEnd_kept (sched : SchedNo) {s : State} {s₀ : State} (hk : s₀.Kept s) : Out.kept s₀
    (execBackpressureEnd sched s) := by
  unfold execBackpressureEnd
  repeat' (first
      | with_reducible assumption | with_reducible apply State.afterSched_kept
      | with_reducible apply State.enqueue_kept | with_reducible apply State.settleSd_kept
      | with_reducible apply State.trace_kept | with_reducible apply State.modSd_kept
      | with_reducible apply next_kept | refine State.seqPost_kept (by assumption) ?_
      | with_reducible apply State.seqPost_getD_kept | split | dsimp only
      | (simp (maxDischargeDepth := 9) [*]; done))

theorem execTaskPost_kept (sched : SchedNo) (task : BitVec 16) (bits : BitVec 32) {s : State} {s₀ : State} (hk :
    s₀.Kept s) : Out.kept s₀ (execTaskPost sched task bits s) := by
  unfold execTaskPost
  repeat' (first
      | with_reducible assumption | with_reducible apply State.afterSched_kept
      | with_reducible apply State.taskPost_kept | with_reducible apply State.settleSd_kept
      | with_reducible apply next_kept | split | dsimp only | (simp (maxDischargeDepth := 9) [*]; done))

theorem execSequencePost_kept (sched : SchedNo) (flow : BitVec 12) (seq : BitVec 24) (bits : BitVec 32) {s :
    State} {s₀ : State} (hk : s₀.Kept s) : Out.kept s₀ (execSequencePost sched flow seq bits s) := by
  unfold execSequencePost
  repeat' (first
      | with_reducible assumption | with_reducible apply State.holdBack_kept
      | with_reducible apply State.afterSched_kept | with_reducible apply State.settleSd_kept
      | with_reducible apply next_kept | refine State.seqPost_kept (by assumption) ?_
      | with_reducible apply State.seqPost_getD_kept | split | dsimp only
      | (simp (maxDischargeDepth := 9) [*]; done))

theorem execFlowPost_kept (sched : SchedNo) (flow : BitVec 12) (bits : BitVec 32) {s : State} {s₀ : State} (hk :
    s₀.Kept s) : Out.kept s₀ (execFlowPost sched flow bits s) := by
  unfold execFlowPost
  repeat' (first
      | with_reducible assumption | with_reducible apply State.afterSched_kept
      | with_reducible apply State.flowPost_kept | with_reducible apply State.settleSd_kept
      | with_reducible apply next_kept | split | dsimp only | (simp (maxDischargeDepth := 9) [*]; done))

theorem execTaskDispatch_kept (sched : SchedNo) (agent : AgentId) {s : State} {s₀ : State} (hk : s₀.Kept s) :
    Out.kept s₀ (execTaskDispatch sched agent s) := by
  unfold execTaskDispatch
  repeat' (first
      | with_reducible assumption | with_reducible apply State.afterSched_kept
      | with_reducible apply State.dispatch_kept | with_reducible apply next_kept | split | dsimp only
      | (simp (maxDischargeDepth := 9) [*]; done))

theorem execTaskComplete_kept (sched : SchedNo) (agent : AgentId) (task : BitVec 16) {s : State} {s₀ : State}
    (hk : s₀.Kept s) : Out.kept s₀ (execTaskComplete sched agent task s) := by
  unfold execTaskComplete
  repeat' (first
      | with_reducible assumption | with_reducible apply State.afterSched_kept
      | with_reducible apply State.lateWrite_kept | with_reducible apply State.taskDone_kept
      | with_reducible apply State.completeTask_kept | with_reducible apply next_kept | split | dsimp only
      | (simp (maxDischargeDepth := 9) [*]; done))

theorem execTaskCancel_kept (sched : SchedNo) (task : BitVec 16) {s : State} {s₀ : State} (hk : s₀.Kept s) :
    Out.kept s₀ (execTaskCancel sched task s) := by
  unfold execTaskCancel
  repeat' (first
      | with_reducible assumption | with_reducible apply State.afterSched_kept
      | with_reducible apply State.cancelTask_kept | with_reducible apply State.stale_kept
      | with_reducible apply next_kept | split | dsimp only | (simp (maxDischargeDepth := 9) [*]; done))

theorem execFlowSquash_kept (sched : SchedNo) (flow : BitVec 12) (seq : BitVec 24) {s : State} {s₀ : State} (hk
    : s₀.Kept s) : Out.kept s₀ (execFlowSquash sched flow seq s) := by
  unfold execFlowSquash
  repeat' (first
      | with_reducible assumption | with_reducible apply State.afterSched_kept
      | with_reducible apply State.squash_kept | with_reducible apply next_kept | split | dsimp only
      | (simp (maxDischargeDepth := 9) [*]; done))

theorem execDeadlineExpiry_kept (sched : SchedNo) {s : State} {s₀ : State} (hk : s₀.Kept s) : Out.kept s₀
    (execDeadlineExpiry sched s) := by
  unfold execDeadlineExpiry
  repeat' (first
      | with_reducible assumption | with_reducible apply State.afterSched_kept
      | with_reducible apply State.cancelTask_kept | with_reducible apply next_kept
      | with_reducible apply foldl_kept | split | dsimp only | intro _ | (simp (maxDischargeDepth := 9) [*]; done))

theorem execDirectLockAcquire_kept (sched : SchedNo) (agent : AgentId) (lock : BitVec 8) {s : State} {s₀ :
    State} (hk : s₀.Kept s) : Out.kept s₀ (execDirectLockAcquire sched agent lock s) := by
  unfold execDirectLockAcquire
  repeat' (first
      | with_reducible assumption | with_reducible apply State.afterSched_kept
      | with_reducible apply State.settleSd_kept | with_reducible apply State.modSd_kept
      | with_reducible apply next_kept | split | dsimp only | (simp (maxDischargeDepth := 9) [*]; done))

theorem execDirectLockRelease_kept (sched : SchedNo) (agent : AgentId) (lock : BitVec 8) {s : State} {s₀ :
    State} (hk : s₀.Kept s) : Out.kept s₀ (execDirectLockRelease sched agent lock s) := by
  unfold execDirectLockRelease
  repeat' (first
      | with_reducible assumption | with_reducible apply State.afterSched_kept
      | with_reducible apply State.releaseLock_kept | with_reducible apply State.settleSd_kept
      | with_reducible apply next_kept | split | dsimp only | (simp (maxDischargeDepth := 9) [*]; done))

@[simp] theorem State.noteAbort_kept {s : State} (k a id : Nat) {s₀ : State} (hk : s₀.Kept s) : s₀.Kept
    (State.noteAbort s k a id) := by
  unfold State.noteAbort
  repeat' (first
      | with_reducible assumption | with_reducible apply State.modSd_kept | with_reducible apply State.raise_kept
      | split | dsimp only | (simp (maxDischargeDepth := 9) [*]; done))

@[simp] theorem State.fenceAgent_kept {s : State} (k a : Nat) {s₀ : State} (hk : s₀.Kept s) : s₀.Kept
    (State.fenceAgent s k a) := by
  unfold State.fenceAgent
  repeat' (first
      | with_reducible assumption | with_reducible apply State.elementFails_kept
      | with_reducible apply State.dieFault_kept | with_reducible apply State.modSd_kept
      | with_reducible apply State.raise_kept | split | dsimp only | (simp (maxDischargeDepth := 9) [*]; done))

@[simp] theorem State.abortRow_kept {s : State} (k h key : Nat) {s₀ : State} (hk : s₀.Kept s) : s₀.Kept
    (State.abortRow s k h key) := by
  unfold State.abortRow
  repeat' (first
      | with_reducible assumption | with_reducible apply State.proceed_kept
      | with_reducible apply State.squashRow_kept | with_reducible apply State.modCh_kept
      | with_reducible apply foldl_kept | split | dsimp only | intro _ | (simp (maxDischargeDepth := 9) [*]; done))

@[simp] theorem State.rowAborted_kept {s : State} (k : Nat) (t : Task) {s₀ : State} (hk : s₀.Kept s) : s₀.Kept
    (State.rowAborted s k t) := by
  unfold State.rowAborted
  repeat' (first
      | with_reducible assumption | with_reducible apply State.abortRow_kept
      | with_reducible apply State.squashAgain_kept | with_reducible apply State.modSd_kept | split | dsimp only
      | (simp (maxDischargeDepth := 9) [*]; done))

theorem execTaskWatchdog_kept (sched : SchedNo) (agent : AgentId) {s : State} {s₀ : State} (hk : s₀.Kept s) :
    Out.kept s₀ (execTaskWatchdog sched agent s) := by
  unfold execTaskWatchdog
  repeat' (first
      | with_reducible assumption | with_reducible apply State.rowAborted_kept
      | with_reducible apply State.fenceAgent_kept | with_reducible apply State.noteAbort_kept
      | with_reducible apply State.afterSched_kept | with_reducible apply State.dieFault_kept
      | with_reducible apply State.freePort_kept | with_reducible apply State.finishTask_kept
      | with_reducible apply State.noteOccupancy_kept | with_reducible apply State.breakLock_kept
      | with_reducible apply State.settleSd_kept | with_reducible apply State.modSd_kept
      | with_reducible apply next_kept | split | dsimp only | (simp (maxDischargeDepth := 9) [*]; done))

/-! ### Health -/

theorem execDieHeartbeat_kept (d : DieNo) (core : Fin 2) {s : State} {s₀ : State} (hk : s₀.Kept s) : Out.kept s₀
    (execDieHeartbeat d core s) := by
  unfold execDieHeartbeat
  repeat' (first
      | with_reducible assumption | with_reducible apply State.modHealth_kept | with_reducible apply next_kept
      | split | dsimp only | (simp (maxDischargeDepth := 9) [*]; done))

theorem execHeartbeatTimeout_kept (d : DieNo) {s : State} {s₀ : State} (hk : s₀.Kept s) : Out.kept s₀
    (execHeartbeatTimeout d s) := by
  unfold execHeartbeatTimeout
  repeat' (first
      | with_reducible assumption | with_reducible apply State.dieFault_kept | with_reducible apply next_kept
      | split | dsimp only | (simp (maxDischargeDepth := 9) [*]; done))

theorem execIsstSliceStart_kept (d : DieNo) {s : State} {s₀ : State} (hk : s₀.Kept s) : Out.kept s₀
    (execIsstSliceStart d s) := by
  unfold execIsstSliceStart
  repeat' (first
      | with_reducible assumption | with_reducible apply State.modHealth_kept | with_reducible apply next_kept
      | split | dsimp only | (simp (maxDischargeDepth := 9) [*]; done))

theorem execIsstSliceEnd_kept (d : DieNo) (result : SliceResult) {s : State} {s₀ : State} (hk : s₀.Kept s) :
    Out.kept s₀ (execIsstSliceEnd d result s) := by
  unfold execIsstSliceEnd
  repeat' (first
      | with_reducible assumption | with_reducible apply State.elementFails_kept
      | with_reducible apply State.modHealth_kept | with_reducible apply next_kept | split | dsimp only
      | (simp (maxDischargeDepth := 9) [*]; done))

theorem specDieRepair_kept (k : Cmd) {s s₀ : State} (hk : s₀.Kept s) : Answer.kept s₀ (specDieRepair.run k s) := by
  simp only [specDieRepair]
  repeat' (first
      | with_reducible assumption | with_reducible apply wait_kept | with_reducible apply modBoot_kept
      | with_reducible apply checked_kept | split | dsimp only | (simp (maxDischargeDepth := 9) [*]; done))

theorem execDieRepair_kept (c : Submission) {s : State} {s₀ : State} (hk : s₀.Kept s) : Out.kept s₀
    (execDieRepair c s) := runEci_kept _ _ specDieRepair_kept hk

@[simp] theorem State.dieReturns_kept {s : State} (d : Nat) {s₀ : State} (hk : s₀.Kept s) : s₀.Kept
    (State.dieReturns s d) := by
  unfold State.dieReturns
  repeat' (first
      | with_reducible assumption | with_reducible apply State.modHealth_kept
      | with_reducible apply State.modDie_kept | with_reducible apply modChan_kept
      | with_reducible apply modBoot_kept | split | dsimp only | (simp (maxDischargeDepth := 9) [*]; done))

theorem execDieRepairBistDone_kept (d : DieNo) (pass : Bool) {s : State} {s₀ : State} (hk : s₀.Kept s) :
    Out.kept s₀ (execDieRepairBistDone d pass s) := by
  unfold execDieRepairBistDone
  repeat' (first
      | with_reducible assumption | with_reducible apply State.dieReturns_kept
      | with_reducible apply State.completeRunning_kept | with_reducible apply next_kept
      | with_reducible apply modBoot_kept | split | dsimp only | (simp (maxDischargeDepth := 9) [*]; done))

@[simp] theorem State.dropPacket_kept {s : State} (port : Nat) {s₀ : State} (hk : s₀.Kept s) : s₀.Kept
    (State.dropPacket s port) := by
  unfold State.dropPacket
  repeat' (first
      | with_reducible assumption | with_reducible apply modNet_kept | split | dsimp only
      | (simp (maxDischargeDepth := 9) [*]; done))

theorem execDramUncorrectable_kept {s : State} (die : DramNo) (region : ErrorRegion) (line : BitVec 32) {s₀ :
    State} (hk : s₀.Kept s) : Out.kept s₀ (execDramUncorrectable die region line s) := by
  unfold execDramUncorrectable
  lift_lets
  intro d at_ s1
  have h1 : s₀.Kept s1 := State.raise_kept _ _ _ _ (State.modDie_kept _ _ hk)
  clear_value s1
  split
  · exact next_kept hk
  · cases region <;> dsimp only
    all_goals first
      | exact next_kept (State.modCh_kept _ _ h1) | exact next_kept (State.modDie_kept _ _ h1)
      | exact next_kept (State.mbxStore_kept _ _ h1) | exact next_kept (State.dropPacket_kept _ h1)
      | (refine next_kept ?_; repeat' split
         all_goals first | exact h1 | exact State.dieFault_kept _ _ _ h1 | exact State.fencePrimary_kept h1)

theorem execDowelStall_kept (link : Fin 16) {s : State} {s₀ : State} (hk : s₀.Kept s) : Out.kept s₀
    (execDowelStall link s) := by
  unfold execDowelStall
  repeat' (first
      | with_reducible assumption | with_reducible apply State.dieFault_kept | with_reducible apply next_kept
      | split | dsimp only | (simp (maxDischargeDepth := 9) [*]; done))

theorem execThermalSample_kept (junctions : Junctions) {s : State} {s₀ : State} (hk : s₀.Kept s) : Out.kept s₀
    (execThermalSample junctions s) := by
  unfold execThermalSample
  repeat' (first
      | with_reducible assumption | with_reducible apply State.raise_kept | with_reducible apply next_kept
      | with_reducible apply modBoot_kept | split | dsimp only | (simp (maxDischargeDepth := 9) [*]; done))

theorem execThermTrip_kept (die : Fin 9) {s : State} {s₀ : State} (hk : s₀.Kept s) : Out.kept s₀ (execThermTrip
    die s) := by
  unfold execThermTrip
  repeat' (first
      | with_reducible assumption | with_reducible apply State.enterSafe_kept | with_reducible apply stage_kept
      | with_reducible apply next_kept | with_reducible apply modBoot_kept | split | dsimp only
      | (simp (maxDischargeDepth := 9) [*]; done))

/-! ### EciTable -/

theorem eciDeviceCmds_kept {s₀ : State} : ∀ e ∈ eciDeviceCmds, ∀ (k : Cmd) {s : State}, s₀.Kept s → Answer.kept
    s₀ (e.run k s) := by
  simp only [eciDeviceCmds, List.forall_mem_cons, List.not_mem_nil, false_implies, implies_true, and_true]
  exact ⟨fun k _ h => specDeviceIdentify_kept k h, fun k _ h => specDeviceStatus_kept k h, fun k _ h =>
      specDeviceEventMask_kept k h, fun k _ h => specQueueCreate_kept k h, fun k _ h => specQueueDelete_kept k h,
      fun k _ h => specObjectList_kept k h, fun k _ h => specObjectReassign_kept k h, fun k _ h =>
      specDeviceVfQuota_kept k h, fun k _ h => specDeviceRestart_kept k h, fun k _ h => specDeviceNop_kept k h⟩
theorem eciSessions_kept {s₀ : State} : ∀ e ∈ eciSessions, ∀ (k : Cmd) {s : State}, s₀.Kept s → Answer.kept s₀
    (e.run k s) := by
  simp only [eciSessions, List.forall_mem_cons, List.not_mem_nil, false_implies, implies_true, and_true]
  exact ⟨fun k _ h => specSessionOpen_kept k h, fun k _ h => specSessionClose_kept k h, fun k _ h =>
      specSessionKeepalive_kept k h⟩
theorem eciChannels_kept {s₀ : State} : ∀ e ∈ eciChannels, ∀ (k : Cmd) {s : State}, s₀.Kept s → Answer.kept s₀
    (e.run k s) := by
  simp only [eciChannels, List.forall_mem_cons, List.not_mem_nil, false_implies, implies_true, and_true]
  exact ⟨fun k _ h => specChannelCreate_kept k h, fun k _ h => specChannelAdmitCheck_kept k h, fun k _ h =>
      specChannelSet_kept k h, fun k _ h => specChannelStart_kept k h, fun k _ h => specChannelStop_kept k h, fun k
      _ h => specChannelDestroy_kept k h, fun k _ h => specChannelQuery_kept k h, fun k _ h => specSlotTableSet_kept
      k h, fun k _ h => specSlotTableGet_kept k h, fun k _ h => specSlateCreate_kept k h, fun k _ h =>
      specSlateDestroy_kept k h, fun k _ h => specDieLoad_kept k h⟩
theorem eciCoding_kept {s₀ : State} : ∀ e ∈ eciCoding, ∀ (k : Cmd) {s : State}, s₀.Kept s → Answer.kept s₀
    (e.run k s) := by
  simp only [eciCoding, List.forall_mem_cons, List.not_mem_nil, false_implies, implies_true, and_true]
  exact ⟨fun k _ h => specCodingTools_kept k h, fun k _ h => specCodingToolsGet_kept k h, fun k _ h =>
      specAnalysisSet_kept k h, fun k _ h => specAnalysisQuery_kept k h, fun k _ h => specRecipeInfo_kept k h, fun k
      _ h => specCodingStructure_kept k h, fun k _ h => specCodingSei_kept k h, fun k _ h =>
      specCodingStructureGet_kept k h, fun k _ h => specRcSet_kept k h, fun k _ h => specRcGet_kept k h, fun k _ h
      => specRcQuery_kept k h, fun k _ h => specDelayQuery_kept k h⟩
theorem eciCompose_kept {s₀ : State} : ∀ e ∈ eciCompose, ∀ (k : Cmd) {s : State}, s₀.Kept s → Answer.kept s₀
    (e.run k s) := by
  simp only [eciCompose, List.forall_mem_cons, List.not_mem_nil, false_implies, implies_true, and_true]
  exact ⟨fun k _ h => specComposeSet_kept k h, fun k _ h => specLayerCreate_kept k h, fun k _ h =>
      specLayerSet_kept k h, fun k _ h => specLayerCommit_kept k h, fun k _ h => specLayerDestroy_kept k h, fun k _
      h => specLayerQuery_kept k h, fun k _ h => specRenditionScale_kept k h, fun k _ h => specScalerCoefSet_kept k
      h, fun k _ h => specScalerCoefGet_kept k h⟩
theorem eciSchedCmds_kept {s₀ : State} : ∀ e ∈ eciSchedCmds, ∀ (k : Cmd) {s : State}, s₀.Kept s → Answer.kept s₀
    (e.run k s) := by
  simp only [eciSchedCmds, List.forall_mem_cons, List.not_mem_nil, false_implies, implies_true, and_true]
  exact ⟨fun k _ h => specSchedStatus_kept k h, fun k _ h => specSchedLocks_kept k h, fun k _ h =>
      specSchedFlows_kept k h, fun k _ h => specTraceCreate_kept k h, fun k _ h => specTraceStart_kept k h, fun k _
      h => specTraceStop_kept k h, fun k _ h => specTraceStatus_kept k h, fun k _ h => specTraceDestroy_kept k h⟩
theorem eciDecodeCh_kept {s₀ : State} : ∀ e ∈ eciDecodeCh, ∀ (k : Cmd) {s : State}, s₀.Kept s → Answer.kept s₀
    (e.run k s) := by
  simp only [eciDecodeCh, List.forall_mem_cons, List.not_mem_nil, false_implies, implies_true, and_true]
  exact ⟨fun k _ h => specDecodeCreate_kept k h, fun k _ h => specDecodeSubmit_kept k h, fun k _ h =>
      specDecodeReturn_kept k h, fun k _ h => specDecodeQuery_kept k h, fun k _ h => specChannelMode_kept k h, fun k
      _ h => specPicSubmit_kept k h, fun k _ h => specRefRing_kept k h, fun k _ h => specJigSet_kept k h, fun k _ h
      => specStatsSet_kept k h, fun k _ h => specStatsRead_kept k h, fun k _ h => specCheckBind_kept k h, fun k _ h
      => specCheckUnbind_kept k h, fun k _ h => specCheckExpect_kept k h, fun k _ h => specCheckQuery_kept k h⟩
theorem eciAudio_kept {s₀ : State} : ∀ e ∈ eciAudio, ∀ (k : Cmd) {s : State}, s₀.Kept s → Answer.kept s₀ (e.run
    k s) := by
  simp only [eciAudio, List.forall_mem_cons, List.not_mem_nil, false_implies, implies_true, and_true]
  exact ⟨fun k _ h => specAudioPortSet_kept k h, fun k _ h => specAudioPortSlots_kept k h, fun k _ h =>
      specAudioPortQuery_kept k h, fun k _ h => specFrameClockSet_kept k h, fun k _ h => specAudioProgramCreate_kept
      k h, fun k _ h => specAudioProgramSet_kept k h, fun k _ h => specAudioProgramDestroy_kept k h, fun k _ h =>
      specAudioProgramQuery_kept k h, fun k _ h => specAsrcQuery_kept k h, fun k _ h => specAudioRateQuery_kept k h,
      fun k _ h => specAudioEmbedSet_kept k h⟩
theorem eciNet_kept {s₀ : State} : ∀ e ∈ eciNet, ∀ (k : Cmd) {s : State}, s₀.Kept s → Answer.kept s₀ (e.run k s) := by
  simp only [eciNet, List.forall_mem_cons, List.not_mem_nil, false_implies, implies_true, and_true]
  exact ⟨fun k _ h => specIngressCreate_kept k h, fun k _ h => specIngressDestroy_kept k h, fun k _ h =>
      specIngressQuery_kept k h, fun k _ h => specEgressCreate_kept k h, fun k _ h => specEgressSet_kept k h, fun k
      _ h => specEgressDestroy_kept k h, fun k _ h => specEgressQuery_kept k h, fun k _ h =>
      specEgressProvenance_kept k h, fun k _ h => specEgressKey_kept k h, fun k _ h => specEgressImpair_kept k h,
      fun k _ h => specShaperSet_kept k h, fun k _ h => specGatelistSet_kept k h, fun k _ h =>
      specGatelistQuery_kept k h, fun k _ h => specPolicerCreate_kept k h, fun k _ h => specPolicerSet_kept k h, fun
      k _ h => specPolicerDestroy_kept k h, fun k _ h => specPortAddr_kept k h, fun k _ h => specArbiterMode_kept k
      h⟩
theorem eciTime_kept {s₀ : State} : ∀ e ∈ eciTime, ∀ (k : Cmd) {s : State}, s₀.Kept s → Answer.kept s₀ (e.run k s) := by
  simp only [eciTime, List.forall_mem_cons, List.not_mem_nil, false_implies, implies_true, and_true]
  exact ⟨fun k _ h => specTimeQuery_kept k h, fun k _ h => specServoSet_kept k h, fun k _ h =>
      specServoReset_kept k h, fun k _ h => specPtpSet_kept k h, fun k _ h => specPtpPortSet_kept k h, fun k _ h =>
      specPpsSet_kept k h, fun k _ h => specTimeSetTod_kept k h, fun k _ h => specDomainSet_kept k h, fun k _ h =>
      specChannelAlign_kept k h, fun k _ h => specAlignQuery_kept k h⟩
theorem eciLane_kept {s₀ : State} : ∀ e ∈ eciLane, ∀ (k : Cmd) {s : State}, s₀.Kept s → Answer.kept s₀ (e.run k s) := by
  simp only [eciLane, List.forall_mem_cons, List.not_mem_nil, false_implies, implies_true, and_true]
  exact ⟨fun k _ h => specLaneSet_kept k h, fun k _ h => specLaneTrain_kept k h, fun k _ h => specLaneQuery_kept
      k h, fun k _ h => specLaneTaps_kept k h, fun k _ h => specSdiOutSet_kept k h⟩
theorem eciMemCmds_kept {s₀ : State} : ∀ e ∈ eciMemCmds, ∀ (k : Cmd) {s : State}, s₀.Kept s → Answer.kept s₀
    (e.run k s) := by
  simp only [eciMemCmds, List.forall_mem_cons, List.not_mem_nil, false_implies, implies_true, and_true]
  exact ⟨fun k _ h => specMemQuery_kept k h, fun k _ h => specMemSet_kept k h, fun k _ h => specMemFreq_kept k
      h, fun k _ h => specMemCopy_kept k h⟩
theorem eciSecurity_kept {s₀ : State} : ∀ e ∈ eciSecurity, ∀ (k : Cmd) {s : State}, s₀.Kept s → Answer.kept s₀
    (e.run k s) := by
  simp only [eciSecurity, List.forall_mem_cons, List.not_mem_nil, false_implies, implies_true, and_true]
  exact ⟨fun k _ h => specSecQuote_kept k h, fun k _ h => specSecCerts_kept k h, fun k _ h => specProvKey_kept k
      h, fun k _ h => specKeyImport_kept k h, fun k _ h => specKeyDestroy_kept k h, fun k _ h =>
      specSecLcAdvance_kept k h, fun k _ h => specSecOwnerKeyAdd_kept k h, fun k _ h => specSecKeyRevoke_kept k h,
      fun k _ h => specSecSvnCommit_kept k h, fun k _ h => specSecDebugChallenge_kept k h, fun k _ h =>
      specSecDebugUnlock_kept k h, fun k _ h => specSecTamperSet_kept k h, fun k _ h => specSecTamperLog_kept k h,
      fun k _ h => specSecTamperClear_kept k h, fun k _ h => specSecCounter_kept k h, fun k _ h =>
      specSecCredSet_kept k h, fun k _ h => specDeviceImageLoad_kept k h⟩
theorem eciMp_kept {s₀ : State} : ∀ e ∈ eciMp, ∀ (k : Cmd) {s : State}, s₀.Kept s → Answer.kept s₀ (e.run k s) := by
  simp only [eciMp, List.forall_mem_cons, List.not_mem_nil, false_implies, implies_true, and_true]
  exact ⟨fun k _ h => specMpRepair_kept k h, fun k _ h => specHealthQuery_kept k h, fun k _ h =>
      specBootSlotSet_kept k h, fun k _ h => specIsstQuery_kept k h, fun k _ h => specKaLog_kept k h, fun k _ h =>
      specThermQuery_kept k h⟩
theorem eciHealth_kept {s₀ : State} : ∀ e ∈ eciHealth, ∀ (k : Cmd) {s : State}, s₀.Kept s → Answer.kept s₀
    (e.run k s) := by
  simp only [eciHealth, List.forall_mem_cons, List.not_mem_nil, false_implies, implies_true, and_true]
  exact fun k _ h => specDieRepair_kept k h
theorem eciTable_kept {s₀ : State} : ∀ e ∈ eciTable, ∀ (k : Cmd) {s : State}, s₀.Kept s → Answer.kept s₀ (e.run
    k s) := by
  intro e he
  simp only [eciTable, List.mem_append, or_assoc] at he
  rcases he with h | h | h | h | h | h | h | h | h | h | h | h | h | h | h
  · exact eciDeviceCmds_kept e h
  · exact eciSessions_kept e h
  · exact eciChannels_kept e h
  · exact eciCoding_kept e h
  · exact eciCompose_kept e h
  · exact eciSchedCmds_kept e h
  · exact eciDecodeCh_kept e h
  · exact eciAudio_kept e h
  · exact eciNet_kept e h
  · exact eciTime_kept e h
  · exact eciLane_kept e h
  · exact eciMemCmds_kept e h
  · exact eciSecurity_kept e h
  · exact eciMp_kept e h
  · exact eciHealth_kept e h
theorem execFastPathServe_kept {s : State} (f : Fn) {s₀ : State} (hk : s₀.Kept s) : Out.kept s₀
    (execFastPathServe f s) := by
  unfold execFastPathServe
  split
  · exact next_kept hk
  · lift_lets
    intro b src sub t s1 k
    split
    · exact next_kept hk
    · have h1 : s₀.Kept s1 := modEci_kept (.same rfl) (State.modFn_kept _ _ hk)
      clear_value s1
      split
      · exact next_kept (State.complete_kept _ _ h1)
      · next e he =>
        exact next_kept (Answer.settle_kept _ (EciSpec.serve_kept e _ h1 (eciTable_kept e
            (List.mem_of_find?_eq_some he) _ h1)))

/-! ### NetData -/

@[simp] theorem State.modIng_kept {s : State} (h : Nat) (f : Ingress → Ingress) {s₀ : State} (hk : s₀.Kept s) :
    s₀.Kept (State.modIng s h f) := by
  unfold State.modIng
  repeat' (first
      | with_reducible assumption | with_reducible apply modNet_kept | split | dsimp only
      | (simp (maxDischargeDepth := 9) [*]; done))

theorem State.police_kept {s s₀ : State} {n b : Nat} (hk : s₀.Kept s) : s₀.Kept (s.police n b).2 := by
  simp only [State.police]
  repeat' (first
      | with_reducible assumption | with_reducible apply modNet_kept | with_reducible apply State.raise_kept | split
      | dsimp only)
theorem State.police_kept' {s t s₀ : State} {n b : Nat} {x : Bool} (he : s.police n b = (x, t)) (hk : s₀.Kept s)
    : s₀.Kept t := by
  have := State.police_kept (n := n) (b := b) hk
  rwa [he] at this

@[simp] theorem State.pictureTime_kept {s : State} (h ts : Nat) {s₀ : State} (hk : s₀.Kept s) : s₀.Kept
    (State.pictureTime s h ts) := by
  unfold State.pictureTime
  repeat' (first
      | with_reducible assumption | with_reducible apply State.modIng_kept | with_reducible apply State.raise_kept
      | split | dsimp only | (simp (maxDischargeDepth := 9) [*]; done))

@[simp] theorem State.toDecoder_kept {s : State} (h : Nat) (data : List Byte) (lost : Bool) {s₀ : State} (hk :
    s₀.Kept s) : s₀.Kept (State.toDecoder s h data lost) := by
  unfold State.toDecoder
  repeat' (first
      | with_reducible assumption | with_reducible apply modDec_kept | split | dsimp only
      | (simp (maxDischargeDepth := 9) [*]; done))

@[simp] theorem State.takeTs_kept {s : State} (h : Nat) (l : List (List Byte)) {s₀ : State} (hk : s₀.Kept s) :
    s₀.Kept (s.takeTs h l) := by
  induction l generalizing s with
  | nil => exact hk
  | cons b r ih =>
    unfold State.takeTs
    lift_lets
    intro g
    refine ih ?_
    dsimp only
    split
    · exact State.toDecoder_kept _ _ _ (State.modIng_kept _ _ hk)
    · exact State.modIng_kept _ _ hk

@[simp] theorem State.handOn_kept {s : State} (h : Nat) (d : List Byte) {s₀ : State} (hk : s₀.Kept s) : s₀.Kept
    (State.handOn s h d) := by
  unfold State.handOn
  repeat' (first
      | with_reducible assumption | with_reducible apply State.takeTs_kept
      | with_reducible apply State.toDecoder_kept | with_reducible apply State.modIng_kept | split | dsimp only
      | (simp (maxDischargeDepth := 9) [*]; done))

@[simp] theorem State.handOnAll_kept {s : State} (h : Nat) (n : Nat) {s₀ : State} (hk : s₀.Kept s) : s₀.Kept
    (State.handOnAll s h n) := by
  induction n generalizing s with
  | zero => exact hk
  | succ n ih =>
    unfold State.handOnAll
    repeat' (first
        | with_reducible assumption | with_reducible apply State.handOn_kept
        | with_reducible apply State.modIng_kept | with_reducible apply next_kept | with_reducible apply ih | split
        | dsimp only | (simp (maxDischargeDepth := 9) [*]; done))

@[simp] theorem State.takeRtp_kept {s : State} (h w : Nat) (d : List Byte) {s₀ : State} (hk : s₀.Kept s) :
    s₀.Kept (State.takeRtp s h w d) := by
  unfold State.takeRtp
  repeat' (first
      | with_reducible assumption | with_reducible apply State.handOnAll_kept
      | with_reducible apply State.pictureTime_kept | with_reducible apply State.modIng_kept
      | with_reducible apply State.fresh_kept | with_reducible apply next_kept | split | dsimp only
      | (simp (maxDischargeDepth := 9) [*]; done))

@[simp] theorem State.ingressTake_kept {s : State} (h path : Nat) (f : RxFrame) {s₀ : State} (hk : s₀.Kept s) :
    s₀.Kept (State.ingressTake s h path f) := by
  unfold State.ingressTake
  repeat' (first
      | with_reducible assumption | with_reducible apply State.takeRtp_kept | with_reducible apply State.takeTs_kept
      | with_reducible apply State.modIng_kept | with_reducible apply State.captionPacket_kept | split | dsimp only
      | (simp (maxDischargeDepth := 9) [*]; done))

@[simp] theorem State.dropIngress_kept {s : State} (i : Nat) {s₀ : State} (hk : s₀.Kept s) : s₀.Kept
    (State.dropIngress s i) := by
  unfold State.dropIngress
  repeat' (first
      | with_reducible assumption | with_reducible apply State.modNp_kept | with_reducible apply State.raise_kept
      | split | dsimp only | (simp (maxDischargeDepth := 9) [*]; done))

@[simp] theorem State.ingressFrame_kept {s : State} (f : RxFrame) (h path : Nat) {s₀ : State} (hk : s₀.Kept s) :
    s₀.Kept (State.ingressFrame s f h path) := by
  unfold State.ingressFrame
  repeat' (first
      | with_reducible assumption | with_reducible apply State.ingressTake_kept
      | with_reducible apply State.modIng_kept | with_reducible apply State.police_kept
      | refine State.police_kept' (by assumption) ?_ | split | dsimp only
      | (simp (maxDischargeDepth := 9) [*]; done))

theorem execIngressPacket_kept {s : State} (port : Fin 18) (f : RxFrame) {s₀ : State} (hk : s₀.Kept s) :
    Out.kept s₀ (execIngressPacket port f s) := by
  unfold execIngressPacket
  lift_lets
  intro i bytes lane s1
  have h1 : s₀.Kept s1 := State.laneErrors_kept _ _ _ _ hk
  clear_value s1
  split
  · exact next_kept (State.laneErrors_kept _ _ _ _ hk)
  · split
    · exact next_kept hk
    · split
      · exact next_kept (State.modLn_kept _ _ (State.modNp_kept _ _ h1))
      · split
        · exact next_kept (State.modNp_kept _ _ h1)
        · split
          · exact next_kept (State.modNp_kept _ _ h1)
          · dsimp only
            by_cases hl : (s1.ingressMatches i f).isEmpty = true
            · rw [if_pos hl]
              have h2 : s₀.Kept (if f.exempt = true then (true, s1) else s1.police (mkHandle tPort 255 i) bytes).2 := by
                split
                · exact h1
                · exact State.police_kept h1
              generalize (if f.exempt = true then (true, s1) else s1.police (mkHandle tPort 255 i) bytes) = y at h2 ⊢
              obtain ⟨pass, u⟩ := y
              dsimp only
              split
              · exact next_kept (State.modNp_kept _ _ h2)
              · exact next_kept h2
            · rw [if_neg hl]
              split
              · exact next_kept (State.dropIngress_kept _ h1)
              · exact next_kept (foldl_kept (fun s x h => State.ingressFrame_kept _ _ _ h) h1)

theorem execPacketLossDeclare_kept (ing : BitVec 32) {s : State} {s₀ : State} (hk : s₀.Kept s) : Out.kept s₀
    (execPacketLossDeclare ing s) := by
  unfold execPacketLossDeclare
  repeat' (first
      | with_reducible assumption | with_reducible apply State.handOnAll_kept
      | with_reducible apply State.modIng_kept | with_reducible apply State.raise_kept
      | with_reducible apply next_kept | split | dsimp only | (simp (maxDischargeDepth := 9) [*]; done))

@[simp] theorem State.modPath_kept {s : State} (h i : Nat) (f : Path → Path) {s₀ : State} (hk : s₀.Kept s) :
    s₀.Kept (State.modPath s h i f) := by
  unfold State.modPath
  repeat' (first
      | with_reducible assumption | with_reducible apply State.modIng_kept | split | dsimp only
      | (simp (maxDischargeDepth := 9) [*]; done))

theorem execPathDownTimeout_kept (ing : BitVec 32) (path : Fin 2) {s : State} {s₀ : State} (hk : s₀.Kept s) :
    Out.kept s₀ (execPathDownTimeout ing path s) := by
  unfold execPathDownTimeout
  repeat' (first
      | with_reducible assumption | with_reducible apply State.modPath_kept | with_reducible apply State.raise_kept
      | with_reducible apply next_kept | split | dsimp only | (simp (maxDischargeDepth := 9) [*]; done))

theorem execPathUp_kept (ing : BitVec 32) (path : Fin 2) {s : State} {s₀ : State} (hk : s₀.Kept s) : Out.kept s₀
    (execPathUp ing path s) := by
  unfold execPathUp
  repeat' (first
      | with_reducible assumption | with_reducible apply State.modPath_kept | with_reducible apply State.fresh_kept
      | with_reducible apply State.raise_kept | with_reducible apply next_kept | split | dsimp only
      | (simp (maxDischargeDepth := 9) [*]; done))

@[simp] theorem State.refillShaper_kept {s : State} (port c : Nat) {s₀ : State} (hk : s₀.Kept s) : s₀.Kept
    (State.refillShaper s port c) := by
  unfold State.refillShaper
  repeat' (first
      | with_reducible assumption | with_reducible apply State.modShp_kept | split | dsimp only
      | (simp (maxDischargeDepth := 9) [*]; done))

@[simp] theorem State.runTs_kept {s : State} (h : Nat) (n : Nat) {s₀ : State} (hk : s₀.Kept s) : s₀.Kept
    (State.runTs s h n) := by
  induction n generalizing s with
  | zero => exact hk
  | succ n ih =>
    unfold State.runTs
    repeat' (first
        | with_reducible assumption | with_reducible apply State.tsDatagram_kept
        | with_reducible apply State.runPacer_kept | with_reducible apply ih | split | dsimp only
        | (simp (maxDischargeDepth := 9) [*]; done))

@[simp] theorem State.refillPacer_kept {s : State} (h : Nat) {s₀ : State} (hk : s₀.Kept s) : s₀.Kept
    (State.refillPacer s h) := by
  unfold State.refillPacer
  repeat' (first
      | with_reducible assumption | with_reducible apply State.runTs_kept
      | with_reducible apply State.endStream_kept | with_reducible apply State.runPacer_kept
      | with_reducible apply State.modEg_kept | split | dsimp only | (simp (maxDischargeDepth := 9) [*]; done))

theorem execRefillTick_kept {s : State} {s₀ : State} (hk : s₀.Kept s) : Out.kept s₀ (execRefillTick s) := by
  unfold execRefillTick
  repeat' (first
      | with_reducible assumption | with_reducible apply State.refillPacer_kept
      | with_reducible apply State.refillShaper_kept | with_reducible apply State.applyStaged_kept
      | with_reducible apply State.sendAll_kept | with_reducible apply State.tick_kept
      | with_reducible apply next_kept | with_reducible apply modNet_kept | with_reducible apply foldl_kept
      | with_reducible apply State.police_kept | refine State.police_kept' (by assumption) ?_ | split | dsimp only
      | intro _ | (simp (maxDischargeDepth := 9) [*]; done))

theorem execFrameTxEnd_kept (port : Fin 18) {s : State} {s₀ : State} (hk : s₀.Kept s) : Out.kept s₀
    (execFrameTxEnd port s) := by
  unfold execFrameTxEnd
  repeat' (first
      | with_reducible assumption | with_reducible apply State.endStream_kept
      | with_reducible apply State.trySend_kept | with_reducible apply State.modNp_kept
      | with_reducible apply next_kept | split | dsimp only | (simp (maxDischargeDepth := 9) [*]; done))

theorem execGatelistStart_kept (port : Fin 18) {s : State} {s₀ : State} (hk : s₀.Kept s) : Out.kept s₀
    (execGatelistStart port s) := by
  unfold execGatelistStart
  repeat' (first
      | with_reducible assumption | with_reducible apply State.trySend_kept | with_reducible apply State.modNp_kept
      | with_reducible apply State.raiseTo_kept | with_reducible apply next_kept | split | dsimp only
      | (simp (maxDischargeDepth := 9) [*]; done))

theorem execGateEntryChange_kept (port : Fin 18) {s : State} {s₀ : State} (hk : s₀.Kept s) : Out.kept s₀
    (execGateEntryChange port s) := by
  unfold execGateEntryChange
  repeat' (first
      | with_reducible assumption | with_reducible apply State.trySend_kept | with_reducible apply State.modNp_kept
      | with_reducible apply next_kept | split | dsimp only | (simp (maxDischargeDepth := 9) [*]; done))

theorem execLpiWakeExpiry_kept (lane : Fin 16) {s : State} {s₀ : State} (hk : s₀.Kept s) : Out.kept s₀
    (execLpiWakeExpiry lane s) := by
  unfold execLpiWakeExpiry
  repeat' (first
      | with_reducible assumption | with_reducible apply State.trySend_kept | with_reducible apply State.modLn_kept
      | with_reducible apply next_kept | split | dsimp only | (simp (maxDischargeDepth := 9) [*]; done))

theorem execPtpSendTrigger_kept (port : Fin 16) (m : PtpSend) {s : State} {s₀ : State} (hk : s₀.Kept s) :
    Out.kept s₀ (execPtpSendTrigger port m s) := by
  unfold execPtpSendTrigger
  repeat' (first
      | with_reducible assumption | with_reducible apply State.enqueueFrame_kept
      | with_reducible apply State.trySend_kept | with_reducible apply State.modPtp_kept
      | with_reducible apply next_kept | split | dsimp only | (simp (maxDischargeDepth := 9) [*]; done))

@[simp] theorem State.sendOutOfBand_kept {s : State} (h number : Nat) (m : List Byte) {s₀ : State} (hk : s₀.Kept
    s) : s₀.Kept (State.sendOutOfBand s h number m) := by
  unfold State.sendOutOfBand
  repeat' (first
      | with_reducible assumption | with_reducible apply State.enqueueFrame_kept | with_reducible apply foldl_kept
      | split | dsimp only | intro _ | (simp (maxDischargeDepth := 9) [*]; done))

@[simp] theorem State.carryInBand_kept {s : State} (h number : Nat) (m : List Byte) {s₀ : State} (hk : s₀.Kept
    s) : s₀.Kept (State.carryInBand s h number m) := by
  unfold State.carryInBand
  repeat' (first
      | with_reducible assumption | with_reducible apply State.modEg_kept | with_reducible apply State.raise_kept
      | split | dsimp only | (simp (maxDischargeDepth := 9) [*]; done))

theorem execManifestSigned_kept (eg : BitVec 32) {s : State} {s₀ : State} (hk : s₀.Kept s) : Out.kept s₀
    (execManifestSigned eg s) := by
  unfold execManifestSigned
  repeat' (first
      | with_reducible assumption | with_reducible apply State.carryInBand_kept
      | with_reducible apply State.sendOutOfBand_kept | with_reducible apply State.endStream_kept
      | with_reducible apply State.sendAll_kept | with_reducible apply State.modEg_kept
      | with_reducible apply next_kept | split | dsimp only | (simp (maxDischargeDepth := 9) [*]; done))

@[simp] theorem State.sendBytes_kept {s : State} (h time : Nat) (final : Bool) (head : Nat → Nat → List Byte) (b
    : List Byte) {s₀ : State} (hk : s₀.Kept s) : s₀.Kept (State.sendBytes s h time final head b) := by
  unfold State.sendBytes
  repeat' (first
      | with_reducible assumption | with_reducible apply State.queuePacket_kept
      | with_reducible apply State.runPacer_kept | with_reducible apply foldl_kept | split | dsimp only | intro _
      | (simp (maxDischargeDepth := 9) [*]; done))

@[simp] theorem State.sdiEgress_kept {s : State} (lane : Nat) (line : SdiLine) {s₀ : State} (hk : s₀.Kept s) :
    s₀.Kept (State.sdiEgress s lane line) := by
  unfold State.sdiEgress
  repeat' (first
      | with_reducible assumption | with_reducible apply State.sendBytes_kept | with_reducible apply foldl_kept
      | split | dsimp only | intro _ | (simp (maxDischargeDepth := 9) [*]; done))

theorem execSdiLineReceive_kept (lane : Fin 16) (line : SdiLine) {s : State} {s₀ : State} (hk : s₀.Kept s) :
    Out.kept s₀ (execSdiLineReceive lane line s) := by
  unfold execSdiLineReceive
  repeat' (first
      | with_reducible assumption | with_reducible apply State.sdiEgress_kept
      | with_reducible apply State.sendAll_kept | with_reducible apply State.sdiLine_kept
      | with_reducible apply State.modLn_kept | with_reducible apply next_kept | split | dsimp only
      | (simp (maxDischargeDepth := 9) [*]; done))

/-! ### Every command and every step -/

/-- A command keeps the queue, a sound clock and canonical memories. -/
theorem exec_kept (i : Instr) {s s₀ : State} (hk : s₀.Kept s) : Out.kept s₀ (exec i s) := by
  cases i with
  | registerWrite x0 x1 x2 x3 x4 => exact execRegisterWrite_kept _ _ _ _ _ hk
  | eciEnable x0 => exact execEciEnable_kept _ hk
  | eciDisable x0 => exact execEciDisable_kept _ hk
  | eciRdySet x0 => exact execEciRdySet_kept _ hk
  | dbSqWrite x0 x1 x2 x3 => exact execDbSqWrite_kept _ _ _ _ hk
  | sqPoll x0 x1 x2 => exact execSqPoll_kept _ _ _ hk
  | dbFastWrite x0 x1 => exact execDbFastWrite_kept _ _ hk
  | fastPathServe x0 => exact execFastPathServe_kept _ hk
  | intCauseClear x0 x1 => exact execIntCauseClear_kept _ _ hk
  | intMaskWrite x0 x1 => exact execIntMaskWrite_kept _ _ hk
  | coalesceTimeout x0 x1 => exact execCoalesceTimeout_kept _ _ hk
  | mailboxHostWrite x0 x1 x2 x3 x4 => exact execMailboxHostWrite_kept _ _ _ _ _ hk
  | bootStageCapture x0 => exact execBootStageCapture_kept _ hk
  | timeNsCapture x0 => exact execTimeNsCapture_kept _ hk
  | recStateCapture => exact execRecStateCapture_kept hk
  | mbxCollideCntRead x0 => exact execMbxCollideCntRead_kept _ hk
  | functionLevelReset x0 => exact execFunctionLevelReset_kept _ hk
  | vfRemoval x0 => exact execVfRemoval_kept _ hk
  | vfEnable x0 => exact execVfEnable_kept _ hk
  | perstNAssert => exact execPerstNAssert_kept hk
  | perstNRelease => exact execPerstNRelease_kept hk
  | pcieLinkDown => exact execPcieLinkDown_kept hk
  | pcieLinkReturn => exact execPcieLinkReturn_kept hk
  | pcieLinkLossTimeout => exact execPcieLinkLossTimeout_kept hk
  | pcieLinkTrained x0 x1 x2 => exact execPcieLinkTrained_kept _ _ _ hk
  | pcieEqRequest x0 x1 => exact execPcieEqRequest_kept _ _ hk
  | aspmL0sEntry => exact execAspmL0sEntry_kept hk
  | aspmL1Entry => exact execAspmL1Entry_kept hk
  | bar2Access x0 x1 x2 => exact execBar2Access_kept _ _ _ hk
  | sessionConnect x0 x1 => exact execSessionConnect_kept _ _ hk
  | handshakeH1 x0 x1 => exact execHandshakeH1_kept _ _ hk
  | handshakeH3 x0 x1 => exact execHandshakeH3_kept _ _ hk
  | handshakeTimeout x0 => exact execHandshakeTimeout_kept _ hk
  | connectionLockoutEnd => exact execConnectionLockoutEnd_kept hk
  | protectedFrame x0 x1 => exact execProtectedFrame_kept _ _ hk
  | sessionIdleTimeout x0 => exact execSessionIdleTimeout_kept _ hk
  | stagedSetArrival => exact execStagedSetArrival_kept hk
  | restartDelayExpiry => exact execRestartDelayExpiry_kept hk
  | deviceIdentify x0 => exact execDeviceIdentify_kept _ hk
  | deviceStatus x0 => exact execDeviceStatus_kept _ hk
  | deviceEventMask x0 => exact execDeviceEventMask_kept _ hk
  | queueCreate x0 => exact execQueueCreate_kept _ hk
  | queueDelete x0 => exact execQueueDelete_kept _ hk
  | objectList x0 => exact execObjectList_kept _ hk
  | objectReassign x0 => exact execObjectReassign_kept _ hk
  | deviceVfQuota x0 => exact execDeviceVfQuota_kept _ hk
  | deviceImageLoad x0 => exact execDeviceImageLoad_kept _ hk
  | deviceRestart x0 => exact execDeviceRestart_kept _ hk
  | deviceNop x0 => exact execDeviceNop_kept _ hk
  | sessionOpen x0 => exact execSessionOpen_kept _ hk
  | sessionClose x0 => exact execSessionClose_kept _ hk
  | sessionKeepalive x0 => exact execSessionKeepalive_kept _ hk
  | channelCreate x0 => exact execChannelCreate_kept _ hk
  | channelAdmitCheck x0 => exact execChannelAdmitCheck_kept _ hk
  | channelSet x0 => exact execChannelSet_kept _ hk
  | channelStart x0 => exact execChannelStart_kept _ hk
  | channelStop x0 => exact execChannelStop_kept _ hk
  | channelDestroy x0 => exact execChannelDestroy_kept _ hk
  | channelQuery x0 => exact execChannelQuery_kept _ hk
  | slotTableSet x0 => exact execSlotTableSet_kept _ hk
  | slotTableGet x0 => exact execSlotTableGet_kept _ hk
  | slateCreate x0 => exact execSlateCreate_kept _ hk
  | slateDestroy x0 => exact execSlateDestroy_kept _ hk
  | dieLoad x0 => exact execDieLoad_kept _ hk
  | codingTools x0 => exact execCodingTools_kept _ hk
  | codingToolsGet x0 => exact execCodingToolsGet_kept _ hk
  | analysisSet x0 => exact execAnalysisSet_kept _ hk
  | analysisQuery x0 => exact execAnalysisQuery_kept _ hk
  | recipeInfo x0 => exact execRecipeInfo_kept _ hk
  | codingStructure x0 => exact execCodingStructure_kept _ hk
  | codingSei x0 => exact execCodingSei_kept _ hk
  | codingStructureGet x0 => exact execCodingStructureGet_kept _ hk
  | rcSet x0 => exact execRcSet_kept _ hk
  | rcGet x0 => exact execRcGet_kept _ hk
  | rcQuery x0 => exact execRcQuery_kept _ hk
  | delayQuery x0 => exact execDelayQuery_kept _ hk
  | schedStatus x0 => exact execSchedStatus_kept _ hk
  | schedLocks x0 => exact execSchedLocks_kept _ hk
  | schedFlows x0 => exact execSchedFlows_kept _ hk
  | traceCreate x0 => exact execTraceCreate_kept _ hk
  | traceStart x0 => exact execTraceStart_kept _ hk
  | traceStop x0 => exact execTraceStop_kept _ hk
  | traceStatus x0 => exact execTraceStatus_kept _ hk
  | traceDestroy x0 => exact execTraceDestroy_kept _ hk
  | decodeCreate x0 => exact execDecodeCreate_kept _ hk
  | decodeSubmit x0 => exact execDecodeSubmit_kept _ hk
  | decodeReturn x0 => exact execDecodeReturn_kept _ hk
  | decodeQuery x0 => exact execDecodeQuery_kept _ hk
  | channelMode x0 => exact execChannelMode_kept _ hk
  | picSubmit x0 => exact execPicSubmit_kept _ hk
  | refRing x0 => exact execRefRing_kept _ hk
  | jigSet x0 => exact execJigSet_kept _ hk
  | statsSet x0 => exact execStatsSet_kept _ hk
  | statsRead x0 => exact execStatsRead_kept _ hk
  | checkBind x0 => exact execCheckBind_kept _ hk
  | checkUnbind x0 => exact execCheckUnbind_kept _ hk
  | checkExpect x0 => exact execCheckExpect_kept _ hk
  | checkQuery x0 => exact execCheckQuery_kept _ hk
  | composeSet x0 => exact execComposeSet_kept _ hk
  | layerCreate x0 => exact execLayerCreate_kept _ hk
  | layerSet x0 => exact execLayerSet_kept _ hk
  | layerCommit x0 => exact execLayerCommit_kept _ hk
  | layerDestroy x0 => exact execLayerDestroy_kept _ hk
  | layerQuery x0 => exact execLayerQuery_kept _ hk
  | renditionScale x0 => exact execRenditionScale_kept _ hk
  | scalerCoefSet x0 => exact execScalerCoefSet_kept _ hk
  | scalerCoefGet x0 => exact execScalerCoefGet_kept _ hk
  | audioPortSet x0 => exact execAudioPortSet_kept _ hk
  | audioPortSlots x0 => exact execAudioPortSlots_kept _ hk
  | audioPortQuery x0 => exact execAudioPortQuery_kept _ hk
  | frameClockSet x0 => exact execFrameClockSet_kept _ hk
  | audioProgramCreate x0 => exact execAudioProgramCreate_kept _ hk
  | audioProgramSet x0 => exact execAudioProgramSet_kept _ hk
  | audioProgramDestroy x0 => exact execAudioProgramDestroy_kept _ hk
  | audioProgramQuery x0 => exact execAudioProgramQuery_kept _ hk
  | asrcQuery x0 => exact execAsrcQuery_kept _ hk
  | audioRateQuery x0 => exact execAudioRateQuery_kept _ hk
  | audioEmbedSet x0 => exact execAudioEmbedSet_kept _ hk
  | ingressCreate x0 => exact execIngressCreate_kept _ hk
  | ingressDestroy x0 => exact execIngressDestroy_kept _ hk
  | ingressQuery x0 => exact execIngressQuery_kept _ hk
  | egressCreate x0 => exact execEgressCreate_kept _ hk
  | egressSet x0 => exact execEgressSet_kept _ hk
  | egressDestroy x0 => exact execEgressDestroy_kept _ hk
  | egressQuery x0 => exact execEgressQuery_kept _ hk
  | egressProvenance x0 => exact execEgressProvenance_kept _ hk
  | egressKey x0 => exact execEgressKey_kept _ hk
  | egressImpair x0 => exact execEgressImpair_kept _ hk
  | shaperSet x0 => exact execShaperSet_kept _ hk
  | gatelistSet x0 => exact execGatelistSet_kept _ hk
  | gatelistQuery x0 => exact execGatelistQuery_kept _ hk
  | policerCreate x0 => exact execPolicerCreate_kept _ hk
  | policerSet x0 => exact execPolicerSet_kept _ hk
  | policerDestroy x0 => exact execPolicerDestroy_kept _ hk
  | portAddr x0 => exact execPortAddr_kept _ hk
  | provKey x0 => exact execProvKey_kept _ hk
  | arbiterMode x0 => exact execArbiterMode_kept _ hk
  | timeQuery x0 => exact execTimeQuery_kept _ hk
  | servoSet x0 => exact execServoSet_kept _ hk
  | servoReset x0 => exact execServoReset_kept _ hk
  | ptpSet x0 => exact execPtpSet_kept _ hk
  | ptpPortSet x0 => exact execPtpPortSet_kept _ hk
  | ppsSet x0 => exact execPpsSet_kept _ hk
  | timeSetTod x0 => exact execTimeSetTod_kept _ hk
  | domainSet x0 => exact execDomainSet_kept _ hk
  | channelAlign x0 => exact execChannelAlign_kept _ hk
  | alignQuery x0 => exact execAlignQuery_kept _ hk
  | laneSet x0 => exact execLaneSet_kept _ hk
  | laneTrain x0 => exact execLaneTrain_kept _ hk
  | laneQuery x0 => exact execLaneQuery_kept _ hk
  | laneTaps x0 => exact execLaneTaps_kept _ hk
  | sdiOutSet x0 => exact execSdiOutSet_kept _ hk
  | memQuery x0 => exact execMemQuery_kept _ hk
  | memSet x0 => exact execMemSet_kept _ hk
  | memFreq x0 => exact execMemFreq_kept _ hk
  | memCopy x0 => exact execMemCopy_kept _ hk
  | secQuote x0 => exact execSecQuote_kept _ hk
  | secCerts x0 => exact execSecCerts_kept _ hk
  | keyImport x0 => exact execKeyImport_kept _ hk
  | keyDestroy x0 => exact execKeyDestroy_kept _ hk
  | secLcAdvance x0 => exact execSecLcAdvance_kept _ hk
  | secOwnerKeyAdd x0 => exact execSecOwnerKeyAdd_kept _ hk
  | secKeyRevoke x0 => exact execSecKeyRevoke_kept _ hk
  | secSvnCommit x0 => exact execSecSvnCommit_kept _ hk
  | secDebugChallenge x0 => exact execSecDebugChallenge_kept _ hk
  | secDebugUnlock x0 => exact execSecDebugUnlock_kept _ hk
  | secTamperSet x0 => exact execSecTamperSet_kept _ hk
  | secTamperLog x0 => exact execSecTamperLog_kept _ hk
  | secTamperClear x0 => exact execSecTamperClear_kept _ hk
  | secCounter x0 => exact execSecCounter_kept _ hk
  | secCredSet x0 => exact execSecCredSet_kept _ hk
  | healthQuery x0 => exact execHealthQuery_kept _ hk
  | bootSlotSet x0 => exact execBootSlotSet_kept _ hk
  | dieRepair x0 => exact execDieRepair_kept _ hk
  | mpRepair x0 => exact execMpRepair_kept _ hk
  | isstQuery x0 => exact execIsstQuery_kept _ hk
  | kaLog x0 => exact execKaLog_kept _ hk
  | thermQuery x0 => exact execThermQuery_kept _ hk
  | recGetReasons => exact execRecGetReasons_kept hk
  | recGetAttestation => exact execRecGetAttestation_kept hk
  | recLoadImage => exact execRecLoadImage_kept hk
  | recSetBootSlot => exact execRecSetBootSlot_kept hk
  | recRestart => exact execRecRestart_kept hk
  | recFinishLcMove => exact execRecFinishLcMove_kept hk
  | recResetNormal => exact execRecResetNormal_kept hk
  | recResetRecovery => exact execRecResetRecovery_kept hk
  | pictureBoundary x0 => exact execPictureBoundary_kept _ hk
  | pipe3PictureBoundary x0 => exact execPipe3PictureBoundary_kept _ hk
  | sourcePictureMissing x0 => exact execSourcePictureMissing_kept _ hk
  | ingressPacket x0 x1 => exact execIngressPacket_kept _ _ hk
  | packetLossDeclare x0 => exact execPacketLossDeclare_kept _ hk
  | pathDownTimeout x0 x1 => exact execPathDownTimeout_kept _ _ hk
  | pathUp x0 x1 => exact execPathUp_kept _ _ hk
  | rowArrivalPost x0 x1 x2 x3 => exact execRowArrivalPost_kept _ _ _ _ hk
  | sdiRateLock x0 x1 x2 => exact execSdiRateLock_kept _ _ _ hk
  | sdiLineReceive x0 x1 => exact execSdiLineReceive_kept _ _ hk
  | pictureCopyDone x0 x1 x2 x3 => exact execPictureCopyDone_kept _ _ _ _ hk
  | compositionRowDone x0 x1 x2 => exact execCompositionRowDone_kept _ _ _ hk
  | commitAppliedReport x0 => exact execCommitAppliedReport_kept _ hk
  | analysisRowDone x0 x1 x2 x3 => exact execAnalysisRowDone_kept _ _ _ _ hk
  | descriptorEnqueue x0 x1 x2 => exact execDescriptorEnqueue_kept _ _ _ hk
  | backpressureEnd x0 => exact execBackpressureEnd_kept _ hk
  | taskPost x0 x1 x2 => exact execTaskPost_kept _ _ _ hk
  | sequencePost x0 x1 x2 x3 => exact execSequencePost_kept _ _ _ _ hk
  | flowPost x0 x1 x2 => exact execFlowPost_kept _ _ _ hk
  | taskDispatch x0 x1 => exact execTaskDispatch_kept _ _ hk
  | taskComplete x0 x1 x2 => exact execTaskComplete_kept _ _ _ hk
  | taskCancel x0 x1 => exact execTaskCancel_kept _ _ hk
  | flowSquash x0 x1 x2 => exact execFlowSquash_kept _ _ _ hk
  | deadlineExpiry x0 => exact execDeadlineExpiry_kept _ hk
  | directLockAcquire x0 x1 x2 => exact execDirectLockAcquire_kept _ _ _ hk
  | directLockRelease x0 x1 x2 => exact execDirectLockRelease_kept _ _ _ hk
  | taskWatchdog x0 x1 => exact execTaskWatchdog_kept _ _ hk
  | rowJudgement x0 => exact execRowJudgement_kept _ hk
  | commitOrder x0 x1 x2 => exact execCommitOrder_kept _ _ _ hk
  | rewindOrder x0 x1 x2 => exact execRewindOrder_kept _ _ _ hk
  | checkpointRestoreDone x0 => exact execCheckpointRestoreDone_kept _ hk
  | fillOrder x0 x1 x2 => exact execFillOrder_kept _ _ _ hk
  | partnerOrder x0 => exact execPartnerOrder_kept _ hk
  | seamDataArrival x0 x1 => exact execSeamDataArrival_kept _ _ hk
  | stitchDeadline x0 x1 x2 => exact execStitchDeadline_kept _ _ _ hk
  | stitchRelease x0 x1 => exact execStitchRelease_kept _ _ hk
  | duRecordArrival x0 => exact execDuRecordArrival_kept _ hk
  | duRelease x0 => exact execDuRelease_kept _ hk
  | manifestSigned x0 => exact execManifestSigned_kept _ hk
  | refillTick => exact execRefillTick_kept hk
  | frameTxEnd x0 => exact execFrameTxEnd_kept _ hk
  | gateEntryChange x0 => exact execGateEntryChange_kept _ hk
  | gatelistStart x0 => exact execGatelistStart_kept _ hk
  | ptpSendTrigger x0 x1 => exact execPtpSendTrigger_kept _ _ hk
  | decoderAuArrival x0 x1 => exact execDecoderAuArrival_kept _ _ hk
  | decodePictureDone x0 x1 => exact execDecodePictureDone_kept _ _ hk
  | checkValueComplete x0 x1 x2 => exact execCheckValueComplete_kept _ _ _ hk
  | sdiOutPictureBoundary x0 => exact execSdiOutPictureBoundary_kept _ hk
  | audioFsyncEdge x0 x1 => exact execAudioFsyncEdge_kept _ _ hk
  | audioClockLoss x0 => exact execAudioClockLoss_kept _ hk
  | audioSampleArrival x0 x1 => exact execAudioSampleArrival_kept _ _ hk
  | audioPositionDelivery x0 => exact execAudioPositionDelivery_kept _ hk
  | rateWindowEnd x0 x1 x2 => exact execRateWindowEnd_kept _ _ _ hk
  | asrcLock x0 x1 => exact execAsrcLock_kept _ _ hk
  | aacAuDone x0 x1 => exact execAacAuDone_kept _ _ hk
  | dspWatchdog x0 => exact execDspWatchdog_kept _ hk
  | dspRestartDone x0 => exact execDspRestartDone_kept _ hk
  | timeWrap => exact execTimeWrap_kept hk
  | maintenancePass => exact execMaintenancePass_kept hk
  | ptpMessageReceive x0 x1 x2 => exact execPtpMessageReceive_kept _ _ _ hk
  | announceReceiptTimeout x0 => exact execAnnounceReceiptTimeout_kept _ hk
  | ptpPortStateChange x0 x1 => exact execPtpPortStateChange_kept _ _ hk
  | servoHoldoverTimeout => exact execServoHoldoverTimeout_kept hk
  | ppsOutEdge => exact execPpsOutEdge_kept hk
  | ppsInEdge x0 => exact execPpsInEdge_kept _ hk
  | ppsInLost => exact execPpsInLost_kept hk
  | ref10mInLost => exact execRef10mInLost_kept hk
  | laneDetectorAssert x0 x1 => exact execLaneDetectorAssert_kept _ _ hk
  | laneUpTimer x0 => exact execLaneUpTimer_kept _ hk
  | autonegDone x0 x1 => exact execAutonegDone_kept _ _ hk
  | coeffUpdateRequest x0 x1 x2 => exact execCoeffUpdateRequest_kept _ _ _ hk
  | trainingDone x0 x1 => exact execTrainingDone_kept _ _ hk
  | trainingWaitTimeout x0 => exact execTrainingWaitTimeout_kept _ hk
  | lpiEntry x0 => exact execLpiEntry_kept _ hk
  | scrubPass x0 x1 => exact execScrubPass_kept _ _ hk
  | dramUncorrectable x0 x1 x2 => exact execDramUncorrectable_kept _ _ _ hk
  | freqChangeDone x0 x1 => exact execFreqChangeDone_kept _ _ hk
  | arbiterRequest x0 x1 x2 x3 x4 x5 x6 => exact execArbiterRequest_kept _ _ _ _ _ _ _ hk
  | arbiterCutoff x0 x1 x2 => exact execArbiterCutoff_kept _ _ _ hk
  | dowelFlitError x0 x1 => exact execDowelFlitError_kept _ _ hk
  | dowelRetrainDone x0 x1 => exact execDowelRetrainDone_kept _ _ hk
  | dowelStall x0 => exact execDowelStall_kept _ hk
  | tamperTrip x0 x1 x2 => exact execTamperTrip_kept _ _ _ hk
  | wipeDone => exact execWipeDone_kept hk
  | tapInstructionLoad x0 => exact execTapInstructionLoad_kept _ hk
  | spFatalError => exact execSpFatalError_kept hk
  | powerGood => exact execPowerGood_kept hk
  | brownOut => exact execBrownOut_kept hk
  | sysRstNLow x0 => exact execSysRstNLow_kept _ hk
  | sysRstNRelease => exact execSysRstNRelease_kept hk
  | romStart x0 x1 x2 x3 => exact execRomStart_kept _ _ _ _ hk
  | thermalWaitCheck x0 => exact execThermalWaitCheck_kept _ hk
  | imageVerifyDone x0 => exact execImageVerifyDone_kept _ hk
  | bistDone x0 => exact execBistDone_kept _ hk
  | firmwareReady => exact execFirmwareReady_kept hk
  | dieReady x0 => exact execDieReady_kept _ hk
  | dieReadyTimeout x0 => exact execDieReadyTimeout_kept _ hk
  | firmwareReadyTimeout => exact execFirmwareReadyTimeout_kept hk
  | failedStartRestart => exact execFailedStartRestart_kept hk
  | mpReport => exact execMpReport_kept hk
  | mpReportTimeout => exact execMpReportTimeout_kept hk
  | mpFatalError => exact execMpFatalError_kept hk
  | standbyStartDone => exact execStandbyStartDone_kept hk
  | takeoverComplete => exact execTakeoverComplete_kept hk
  | dieHeartbeat x0 x1 => exact execDieHeartbeat_kept _ _ hk
  | heartbeatTimeout x0 => exact execHeartbeatTimeout_kept _ hk
  | failoverStateUpdate x0 => exact execFailoverStateUpdate_kept _ hk
  | fillSetUpdate x0 x1 x2 => exact execFillSetUpdate_kept _ _ _ hk
  | isstSliceStart x0 => exact execIsstSliceStart_kept _ hk
  | isstSliceEnd x0 x1 => exact execIsstSliceEnd_kept _ _ hk
  | thermalSample x0 => exact execThermalSample_kept _ hk
  | thermTrip x0 => exact execThermTrip_kept _ hk
  | kaSwitchToBackup => exact execKaSwitchToBackup_kept hk
  | kaSwitchToMain => exact execKaSwitchToMain_kept hk
  | dieRepairBistDone x0 x1 => exact execDieRepairBistDone_kept _ _ hk
  | mpRepairBistDone x0 => exact execMpRepairBistDone_kept _ hk
  | securityProcessorRestartDone => exact execSecurityProcessorRestartDone_kept hk
  | ref10mInReturn => exact execRef10mInReturn_kept hk
  | generatedRowAvailable x0 x1 => exact execGeneratedRowAvailable_kept _ _ hk
  | fencedProcessorLateWrite x0 => exact execFencedProcessorLateWrite_kept _ hk
  | firmwareStateJournal => exact execFirmwareStateJournal_kept hk
  | lpiWakeExpiry x0 => exact execLpiWakeExpiry_kept _ hk
  | partnerLpi x0 x1 => exact execPartnerLpi_kept _ _ hk
  | sdiAdaptationFail x0 => exact execSdiAdaptationFail_kept _ hk

end Sys2Proof.Machine
end

