-- ==== Sys2Proof/Tests/Slice0.lean ====
section
/-!
SUPPORT. Tests on small states: what `WellFormed` refuses, a few single steps against the spec's own words, and for every
statement with hypotheses a state that meets them.
-/

namespace Sys2Proof.Tests

open Sys2Proof Sys2Proof.Machine

set_option Elab.async false

/-! ### Small states and entries -/

/-- PF0 has an admin queue; the device is READY on all its rails. -/
def dev : State :=
  { boot := { stage := .ready, held := false, railsGood := true, diesReady := 0xFF }
    eci := { fns := [(0, { en := true, rdy := true, queues := [(0, {})] })] } }

/-- Bytes written out. -/
def bs (l : List Nat) : List Byte := l.map (BitVec.ofNat 8)

/-- A submission to PF0's admin queue that names an object and carries a payload, inline where it fits. -/
def sub (h : Nat) (p : List Byte) : Submission :=
  { port := .ring 0 0, handle := BitVec.ofNat 32 h, flags := if p.length ≤ 24 then 0 else 1
    payloadLen := if p.length ≤ 24 then 0 else BitVec.ofNat 32 p.length
    inlineBytes := if p.length ≤ 24 then p else [], extBytes := if p.length ≤ 24 then [] else p }

/-- The fetched entry of such a submission. -/
def tokOf (op : Nat) (c : Submission) : Token :=
  { via := .ring 0 0, seq := 0, opcode := op, cmdId := 0, handle := c.handle.toNat, fence := false }

/-- The state with the entry fetched. -/
def asked (s : State) (op : Nat) (c : Submission) : State :=
  s.modEci fun e => { e with fetched := tokOf op c :: e.fetched }

/-- The state in which the command of the entry runs. -/
def taken (s : State) (op : Nat) (c : Submission) : State := (asked s op c).takeUp (tokOf op c)

/-- A claim about an ECI command is met where the entry may start, no common check refuses it and the claim's own condition
holds. -/
theorem met {row : Instr} {e : EciSpec} {op : Nat} {c : Submission} {given : Cmd → State → Prop}
    {gives : Cmd → State → Answer → Prop} (s : State)
    (h : ((asked s op c).ready op c == some (tokOf op c) && (e.judge ⟨tokOf op c, c⟩ (taken s op c)).isNone) = true)
    (hg : given ⟨tokOf op c, c⟩ (taken s op c)) : (eciClaim row e op c given gives).Met := by
  rw [Bool.and_eq_true, beq_iff_eq, Option.isNone_iff_eq_none] at h
  exact ⟨asked s op c, _, h.1, h.2, hg⟩

/-- A pair that an operation answers, with something that holds of it. -/
theorem some2 {α β : Type} {o : Option (α × β)} {p : α → β → Prop} [∀ a b, Decidable (p a b)]
    (h : (match o with | some (a, b) => decide (p a b) | none => false) = true) : ∃ a b, o = some (a, b) ∧ p a b := by
  match o, h with
  | some (a, b), h => exact ⟨a, b, rfl, of_decide_eq_true h⟩

/-- A value that an operation answers, with something that holds of it. -/
theorem some1 {α : Type} {o : Option α} {p : α → Prop} [∀ a, Decidable (p a)]
    (h : (match o with | some a => decide (p a) | none => false) = true) : ∃ a, o = some a ∧ p a := by
  match o, h with
  | some a, h => exact ⟨a, rfl, of_decide_eq_true h⟩

/-- A place that admission chooses, with something that holds of it. -/
theorem placed {α β : Type} {o : Except α β} {p : β → Prop} [∀ b, Decidable (p b)]
    (h : (match o with | .ok b => decide (p b) | .error _ => false) = true) : ∃ b, o = .ok b ∧ p b := by
  match o, h with
  | .ok b, h => exact ⟨b, rfl, of_decide_eq_true h⟩

/-- A value and then a pair that operations answer, with something that holds of them. -/
theorem some12 {α β γ : Type} {o : Option γ} {f : γ → Option (α × β)} {p : γ → α → β → Prop} [∀ q a b, Decidable (p q a b)]
    (h : (match o with
      | some q => (match f q with | some (a, b) => decide (p q a b) | none => false)
      | none => false) = true) : ∃ q a b, o = some q ∧ f q = some (a, b) ∧ p q a b := by
  match o, h with
  | some q, h =>
    obtain ⟨a, b, hf, hp⟩ := some2 h
    exact ⟨q, a, b, rfl, hf, hp⟩

/-- A claim is met in a state it speaks of. -/
theorem metAt {q : Claim} (s : State) (h : q.given s) : q.Met := ⟨s, h⟩

/-! ### The device commands -/

/-- A payload of `n` bytes with fields of a width and a value at their offsets, zero elsewhere. -/
def pay (n : Nat) (fs : List (Nat × Nat × Nat)) : List Byte :=
  fs.foldl (fun b f => b.take f.1 ++ le f.2.1 f.2.2 ++ b.drop (f.1 + f.2.1)) (List.replicate n 0)

/-- A payload of zeros, and a submission to the DEVICE handle. -/
def no : List Byte := pay 24 []
def toDev (p : List Byte) : Submission := sub 0x01FF0000 p

theorem met_DeviceCommandsComplete :
    (Claims.deviceIdentify (toDev no)).Met ∧ (Claims.deviceStatus (toDev no)).Met ∧
      (Claims.deviceEventMask (toDev (pay 24 [(0, 2, 0x7FFF)]))).Met ∧
      (Claims.queueCreate (sub 0 (pay 24 [(0, 1, 16), (1, 1, 4), (2, 1, 12), (4, 8, 4096)]))).Met ∧
      (Claims.queueDelete (sub 0 (pay 24 [(0, 1, 16)]))).Met ∧ (Claims.objectList (toDev no)).Met ∧
      (Claims.objectReassign (sub 0 (pay 24 [(0, 4, 0x40FF0000), (4, 1, 0)]))).Met ∧
      (Claims.deviceVfQuota (toDev (pay 24 [(0, 1, 32), (2, 2, 128), (4, 2, 4096), (6, 2, 1024)]))).Met ∧
      (Claims.deviceImageLoad (toDev (pay 64 [(0, 1, 2), (10, 1, codeType 2)]))).Met ∧
      (Claims.deviceRestart (toDev (pay 24 [(0, 1, 1)]))).Met ∧ (Claims.deviceNop (toDev no)).Met := by
  refine ⟨met dev (by decide +kernel) trivial, met dev (by decide +kernel) trivial, met dev (by decide +kernel) trivial,
    met dev (by decide +kernel) (by decide +kernel),
    met { dev with eci := { dev.eci with fns := [(0, { en := true, rdy := true, queues := [(0, {}), (16, {})] })] } }
      (by decide +kernel) ⟨by decide +kernel, some1 (by decide +kernel)⟩,
    met dev (by decide +kernel) trivial, met dev (by decide +kernel) (by decide +kernel), met dev (by decide +kernel) trivial,
    met dev (by decide +kernel) (by decide +kernel), met dev (by decide +kernel) (by decide +kernel),
    met dev (by decide +kernel) trivial⟩


/-- The device with a session over whose connection an entry has been fetched. -/
def inSession (x : Session) (op : Nat) (f : Nat) : State :=
  dev.modEci fun e => { e with
    sessions := [(0, x)], fetched := [{ tokOf op { sub 0 no with port := .session 0 } with via := .session 0 f }] }
def bySession (p : List Byte) : Submission := { sub 0 p with port := .session 0 }

theorem met_SessionCommandsComplete :
    (Claims.sessionOpen (bySession (pay 24 [(0, 1, 32), (2, 2, 1024)]))).Met ∧ (Claims.sessionClose (bySession no)).Met ∧
      (Claims.sessionKeepalive (bySession no)).Met := by
  refine ⟨⟨inSession { phase := .established, fn := 32 } 0x0010 32, _, rfl, by decide +kernel, by decide +kernel⟩,
    ⟨inSession { phase := .established, opened := true } 0x0011 0, _, rfl, by decide +kernel⟩,
    ⟨inSession { phase := .established, opened := true } 0x0012 0, _, rfl, by decide +kernel, trivial⟩⟩
/-! ### The channel commands -/

/-- A configuration of 1920 x 1080 at 60 pictures a second, as `CHANNEL.CREATE` takes it. -/
def cfgFields : List (Nat × Nat × Nat) :=
  [(4, 2, 1920), (6, 2, 1080), (8, 4, 60), (12, 4, 1), (0x12, 1, 8), (0x13, 1, 64), (0x14, 1, 51), (0x15, 1, 1), (0x19, 1, 1), (0x1A, 1, 0xFF),
   (0x1B, 1, 0xFF), (0x1D, 1, 0xFF)]

def cfgPay : List Byte := pay 64 cfgFields

/-- Such a channel, and a decoder's. -/
def chan : Channel := { cfg := parseCh cfgPay, payload := cfgPay }
def decChan : Channel := { cfg := { width := 1920, height := 1080, rateNum := 60, level := 51, decoder := true } }

/-- A device with objects of PF0: an IDLE channel, a running one, a decoder, a layer, a slate, streams, a policer, an audio
program, an ASRC, a key and a trace. -/
def rig : State :=
  { dev with
    eci := { dev.eci with owners := [(0x10000000, 0), (0x10000001, 0), (0x10000002, 0), (0x11000000, 0), (0x12FF0000, 0),
      (0x20FF0000, 0), (0x21FF0000, 0), (0x25FF0000, 0), (0x31FF0000, 0), (0x32FF0000, 0), (0x50FF0000, 0), (0x61000000, 0)] }
    chan := { chans := [(0x10000000, chan), (0x10000001, { chan with pipe := 1, state := .running }),
        (0x10000002, { decChan with state := .running })]
              slates := [(0x12FF0000, { dieMask := 1, width := 1920, height := 1080 })] }
    comp := { layers := [(0x11000000, { chan := 0x10000000, maxW := 64, maxH := 64, maxFormat := 0x10 })] }
    dec := { decoders := [(0x10000002, { outCount := 4 })], checks := [(0x60000000, { target := 0x10000001, bound := true })]
             stats := [(0x10000000, { log2 := 20 })], auRings := [(0x10000000, { log2 := 20 })] }
    audio := { programs := [(0x31FF0000, {})] }
    net := { ingress := [(0x20FF0000, {})], egress := [(0x21FF0000, { kind := 5 })], policers := [(0x25FF0000, {})] }
    sched := { traces := [(0x61000000, {})] } }

theorem met_ChannelCommandsComplete :
    (Claims.channelCreate (toDev cfgPay)).Met ∧ (Claims.channelAdmitCheck (toDev cfgPay)).Met ∧
      (Claims.channelSet (sub 0x10000000 cfgPay)).Met ∧ (Claims.channelStart (sub 0x10000000 no)).Met ∧
      (Claims.channelStop (sub 0x10000001 no)).Met ∧ (Claims.channelDestroy (sub 0x10000000 no)).Met ∧
      (Claims.channelQuery (sub 0x10000000 no)).Met ∧ (Claims.slotTableSet (sub 0x02000000 (pay 132 []))).Met ∧
      (Claims.slotTableGet (sub 0x02070000 no)).Met ∧
      (Claims.slateCreate (toDev (pay 24 [(0, 1, 0x81), (2, 1, 8), (3, 1, 1), (4, 2, 7680), (6, 2, 4320)]))).Met ∧
      (Claims.slateDestroy (sub 0x12FF0000 no)).Met ∧ (Claims.dieLoad (sub 0x02070000 no)).Met := by
  refine ⟨met dev (by decide +kernel) ⟨by decide +kernel, by decide +kernel, placed (by decide +kernel), by decide +kernel⟩,
    met dev (by decide +kernel) ⟨by decide +kernel, by decide +kernel, (placed (p := fun _ => True) (by decide +kernel)).imp
      fun _ h => h.1, by decide +kernel⟩,
    ?_, met rig (by decide +kernel) (by decide +kernel), met rig (by decide +kernel) (by decide +kernel),
    met rig (by decide +kernel) (by decide +kernel), met rig (by decide +kernel) trivial, met rig (by decide +kernel) (by decide +kernel),
    met rig (by decide +kernel) (by decide +kernel), ?_, met rig (by decide +kernel) (by decide +kernel),
    met rig (by decide +kernel) (by decide +kernel)⟩
  · dsimp only [Claims.channelSet]
    exact met rig (by decide +kernel) ⟨by decide +kernel, by decide +kernel, by decide +kernel, by decide +kernel,
      by decide +kernel, placed (by decide +kernel), by decide +kernel⟩
  · dsimp only [Claims.slateCreate]
    exact met dev (by decide +kernel) ⟨by decide +kernel, by decide +kernel, some2 (by decide +kernel), by decide +kernel⟩

/-! ### Coding and rate-control commands -/

theorem met_CodingCommandsComplete :
    (Claims.codingTools (sub 0x10000000 (pay 24 [(8, 1, 1)]))).Met ∧
      (Claims.codingToolsGet (sub 0x10000000 no)).Met ∧
      (Claims.analysisSet (sub 0x10000000 (pay 24 [(1, 1, 8), (2, 1, 100)]))).Met ∧
      (Claims.analysisQuery (sub 0x10000000 no)).Met ∧
      (Claims.recipeInfo (toDev no)).Met ∧
      (Claims.codingStructure (sub 0x10000000 (pay 24 [(3, 1, 64), (4, 2, 64)]))).Met ∧
      (Claims.codingSei (sub 0x10000000 (pay 40 [(0, 1, 7)]))).Met ∧
      (Claims.codingStructureGet (sub 0x10000000 no)).Met ∧
      (Claims.rcSet (sub 0x10000000 (pay 24 [(0, 1, 100), (1, 1, 4), (2, 1, 48), (3, 1, 32), (4, 1, 12), (5, 1, 10)]))).Met ∧
      (Claims.rcGet (sub 0x10000000 no)).Met ∧
      (Claims.rcQuery (sub 0x10000000 no)).Met ∧
      (Claims.delayQuery (sub 0x10000000 no)).Met := by
  refine ⟨met rig (by decide +kernel) (by decide +kernel),
    met rig (by decide +kernel) (by decide +kernel),
    met rig (by decide +kernel) (by decide +kernel),
    met rig (by decide +kernel) (by decide +kernel),
    met rig (by decide +kernel) trivial,
    met rig (by decide +kernel) (by decide +kernel),
    met rig (by decide +kernel) (by decide +kernel),
    met rig (by decide +kernel) (by decide +kernel),
    ?_,
    met rig (by decide +kernel) (by decide +kernel),
    met rig (by decide +kernel) (by decide +kernel),
    met rig (by decide +kernel) (by decide +kernel)⟩
  · dsimp only [Claims.rcSet]
    exact met rig (by decide +kernel) (by decide +kernel)

/-! ### Scheduler commands -/

theorem met_SchedulerCommandsComplete :
    (Claims.schedStatus (sub 0x02000000 (pay 24 []))).Met ∧
      (Claims.schedLocks (sub 0x02FF0000 (pay 24 []))).Met ∧
      (Claims.schedFlows (sub 0x10000000 no)).Met ∧
      (Claims.traceCreate (sub 0x02000000 (pay 24 [(0, 4, 26)]))).Met ∧
      (Claims.traceStart (sub 0x61000000 (pay 24 []))).Met ∧
      (Claims.traceStop (sub 0x61000000 (pay 24 []))).Met ∧
      (Claims.traceStatus (sub 0x61000000 (pay 24 []))).Met ∧
      (Claims.traceDestroy (sub 0x61000000 (pay 24 []))).Met := by
  refine ⟨met rig (by decide +kernel) (by decide +kernel),
    met rig (by decide +kernel) (by decide +kernel),
    met rig (by decide +kernel) trivial,
    ?_,
    met rig (by decide +kernel) (by decide +kernel),
    met { rig with sched := { traces := [(0x61000000, { running := true })] } } (by decide +kernel) (by decide +kernel),
    met rig (by decide +kernel) trivial,
    met rig (by decide +kernel) trivial⟩
  · dsimp only [Claims.traceCreate]
    exact met dev (by decide +kernel) ⟨by decide +kernel, by decide +kernel, by decide +kernel, some2 (by decide +kernel)⟩

/-! ### Composition commands -/

theorem met_CompositionCommandsComplete :
    (Claims.composeSet (sub 0x10000000 (pay 24 [(0, 1, 3)]))).Met ∧
      (Claims.layerCreate (sub 0x10000000 (pay 24 [(0, 2, 16), (2, 2, 4320), (4, 1, 0x11), (5, 1, 2)]))).Met ∧
      (Claims.layerSet (sub 0x11000000 (pay 64 [(2, 1, 0x10), (0x14, 2, 1024), (0x18, 1, 6)]))).Met ∧
      (Claims.layerCommit (sub 0x10000000 no)).Met ∧
      (Claims.layerDestroy (sub 0x11000000 (pay 24 []))).Met ∧
      (Claims.layerQuery (sub 0x11000000 (pay 24 []))).Met ∧
      (Claims.renditionScale (sub 0x10000003 (pay 24 [(0, 1, 6), (1, 1, 3)]))).Met ∧
      (Claims.scalerCoefSet (sub 0x02000000 (pay 260 ((0, 1, 2) :: (List.range 64).map fun i => (4 + 4 * i, 2, 256))))).Met ∧
      (Claims.scalerCoefGet (sub 0x02000000 (pay 24 [(0, 1, 3), (1, 1, 2)]))).Met := by
  refine ⟨met rig (by decide +kernel) (by decide +kernel),
    ?_,
    met rig (by decide +kernel) (by decide +kernel),
    met rig (by decide +kernel) (by decide +kernel),
    met rig (by decide +kernel) trivial,
    met rig (by decide +kernel) trivial,
    ?_,
    met rig (by decide +kernel) (by decide +kernel),
    met rig (by decide +kernel) (by decide +kernel)⟩
  · dsimp only [Claims.layerCreate]
    exact met rig (by decide +kernel) ⟨by decide +kernel, by decide +kernel, by decide +kernel, by decide +kernel, by decide +kernel, some2 (by decide +kernel)⟩
  · dsimp only [Claims.renditionScale]
    exact met { rig with
        eci := { rig.eci with owners := (0x10000003, 0) :: rig.eci.owners }
        chan := { rig.chan with chans := rig.chan.chans ++ [(0x10000003, { chan with cfg := { chan.cfg with
          source := 0x10000000, width := 960, height := 544 } })] } } (by decide +kernel) (by decide +kernel)

/-! ### Decode commands -/

theorem met_DecodeCommandsComplete :
    (Claims.decodeCreate (toDev (pay 32 [(4, 2, 1920), (6, 2, 1080), (8, 4, 60), (12, 4, 1), (0x12, 1, 8), (0x13, 1, 51), (0x14, 1, 0xFF),
        (0x15, 1, 0xFF), (0x16, 1, 4), (0x17, 1, 1)]))).Met ∧
      (Claims.decodeSubmit { sub 0x10000002 no with flags := 1, payloadLen := 4, extBytes := bs [0, 0, 1, 2] }).Met ∧
      (Claims.decodeReturn (sub 0x10000002 (pay 24 [(0, 4, 15)]))).Met ∧
      (Claims.decodeQuery (sub 0x10000002 (pay 24 []))).Met ∧
      (Claims.channelMode (sub 0x10000000 (pay 24 [(0, 1, 1), (1, 1, 30)]))).Met ∧
      (Claims.picSubmit (sub 0x10000000 (pay 48 [(1, 1, 1), (0x28, 2, 93)]))).Met ∧
      (Claims.refRing (sub 0x10000000 no)).Met ∧
      (Claims.jigSet (sub 0x10000000 (pay 24 [(0, 1, 15), (2, 2, 600), (4, 4, 1)]))).Met ∧
      (Claims.statsSet (sub 0x10000000 (pay 24 [(0, 1, 30)]))).Met ∧
      (Claims.statsRead (sub 0x10000000 (pay 24 [(0, 8, 1048575)]))).Met ∧
      (Claims.checkBind (sub 0x60000001 (pay 24 [(0, 4, 0x10000001)]))).Met ∧
      (Claims.checkUnbind (sub 0x60000000 (pay 24 []))).Met ∧
      (Claims.checkExpect (sub 0x60000000 (pay 24 [(0, 2, 1), (8, 8, 5), (16, 8, 0xFFFF)]))).Met ∧
      (Claims.checkQuery (sub 0x60000000 (pay 24 []))).Met := by
  refine ⟨met dev (by decide +kernel) ⟨by decide +kernel, by decide +kernel, some12 (by decide +kernel)⟩,
    met rig (by decide +kernel) (by decide +kernel),
    met rig (by decide +kernel) (by decide +kernel),
    met rig (by decide +kernel) (by decide +kernel),
    ?_,
    met rig (by decide +kernel) (by decide +kernel),
    met rig (by decide +kernel) (some1 (by decide +kernel)),
    met { rig with chan := { rig.chan with chans := [(0x10000000, { chan with cfg := { chan.cfg with effort := 3 } })] } } (by decide +kernel) (by decide +kernel),
    ?_,
    met rig (by decide +kernel) (some1 (by decide +kernel)),
    met rig (by decide +kernel) (by decide +kernel),
    met rig (by decide +kernel) (by decide +kernel),
    ?_,
    met rig (by decide +kernel) trivial⟩
  · dsimp only [Claims.channelMode]
    exact met rig (by decide +kernel) (by decide +kernel)
  · dsimp only [Claims.statsSet]
    exact met rig (by decide +kernel) (by decide +kernel)
  · dsimp only [Claims.checkExpect]
    exact met rig (by decide +kernel) (by decide +kernel)

/-! ### Audio commands -/

/-- The rig with audio port 0 in use as a follower at 48 kHz. -/
def rigAudio : State :=
  { rig with audio := { rig.audio with ports := [(0, { mode := 1, role := 1, rate := 2, inMask := 3 })] } }

theorem met_AudioCommandsComplete :
    (Claims.audioPortSet (sub 0x30FF0000 (pay 24 [(0, 1, 2), (3, 1, 2), (4, 1, 32), (5, 1, 32), (6, 1, 24)]))).Met ∧
      (Claims.audioPortSetOff (sub 0x30FF0000 (pay 24 []))).Met ∧
      (Claims.audioPortSlots (sub 0x30FF0000 (pay 136 [(0, 4, 3), (4, 4, 3)]))).Met ∧
      (Claims.audioPortQuery (sub 0x30FF0000 (pay 24 []))).Met ∧
      (Claims.frameClockSet (toDev (pay 24 [(0, 1, 1), (1, 1, 1), (4, 4, 49152000)]))).Met ∧
      (Claims.audioProgramCreate (toDev (pay 32 [(0, 4, 0x30FF0000), (4, 1, 2), (5, 1, 2), (8, 4, 24000), (0x0C, 2, 250), (0x11, 1, 1)]))).Met ∧
      (Claims.audioProgramSet (sub 0x31FF0000 (pay 24 [(2, 2, 20000)]))).Met ∧
      (Claims.audioProgramDestroy (sub 0x31FF0000 (pay 24 []))).Met ∧
      (Claims.audioProgramQuery (sub 0x31FF0000 (pay 24 []))).Met ∧
      (Claims.asrcQuery (sub 0x32FF0000 (pay 24 []))).Met ∧
      (Claims.audioRateQuery (sub 0x30FF0000 (pay 24 []))).Met ∧
      (Claims.audioEmbedSet (sub 0x70FF0060 (pay 72 [(0, 1, 1), (8, 4, 0x31FF0000)]))).Met := by
  refine ⟨met rig (by decide +kernel) (by decide +kernel),
    met rigAudio (by decide +kernel) (by decide +kernel),
    ?_,
    met rig (by decide +kernel) trivial,
    met rig (by decide +kernel) (by decide +kernel),
    met rigAudio (by decide +kernel) ⟨by decide +kernel, some2 (by decide +kernel)⟩,
    met rig (by decide +kernel) trivial,
    met rig (by decide +kernel) (by decide +kernel),
    met rig (by decide +kernel) trivial,
    met rig (by decide +kernel) trivial,
    met rig (by decide +kernel) trivial,
    ?_⟩
  · dsimp only [Claims.audioPortSlots]
    exact met { rigAudio with audio := { rigAudio.audio with programs := [(0x31FF0000, { source := 0x30FF0000 })] } } (by decide +kernel) (by decide +kernel)
  · dsimp only [Claims.audioEmbedSet]
    exact met { rig with audio := { rig.audio with programs := [(0x31FF0000, { channels := 4, flags := 2 })] } } (by decide +kernel) (by decide +kernel)

/-! ### Network commands -/

/-- The rig with port 0 up at 400 Gb/s. -/
def rigNet : State := { rig with lane := { lanes := [(0, { mode := 6 })] } }

/-- The settings of a stream of HEVC pictures on port 0. -/
def egressPay : List Byte :=
  pay 128 [(0, 4, 0x10000000), (4, 1, 5), (5, 1, 1), (9, 1, 0xFF), (0x0A, 2, 576), (0x18, 1, 127), (0x1A, 2, 0xFFFF), (0x1E, 2, 5004), (0x24, 8, 1)]

theorem met_NetworkCommandsComplete :
    (Claims.ingressCreate (toDev (pay 112 [(0, 1, 4), (1, 1, 1), (3, 1, 0xFF), (6, 2, 5004), (0x10, 16, 1)]))).Met ∧
      (Claims.ingressDestroy (sub 0x20FF0000 (pay 24 []))).Met ∧
      (Claims.ingressQuery (sub 0x20FF0000 (pay 24 []))).Met ∧
      (Claims.egressCreate (toDev egressPay)).Met ∧
      (Claims.egressSet (sub 0x21FF0000 egressPay)).Met ∧
      (Claims.egressDestroy (sub 0x21FF0000 (pay 24 []))).Met ∧
      (Claims.egressQuery (sub 0x21FF0000 (pay 24 []))).Met ∧
      (Claims.egressProvenance (sub 0x21FF0000 (pay 32 [(0, 1, 1), (2, 1, 1), (3, 1, 17), (4, 2, 600)]))).Met ∧
      (Claims.egressKey (sub 0x21FF0000 (pay 24 [(0, 4, 0x50FF0000), (4, 1, 1), (8, 8, 2 ^ 64 - 1)]))).Met ∧
      (Claims.egressImpair (sub 0x21FF0000 (pay 40 [(1, 1, 3), (2, 1, 64), (3, 1, 16), (4, 4, 1), (8, 4, 2 ^ 24)]))).Met ∧
      (Claims.shaperSet (sub 0x24FF0000 (pay 24 [(0, 1, 1), (4, 4, 1), (8, 4, 1538)]))).Met ∧
      (Claims.gatelistSet (sub 0x23FF0000 (pay 24 [(8, 4, 1000)]))).Met ∧
      (Claims.gatelistQuery (sub 0x23FF0000 (pay 24 []))).Met ∧
      (Claims.policerCreate (sub 0x20FF0000 (pay 24 [(0, 4, 0x20FF0000), (8, 4, 2 ^ 24)]))).Met ∧
      (Claims.policerSet (sub 0x25FF0000 (pay 24 [(8, 4, 1538)]))).Met ∧
      (Claims.policerDestroy (sub 0x25FF0000 (pay 24 []))).Met ∧
      (Claims.portAddr (sub 0x22FF0000 (pay 33 [(0x0C, 1, 32), (0x20, 1, 128)]))).Met ∧
      (Claims.arbiterMode (toDev (pay 24 [(0, 1, 1)]))).Met := by
  refine ⟨met dev (by decide +kernel) (by decide +kernel),
    met rig (by decide +kernel) (by decide +kernel),
    met rig (by decide +kernel) trivial,
    met rigNet (by decide +kernel) (by decide +kernel),
    met { rigNet with net := { rig.net with egress := [(0x21FF0000, { kind := 5, source := 0x10000000 })] } } (by decide +kernel) (by decide +kernel),
    met rig (by decide +kernel) (by decide +kernel),
    met rig (by decide +kernel) trivial,
    met rig (by decide +kernel) (by decide +kernel),
    met rig (by decide +kernel) (by decide +kernel),
    met rig (by decide +kernel) (by decide +kernel),
    met rigNet (by decide +kernel) (by decide +kernel),
    ?_,
    met rig (by decide +kernel) trivial,
    met rig (by decide +kernel) (by decide +kernel),
    met rig (by decide +kernel) trivial,
    met rig (by decide +kernel) trivial,
    met rig (by decide +kernel) trivial,
    met { rigNet with net := {} } (by decide +kernel) (by decide +kernel)⟩
  · dsimp only [Claims.gatelistSet]
    exact met rigNet (by decide +kernel) (by decide +kernel)

/-! ### Time commands -/

theorem met_TimeCommandsComplete :
    (Claims.timeQuery (sub 0x40FF0000 (pay 24 []))).Met ∧
      (Claims.servoSet (sub 0x40FF0000 (pay 24 [(2, 1, 64), (4, 4, 1000), (8, 2, 20)]))).Met ∧
      (Claims.servoReset (sub 0x40FF0000 (pay 24 []))).Met ∧
      (Claims.ptpSet (sub 0x40FF0000 (pay 24 [(0, 1, 1), (1, 1, 0xFF)]))).Met ∧
      (Claims.ptpPortSet (sub 0x22FF0011 (pay 24 [(0, 4, 1000000)]))).Met ∧
      (Claims.ppsSet (sub 0x40FF0000 (pay 24 [(0, 4, 500000), (4, 4, 500000000)]))).Met ∧
      (Claims.timeSetTod (sub 0x40FF0000 (pay 24 [(0, 6, 2 ^ 48 - 1)]))).Met ∧
      (Claims.domainSet (sub 0x41FF0000 (pay 24 [(0, 1, 1), (2, 2, 16383)]))).Met ∧
      (Claims.channelAlign (sub 0x10000000 (pay 24 [(0, 1, 1)]))).Met ∧
      (Claims.alignQuery (sub 0x10000000 no)).Met := by
  refine ⟨met dev (by decide +kernel) trivial,
    met dev (by decide +kernel) trivial,
    met dev (by decide +kernel) (by decide +kernel),
    met dev (by decide +kernel) trivial,
    met dev (by decide +kernel) trivial,
    met dev (by decide +kernel) trivial,
    met dev (by decide +kernel) trivial,
    met dev (by decide +kernel) (by decide +kernel),
    met { rig with time := { memberOf := true } } (by decide +kernel) (by decide +kernel),
    met rig (by decide +kernel) trivial⟩

/-! ### Lane and memory commands -/

theorem met_LaneCommandsComplete :
    (Claims.laneSet (sub 0x70FF0000 (pay 24 [(0, 1, 6), (4, 1, 3)]))).Met ∧
      (Claims.laneTrain (sub 0x70FF0000 (pay 24 []))).Met ∧
      (Claims.laneQuery (sub 0x70FF0060 (pay 24 []))).Met ∧
      (Claims.laneTaps (sub 0x70FF0000 (pay 24 [(3, 1, 64)]))).Met ∧
      (Claims.sdiOutSet (sub 0x70FF0060 (pay 24 [(0, 4, 0x10000002), (4, 4, 16666666)]))).Met := by
  refine ⟨?_,
    met rigNet (by decide +kernel) (by decide +kernel),
    met dev (by decide +kernel) trivial,
    met { rigNet with lane := { lanes := [(0, { mode := 6, train := false })] } } (by decide +kernel) (by decide +kernel),
    met rig (by decide +kernel) (by decide +kernel)⟩
  · dsimp only [Claims.laneSet]
    exact met dev (by decide +kernel) (by decide +kernel)

theorem met_MemoryCommandsComplete :
    (Claims.memQuery (sub 0x02FF0000 (pay 24 []))).Met ∧
      (Claims.memSet (sub 0x02000000 (pay 24 [(0, 1, 16), (2, 2, 256)]))).Met ∧
      (Claims.memFreq (sub 0x02000000 (pay 24 [(0, 1, 2)]))).Met ∧
      (Claims.memCopy (toDev (pay 24 [(4, 4, 64), (8, 8, 65536)]))).Met := by
  refine ⟨met dev (by decide +kernel) (by decide +kernel),
    met dev (by decide +kernel) (by decide +kernel),
    met dev (by decide +kernel) (by decide +kernel),
    met { dev with mem := { buffers := [(1, { object := 0x12FF0000, die := 0, bytes := 128, pages := 1 })] } } (by decide +kernel) (some1 (by decide +kernel))⟩

/-! ### Security and health commands -/

theorem met_SecurityCommandsComplete :
    (Claims.secQuote (toDev (pay 32 []))).Met ∧
      (Claims.secCerts (toDev no)).Met ∧
      (Claims.provKey (toDev no)).Met ∧
      (Claims.keyImport (toDev (pay 64 [(0, 4, 1)]))).Met ∧
      (Claims.keyDestroy (sub 0x50FF0000 (pay 24 []))).Met ∧
      (Claims.secLcAdvance (toDev (pay 5341 [(0, 1, 2)]))).Met ∧
      (Claims.secOwnerKeyAdd (toDev (pay 5305 []))).Met ∧
      (Claims.secKeyRevoke (toDev (pay 5277 [(0, 1, 3)]))).Met ∧
      (Claims.secSvnCommit (toDev (pay 5277 [(0, 1, 2)]))).Met ∧
      (Claims.secDebugChallenge (toDev no)).Met ∧
      (Claims.secDebugUnlock (toDev (pay 5277 [(0, 1, 3)]))).Met ∧
      (Claims.secTamperSet (toDev (pay 5281 [(0, 1, 2), (1, 1, 2), (2, 1, 2), (3, 1, 2), (4, 1, 2), (5, 1, 2), (6, 1, 1)]))).Met ∧
      (Claims.secTamperLog (toDev no)).Met ∧
      (Claims.secTamperClear (toDev (pay 5273 []))).Met ∧
      (Claims.secCounter (toDev (pay 24 [(0, 1, 1)]))).Met ∧
      (Claims.secCredSet (toDev (pay 5309 [(0, 1, 15), (1, 1, 32), (2, 1, 1)]))).Met := by
  refine ⟨met dev (by decide +kernel) (by decide +kernel),
    met dev (by decide +kernel) (by decide +kernel),
    met dev (by decide +kernel) (by decide +kernel),
    met dev (by decide +kernel) (by decide +kernel),
    met rig (by decide +kernel) (by decide +kernel),
    met dev (by decide +kernel) trivial,
    met dev (by decide +kernel) (by decide +kernel),
    met dev (by decide +kernel) (by decide +kernel),
    ?_,
    met dev (by decide +kernel) trivial,
    met { dev with boot := { dev.boot with sec := { nonce := some (List.replicate 32 7, 0) } } } (by decide +kernel) ⟨by decide +kernel, _, _, rfl, by decide +kernel⟩,
    ?_,
    met dev (by decide +kernel) trivial,
    met dev (by decide +kernel) (by decide +kernel),
    met dev (by decide +kernel) trivial,
    met dev (by decide +kernel) (by decide +kernel)⟩
  · dsimp only [Claims.secSvnCommit]
    exact met dev (by decide +kernel) (by intro _ h; cases h)
  · dsimp only [Claims.secTamperSet]
    exact met dev (by decide +kernel) (by decide +kernel)

theorem met_HealthCommandsComplete :
    (Claims.healthQuery (toDev no)).Met ∧
      (Claims.bootSlotSet (toDev (pay 24 [(0, 1, 1)]))).Met ∧
      (Claims.dieRepair (sub 0x02000000 (pay 24 []))).Met ∧
      (Claims.mpRepair (toDev no)).Met ∧
      (Claims.isstQuery (sub 0x02000000 (pay 24 []))).Met ∧
      (Claims.kaLog (toDev no)).Met ∧
      (Claims.thermQuery (toDev no)).Met := by
  refine ⟨met dev (by decide +kernel) trivial,
    met dev (by decide +kernel) trivial,
    met { dev with boot := { dev.boot with diesFenced := 1 } } (by decide +kernel) (by decide +kernel),
    met { dev with boot := { dev.boot with mpB := .fenced } } (by decide +kernel) (by decide +kernel),
    met dev (by decide +kernel) (by decide +kernel),
    met dev (by decide +kernel) trivial,
    met dev (by decide +kernel) trivial⟩

/-! ### Host accesses, doorbells and the mailbox -/

/-- The device with its link up, and the same 12.9 s after reset. -/
def up : State := dev.modEci fun e => { e with linkUp := true }
def late : State := { up with time := { ns := 5, wraps := 3, epSec := 12, epNs := 884901893 } }

/-- The link up in recovery mode. -/
def rec : State := up.modBoot fun b => { b with stage := .recovery, recovery := true, recState := 1 }

theorem met_HostAccessesTakeEffect :
    (Claims.registerWrite 0 0x300C 7).Met ∧
      (Claims.registerWrite 0 0x18 0x444).Met ∧
      (Claims.registerWriteOdd 0 false 3 4 7).Met ∧
      (Claims.registerWriteOdd 32 true 0 8 7).Met ∧
      (Claims.eciEnable 0).Met ∧
      (Claims.eciDisable 0).Met ∧
      (Claims.eciRdySet 0).Met ∧
      (Claims.eciRdyRefused 0).Met ∧
      (Claims.intCauseClear 0 (BitVec.allOnes 32)).Met ∧
      (Claims.intMaskWrite 0 (BitVec.allOnes 32)).Met ∧
      (Claims.coalesceTimeout 0 17).Met ∧
      (Claims.bootStageCapture 0).Met ∧
      (Claims.timeNsCapture 0).Met ∧
      Claims.recStateCapture.Met ∧
      (Claims.mbxCollideCntRead 0).Met ∧
      (Claims.functionLevelReset 0).Met ∧
      (Claims.functionLevelReset 32).Met ∧
      (Claims.vfRemoval 0).Met ∧
      (Claims.vfEnable 32).Met ∧
      (Claims.registerWriteMsix 0x11C 1).Met ∧
      (Claims.registerWriteMsix 0x120 1).Met := by
  refine ⟨metAt up (by dsimp only [Claims.registerWrite]; decide +kernel),
    metAt up (by dsimp only [Claims.registerWrite]; decide +kernel),
    metAt up (by dsimp only [Claims.registerWriteOdd]; decide +kernel),
    metAt up (by dsimp only [Claims.registerWriteOdd]; decide +kernel),
    metAt (up.modFn 0 fun g => { g with en := false }) (by dsimp only [Claims.eciEnable]; decide +kernel),
    metAt up (by dsimp only [Claims.eciDisable]; decide +kernel),
    metAt (up.modFn 0 fun g => { g with rdy := false, setSizes := 0xC44 }) (by dsimp only [Claims.eciRdySet]; decide +kernel),
    metAt (up.modFn 0 fun g => { g with rdy := false, setSizes := 0xD44 }) (by dsimp only [Claims.eciRdyRefused]; decide +kernel),
    metAt up (by dsimp only [Claims.intCauseClear]; decide +kernel),
    metAt up (by dsimp only [Claims.intMaskWrite]; decide +kernel),
    metAt (late.modFn 0 fun g => { g with intCause := 2 ^ 17, coalesce := [(17, { entries := 1, first := some 0 })] }) (by dsimp only [Claims.coalesceTimeout]; exact ⟨by decide +kernel, some1 (by decide +kernel)⟩),
    metAt up (by dsimp only [Claims.bootStageCapture]; decide +kernel),
    metAt up (by dsimp only [Claims.timeNsCapture]; decide +kernel),
    metAt up (by dsimp only [Claims.recStateCapture]; decide +kernel),
    metAt up (by dsimp only [Claims.mbxCollideCntRead]; decide +kernel),
    metAt up (by dsimp only [Claims.functionLevelReset]; decide +kernel),
    metAt (up.modFn 32 fun g => { g with enabled := true }) (by dsimp only [Claims.functionLevelReset]; decide +kernel),
    metAt ((up.modFn 1 fun g => { g with enabled := true }).modEci fun e => { e with numVfs := 1 }) (by dsimp only [Claims.vfRemoval]; decide +kernel),
    metAt up (by dsimp only [Claims.vfEnable]; decide +kernel),
    metAt up (by dsimp only [Claims.registerWriteMsix]; decide +kernel),
    metAt up (by dsimp only [Claims.registerWriteMsix]; decide +kernel)⟩

theorem met_DoorbellsTakeEffect :
    (Claims.dbSqWrite 0 0 1 []).Met ∧
      (Claims.dbSqWriteNoQueue 0 16 0xFFFF []).Met ∧
      (Claims.sqPoll 0 0 []).Met ∧
      (Claims.dbFastWrite 0 29).Met ∧
      (Claims.dbFastWriteBusy 0 1).Met ∧
      (Claims.fastPathServe 0).Met ∧
      (Claims.mailboxHostWrite 0 (0x10000 + 0x780) 1).Met ∧
      (Claims.mailboxCollision 0 (0x10000 + 0x784) 1).Met := by
  refine ⟨metAt up (by dsimp only [Claims.dbSqWrite]; decide +kernel),
    metAt up (by dsimp only [Claims.dbSqWriteNoQueue]; decide +kernel),
    metAt up (by dsimp only [Claims.sqPoll]; decide +kernel),
    metAt up (by dsimp only [Claims.dbFastWrite]; decide +kernel),
    metAt (up.modFn 0 fun g => { g with fastQueue := [0] }) (by dsimp only [Claims.dbFastWriteBusy]; decide +kernel),
    metAt (up.modFn 0 fun g => { g with fastQueue := [28] }) (by dsimp only [Claims.fastPathServe]; exact ⟨28, [], rfl, by decide +kernel⟩),
    metAt up (by dsimp only [Claims.mailboxHostWrite]; exact ⟨by decide +kernel, some1 (by decide +kernel)⟩),
    metAt up (by dsimp only [Claims.mailboxCollision]; exact ⟨by decide +kernel, by decide +kernel, some1 (by decide +kernel)⟩)⟩

/-! ### Start-up, recovery and the PCIe link -/

/-- The device leaves reset: its rails good, its ROM not begun. -/
def cold : State := { boot := { railsGood := true, held := false } }

theorem met_StartUpTakesEffect :
    Claims.powerGood.Met ∧
      Claims.brownOut.Met ∧
      (Claims.sysRstNLow 999).Met ∧
      (Claims.sysRstNLow 2000).Met ∧
      Claims.sysRstNRelease.Met ∧
      Claims.restartDelayExpiry.Met ∧
      Claims.failedStartRestart.Met ∧
      (Claims.romStart true false).Met ∧
      (Claims.romStartFails true false false).Met ∧
      (Claims.romStartFails false false true).Met ∧
      (Claims.romStartRecovers false true true true).Met ∧
      (Claims.thermalWaitCheck { dies := [], hub := 250 }).Met ∧
      Claims.imageVerifyDone.Met ∧
      Claims.imageVerifyNoSecret.Met ∧
      (Claims.bistDone true false).Met ∧
      (Claims.bistDone false false).Met ∧
      (Claims.bistFails { hubFault := true }).Met ∧
      Claims.firmwareReady.Met ∧
      (Claims.dieReady 7).Met ∧
      (Claims.dieReadyTimeout 7).Met ∧
      Claims.firmwareReadyTimeout.Met ∧
      Claims.kaSwitchToBackup.Met ∧
      Claims.kaSwitchToMain.Met := by
  refine ⟨metAt State.reset (by dsimp only [Claims.powerGood]; decide +kernel),
    metAt up (by dsimp only [Claims.brownOut]; decide +kernel),
    metAt up (by dsimp only [Claims.sysRstNLow]; decide +kernel),
    metAt up (by dsimp only [Claims.sysRstNLow]; decide +kernel),
    metAt (up.modBoot fun b => { b with sysRstLow := true }) (by dsimp only [Claims.sysRstNRelease]; decide +kernel),
    metAt (late.modBoot fun b => { b with restartAt := some (10000000, true) }) (by dsimp only [Claims.restartDelayExpiry]; exact some1 (by decide +kernel)),
    metAt (cold.modBoot fun b => { b with failedAt := some 0 }) (by dsimp only [Claims.failedStartRestart]; decide +kernel),
    metAt (cold.modBoot fun b => { b with ka := { b.ka with signature := true } }) (by dsimp only [Claims.romStart]; decide +kernel),
    metAt cold (by dsimp only [Claims.romStartFails]; decide +kernel),
    metAt (cold.modBoot fun b => { b with ka := { b.ka with signature := true, lcShadow := 1 } })
      (by dsimp only [Claims.romStartFails]; decide +kernel),
    metAt (cold.modBoot fun b => { b with ka := { b.ka with signature := true } })
      (by dsimp only [Claims.romStartRecovers]; exact ⟨by decide +kernel, by decide +kernel, by decide +kernel, by decide +kernel, 1, by rfl⟩),
    metAt (late.modBoot fun b => { b with stage := .rom, thermalWait := some 0 }) (by dsimp only [Claims.thermalWaitCheck]; exact some1 (by decide +kernel)),
    metAt (cold.modBoot fun b => { b with stage := .rom }) (by dsimp only [Claims.imageVerifyDone]; decide +kernel),
    metAt (cold.modBoot fun b => { b with stage := .rom }) (by dsimp only [Claims.imageVerifyNoSecret]; decide +kernel),
    metAt (cold.modBoot fun b => { b with stage := .bist }) (by dsimp only [Claims.bistDone]; decide +kernel),
    metAt (cold.modBoot fun b => { b with stage := .bist }) (by dsimp only [Claims.bistDone]; decide +kernel),
    metAt (cold.modBoot fun b => { b with stage := .bist }) (by dsimp only [Claims.bistFails]; decide +kernel),
    metAt (cold.modBoot fun b => { b with stage := .fwStart }) (by dsimp only [Claims.firmwareReady]; decide +kernel),
    metAt (cold.modBoot fun b => { b with stage := .fwStart }) (by dsimp only [Claims.dieReady]; decide +kernel),
    metAt (late.modBoot fun b => { b with diesReady := 0x7F }) (by dsimp only [Claims.dieReadyTimeout]; decide +kernel),
    metAt (late.modBoot fun b => { b with stage := .fwStart }) (by dsimp only [Claims.firmwareReadyTimeout]; decide +kernel),
    metAt up (by dsimp only [Claims.kaSwitchToBackup]; decide +kernel),
    metAt (up.modBoot fun b => { b with ka := { b.ka with onBackup := true } }) (by dsimp only [Claims.kaSwitchToMain]; decide +kernel)⟩

theorem met_RecoveryTakesEffect :
    Claims.recGetReasons.Met ∧
      Claims.recGetAttestation.Met ∧
      Claims.recLoadImage.Met ∧
      Claims.recSetBootSlot.Met ∧
      Claims.recRestart.Met ∧
      Claims.recFinishLcMove.Met ∧
      (Claims.recLocked .recGetAttestation 2).Met ∧
      Claims.recResetNormal.Met ∧
      Claims.recResetRecovery.Met := by
  refine ⟨metAt rec (by dsimp only [Claims.recGetReasons]; decide +kernel),
    metAt rec (by dsimp only [Claims.recGetAttestation]; decide +kernel),
    metAt ((rec.modBoot fun b => { b with recLen := 8 }).modMem fun m => { m with data := [(6, 1)] }) (by dsimp only [Claims.recLoadImage]; decide +kernel),
    metAt (rec.modBoot fun b => { b with recArg := 1 }) (by dsimp only [Claims.recSetBootSlot]; decide +kernel),
    metAt (rec.modBoot fun b => { b with recArg := 1 }) (by dsimp only [Claims.recRestart]; decide +kernel),
    metAt rec (by dsimp only [Claims.recFinishLcMove]; decide +kernel),
    metAt (rec.modBoot fun b => { b with fuses := { b.fuses with lc := 0xFF } }) (by dsimp only [Claims.recLocked]; decide +kernel),
    metAt up (by dsimp only [Claims.recResetNormal]; decide +kernel),
    metAt up (by dsimp only [Claims.recResetRecovery]; decide +kernel)⟩

theorem met_PcieLinkTakesEffect :
    Claims.perstNAssert.Met ∧
      Claims.perstNRelease.Met ∧
      Claims.pcieLinkDown.Met ∧
      Claims.pcieLinkReturn.Met ∧
      Claims.pcieLinkLossTimeout.Met ∧
      (Claims.pcieLinkTrained 5 8 4).Met ∧
      (Claims.pcieLinkTrained 1 1 0).Met ∧
      (Claims.pcieEqRequest 7 10).Met ∧
      Claims.aspmL0sEntry.Met ∧
      Claims.aspmL1Entry.Met := by
  refine ⟨metAt up (by dsimp only [Claims.perstNAssert]; decide +kernel),
    metAt up (trivial),
    metAt up (by dsimp only [Claims.pcieLinkDown]; decide +kernel),
    metAt (dev.modEci fun e => { e with linkDownAt := some 0 }) (by dsimp only [Claims.pcieLinkReturn]; exact ⟨by decide +kernel, some1 (by decide +kernel)⟩),
    metAt (late.modEci fun e => { e with linkUp := false, linkDownAt := some 0 }) (by dsimp only [Claims.pcieLinkLossTimeout]; exact some1 (by decide +kernel)),
    metAt dev (by dsimp only [Claims.pcieLinkTrained]; decide +kernel),
    metAt dev (by dsimp only [Claims.pcieLinkTrained]; decide +kernel),
    metAt dev (by dsimp only [Claims.pcieEqRequest]; decide +kernel),
    metAt up (by dsimp only [Claims.aspmL0sEntry]; decide +kernel),
    metAt up (by dsimp only [Claims.aspmL1Entry]; decide +kernel)⟩

/-! ### Memory, health, security, fail-over and sessions -/

/-- The device with one mapped buffer of die 0, a late one, and one with a fenced die. -/
def buf : State := up.modMem fun m => { m with buffers := [(1, { object := 0x12FF0000, die := 0, bytes := 64, pages := 1 })] }
def fenced : State := late.modBoot fun b => { b with diesFenced := 1, fencedAt := some 12884901880 }

theorem met_MemoryEventsTakeEffect :
    (Claims.bar2Read 0x10000 (bs [1, 2])).Met ∧
      (Claims.bar2Write 0x1003E (bs [1, 2])).Met ∧
      (Claims.bar2Unmapped false 0x20000 (bs [1, 2])).Met ∧
      (Claims.bar2Staging 0x3FFFFFF (bs [1])).Met ∧
      (Claims.scrubPass 7 0).Met ∧
      (Claims.scrubPass 8 1).Met ∧
      (Claims.freqChangeDone 0 1).Met ∧
      (Claims.arbiterRequest (.dram 0) 1 8 0 true 4 0).Met ∧
      (Claims.arbiterCutoff 0 60 64).Met ∧
      (Claims.egressCutoff 1 8).Met ∧
      (Claims.dowelFlitError 15 7).Met ∧
      (Claims.dowelRetrainDone 0 (some 16)).Met ∧
      (Claims.dowelRetrainFails 0 16).Met ∧
      (Claims.bar2Pages true 0x1FFFF (bs [1, 2])).Met ∧
      (Claims.bar2Pages false 0x1FFFF (bs [1, 2])).Met ∧
      (Claims.arbiterIgnored (.dram 0) 1 8 0 true 4 0).Met ∧
      (Claims.arbiterParked 0 1 8 5).Met ∧
      (Claims.arbiterWaits 0 1 8 5 true).Met := by
  refine ⟨metAt buf (by dsimp only [Claims.bar2Read]; decide +kernel),
    metAt buf (by dsimp only [Claims.bar2Write]; decide +kernel),
    metAt buf (by dsimp only [Claims.bar2Unmapped]; decide +kernel),
    metAt rec (by dsimp only [Claims.bar2Staging]; decide +kernel),
    metAt up (by dsimp only [Claims.scrubPass]; decide +kernel),
    metAt late (by dsimp only [Claims.scrubPass]; decide +kernel),
    metAt (up.modDie 0 fun m => { m with changing := some (1, 0) }) (by dsimp only [Claims.freqChangeDone]; decide +kernel),
    metAt up (by dsimp only [Claims.arbiterRequest]; decide +kernel),
    metAt (up.modMem fun m => { m with arbiters := [(0, { owner := some 60 })] }) (by dsimp only [Claims.arbiterCutoff]; decide +kernel),
    metAt ((up.modMem fun m => { m with arbiters := [(0x100, { owner := some 1 })] }).modNet fun n =>
      { n with ports := [(1, { wire := some {} })] }) (by dsimp only [Claims.egressCutoff]; decide +kernel),
    metAt up (by dsimp only [Claims.dowelFlitError]; decide +kernel),
    metAt (up.modMem fun m => { m with links := [(0, { retraining := true })] }) (by dsimp only [Claims.dowelRetrainDone]; decide +kernel),
    metAt (up.modMem fun m => { m with links := [(0, { retraining := true, sparedLane := some 3 })] }) (by dsimp only [Claims.dowelRetrainFails]; exact ⟨by decide +kernel, some1 (by decide +kernel)⟩),
    metAt buf (by dsimp only [Claims.bar2Pages]; decide +kernel),
    metAt buf (by dsimp only [Claims.bar2Pages]; decide +kernel),
    metAt (up.modMem fun m => { m with arbiters := [(0, { quarantined := [(1, 0)] })] }) (by dsimp only [Claims.arbiterIgnored]; decide +kernel),
    metAt (up.modMem fun m => { m with arbiters := [(0, { owner := some 1 })] }) (by dsimp only [Claims.arbiterParked]; decide +kernel),
    metAt (up.modMem fun m => { m with arbiters := [(0, { owner := some 60, left := 2 })] }) (by dsimp only [Claims.arbiterWaits]; decide +kernel)⟩

theorem met_HealthEventsTakeEffect :
    (Claims.dieHeartbeat 7 1).Met ∧
      (Claims.heartbeatTimeout 0).Met ∧
      (Claims.isstSliceStart 0).Met ∧
      (Claims.isstSlicePass 0).Met ∧
      (Claims.isstSliceDeferred 0).Met ∧
      (Claims.isstSliceFail 0).Met ∧
      (Claims.dieRepairBistDone 0 true).Met ∧
      (Claims.dramUncorrectable 7 0x10000000 0).Met ∧
      (Claims.hostBufferUncorrectable 0).Met ∧
      (Claims.journalUncorrectable 0).Met ∧
      (Claims.dowelStall 15).Met ∧
      (Claims.thermalSample { dies := List.replicate 8 250, hub := 1050 }).Met ∧
      Claims.thermTrip.Met := by
  refine ⟨metAt up (by dsimp only [Claims.dieHeartbeat]; decide +kernel),
    metAt late (by dsimp only [Claims.heartbeatTimeout]; decide +kernel),
    metAt late (by dsimp only [Claims.isstSliceStart]; decide +kernel),
    metAt (up.modHealth 0 fun h => { h with sliceStart := some 0, slice := 571 }) (by dsimp only [Claims.isstSlicePass]; decide +kernel),
    metAt (up.modHealth 0 fun h => { h with sliceStart := some 0 }) (by dsimp only [Claims.isstSliceDeferred]; decide +kernel),
    metAt (up.modHealth 0 fun h => { h with sliceStart := some 0, slice := 570 }) (by dsimp only [Claims.isstSliceFail]; decide +kernel),
    metAt (fenced.modBoot fun b => { b with repairing := [0] }) (by dsimp only [Claims.dieRepairBistDone]; decide +kernel),
    metAt up (by dsimp only [Claims.dramUncorrectable]; decide +kernel),
    metAt up (by dsimp only [Claims.hostBufferUncorrectable]; decide +kernel),
    metAt up (by dsimp only [Claims.journalUncorrectable]; decide +kernel),
    metAt up (by dsimp only [Claims.dowelStall]; decide +kernel),
    metAt up (by dsimp only [Claims.thermalSample]; decide +kernel),
    metAt up (trivial)⟩

theorem met_SecurityEventsTakeEffect :
    (Claims.tamperTrip 0).Met ∧
      (Claims.tamperTrip 5).Met ∧
      Claims.wipeDone.Met ∧
      (Claims.tapInstructionLoad .extest).Met ∧
      Claims.spFatalError.Met ∧
      Claims.securityProcessorRestartDone.Met := by
  refine ⟨metAt up (by dsimp only [Claims.tamperTrip]; decide +kernel),
    metAt (up.modBoot fun b => { b with ka := { b.ka with loopArmed := true } }) (by dsimp only [Claims.tamperTrip]; decide +kernel),
    metAt (up.modBoot fun b => { b with sec := { b.sec with wipePending := some ([], 1) } }) (by dsimp only [Claims.wipeDone]; decide +kernel),
    metAt up (by dsimp only [Claims.tapInstructionLoad]; decide +kernel),
    metAt up (by dsimp only [Claims.spFatalError]; decide +kernel),
    metAt (up.modBoot fun b => { b with sec := { b.sec with spUp := false } }) (by dsimp only [Claims.securityProcessorRestartDone]; decide +kernel)⟩

theorem met_ManagementFailoverTakesEffect :
    Claims.mpReport.Met ∧
      Claims.mpReportTimeout.Met ∧
      Claims.mpFatalError.Met ∧
      Claims.mpFatalErrorInStart.Met ∧
      Claims.standbyStartDone.Met ∧
      Claims.takeoverComplete.Met ∧
      (Claims.mpRepairBistDone false).Met ∧
      (Claims.fencedProcessorLateWrite (Fin.ofNat 16384 0x1E1) 1).Met ∧
      Claims.fencedProcessorLateJournal.Met ∧
      Claims.firmwareStateJournal.Met := by
  refine ⟨metAt up (by dsimp only [Claims.mpReport]; decide +kernel),
    metAt late (by dsimp only [Claims.mpReportTimeout]; decide +kernel),
    metAt up (by dsimp only [Claims.mpFatalError]; decide +kernel),
    metAt (cold.modBoot fun b => { b with stage := .fwStart }) (by dsimp only [Claims.mpFatalErrorInStart]; decide +kernel),
    metAt fenced (by dsimp only [Claims.standbyStartDone]; decide +kernel),
    metAt (fenced.modBoot fun b => { b with standbyUp := true }) (by dsimp only [Claims.takeoverComplete]; decide +kernel),
    metAt (up.modBoot fun b => { b with mpRepairing := true }) (by dsimp only [Claims.mpRepairBistDone]; decide +kernel),
    metAt fenced (by dsimp only [Claims.fencedProcessorLateWrite]; exact ⟨some1 (by decide +kernel), by decide +kernel⟩),
    metAt fenced (by dsimp only [Claims.fencedProcessorLateJournal]; decide +kernel),
    metAt up (by dsimp only [Claims.firmwareStateJournal]; decide +kernel)⟩

/-- A device whose die 0 is fenced, and a set that is on its way to where it applies. -/
def dieLost : State := late.modBoot fun b => { b with diesFenced := 1 }
def onItsWay (k : BoundaryKind) (c : Change) (e : Eci) : Eci :=
  { e with running := [{ cmd := ⟨tokOf 0x0105 (sub 0x10000001 no), sub 0x10000001 no⟩, await := .arrival k c, reply := {} }] }

theorem met_SessionEventsTakeEffect :
    (Claims.sessionConnect 3 7418).Met ∧
      (Claims.sessionLockout 4 7418).Met ∧
      (Claims.handshakeH1 0 (pay 0x7CA [(0, 4, 0x48535856), (4, 2, 1)])).Met ∧
      (Claims.handshakeH3 0 []).Met ∧
      (Claims.handshakeTimeout 0).Met ∧
      Claims.connectionLockoutEnd.Met ∧
      (Claims.protectedFrame 0 []).Met ∧
      (Claims.sessionIdleTimeout 0).Met ∧
      Claims.stagedSetArrival.Met ∧
      (Claims.stagedSetLost 0 (.stop 0x10000001)).Met ∧
      (Claims.stagedStartLost 0x10000000 (.start 0x10000000)).Met ∧
      (Claims.stagedSetPipe3 0 (.stop 0x10000001)).Met ∧
      (Claims.stagedSetPipe3 7 (.stop 0x10000001)).Met ∧
      Claims.stagedSetWaits.Met := by
  refine ⟨metAt up (by dsimp only [Claims.sessionConnect]; decide +kernel),
    metAt (up.modEci fun e => { e with lockoutUntil := some 1 }) (by dsimp only [Claims.sessionLockout]; decide +kernel),
    metAt (late.modEci fun e => { e with sessions := [(0, {  })] }) (by dsimp only [Claims.handshakeH1]; exact ⟨by decide +kernel, by decide +kernel, by decide +kernel, some1 (by decide +kernel)⟩),
    metAt (late.modEci fun e => { e with sessions := [(0, { phase := .h2Sent })] }) (by dsimp only [Claims.handshakeH3]; exact ⟨by decide +kernel, by decide +kernel, some1 (by decide +kernel)⟩),
    metAt (late.modEci fun e => { e with sessions := [(0, { since := 0 })] }) (by dsimp only [Claims.handshakeTimeout]; exact some1 (by decide +kernel)),
    metAt (late.modEci fun e => { e with lockoutUntil := some 1 }) (by dsimp only [Claims.connectionLockoutEnd]; exact some1 (by decide +kernel)),
    metAt (late.modEci fun e => { e with sessions := [(0, { phase := .established })] }) (by dsimp only [Claims.protectedFrame]; exact ⟨by decide +kernel, some1 (by decide +kernel)⟩),
    metAt (late.modEci fun e => { e with sessions := [(0, { phase := .established })] }) (by dsimp only [Claims.sessionIdleTimeout]; exact some1 (by decide +kernel)),
    metAt (rig.modEci fun e => { e with running := [{ cmd := ⟨tokOf 0x0105 (sub 0x10000001 no), sub 0x10000001 no⟩, await := .arrival (.picture 0x10000001) (.stop 0x10000001), reply := {} }] }) (by dsimp only [Claims.stagedSetArrival]; exact ⟨_, _, _, rfl, rfl, by decide +kernel, nofun, nofun⟩),
    metAt (({ rig with boot := dieLost.boot }).modEci (onItsWay (.pipe3 0) (.stop 0x10000001))) (by dsimp only [Claims.stagedSetLost]; exact ⟨by decide +kernel, by decide +kernel, _, rfl, rfl⟩),
    metAt ({ rig with boot := dieLost.boot }.modEci (onItsWay (.source 0x10000000) (.start 0x10000000))) (by dsimp only [Claims.stagedStartLost]; exact ⟨by decide +kernel, by decide +kernel, _, rfl, rfl⟩),
    metAt (rig.modEci (onItsWay (.pipe3 0) (.stop 0x10000001))) (by dsimp only [Claims.stagedSetPipe3]; exact ⟨by decide +kernel, by decide +kernel, nofun, nofun, nofun, _, rfl, rfl⟩),
    metAt ((rig.modEci (onItsWay (.pipe3 7) (.stop 0x10000001))).modChan fun x => { x with pipe3 := [(7, { coding := some (0x10000001, 0) })] }) (by dsimp only [Claims.stagedSetPipe3]; exact ⟨by decide +kernel, by decide +kernel, nofun, nofun, nofun, _, rfl, rfl⟩),
    metAt fenced (by dsimp only [Claims.stagedSetWaits]; decide +kernel)⟩

/-! ### Pictures, rows and release -/

/-- The late device with one channel at 0x10000000, and that channel with a running picture whose rows are posted. -/
def withCh (x : Channel) : State :=
  { late with
    eci := { late.eci with owners := [(0x10000000, 0)] }
    chan := { chans := [(0x10000000, x)] } }

def running : Channel :=
  { chan with state := .running, anchored := true, nextPic := 1, pics := [(0, { rated := true, stage := 0 })]
              rows := (List.range 17).map fun k => (k, { phase := .speculative, arrived := true, composed := true, analysed := true }) }

/-- The same with its stitch deadlines far off, with one row, with an order for one, and with every row at a row's state. -/
def soon : Channel := { running with anchor := 10 ^ 30 }
def withRow (k : Nat) (r : Row) : State := withCh { running with rows := running.rows.put k r }
def ordered (d : Order) : State := withCh { soon with order := some { pic := 0, row := 16, order := d, nextQp := 30, nextStage := 0, lowRun := 0 } }
def rowsAt (p : RowPhase) : Channel := { running with rows := running.rows.mapV fun _ r => { r with phase := p } }

/-- The device while core 0 holds the rate-control lock of the channel. -/
def judging (x : Channel) : State :=
  { withCh x with sched := { scheds := [(0, { locks := [(1, { owner := some (2560, 0) })] })] } }

/-- A channel that an SDI input feeds with the channel's own format, and a pool channel. -/
def laneSrc : Nat := laneHandle 64
def fromSdi (x : Channel) : State :=
  { withCh { x with cfg := { x.cfg with source := laneSrc } } with
    lane := { lanes := [(64, { up := true, posting := true, mode := 1, found := true
                               format := some { rate := 0, width := 1920, height := 1080, rateNum := 60, rateDen := 1, sampling := 0, depth := 8 } })] } }
def pooled (c : Channel) (p : Pipe3) : State := (withCh { c with pipe := 3 }).modChan fun x => { x with pipe3 := [(0, p)] }

/-- The channel of a mitre pair, and what is on its way between its dies. -/
def crossed (x : List Crossing) : State := withCh { running with partnerPipe := some 0, crossing := x }

theorem met_PictureEventsTakeEffect :
    (Claims.pictureBoundaryIdle 0x10000000).Met ∧
      (Claims.pictureBoundary 0x10000000).Met ∧
      (Claims.pictureBoundaryEarly 0x10000000).Met ∧
      (Claims.pictureBoundaryStop 0x10000000).Met ∧
      (Claims.pipe3BoundaryEmpty 7).Met ∧
      (Claims.pipe3BoundaryBusy 0).Met ∧
      (Claims.pipe3PictureBoundary 0).Met ∧
      (Claims.sourcePictureMissing 0x10000000).Met ∧
      (Claims.sourcePictureMissingPool 0x10000000).Met ∧
      (Claims.rowArrivalPost 0x10000000 16 0 {}).Met ∧
      (Claims.rowArrivalInOrder 0x10000000 15 0 {}).Met ∧
      (Claims.rowArrivalOutOfOrder 0x10000000 16 0 {}).Met ∧
      (Claims.pictureCopyDone 0x10000000 [] [] []).Met ∧
      (Claims.generatedRowAvailable 0x10000000 0).Met ∧
      (Claims.generatedRowFree 0x10000000 16).Met ∧
      (Claims.compositionRowDone 0x10000000 0 0).Met ∧
      (Claims.commitAppliedReport 0x10000000).Met ∧
      (Claims.analysisRowDone 0x10000000 0 0 false).Met ∧
      (Claims.analysisRowEarly 0x10000000 0 16 true).Met := by
  refine ⟨metAt (withCh chan) (by dsimp only [Claims.pictureBoundaryIdle]; decide +kernel),
    metAt (withCh running) (by dsimp only [Claims.pictureBoundary]; decide +kernel),
    metAt (withCh { running with lastPic := some 0 }) (by dsimp only [Claims.pictureBoundaryEarly]; decide +kernel),
    metAt ((withCh { running with reference := true }).modEci fun e => { e with staged := [{ kind := .picture 0x10000000, boundary := .pic 1, seq := 0, change := .stop 0x10000000 }] }) (by dsimp only [Claims.pictureBoundaryStop]; decide +kernel),
    metAt up (by dsimp only [Claims.pipe3BoundaryEmpty]; decide +kernel),
    metAt ((withCh running).modChan fun x => { x with pipe3 := [(0, { coding := some (0x10000000, 0) })] }) (by dsimp only [Claims.pipe3BoundaryBusy]; exact ⟨_, _, rfl, by decide +kernel⟩),
    metAt (pooled running { eligible := [{ chan := 0x10000000, pic := 1, time := 0 }] }) (by dsimp only [Claims.pipe3PictureBoundary]; exact ⟨by decide +kernel, by decide +kernel, by decide +kernel, nofun, by decide +kernel⟩),
    metAt (withCh running) (by dsimp only [Claims.sourcePictureMissing]; decide +kernel),
    metAt (withCh { running with pipe := 3, cond := .repeat_, pics := [(0, { assigned := true })] }) (by dsimp only [Claims.sourcePictureMissingPool]; decide +kernel),
    metAt (withCh { chan with cfg := { chan.cfg with source := 0x20FF0000 } }) (by dsimp only [Claims.rowArrivalPost]; decide +kernel),
    metAt (fromSdi { running with cur := some 0, curRows := 15 }) (by dsimp only [Claims.rowArrivalInOrder]; decide +kernel),
    metAt (fromSdi { running with cur := some 0, curRows := 15 }) (by dsimp only [Claims.rowArrivalOutOfOrder]; decide +kernel),
    metAt ((withCh running).modEci fun e => { e with running := [{ cmd := ⟨tokOf 0x0506 (sub 0x10000000 (pay 48 [(1, 1, 1)])), sub 0x10000000 (pay 48 [(1, 1, 1)])⟩, await := .pictureCopy 0x10000000 0, reply := {} }] }) (by dsimp only [Claims.pictureCopyDone]; decide +kernel),
    metAt ((withCh running).modDec fun d => { d with jigs := [(0x10000000, pay 16 [(1, 1, 1)])] }) (by dsimp only [Claims.generatedRowAvailable]; decide +kernel),
    metAt ((withCh { running with anchored := false }).modDec fun d => { d with jigs := [(0x10000000, pay 16 [(1, 1, 1)])] }) (by dsimp only [Claims.generatedRowFree]; decide +kernel),
    metAt ((withRow 0 { arrived := true }).modCh 0x10000000 fun g => { g with pics := [(0, { same := false })] }) (by dsimp only [Claims.compositionRowDone]; decide +kernel),
    metAt ((withCh chan).modComp fun x => { x with reports := [{ chan := 0x10000000, pic := none, enabled := 0, freed := [] }] }) (by dsimp only [Claims.commitAppliedReport]; decide +kernel),
    metAt ((withRow 0 { arrived := true }).modCh 0x10000000 fun g => { g with pics := [(0, { kind := .repeat_ })] }) (by dsimp only [Claims.analysisRowDone]; decide +kernel),
    metAt (withCh running) (by dsimp only [Claims.analysisRowEarly]; decide +kernel)⟩

/-- A row whose entropy coding is complete on the even half. -/
def codedRow : Row := { phase := .speculative, buf := { ents := [(0, {})] } }

theorem met_RowEventsTakeEffect :
    (Claims.rowJudgement 0x10000000).Met ∧
      (Claims.rowJudgementS3 0x10000000).Met ∧
      (Claims.rowJudgementNotYet 0x10000000).Met ∧
      (Claims.commitOrder 0x10000000 0 16).Met ∧
      (Claims.rewindOrder 0x10000000 0 16).Met ∧
      (Claims.fillOrder 0x10000000 0 16).Met ∧
      (Claims.orderDiscarded (.fillOrder 0x10000000 0 16) 0x10000000 0 16).Met ∧
      (Claims.orderAfterDeadline (.commitOrder 0x10000000 0 16) 0x10000000 0 16).Met ∧
      (Claims.checkpointRestoreDone 0x10000000).Met ∧
      (Claims.partnerOrder 0x10000000).Met ∧
      (Claims.seamDataArrival 0x10000000 false).Met ∧
      (Claims.seamRowArrival 0x10000000 false 0 16 true).Met ∧
      (Claims.seamRowArrival 0x10000000 true 0 0 false).Met ∧
      (Claims.failoverStateUpdate 0x10000000).Met ∧
      (Claims.fillSetUpdate 0x10000000 0 0).Met := by
  refine ⟨metAt (judging { running with rows := running.rows.put 0 codedRow }) (by dsimp only [Claims.rowJudgement]; exact ⟨by decide +kernel, by decide +kernel, by decide +kernel, by decide +kernel, some1 (by decide +kernel)⟩),
    metAt (judging { running with pics := [(0, { rated := true, stage := 3 })] }) (by dsimp only [Claims.rowJudgementS3]; exact ⟨by decide +kernel, by decide +kernel, by decide +kernel, by decide +kernel, some1 (by decide +kernel)⟩),
    metAt (withCh running) (by dsimp only [Claims.rowJudgementNotYet]; exact .inl (by decide +kernel)),
    metAt (ordered .commit) (by dsimp only [Claims.commitOrder]; exact ⟨by decide +kernel, some1 (by decide +kernel)⟩),
    metAt (ordered (.rewind 48)) (by dsimp only [Claims.rewindOrder]; exact ⟨by decide +kernel, _, 48, rfl, rfl⟩),
    metAt (ordered .fill) (by dsimp only [Claims.fillOrder]; exact ⟨by decide +kernel, some1 (by decide +kernel)⟩),
    metAt (withCh running) (by dsimp only [Claims.orderDiscarded]; exact ⟨.inr (.inr rfl), by decide +kernel⟩),
    metAt (withCh { running with order := some { pic := 0, row := 16, order := .commit, nextQp := 30, nextStage := 0, lowRun := 0 } }) (by dsimp only [Claims.orderAfterDeadline]; exact ⟨.inl rfl, by decide +kernel⟩),
    metAt (withRow 16 { restoring := true }) (by dsimp only [Claims.checkpointRestoreDone]; decide +kernel),
    metAt (crossed [{ half := 0, token := 0, gen := 0, item := .order 0 16 1 }]) (by dsimp only [Claims.partnerOrder]; exact ⟨_, _, _, _, rfl, rfl⟩),
    metAt (crossed [{ half := 0, token := 0, gen := 0, item := .sums 0 16 }]) (by dsimp only [Claims.seamDataArrival]; exact ⟨_, rfl, nofun⟩),
    metAt (crossed [{ half := 0, token := 0, gen := 0, item := .columns 0 16 }]) (by dsimp only [Claims.seamRowArrival]; exact some1 (by decide +kernel)),
    metAt (crossed [{ half := 1, token := 0, gen := 0, item := .band 0 0 }]) (by dsimp only [Claims.seamRowArrival]; exact some1 (by decide +kernel)),
    metAt ((withCh running).modCh 0x10000000 fun g => { g with pics := [(0, { judged := 17 })] }) (by dsimp only [Claims.failoverStateUpdate]; decide +kernel),
    metAt (withCh running) (by dsimp only [Claims.fillSetUpdate]; decide +kernel)⟩

theorem met_ReleaseTakesEffect :
    (Claims.stitchDeadline 0x10000000 0 0).Met ∧
      (Claims.stitchDeadlineHole 0x10000000 0 0).Met ∧
      (Claims.stitchRelease 0x10000000 0).Met ∧
      (Claims.duRecordArrival 0x10000000).Met ∧
      (Claims.duRelease 0x10000000).Met ∧
      (Claims.duReleaseEarly 0x10000000).Met ∧
      (Claims.duReleaseAbsent 0x10000000).Met ∧
      (Claims.duReleaseJoins 0x10000000).Met := by
  refine ⟨metAt (withCh running) (by dsimp only [Claims.stitchDeadline]; unfold Claims.deadlineDue; decide +kernel),
    metAt (withCh (rowsAt .committed)) (by dsimp only [Claims.stitchDeadlineHole]; unfold Claims.deadlineDue; decide +kernel),
    metAt (withCh (rowsAt .committed)) (by dsimp only [Claims.stitchRelease]; exact ⟨by decide +kernel, by decide +kernel, by decide +kernel, some1 (by decide +kernel)⟩),
    metAt ((withCh running).modCh 0x10000000 fun g => { g with inFlightDus := [{ pic := 0, du := 16, tile := 0 }] }) (by dsimp only [Claims.duRecordArrival]; decide +kernel),
    metAt ((withCh running).modCh 0x10000000 fun g => { g with hubDus := [{ pic := 0, du := 0, tile := 0 }] }) (by dsimp only [Claims.duRelease]; unfold Claims.mayRelease; decide +kernel),
    metAt (withCh soon) (by dsimp only [Claims.duReleaseEarly]; decide +kernel),
    metAt (withCh running) (by dsimp only [Claims.duReleaseAbsent]; unfold Claims.mayRelease; decide +kernel),
    metAt ((withCh running).modCh 0x10000000 fun g => { g with cfg := { g.cfg with duRows := 4 }, relDu := 1, hubDus := [{ pic := 0, du := 1, tile := 0 }] }) (by dsimp only [Claims.duReleaseJoins]; unfold Claims.mayRelease; decide +kernel)⟩

/-! ### The schedulers -/

/-- The late device with a flow and a task in scheduler 0. -/
def sched (x : Sched) : State := { late with sched := { scheds := [(0, x)] } }
def flow1 : Sched := { flows := [(1, {})] }
def desc : Descriptor :=
  { flow := 1, seq := 0, ctl := 0, waitMask := 0, flags := 0, deadline := 0, affinity := 0, lock := 0, opts := 0, doneTarget := 0
    doneSeq := 0, reserved1F := 0, doneBits := 0, entry := 0, args := [] }

theorem met_SchedulerEventsTakeEffect :
    (Claims.descriptorRefused 0 1 { desc with opts := 8 }).Met ∧
      (Claims.descriptorEnqueue 0 1 { desc with flow := 4095 }).Met ∧
      (Claims.descriptorHeld 0 1 { desc with seq := 256 }).Met ∧
      (Claims.backpressureEnd 0).Met ∧
      (Claims.taskPost 0 5 1).Met ∧
      (Claims.sequencePost 0 1 255 1).Met ∧
      (Claims.sequencePostStale 0 1 0xFFFFFF 1).Met ∧
      (Claims.sequencePostWaits 0 1 256 1).Met ∧
      (Claims.flowPost 0 1 1).Met ∧
      (Claims.taskDispatch 0 255).Met ∧
      (Claims.taskDispatchBusy 0 255).Met ∧
      (Claims.taskComplete 0 255 5).Met ∧
      (Claims.taskCompleteStale 0 255 6).Met ∧
      (Claims.taskCancel 8 5).Met ∧
      (Claims.flowSquash 0 1 0).Met ∧
      (Claims.deadlineExpiry 0).Met ∧
      (Claims.directLockAcquire 0 0xA01 255).Met ∧
      (Claims.directLockRelease 0 0xA01 255).Met ∧
      (Claims.taskWatchdog 0 255).Met ∧
      (Claims.taskWatchdogInTime 0 255).Met ∧
      (Claims.taskCompleteLate 0 255 5).Met := by
  refine ⟨metAt up (by dsimp only [Claims.descriptorRefused]; decide +kernel),
    metAt (sched flow1) (by dsimp only [Claims.descriptorEnqueue]; decide +kernel),
    metAt (sched flow1) (by dsimp only [Claims.descriptorHeld]; decide +kernel),
    metAt (sched { flow1 with stalled := [{ producer := 1, bound := 3, task := some ({ flow := 1, seq := 255 }, false) }] }) (by dsimp only [Claims.backpressureEnd]; exact ⟨by decide +kernel, _, _, rfl, rfl⟩),
    metAt (sched { flow1 with tasks := [(5, { flow := 1, seq := 0 })] }) (by dsimp only [Claims.taskPost]; decide +kernel),
    metAt (sched flow1) (by dsimp only [Claims.sequencePost]; exact ⟨by decide +kernel, some1 (by decide +kernel)⟩),
    metAt (sched flow1) (by dsimp only [Claims.sequencePostStale]; exact ⟨by decide +kernel, some1 (by decide +kernel)⟩),
    metAt (sched flow1) (by dsimp only [Claims.sequencePostWaits]; exact ⟨by decide +kernel, some1 (by decide +kernel)⟩),
    metAt (sched flow1) (by dsimp only [Claims.flowPost]; decide +kernel),
    metAt (sched { flow1 with tasks := [(5, { flow := 1, ready := some 0 })] }) (by dsimp only [Claims.taskDispatch]; decide +kernel),
    metAt (sched { flow1 with tasks := [(5, { flow := 1, agent := some 255 })] }) (by dsimp only [Claims.taskDispatchBusy]; decide +kernel),
    metAt (sched { flow1 with tasks := [(5, { flow := 1, agent := some 255 })] }) (by dsimp only [Claims.taskComplete]; exact ⟨by decide +kernel, some1 (by decide +kernel)⟩),
    metAt (sched { flow1 with tasks := [(5, { flow := 1, agent := some 255 })] }) (by dsimp only [Claims.taskCompleteStale]; decide +kernel),
    metAt up (by dsimp only [Claims.taskCancel]; decide +kernel),
    metAt (sched flow1) (by dsimp only [Claims.flowSquash]; decide +kernel),
    metAt up (by dsimp only [Claims.deadlineExpiry]; decide +kernel),
    metAt up (by dsimp only [Claims.directLockAcquire]; decide +kernel),
    metAt (sched { locks := [(255, { owner := some (0xA01, 0) })] }) (by dsimp only [Claims.directLockRelease]; decide +kernel),
    metAt (sched { flow1 with tasks := [(5, { flow := 1, agent := some 255 })] }) (by dsimp only [Claims.taskWatchdog]; exact ⟨by decide +kernel, by decide +kernel, _, rfl⟩),
    metAt (sched flow1) (by dsimp only [Claims.taskWatchdogInTime]; decide +kernel),
    metAt (sched { flow1 with held := [(5, { agent := 255, gen := 0 })] }) (by dsimp only [Claims.taskCompleteLate]; exact ⟨by decide +kernel, by decide +kernel, some1 (by decide +kernel)⟩)⟩

/-! ### Traffic and lanes -/

/-- The late device with port 0 up, and with an ingress stream on it. -/
def port : State := { late with lane := { lanes := [(0, { mode := 6, up := true, causes := 0 })] } }
def stream (x : Ingress) : State :=
  { port with net := { ingress := [(0x20FF0000, { x with
      payload := pay 112 [(0, 1, 4), (1, 1, 1), (3, 1, 0xFF), (6, 2, 5004), (0x1F, 1, 1)] })] } }
def frame : RxFrame := { bytes := 9022, dest := 1, udp := 5004 }
def net (x : Net) : State := { late with net := x }
def lanes (i : Nat) (x : Lane) : State := { late with lane := { lanes := [(i, x)] } }

theorem met_TrafficEventsTakeEffect :
    (Claims.ingressBad 0 { bytes := 9023 }).Met ∧
      (Claims.ingressUnmatched 0 frame).Met ∧
      (Claims.ingressBadChecksum 0 { frame with badChecksum := true }).Met ∧
      (Claims.ingressPacket 0 frame).Met ∧
      (Claims.ingressPoliced 0 frame).Met ∧
      (Claims.ingressShared 0 frame).Met ∧
      (Claims.packetLossDeclare 0x20FF0000).Met ∧
      (Claims.pathDownTimeout 0x20FF0000 1).Met ∧
      (Claims.pathUp 0x20FF0000 0).Met ∧
      (Claims.sdiLineDown 15 {}).Met ∧
      (Claims.sdiLineReceive 0 {}).Met ∧
      (Claims.manifestSigned 0x21FF0000).Met ∧
      (Claims.manifestWaits 0x21FF0000).Met ∧
      Claims.refillTick.Met ∧
      (Claims.frameTxEnd 17).Met ∧
      (Claims.frameTxBusy 0).Met ∧
      (Claims.gateEntryChange 0).Met ∧
      (Claims.gatelistStart 0).Met ∧
      (Claims.ptpSendTrigger 15 .delayReq).Met ∧
      (Claims.ingressExempt 0 { frame with exempt := true, management := true }).Met := by
  refine ⟨metAt port (by dsimp only [Claims.ingressBad]; decide +kernel),
    metAt port (by dsimp only [Claims.ingressUnmatched, Claims.whole, Claims.received]; decide +kernel),
    metAt (stream {}) (by dsimp only [Claims.ingressBadChecksum, Claims.whole, Claims.received]; exact ⟨by decide +kernel, by decide +kernel, by decide +kernel, _, rfl⟩),
    metAt (stream {}) (by dsimp only [Claims.ingressPacket, Claims.whole, Claims.received]; exact ⟨by decide +kernel, by decide +kernel, _, rfl, by decide +kernel⟩),
    metAt ((stream {}).modNet fun n => { n with policers := [(0x25FF0000, { target := 0x20FF0000 })] }) (by dsimp only [Claims.ingressPoliced, Claims.whole, Claims.received]; exact ⟨by decide +kernel, by decide +kernel, by decide +kernel, _, 0x25FF0000, { target := 0x20FF0000 }, rfl, by decide +kernel, by decide +kernel⟩),
    metAt (stream {}) (by dsimp only [Claims.ingressShared, Claims.whole, Claims.received]; decide +kernel),
    metAt (stream { missing := [(7, 12884901893)] }) (by dsimp only [Claims.packetLossDeclare]; decide +kernel),
    metAt (stream { paths := [{}, { up := true }] }) (by dsimp only [Claims.pathDownTimeout]; decide +kernel),
    metAt (stream { paths := [{ last := some 12884901893, runSince := some 12784901893 }, {}] }) (by dsimp only [Claims.pathUp]; decide +kernel),
    metAt up (by dsimp only [Claims.sdiLineDown]; decide +kernel),
    metAt (lanes 64 { mode := 1, up := true }) (by dsimp only [Claims.sdiLineReceive]; decide +kernel),
    metAt (net { egress := [(0x21FF0000, { kind := 5, prov := { on := true, toSign :=
      [{ number := 1, firstPic := 0, tFirst := 0, durationUs := 0, flags := 0, digest := [], hashes := [], auFlags := [] }] } })] }) (by dsimp only [Claims.manifestSigned]; decide +kernel),
    metAt (up.modBoot fun b => { b with sec := { b.sec with spUp := false } }) (by dsimp only [Claims.manifestWaits]; decide +kernel),
    metAt late (by dsimp only [Claims.refillTick]; decide +kernel),
    metAt (net { ports := [(17, { wire := some {}, wireEnd := 12884901893 })] }) (by dsimp only [Claims.frameTxEnd]; exact some1 (by decide +kernel)),
    metAt (net { ports := [(0, { wireEnd := 12884901894 })] }) (by dsimp only [Claims.frameTxBusy]; decide +kernel),
    metAt (net { ports := [(0, { gates := some {} })] }) (by dsimp only [Claims.gateEntryChange]; decide +kernel),
    metAt (net { ports := [(0, { gatesNext := some { start := 12884901893 } })] }) (by dsimp only [Claims.gatelistStart]; exact some1 (by decide +kernel)),
    metAt (late.modTime fun t => { t with ptp := { portMask := 0x8000 }, ports := [(15, { state := .slave })] }) (by dsimp only [Claims.ptpSendTrigger]; decide +kernel),
    metAt port (by dsimp only [Claims.ingressExempt, Claims.whole, Claims.received]; decide +kernel)⟩

theorem met_LaneEventsTakeEffect :
    (Claims.lpiWakeExpiry 15).Met ∧
      (Claims.sdiRateLock 15 4 true).Met ∧
      (Claims.laneDetectorAssert 0 8).Met ∧
      (Claims.laneUpTimer 17).Met ∧
      (Claims.autonegDone 17 3).Met ∧
      (Claims.coeffUpdateRequest 0 3 true).Met ∧
      (Claims.trainingDone 0 100).Met ∧
      (Claims.trainingWaitTimeout 0).Met ∧
      (Claims.sdiAdaptationFail 15).Met ∧
      (Claims.lpiEntry 0).Met ∧
      (Claims.partnerLpi 0 true).Met := by
  refine ⟨metAt (lanes 15 { lpiTx := true, waking := true }) (by dsimp only [Claims.lpiWakeExpiry]; decide +kernel),
    metAt (lanes 79 { mode := 1 }) (by dsimp only [Claims.sdiRateLock]; decide +kernel),
    metAt (lanes 0 { causes := 0 }) (by dsimp only [Claims.laneDetectorAssert]; decide +kernel),
    metAt (lanes 17 { mode := 8, causes := 0, clearSince := some 12883901893 }) (by dsimp only [Claims.laneUpTimer]; exact ⟨by decide +kernel, by decide +kernel, by decide +kernel, some1 (by decide +kernel)⟩),
    metAt (lanes 17 { mode := 8, attempt := true, an := true }) (by dsimp only [Claims.autonegDone]; decide +kernel),
    metAt (lanes 0 { mode := 6, attempt := true }) (by dsimp only [Claims.coeffUpdateRequest]; decide +kernel),
    metAt (lanes 0 { mode := 6, attempt := true }) (by dsimp only [Claims.trainingDone]; decide +kernel),
    metAt (lanes 0 { mode := 6, attempt := true }) (by dsimp only [Claims.trainingWaitTimeout]; decide +kernel),
    metAt (lanes 79 { mode := 1, attempt := true }) (by dsimp only [Claims.sdiAdaptationFail]; decide +kernel),
    metAt (lanes 0 { mode := 6, eee := 2, up := true }) (by dsimp only [Claims.lpiEntry]; decide +kernel),
    metAt (lanes 0 { mode := 6, eee := 1, up := true }) (by dsimp only [Claims.partnerLpi]; decide +kernel)⟩

/-! ### Decode, audio and time -/

/-- The late device with a running decoder, with an audio program, and with its PTP ports. -/
def decoder (x : Decoder) : State :=
  { late with
    eci := { late.eci with owners := [(0x10000002, 0)] }
    chan := { chans := [(0x10000002, { decChan with state := .running })] }
    dec := { decoders := [(0x10000002, x)] } }
def check (x : CheckUnit) : State := { late with dec := { checks := [(0x60000000, x)] } }
def audio (x : Audio) : State := { late with audio := x }
def program (x : Program) : State :=
  audio { ports := [(0, { mode := 1, role := 1, inMask := 3, frames := 1000000 })], programs := [(0x31FF0000, { x with source := 0x30FF0000 })] }
/-- An audio port in use as a follower that has had an edge. -/
def framed (lost : Bool) : State := audio { ports := [(0, { mode := 1, role := 1, lastFsync := some 0, clockLost := lost })] }
def ptp (x : TimeState) : State :=
  { port with time := { x with ns := 5, wraps := 3, epSec := 12, epNs := 884901893 } }

/-- A sequence parameter set that the decoder's channel takes, an access unit on its way, and one in the coded buffer. -/
def sps : StreamSps := { width := 1920, height := 1080, level := 51, dpb := 1 }
def fed : FedAu := { data := bs [1] }
def inBuffer : CodedAu := { data := bs [1], arrival := 0, sps }

theorem met_DecodeEventsTakeEffect :
    (Claims.decoderAuArrival 0x10000002 { sps := some sps }).Met ∧
      (Claims.decoderAuArrival 0x10000002 {}).Met ∧
      (Claims.decoderAuRejected 0x10000002 { sps := some { sps with width := 1921 } }).Met ∧
      (Claims.decoderAuSkipped 0x10000002 {}).Met ∧
      (Claims.decoderAuSkipped 0x10000002 { sps := some sps }).Met ∧
      (Claims.decodePictureDone 0x10000002 { poc := 0, picType := 0 }).Met ∧
      (Claims.decodePictureFull 0x10000002 { poc := 0, picType := 0 }).Met ∧
      (Claims.decodePictureEmpty 0x10000002 { poc := 0, picType := 0 }).Met ∧
      (Claims.checkValueComplete 0x60000000 5 7).Met ∧
      (Claims.checkValueEmpty 0x60000000 5 7).Met ∧
      (Claims.checkValueAhead 0x60000000 5 7).Met ∧
      (Claims.checkValueMissed 0x60000000 5 7).Met ∧
      (Claims.checkValueStale 0x60000000 5 7).Met ∧
      (Claims.sdiOutPictureBoundary 7).Met ∧
      (Claims.sdiOutEarly 7).Met := by
  refine ⟨metAt (decoder { source := 0x20FF0000, submitted := [fed] }) (by dsimp only [Claims.decoderAuArrival]; unfold Claims.nextAu Claims.auSps; exact ⟨⟨_, _, by decide +kernel, by decide +kernel, rfl⟩, by decide +kernel⟩),
    metAt (decoder { source := 0x20FF0000, submitted := [fed], sps := some sps }) (by dsimp only [Claims.decoderAuArrival]; unfold Claims.nextAu Claims.auSps; exact ⟨⟨_, _, by decide +kernel, by decide +kernel, rfl⟩, by decide +kernel⟩),
    metAt (decoder { source := 0x20FF0000, submitted := [fed] }) (by dsimp only [Claims.decoderAuRejected]; unfold Claims.nextAu; exact ⟨⟨_, _, by decide +kernel, by decide +kernel, rfl⟩, _, rfl, by decide +kernel⟩),
    metAt (decoder { source := 0x20FF0000, submitted := [fed] }) (by dsimp only [Claims.decoderAuSkipped]; unfold Claims.nextAu Claims.auSps; exact ⟨⟨_, _, by decide +kernel, by decide +kernel, rfl⟩, .inl (by decide +kernel)⟩),
    metAt (decoder { source := 0x20FF0000, submitted := [fed], rejecting := true }) (by dsimp only [Claims.decoderAuSkipped]; unfold Claims.nextAu Claims.auSps; exact ⟨⟨_, _, by decide +kernel, by decide +kernel, rfl⟩, .inr (by decide +kernel)⟩),
    metAt (decoder { coded := [inBuffer] }) (by dsimp only [Claims.decodePictureDone]; unfold Claims.madeRoom; exact ⟨by decide +kernel, _, _, rfl, by decide +kernel⟩),
    metAt (decoder { coded := [{ inBuffer with sps := { sps with dpb := 0 } }] }) (by dsimp only [Claims.decodePictureFull]; unfold Claims.madeRoom; exact ⟨by decide +kernel, _, _, rfl, by decide +kernel⟩),
    metAt (decoder {}) (by dsimp only [Claims.decodePictureEmpty]; decide +kernel),
    metAt (check { bound := true, queue := [(some 5, 7)] }) (by dsimp only [Claims.checkValueComplete]; unfold Claims.checksPic; exact ⟨by decide +kernel, some 5, 7, [], rfl, by decide +kernel⟩),
    metAt (check { bound := true }) (by dsimp only [Claims.checkValueEmpty]; unfold Claims.checksPic; decide +kernel),
    metAt (check { bound := true, queue := [(some 6, 7)] }) (by dsimp only [Claims.checkValueAhead]; unfold Claims.checksPic; exact ⟨by decide +kernel, 6, 7, [], rfl, by decide +kernel⟩),
    metAt (check { bound := true, queue := [(some 4, 7), (some 5, 7)] }) (by dsimp only [Claims.checkValueMissed]; unfold Claims.checksPic; exact ⟨by decide +kernel, 4, 7, 7, [], rfl, by decide +kernel⟩),
    metAt dieLost (by dsimp only [Claims.checkValueStale]; decide +kernel),
    metAt { late with lane := { lanes := [(103, { mode := 1 })], outs := [(0x70FF0067, {})] } } (by dsimp only [Claims.sdiOutPictureBoundary]; decide +kernel),
    metAt { decoder { outCount := 4 } with lane := { lanes := [(103, { mode := 1 })], outs := [(0x70FF0067, { source := 0x10000002, boundaries := (decoder { outCount := 4 }).outIndex { source := 0x10000002 } })] } } (by dsimp only [Claims.sdiOutEarly]; decide +kernel)⟩

theorem met_AudioEventsTakeEffect :
    (Claims.audioFsyncEdge 0).Met ∧
      (Claims.audioFramingError 0).Met ∧
      (Claims.audioClockReturn 0 false).Met ∧
      (Claims.audioClockLoss 0).Met ∧
      (Claims.audioSampleArrival 0x31FF0000 { first := 0, rows := [[1]] }).Met ∧
      (Claims.audioSampleArrival 0x31FF0000 { first := 0, rows := [[1]], positions := 1 }).Met ∧
      (Claims.audioSamplesOutOfRange 0x31FF0000 { first := 0, inRange := false } 0x32FF0000).Met ∧
      (Claims.audioSamplesRateLost 0x31FF0000 { first := 0 }).Met ∧
      (Claims.audioPositionDelivery 0x31FF0000).Met ∧
      (Claims.audioPositionEarly 0x31FF0000).Met ∧
      (Claims.rateWindowEnd 0x30FF0000 206158430208000 4800).Met ∧
      (Claims.asrcLock 63 0).Met ∧
      (Claims.aacAuDone 0x31FF0000 []).Met ∧
      (Claims.dspWatchdog 3).Met ∧
      (Claims.dspRestartDone 3).Met := by
  refine ⟨metAt (program {}) (by dsimp only [Claims.audioFsyncEdge]; exact ⟨by decide +kernel, by decide +kernel, by decide +kernel, .inl (by decide +kernel)⟩),
    metAt (framed false) (by dsimp only [Claims.audioFramingError]; decide +kernel),
    metAt (framed true) (by dsimp only [Claims.audioClockReturn]; decide +kernel),
    metAt (program {}) (by dsimp only [Claims.audioClockLoss]; exact ⟨by decide +kernel, by decide +kernel, by decide +kernel, by decide +kernel, nofun⟩),
    metAt (program { channels := 1, map := bs [0] }) (by dsimp only [Claims.audioSampleArrival]; decide +kernel),
    metAt (program { channels := 1, map := bs [0], asrc := some 0x32FF0000 }) (by dsimp only [Claims.audioSampleArrival]; decide +kernel),
    metAt (program { asrc := some 0x32FF0000 }) (by dsimp only [Claims.audioSamplesOutOfRange]; decide +kernel),
    metAt ((program {}).modAudio fun a => { a with rates := [(0x30FF0000, { lost := true })] }) (by dsimp only [Claims.audioSamplesRateLost]; decide +kernel),
    metAt (program { kind := 1 }) (by dsimp only [Claims.audioPositionDelivery]; decide +kernel),
    metAt (program { next := 1000001 }) (by dsimp only [Claims.audioPositionEarly]; decide +kernel),
    metAt (program {}) (by dsimp only [Claims.rateWindowEnd]; decide +kernel),
    metAt (audio { asrcs := [(0x32FF003F, {})] }) (by dsimp only [Claims.asrcLock]; decide +kernel),
    metAt (program { kind := 1, next := 1024, dsp := some 0 }) (by dsimp only [Claims.aacAuDone]; decide +kernel),
    metAt (program { kind := 1, next := 1024, dsp := some 3 }) (by dsimp only [Claims.dspWatchdog]; decide +kernel),
    metAt (audio { dsps := [(3, { restarting := some 0 })] }) (by dsimp only [Claims.dspRestartDone]; decide +kernel)⟩

theorem met_TimeEventsTakeEffect :
    Claims.timeWrap.Met ∧
      Claims.maintenancePass.Met ∧
      (Claims.ptpSync 0 127 0 0).Met ∧
      (Claims.ptpSyncTwoStep 0 127 0).Met ∧
      (Claims.ptpDelayResp 0 127 0 0).Met ∧
      (Claims.ptpPdelayResp 0 127 0 0 0).Met ∧
      (Claims.ptpAnnounce 0 127 { gmId := 1, priority1 := 1, clockClass := 6, accuracy := 0x20, variance := 0, priority2 := 1, stepsRemoved := 0, senderId := 1 }).Met ∧
      (Claims.ptpRequests 0 127).Met ∧
      (Claims.ptpMasked 15 0 .delayReq).Met ∧
      (Claims.announceReceiptTimeout 0).Met ∧
      (Claims.ptpPortStateChange 0).Met ∧
      (Claims.ptpMasterRefused 15).Met ∧
      Claims.servoHoldoverTimeout.Met ∧
      Claims.ppsOutEdge.Met ∧
      (Claims.ppsInWrongEdge false).Met ∧
      (Claims.ppsInEdge true).Met ∧
      Claims.ppsInLost.Met ∧
      Claims.ref10mInLost.Met ∧
      Claims.ref10mInReturn.Met ∧
      (Claims.ptpFollowUp 0 127 0 0).Met ∧
      (Claims.ptpPdelayReq 0 127).Met ∧
      (Claims.ptpManagement 0 127 true).Met ∧
      (Claims.ptpOtherDomain 0 1 .delayReq).Met := by
  refine ⟨metAt late (by dsimp only [Claims.timeWrap]; decide +kernel),
    metAt late (by dsimp only [Claims.maintenancePass]; decide +kernel),
    metAt (ptp { ptp := { portMask := 1 }, ports := [(0, { state := .slave })] }) (by dsimp only [Claims.ptpSync, Claims.ptpHears]; decide +kernel),
    metAt (ptp { ptp := { portMask := 1 }, ports := [(0, {  })] }) (by dsimp only [Claims.ptpSyncTwoStep, Claims.ptpHears]; decide +kernel),
    metAt (ptp { ptp := { portMask := 1 }, ports := [(0, { state := .slave })] }) (by dsimp only [Claims.ptpDelayResp, Claims.ptpHears]; decide +kernel),
    metAt (ptp { ptp := { portMask := 1, peerToPeer := true }, ports := [(0, { state := .uncalibrated })] }) (by dsimp only [Claims.ptpPdelayResp, Claims.ptpHears]; decide +kernel),
    metAt (ptp { ptp := { portMask := 1 }, ports := [(0, {  })] }) (by dsimp only [Claims.ptpAnnounce, Claims.ptpHears]; decide +kernel),
    metAt (ptp { ptp := { portMask := 1 }, ports := [(0, { state := .master })] }) (by dsimp only [Claims.ptpRequests, Claims.ptpHears]; decide +kernel),
    metAt (ptp { ptp := { portMask := 1 }, ports := [(0, {  })] }) (by dsimp only [Claims.ptpMasked]; decide +kernel),
    metAt (ptp { ptp := { portMask := 1 }, ports := [(0, { best := some { gmId := 1, priority1 := 1, clockClass := 6, accuracy := 0x20, variance := 0, priority2 := 1, stepsRemoved := 0, senderId := 1 } })] }) (by dsimp only [Claims.announceReceiptTimeout]; decide +kernel),
    metAt (ptp { ptp := { portMask := 1 }, ports := [(0, {  })] }) (by dsimp only [Claims.ptpPortStateChange]; decide +kernel),
    metAt (ptp { ptp := { portMask := 1 }, ports := [(0, {  })] }) (by dsimp only [Claims.ptpMasterRefused]; decide +kernel),
    metAt (ptp { servo := .locked }) (by dsimp only [Claims.servoHoldoverTimeout]; decide +kernel),
    metAt late (by dsimp only [Claims.ppsOutEdge]; decide +kernel),
    metAt late (by dsimp only [Claims.ppsInWrongEdge]; decide +kernel),
    metAt (ptp { lastPpsIn := some 11384901893 }) (by dsimp only [Claims.ppsInEdge]; exact ⟨by decide +kernel, by decide +kernel, by decide +kernel, by decide +kernel, some1 (by decide +kernel)⟩),
    metAt (ptp { lastPpsIn := some 11384901893 }) (by dsimp only [Claims.ppsInLost]; exact ⟨by decide +kernel, some1 (by decide +kernel)⟩),
    metAt late (by dsimp only [Claims.ref10mInLost]; decide +kernel),
    metAt late (trivial),
    metAt (ptp { ptp := { portMask := 1 }, ports := [(0, { state := .slave, syncPending := some 0 })] }) (by dsimp only [Claims.ptpFollowUp, Claims.ptpHears]; decide +kernel),
    metAt (ptp { ptp := { portMask := 1, peerToPeer := true } }) (by dsimp only [Claims.ptpPdelayReq, Claims.ptpHears]; decide +kernel),
    metAt (ptp { ptp := { portMask := 1 } }) (by dsimp only [Claims.ptpManagement, Claims.ptpHears]; decide +kernel),
    metAt (ptp { ptp := { portMask := 1 } }) (by dsimp only [Claims.ptpOtherDomain]; decide +kernel)⟩

/-! ### The block as a whole: a state, and where a statement has several clauses one for each, that meets its hypotheses -/

/-- The whole table's `DEVICE.NOP`, from a queue, and a command of a network session. -/
def nopCmd (via : Via) (h op : Nat) : Cmd :=
  { tok := { via, seq := 0, opcode := op, cmdId := 0, handle := h, fence := false }, sub := toDev no }

/-- StepRunsFrontCommand, IdleStepIsOneCycle (in reset and out of it, and at a carry), CommandsKeepTheQueue and
StepsKeepStateSound. -/
theorem met_steps :
    ({ up with pending := [Instr.maintenancePass] } : State).pending = Instr.maintenancePass :: [] ∧
      State.reset.pending = [] ∧ State.reset.boot.held = true ∧ up.pending = [] ∧ up.boot.held = false ∧ up.time.sound ∧
      -(2 ^ 33 : Int) ≤ up.time.adj ∧ (up.time.ns * 2 ^ 32 + up.time.frac + (2 ^ 33 + up.time.adj).toNat < 2 ^ 64) ∧
      (let t : TimeState := { ns := 2 ^ 32 - 1, frac := 2 ^ 32 - 1 }
       t.sound ∧ 2 ^ 64 ≤ t.ns * 2 ^ 32 + t.frac + (2 ^ 33 + t.adj).toNat) ∧
      (∃ t, exec .maintenancePass up = .next t) ∧ up.sound ∧ ∃ t, step up = .next t :=
  ⟨rfl, rfl, rfl, rfl, rfl, by unfold TimeState.sound; decide +kernel, by decide +kernel, by decide +kernel,
    by unfold TimeState.sound; decide +kernel, ⟨_, rfl⟩,
    ⟨by unfold State.clockSound TimeState.sound; decide +kernel, by decide +kernel, by decide +kernel⟩, ⟨_, rfl⟩⟩

/-- SafeStateDiscardsWrites, RingBasesAreAligned, OddAccessesDoNothing and FunctionsHaveTheirOwnRegisters. -/
theorem met_registers :
    (up.modBoot fun b => { b with stage := .safe }).boot.stage = .safe ∧ up.hostWrites 0 = true ∧
      ((8 : Fin 9).val ≠ 4 ∨ (0x108 : BitVec 18).toNat % 4 ≠ 0) ∧ ((4 : Fin 9).val ≠ 4 ∨ (0x10A : BitVec 18).toNat % 4 ≠ 0) ∧
      (0 : Fn) ≠ 32 ∧ (∃ t, exec (.eciDisable 0) up = .next t) ∧ ∃ t, exec (.registerWrite 0 false 0x18 4 0x444) up = .next t := by
  refine ⟨by decide +kernel, by decide +kernel, by decide, by decide, by decide, ⟨_, rfl⟩, ⟨_, rfl⟩⟩

/-- VectorsAreRaisedOnChange and HandlesHoldTheirFields: a vector whose condition comes to hold, and fields at their bounds. -/
theorem met_vectors :
    let now := (up.modFn 0 fun g => { g with intCause := 2 ^ 20, intMask := 0 }).fn 0
    0 < 18 ∧ (up.fn 0).vectorCond 0 = false ∧ now.vectorCond 0 = true ∧
      (255 < 256 ∧ 255 < 256 ∧ 65535 < 65536 ∧ mkHandle 255 255 65535 = 0xFFFFFFFF) := by decide +kernel

/-- MailboxWordsReadBack and CanonicalMemoriesAreEqual: a memory in canonical form that lists something. -/
theorem met_memories :
    Memory.wf (up.mbxStore 0x784 (le 4 5)).eci.mailbox = true ∧ Memory.wf ([] : Cells) = true ∧
      (up.mbxStore 0x784 (le 4 5)).eci.mailbox.length = 1 := by decide +kernel

/-- EventsGoToTheOwnerAlone: a channel of PF0, and function 32. -/
theorem met_events : 0x10000000 ≠ deviceHandle ∧ 32 ≠ rig.ownerOf 0x10000000 := by decide +kernel

/-- CompletionsFillTheRing: a ring at its first slot and at its last. -/
theorem met_completions :
    (up.fn 0).queues.find 0 = some {} ∧ Memory.wf up.eci.mailbox = true ∧
      ((up.modFn 0 fun g => { g with queues := [(0, { cqTail := 15 })] }).fn 0).queues.find 0 = some { cqTail := 15 } := by
  decide +kernel

/-- RefusedCommandsCompleteUnchanged: a command not fetched, and one with a wrong handle. -/
theorem met_refused :
    dev.ready 0x000B (toDev no) = none ∧
      (asked dev 0x000B (sub 0x02000000 no)).ready 0x000B (sub 0x02000000 no) = some (tokOf 0x000B (sub 0x02000000 no)) ∧
      specDeviceNop.judge ⟨tokOf 0x000B (sub 0x02000000 no), sub 0x02000000 no⟩ (taken dev 0x000B (sub 0x02000000 no)) =
        some { status := .eBadHandle } := by decide +kernel

/-- ChecksComeInOrder: each check refuses while those before it pass. -/
theorem met_checks :
    let k : Cmd := nopCmd (.ring 0 0) 0x01FF0000 0x000B
    (specSessionKeepalive.pathCheck k dev).isSome = true ∧
      (specDeviceNop.pathCheck k dev = none ∧ (specDeviceNop.entryCheck { k with sub := { k.sub with flags := 4 } }).isSome = true) ∧
      (specDeviceNop.entryCheck k = none ∧ (specDeviceNop.handleCheck (nopCmd (.ring 0 0) 0 0x000B) dev).isSome = true) ∧
      (specDeviceRestart.pathCheck (nopCmd (.ring 32 0) 0x01FF0000 0x000A) dev = none ∧
        specDeviceRestart.handleCheck (nopCmd (.ring 32 0) 0x01FF0000 0x000A) dev = none ∧
        (specDeviceRestart.ownerCheck (nopCmd (.ring 32 0) 0x01FF0000 0x000A) dev).isSome = true) := by decide +kernel

/-- ErrorsMakeNoChange and AdmitCheckForetellsCreate: a deletion of the admin queue, a configuration that is admitted, and one
that is not. -/
theorem met_errors :
    (∃ r t, specQueueDelete.run (nopCmd (.ring 0 0) 0 0x0005) dev = .done r t ∧ r.status.isError = true) ∧
      (∃ q t, specChannelCreate.run { nopCmd (.ring 0 0) 0x01FF0000 0x0101 with sub := toDev cfgPay } dev = .done q t ∧
        q.status.isError = false) ∧
      ∃ r, specChannelAdmitCheck.run (nopCmd (.ring 0 0) 0x01FF0000 0x0102) dev = .done r dev ∧ r.status.isError = true :=
  ⟨⟨_, _, rfl, by decide +kernel⟩, ⟨_, _, rfl, by decide +kernel⟩, ⟨_, rfl, by decide +kernel⟩⟩

/-- IoQueuesRefuseAdminCommands: an admin command on queue 16, a session's command on the admin queue, and one that any queue
takes. -/
theorem met_queues :
    (16 ≠ 0 ∧ specDeviceRestart.opcode ∈ [0x0004, 0x0005, 0x0007, 0x0008, 0x0009, 0x000A]) ∧
      specSessionOpen.opcode ∈ [0x0010, 0x0011, 0x0012] ∧
      specDeviceNop.opcode ∉ [0x0004, 0x0005, 0x0007, 0x0008, 0x0009, 0x000A] ∧
      specDeviceNop.opcode ∉ [0x0010, 0x0011, 0x0012] := by decide +kernel

/-- FreedIndicesComeLast: a list with an index left, one with a freed index only, and an exhausted one. -/
theorem met_indices :
    ({ next := 127 } : FreeList).take 128 = some (127, { next := 128 }) ∧
      ({ next := 128, freed := [5] } : FreeList).take 128 = some (5, { next := 128 }) ∧
      ({ next := 128 } : FreeList).take 128 = none := by decide +kernel

/-- LateSamplesAreDiscarded: a position that has passed, and one that is due now. -/
theorem met_late :
    let late_ (s : State) (first : BitVec 64) : Bool :=
      let u := s.fixTe (s.audio.programs.look {} 0x31FF0000).source first.toNat
      let g := u.audio.programs.look {} 0x31FF0000
      let k := u.samplePosition g first.toNat
      s.planeRuns && s.audio.programs.has 0x31FF0000 && (s.audio.programs.look {} 0x31FF0000).asrc.isNone &&
        !(u.fedChannels g 1).isEmpty && !u.rateLost g && (decide (k < g.next) || u.positionDue g k)
    late_ (program { channels := 1, map := bs [0], next := 1 }) 0 = true ∧
      late_ (program { channels := 1, map := bs [0] }) 1 = true := by decide +kernel

/-! ### What is not well formed -/

/-- `WellFormed` refuses an ill-formed term for each of its checks, and takes the well-formed ones beside it. -/
theorem test_wellFormed :
    WellFormed (.registerWrite 0 false 0x100 3 0) = false ∧ WellFormed (.registerWrite 0 false 0x100 4 0) = true ∧
      WellFormed (.mailboxHostWrite 0 0x10780 0 0 false) = false ∧ WellFormed (.mailboxHostWrite 0 0x10780 8 0 false) = true ∧
      WellFormed (.vfEnable 0) = false ∧ WellFormed (.vfEnable 32) = true ∧
      WellFormed (.pcieLinkTrained 0 8 0) = false ∧ WellFormed (.pcieLinkTrained 5 3 0) = false ∧ WellFormed (.pcieLinkTrained 5 8 0) = true ∧
      WellFormed (.deviceNop { sub 0 no with inlineBytes := bs (List.replicate 25 0) }) = false ∧
      WellFormed (.deviceNop { sub 0 no with extBytes := bs [0] }) = false ∧ WellFormed (.deviceNop (toDev no)) = true ∧
      WellFormed (.ingressPacket 0 { bytes := 17 }) = false ∧ WellFormed (.ingressPacket 0 { bytes := 18 }) = true ∧
      WellFormed (.descriptorEnqueue 0 0 desc) = false ∧ WellFormed (.descriptorEnqueue 0 0 { desc with args := no }) = true ∧
      WellFormed (.rowArrivalPost 0 0 0 { y := [[1], [1, 2]] }) = false ∧ WellFormed (.rowArrivalPost 0 0 0 { y := [[1, 2], [1, 2]] }) = true ∧
      WellFormed (.pictureCopyDone 0 [] [] (bs [1, 2])) = false ∧ WellFormed (.pictureCopyDone 0 [] [] (bs [1, 2, 3])) = true ∧
      WellFormed (.audioSampleArrival 0 { first := 0, rows := [List.replicate 65 0] }) = false ∧
      WellFormed (.audioSampleArrival 0 { first := 0, rows := [List.replicate 64 0] }) = true ∧
      WellFormed (.tamperTrip 0 (some 0) false) = false ∧ WellFormed (.tamperTrip 0 (some 1) false) = true ∧
      WellFormed (.thermalWaitCheck { dies := [], hub := 0 }) = false ∧
      WellFormed (.thermalSample { dies := [], hub := 0 }) = false ∧
      WellFormed (.thermalSample { dies := List.replicate 8 250, hub := 250 }) = true := by decide +kernel

/-! ### Single steps against the spec's numbers -/

/-- The next state of a command, where there is one. -/
def after (c : Instr) (s : State) : State := match exec c s with | .next t => t | _ => s

/-- R38: the low half of a ring base keeps bits 31:12 only, and the high half all bits. -/
theorem test_ringBase :
    (after (.registerWrite 0 false 0x108 4 0x12345FFF) up).readBar0 0 0x108 4 = 0x12345000 ∧
      (after (.registerWrite 0 false 0x10C 4 0x89ABCDEF) up).readBar0 0 0x10C 4 = 0x89ABCDEF := by decide +kernel

/-- R65: the response of DEVICE.IDENTIFY on a VX-88 begins with the device identifier of PF0. -/
theorem test_identify :
    (match specDeviceIdentify.run (nopCmd (.ring 0 0) 0x01FF0000 1) dev with
     | .done r _ => u32 r.response 0x00 == 0x88088000
     | _ => false) = true := by decide +kernel

/-- R52: a doorbell of a slot that is queued already sets the busy bit; R50: a completion takes slot 0 with phase 1. -/
theorem test_fastBusy : ((after (.dbFastWrite 0 1) (after (.dbFastWrite 0 1) up)).fn 0).fastBusy = true := by decide +kernel

theorem test_firstCompletion :
    (((up.writeCompletion 0 0 { status := .ok, cmdId := 7 }).fn 0).queues.find 0).bind (·.cq.find 0) =
      some { status := .ok, cmdId := 7, phase := true } := by decide +kernel

/-- R360, R363: an idle cycle adds 2 ns, and a carry adds 4.294967296 s to the epoch. -/
theorem test_tick :
    (match step up with | .next t => t.time.ns == 2 && t.time.wraps == 0 | _ => false) = true ∧
      (match step { up with time := { ns := 2 ^ 32 - 2 } } with
       | .next t => t.time.ns == 0 && t.time.wraps == 1 && t.time.epSec == 4 && t.time.epNs == 294967296
       | _ => false) = true := by decide +kernel

/-- R41: a removed VF loses its ECI; R51: its objects' new owner is PF0. -/
theorem test_vfRemoval :
    let s := (up.modFn 3 fun g => { g with enabled := true, en := true, rdy := true }).modEci fun e =>
      { e with numVfs := 3, owners := [(0x10000000, 3)] }
    (after (.vfRemoval 2) s).ownerOf 0x10000000 = 0 ∧ ((after (.vfRemoval 2) s).fn 3).en = false ∧
      (after (.vfRemoval 2) s).eci.numVfs = 2 := by decide +kernel

/-- R228: a keeper lock goes to the requester that waited longest. -/
theorem test_locks :
    let s := after (.directLockAcquire 0 0xA01 7) (after (.directLockAcquire 0 0xA00 7) up)
    ((s.sd 0).locks.look {} 7).owner = some (0xA00, 0) ∧
      (((after (.directLockRelease 0 0xA00 7) s).sd 0).locks.look {} 7).owner = some (0xA01, 0) := by decide +kernel

/-- R147, R215: a post below the head of a flow is stale. -/
theorem test_stalePost :
    ((after (.sequencePost 0 1 0xFFFFFF 1) (sched flow1)).sd 0).stale = 1 ∧
      ((after (.sequencePost 0 1 255 1) (sched flow1)).sd 0).stale = 0 := by decide +kernel

/-- R415: a whole 64-byte line written clears its poison; part of a line does not. -/
theorem test_poison :
    let s := buf.modDie 0 fun m => { m with poisoned := [1024] }
    ((after (.bar2Access true 0x10000 (bs (List.replicate 64 1))) s).dm 0).poisoned = [] ∧
      ((after (.bar2Access true 0x10000 (bs (List.replicate 63 1))) s).dm 0).poisoned = [1024] ∧
      (after (.bar2Access true 0x10000 (bs (List.replicate 64 1))) s).mem.data.get 0x1003F = 1 := by decide +kernel

/-- R463, R484: power good leaves reset and the ROM has not begun; EXTEST after reset enters the safe state. -/
theorem test_start :
    (after .powerGood State.reset).boot.held = false ∧ (after .powerGood State.reset).boot.stage = .reset ∧
      (after (.tapInstructionLoad .extest) up).boot.stage = .safe := by decide +kernel

/-- R264: the check values of the four polynomials, of the characters "123456789". -/
theorem test_crc :
    let nine := bs [0x31, 0x32, 0x33, 0x34, 0x35, 0x36, 0x37, 0x38, 0x39]
    crc 0 nine = 0x29B1 ∧ crc 1 nine = 0xCBF43926 ∧ crc 2 nine = 0xE3069283 ∧ crc 3 nine = 0x6C40DF5F0B497347 := by decide +kernel

/-- R162: the coding orders and temporal identifiers of mini-groups of 4 and 8 pictures. -/
theorem test_miniGroups :
    miniOrder 4 = [4, 2, 1, 3] ∧ miniOrder 8 = [8, 4, 2, 1, 3, 6, 5, 7] ∧ offsetTid 3 8 = 0 ∧ offsetTid 3 4 = 1 ∧
      offsetTid 3 6 = 2 ∧ offsetTid 3 7 = 3 := by decide +kernel

/-- R112: an 8-bit sample enters as four times its value, and four samples a, b, c, d reduce to (a + b + c + d + 2) >> 2. -/
theorem test_pyramid : tenBits 8 [[1, 255]] = [[4, 1020]] ∧ halveLine [1, 2, 1023, 1023] [3, 4, 1023, 1022] = [3, 1023] := by
  decide +kernel

/-- R120: signed Exp-Golomb lengths: 0 takes one bit, ±1 three, ±2 and ±3 five, ±4 seven. -/
theorem test_vectorBits :
    signedLen 0 = 1 ∧ signedLen 1 = 3 ∧ signedLen (-1) = 3 ∧ signedLen 3 = 5 ∧ signedLen (-3) = 5 ∧ signedLen 4 = 7 ∧
      signedLen (-4) = 7 := by decide +kernel

/-- R276: one repeated value is a constant block; a ramp of sixteen values is a residual block of width 4. -/
theorem test_weltWrite :
    (weltWrite 10 [blockOf [[7]] 0 0]).mode = 1 ∧
      (weltWrite 10 [blockOf [List.range 16] 0 0]).mode = 2 ∧
      ((weltWrite 10 [blockOf [List.range 16] 0 0]).read 0).sample 9 5 = 9 := by decide +kernel

/-- R282: full alpha and full gain give a combined alpha of 1,024, and none gives 0. -/
theorem test_alpha : alphaK 1023 1024 = 1024 ∧ alphaK 0 1024 = 0 ∧ alphaK 1023 512 = 512 := by decide +kernel

end Sys2Proof.Tests
end

section
/-!
O15. What host accesses to the registers, captures, interrupts and function-level events do where their condition holds: what
disabling ECI leaves of a function, one lemma for each form of a register write, one for each claim, and the obligation.
-/

namespace Sys2Proof.Machine

open Sys2Proof (Fn)

/-! ### A function's own instance (R37) -/

/-- A change of a function's instance is what the function then reads. -/
@[simp] theorem State.fn_modFn_self (s : State) (f : Nat) (g : FnState → FnState) : (s.modFn f g).fn f = g (s.fn f) :=
  Tab.look_modD_self _ _ _ _

/-- A change of the command interface that keeps the functions' instances keeps each of them. -/
theorem State.fn_modEci_of_fns (s : State) (f : Nat) {g : Eci → Eci} (h : (g s.eci).fns = s.eci.fns) :
    (s.modEci g).fn f = s.fn f := congrArg (fun t : Tab FnState => t.look {} f) h

/-- Disabling ECI leaves the function without `RDY`, `CFG_ERR` and queues; its event ring has lost what it held (R41). -/
theorem State.fn_disableEci_self (s : State) (f : Nat) :
    (s.disableEci f).fn f = { s.fn f with
      rdy := false, cfgErr := false, queues := []
      ring := { (s.fn f).ring.held.foldl EventRing.lose (s.fn f).ring with held := [], error := false } } :=
  (State.fn_modEci_of_fns _ f rfl).trans (State.fn_modFn_self ..)

/-! ### Register writes (R36) -/

/-- A register write that is not 32 bits wide, or not aligned, is discarded in either BAR. -/
theorem execRegisterWrite_odd {f : Fn} {bar4 : Bool} {off : BitVec 18} {w : Fin 9} {v : BitVec 32} (s : State)
    (h : w.val ≠ 4 ∨ off.toNat % 4 ≠ 0) : execRegisterWrite f bar4 off w v s = .next s :=
  if_neg (by rcases h with h | h <;> simp [h])

/-- An aligned write of 32 bits that reaches the device and names PF0's BAR4 writes the MSI-X table or is discarded. -/
theorem execRegisterWrite_bar4 {off : BitVec 18} {v : BitVec 32} {s : State} (hw : s.hostWrites 0 = true)
    (ha : off.toNat % 4 = 0) :
    execRegisterWrite 0 true off 4 v s =
      .next (if off.toNat / 4 < 72 then s.modFn 0 fun g => g.writeMsix (off.toNat / 4) v else s) := by
  have hoff : off.toNat < 0x120 ↔ off.toNat / 4 < 72 := by omega
  by_cases hi : off.toNat / 4 < 72 <;> simp [execRegisterWrite, hw, ha, hoff, hi]

/-- An aligned write of 32 bits to BAR0 that reaches the device writes a word of PF0's recovery window (R480), or the
function's own registers. -/
theorem execRegisterWrite_bar0 {f : Fn} {off : BitVec 18} {v : BitVec 32} {s : State} (hw : s.hostWrites f.val = true)
    (ha : off.toNat % 4 = 0) :
    execRegisterWrite f false off 4 v s = .next (
      if f.val = 0 ∧ off.toNat = 0x300C then s.modBoot fun b => { b with recArg := v.toNat % 256 }
      else if f.val = 0 ∧ off.toNat = 0x3010 then s.modBoot fun b => { b with recLen := v.toNat }
      else if f.val = 0 ∧ off.toNat = 0x3014 then s.recUnknown (v.toNat % 256)
      else s.modFn f.val fun g => g.writeReg f.val off.toNat v) := by
  simp only [execRegisterWrite, hw, ha, apply_ite Host.Outcome.next]
  rfl

end Sys2Proof.Machine

namespace Sys2Proof.Claims

open Machine

/-! ### The claims: where its condition holds, an access is the branch of its meaning that has effect -/

theorem registerWrite_holds (f : Fn) (off : BitVec 18) (v : BitVec 32) : (registerWrite f off v).Holds := by
  intro s ⟨hw, ha⟩
  refine ⟨_, execRegisterWrite_bar0 hw ha, ?_⟩
  dsimp only [registerWrite]
  split_ifs <;> rfl

theorem registerWriteMsix_holds (off : BitVec 18) (v : BitVec 32) : (registerWriteMsix off v).Holds := by
  intro s ⟨hw, ha⟩
  refine ⟨_, execRegisterWrite_bar4 hw ha, fun hi => ?_, fun hi => if_neg (by omega)⟩
  rw [if_pos hi]
  simp [FnState.writeMsix]

theorem registerWriteOdd_holds (f : Fn) (bar4 : Bool) (off : BitVec 18) (w : Fin 9) (v : BitVec 32) :
    (registerWriteOdd f bar4 off w v).Holds := fun s h => ⟨s, execRegisterWrite_odd s h, rfl⟩

theorem eciEnable_holds (f : Fn) : (eciEnable f).Holds := by
  intro s ⟨hw, hen⟩
  exact ⟨_, if_pos (by simp [hw, hen]), rfl⟩

theorem eciDisable_holds (f : Fn) : (eciDisable f).Holds := by
  intro s ⟨hw, hen⟩
  have hfn := State.fn_disableEci_self (s.modFn f.val fun g => { g with en := false }) f.val
  refine ⟨_, if_pos (by simp [hw, hen]), rfl, ?_, ?_, ?_⟩ <;> simp [hfn]

theorem eciRdySet_holds (f : Fn) : (eciRdySet f).Holds := by
  intro s ⟨hrun, hon, hen, hrdy, hcfg, hok⟩
  exact ⟨_, (if_pos (by simp [hrun, hon, hen, hrdy, hcfg])).trans (if_neg (by simp [hok])), rfl⟩

theorem eciRdyRefused_holds (f : Fn) : (eciRdyRefused f).Holds := by
  intro s ⟨hrun, hon, hen, hrdy, hcfg, hbad⟩
  exact ⟨_, (if_pos (by simp [hrun, hon, hen, hrdy, hcfg])).trans (if_pos (by simp [hbad])), rfl⟩

theorem intCauseClear_holds (f : Fn) (v : BitVec 32) : (intCauseClear f v).Holds :=
  fun _ hw => ⟨_, if_pos hw, rfl⟩

theorem intMaskWrite_holds (f : Fn) (v : BitVec 32) : (intMaskWrite f v).Holds :=
  fun _ hw => ⟨_, if_pos hw, rfl⟩

theorem coalesceTimeout_holds (f : Fn) (cause : Fin 18) : (coalesceTimeout f cause).Holds := by
  intro s ⟨hset, first, hfirst, hpast⟩
  refine ⟨_, ?_, rfl⟩
  change execCoalesceTimeout f cause s = _
  simp [execCoalesceTimeout, hfirst, hpast, hset]

theorem bootStageCapture_holds (f : Fn) : (bootStageCapture f).Holds := fun _ hr => ⟨_, if_pos hr, rfl⟩

theorem timeNsCapture_holds (f : Fn) : (timeNsCapture f).Holds := fun _ hw => ⟨_, if_pos hw, rfl⟩

theorem recStateCapture_holds : recStateCapture.Holds := fun _ hw => ⟨_, if_pos hw, rfl⟩

theorem mbxCollideCntRead_holds (f : Fn) : (mbxCollideCntRead f).Holds := fun _ hw => ⟨_, if_pos hw, rfl⟩

/-- PF0 keeps its objects at a reset, and any other function's pass to PF0 (R41). -/
theorem functionLevelReset_holds (f : Fn) : (functionLevelReset f).Holds :=
  fun _ hw => ⟨_, if_pos hw, fun hpf => if_pos hpf, fun hvf => if_neg hvf⟩

theorem vfRemoval_holds (n : Fn) : (vfRemoval n).Holds := by
  intro s ⟨hw, hless⟩
  exact ⟨_, if_pos (by simp [hw, hless]), rfl⟩

theorem vfEnable_holds (n : Fn) : (vfEnable n).Holds := by
  intro s ⟨hw, hstage, hmore⟩
  exact ⟨_, if_pos (by simp [hw, hstage, hmore]), rfl⟩

end Sys2Proof.Claims

namespace Sys2Proof

open Claims

/-- Settles O15: each claim is the branch of its meaning that its condition selects. -/
theorem hostAccessesTakeEffect : Obligations.HostAccessesTakeEffect :=
  ⟨registerWrite_holds, registerWriteMsix_holds, registerWriteOdd_holds,
    fun f => ⟨eciEnable_holds f, eciDisable_holds f, eciRdySet_holds f, eciRdyRefused_holds f, bootStageCapture_holds f,
      timeNsCapture_holds f, mbxCollideCntRead_holds f, functionLevelReset_holds f, vfRemoval_holds f, vfEnable_holds f⟩,
    fun f v => ⟨intCauseClear_holds f v, intMaskWrite_holds f v⟩, coalesceTimeout_holds, recStateCapture_holds⟩

end Sys2Proof
end

section
/-!
O34, O41, O56, O57 and O58. A step and the state after reset; opcodes, handles and free indices.
-/

namespace Sys2Proof.Machine

/-! ### Opcodes (R58) -/

/-- The table lists the opcodes that firmware knows, in another order. -/
theorem eciTable_opcodes_perm : (eciTable.map EciSpec.opcode).Perm knownOpcodes := by decide +kernel

theorem knownOpcodes_nodup : knownOpcodes.Nodup := by decide +kernel

/-! ### Free indices (R55) -/

/-- An index never used comes before every freed one. -/
theorem FreeList.take_next {l : FreeList} {limit : Nat} (h : l.next < limit) :
    l.take limit = some (l.next, { l with next := l.next + 1 }) := if_pos h

/-- With every index used once, the one freed longest ago comes. -/
theorem FreeList.take_cons {next limit : Nat} (h : limit ≤ next) (x : Nat) (r : List Nat) :
    ({ next, freed := x :: r } : FreeList).take limit = some (x, { next, freed := r }) := if_neg (Nat.not_lt.mpr h)

theorem FreeList.take_nil {next limit : Nat} (h : limit ≤ next) : ({ next, freed := [] } : FreeList).take limit = none :=
  if_neg (Nat.not_lt.mpr h)

end Sys2Proof.Machine

namespace Sys2Proof

open Machine

/-- Settles O34: the branch of `step` for a waiting command. -/
theorem stepRunsFrontCommand : Obligations.StepRunsFrontCommand := by
  intro s c rest h
  simp [step, h]

/-- Settles O41: the parts of the state after reset, and the registers of its 33 functions, which are evaluated. -/
theorem resetState : Obligations.ResetState :=
  ⟨rfl, rfl, rfl, rfl, rfl, rfl, rfl, rfl, rfl, rfl, rfl, by decide +kernel⟩

/-- Settles O56. -/
theorem opcodesAreDistinct : Obligations.OpcodesAreDistinct :=
  ⟨eciTable_opcodes_perm.nodup_iff.mpr knownOpcodes_nodup, fun _ => eciTable_opcodes_perm.mem_iff⟩

/-- Settles O57. -/
theorem handlesHoldTheirFields : Obligations.HandlesHoldTheirFields := by
  refine ⟨fun type die idx htype hdie hidx => ?_, rfl, rfl, rfl⟩
  unfold handleType handleDie handleIndex mkHandle
  omega

/-- Settles O58: an index never used comes first, then the freed ones in their order. -/
theorem freedIndicesComeLast : Obligations.FreedIndicesComeLast := by
  rintro ⟨next, freed⟩ limit i
  dsimp only
  by_cases hl : next < limit
  · rw [FreeList.take_next hl, FreeList.take_next hl]
    simp [hl]
  · have hge : limit ≤ next := Nat.not_lt.mp hl
    cases freed with
    | nil =>
      rw [FreeList.take_nil hge, List.nil_append, FreeList.take_cons hge]
      simp [hge]
    | cons x r =>
      rw [FreeList.take_cons hge, List.cons_append, FreeList.take_cons hge]
      simp

end Sys2Proof
end

section
/-!
O46. What raising a vector changes, and that settling a change of a function raises each vector whose condition comes to
hold, once (R42).
-/

namespace Sys2Proof.Machine

/-- Raising a vector counts a message of that vector and of no other. -/
theorem FnState.raised_raiseVector (f : FnState) (v w : Nat) :
    (f.raiseVector v).raised.look 0 w = f.raised.look 0 w + if w = v then 1 else 0 := by
  by_cases h : w = v
  · subst h; simp [raiseVector]
  · simp [raiseVector, Tab.look_modD_ne _ _ _ h, h]

/-- Raise each of a list of vectors for which a test holds. -/
def FnState.raiseWhere (p : Nat → Bool) (f : FnState) (vs : List Nat) : FnState :=
  vs.foldl (fun a v => if p v then a.raiseVector v else a) f

theorem FnState.settle_eq_raiseWhere (before after : FnState) :
    before.settle after = after.raiseWhere (fun v => !before.vectorCond v && after.vectorCond v) (List.range 18) := rfl

/-- What raising one vector leaves, raising several leaves. -/
theorem FnState.raiseWhere_keeps {α : Type} (part : FnState → α) (h : ∀ f v, part (f.raiseVector v) = part f)
    (p : Nat → Bool) (f : FnState) (vs : List Nat) : part (f.raiseWhere p vs) = part f := by
  induction vs generalizing f with
  | nil => rfl
  | cons v vs ih =>
    have hstep : f.raiseWhere p (v :: vs) = (if p v then f.raiseVector v else f).raiseWhere p vs := rfl
    rw [hstep, ih]
    split
    · exact h f v
    · rfl

theorem FnState.settle_keeps {α : Type} (part : FnState → α) (h : ∀ f v, part (f.raiseVector v) = part f)
    (before after : FnState) : part (before.settle after) = part after := raiseWhere_keeps part h _ after _

/-- A list of vectors without repetition raises, once, those for which the test holds. -/
theorem FnState.raised_raiseWhere (p : Nat → Bool) (f : FnState) (vs : List Nat) (hvs : vs.Nodup) (w : Nat) :
    (f.raiseWhere p vs).raised.look 0 w = f.raised.look 0 w + b2n (decide (w ∈ vs) && p w) := by
  induction vs generalizing f with
  | nil => rfl
  | cons v vs ih =>
    obtain ⟨hv, hvs⟩ := List.nodup_cons.mp hvs
    have hstep : f.raiseWhere p (v :: vs) = (if p v then f.raiseVector v else f).raiseWhere p vs := rfl
    rw [hstep, ih _ hvs, apply_ite (fun g : FnState => g.raised.look 0 w), raised_raiseVector]
    by_cases hw : w = v
    · subst hw
      cases hp : p w <;> simp [hv, b2n]
    · simp [hw]

end Sys2Proof.Machine

namespace Sys2Proof

open Machine

/-- Settles O46: `settle` raises, of the 18 vectors, those whose condition comes to hold. -/
theorem vectorsAreRaisedOnChange : Obligations.VectorsAreRaisedOnChange := by
  intro before after v hv
  refine ⟨?_, FnState.settle_keeps (·.intCause) (fun _ _ => rfl) .., FnState.settle_keeps (·.intMask) (fun _ _ => rfl) ..⟩
  rw [FnState.settle_eq_raiseWhere, FnState.raised_raiseWhere _ _ _ List.nodup_range]
  simp [hv]

end Sys2Proof
end

section
/-!
O47, O48 and O50. Words of the mailbox, canonical memories, and completion entries: what a stored word reads back, that what
a canonical memory reads determines it, and where a completion entry goes.
-/

namespace Sys2Proof.Machine

open Sys2Proof (Byte)

/-! ### Mailbox words (R43, R44) -/

/-- A word stored in a canonical mailbox reads back. -/
theorem State.mbxWord_mbxStore (s : State) (x v : Nat) (h : Memory.wf s.eci.mailbox = true) :
    (s.mbxStore x (le 4 v)).mbxWord x = v % 2 ^ 32 := by
  have hload := Cells.load_store h x (le 4 v)
  rw [length_le] at hload
  simp [mbxWord, mbxStore, hload, ofLe_le]

/-- A stored word leaves every byte outside it as it was. -/
theorem State.mbxStore_get_outside (s : State) (x v a : Nat) (h : Memory.wf s.eci.mailbox = true)
    (ha : a < x ∨ x + 4 ≤ a) : (s.mbxStore x (le 4 v)).eci.mailbox.get a = s.eci.mailbox.get a :=
  Cells.get_store_outside h x a _ (by simpa using ha)

theorem State.mbxStore_wf (s : State) (x : Nat) (bs : List Byte) (h : Memory.wf s.eci.mailbox = true) :
    Memory.wf (s.mbxStore x bs).eci.mailbox = true := Memory.wf_store h x bs

/-! ### Canonical memories -/

/-- The first byte that a canonical memory lists is not zero. -/
theorem Cells.head_ne_zero {lo a : Nat} {v : Byte} {m : Cells} (h : Cells.wfFrom lo ((a, v) :: m) = true) : v ≠ 0 := by
  simp only [wfFrom, Bool.and_eq_true, Bool.not_eq_true', decide_eq_false_iff_not] at h
  exact h.1.2

theorem Cells.tail_wf {lo a : Nat} {v : Byte} {m : Cells} (h : Cells.wfFrom lo ((a, v) :: m) = true) :
    Cells.wfFrom (a + 1) m = true := by
  simp only [wfFrom, Bool.and_eq_true] at h
  exact h.2

theorem Cells.get_head (a : Nat) (v : Byte) (m : Cells) : Cells.get ((a, v) :: m) a = v := by simp [get]

/-- Of two canonical memories that read the same, neither lists an address below all that the other lists. -/
theorem Cells.head_not_below {lo a b : Nat} {v w : Byte} {m n : Cells} (hm : Cells.wfFrom lo ((a, v) :: m) = true)
    (hn : Cells.wfFrom lo ((b, w) :: n) = true) (h : Cells.get ((a, v) :: m) a = Cells.get ((b, w) :: n) a) : ¬ a < b := by
  intro hab
  have hzero : Cells.get ((b, w) :: n) a = 0 := by
    rw [get, if_neg (by omega)]
    exact get_below (tail_wf hn) (by omega)
  exact head_ne_zero hm ((get_head a v m).symm.trans (h.trans hzero))

/-- Two memories in canonical form that read the same at every address are equal. -/
theorem Cells.eq_of_get_eq {lo : Nat} {m n : Cells} (hm : Cells.wfFrom lo m = true) (hn : Cells.wfFrom lo n = true)
    (h : ∀ a, m.get a = n.get a) : m = n := by
  induction m generalizing lo n with
  | nil =>
    cases n with
    | nil => rfl
    | cons e n =>
      obtain ⟨b, w⟩ := e
      exact absurd ((get_head b w n).symm.trans (h b).symm) (head_ne_zero hn)
  | cons e m ih =>
    obtain ⟨a, v⟩ := e
    cases n with
    | nil => exact absurd ((get_head a v m).symm.trans (h a)) (head_ne_zero hm)
    | cons e' n =>
      obtain ⟨b, w⟩ := e'
      have hab : a = b := by
        have h1 := head_not_below hm hn (h a)
        have h2 := head_not_below hn hm (h b).symm
        omega
      subst hab
      have hvw : v = w := by simpa [get] using h a
      subst hvw
      have htail : m = n := by
        refine ih (tail_wf hm) (tail_wf hn) fun c => ?_
        by_cases hc : a = c
        · subst hc
          rw [get_below (tail_wf hm) (by omega), get_below (tail_wf hn) (by omega)]
        · simpa [get, hc] using h c
      rw [htail]

/-! ### Completion rings (R50) -/

/-- An entry noted for a cause leaves the queues as they are. -/
theorem FnState.noteEntry_queues (g : FnState) (c now : Nat) : (g.noteEntry c now).queues = g.queues :=
  settle_keeps (·.queues) (fun _ _ => rfl) ..

/-- A queue after a completion entry was written to its ring. -/
def Queue.completed (u : Queue) (c : Completion) : Queue :=
  let t := (u.cqTail + 1) % 2 ^ u.cqLog2
  { u with cq := u.cq.put u.cqTail { c with phase := u.phase }, cqTail := t
           phase := if t = 0 then !u.phase else u.phase, claimed := u.claimed - 1 }

/-- A store to the mailbox leaves the functions' instances. -/
@[simp] theorem State.fn_mbxStore (s : State) (off : Nat) (bs : List Byte) (f : Nat) :
    (s.mbxStore off bs).fn f = s.fn f := rfl

/-- A completion entry is written to its queue, the new tail behind it, and the queue's cause is noted. -/
theorem State.writeCompletion_eq {s : State} {f q : Nat} {u : Queue} (c : Completion)
    (h : (s.fn f).queues.find q = some u) :
    s.writeCompletion f q c =
      ((s.wakeLink.modFn f fun g => { g with queues := g.queues.put q (u.completed c) }).mbxStore
        (indexBlock f q + 8) (le 4 (u.completed c).cqTail)).modFn f fun g => g.noteEntry q s.now := by
  unfold writeCompletion
  rw [h]
  rfl

theorem State.writeCompletion_queue {s : State} {f q : Nat} {u : Queue} (c : Completion)
    (h : (s.fn f).queues.find q = some u) :
    ((s.writeCompletion f q c).fn f).queues.find q = some (u.completed c) := by
  simp [writeCompletion_eq c h, FnState.noteEntry_queues]

/-- The queue's `CQ_TAIL` word holds the new tail. -/
theorem State.writeCompletion_tail {s : State} {f q : Nat} {u : Queue} (c : Completion)
    (h : (s.fn f).queues.find q = some u) (hwf : Memory.wf s.eci.mailbox = true) :
    (s.writeCompletion f q c).mbxWord (indexBlock f q + 8) = (u.completed c).cqTail % 2 ^ 32 := by
  rw [writeCompletion_eq c h]
  exact State.mbxWord_mbxStore (s.wakeLink.modFn f _) _ _ hwf

/-- The phase turns when the tail comes back to 0 (R50). -/
theorem Queue.completed_phase (u : Queue) (c : Completion) :
    (u.completed c).phase = u.phase ↔ (u.completed c).cqTail ≠ 0 := by
  by_cases h : (u.cqTail + 1) % 2 ^ u.cqLog2 = 0 <;> simp [completed, h]

end Sys2Proof.Machine

namespace Sys2Proof

open Machine

/-- Settles O47. -/
theorem mailboxWordsReadBack : Obligations.MailboxWordsReadBack :=
  fun s x v h => ⟨s.mbxWord_mbxStore x v h, fun a ha => s.mbxStore_get_outside x v a h ha, s.mbxStore_wf x _ h, rfl⟩

/-- Settles O48: the memory after reset lists nothing, and what a canonical memory reads determines it. -/
theorem canonicalMemoriesAreEqual : Obligations.CanonicalMemoriesAreEqual :=
  ⟨rfl, fun _ _ hm hn h => Cells.eq_of_get_eq hm hn h⟩

/-- Settles O50: the queue that `Queue.completed` gives has the entry at its former tail. -/
theorem completionsFillTheRing : Obligations.CompletionsFillTheRing :=
  fun _ _ _ c u h hwf => ⟨u.completed c, State.writeCompletion_queue c h, Tab.find_put_self .., rfl, u.completed_phase c,
    fun _ hi => Tab.find_put_ne _ _ hi, State.writeCompletion_tail c h hwf⟩

end Sys2Proof
end

section
/-!
O43, O44 and O45. Host accesses to the registers: what a read of BAR0 returns, what a write of a ring base leaves in its pair,
odd accesses, and that a write leaves every other function as it is.
-/

namespace Sys2Proof.Machine

open Sys2Proof (Fn Word)

/-! ### Another function (R37) -/

theorem State.fn_modFn_ne (s : State) {f g : Nat} (h : g ≠ f) (p : FnState → FnState) : (s.modFn f p).fn g = s.fn g :=
  Tab.look_modD_ne _ _ _ h

theorem State.fn_disableEci_ne (s : State) {f g : Nat} (h : g ≠ f) : (s.disableEci f).fn g = s.fn g :=
  (State.fn_modEci_of_fns _ g rfl).trans (State.fn_modFn_ne _ h _)

/-- An unknown recovery command changes nothing of the functions. -/
theorem State.fn_recUnknown (s : State) (cmd g : Nat) : (s.recUnknown cmd).fn g = s.fn g := by
  unfold recUnknown
  split <;> rfl

/-- What a register write of a function does leaves every other function as it is. -/
theorem execRegisterWrite_other {f : Fn} {bar4 : Bool} {off : BitVec 18} {w : Fin 9} {v : Word} {s t : State} {g : Nat}
    (hg : g ≠ f.val) (h : execRegisterWrite f bar4 off w v s = .next t) : t.fn g = s.fn g := by
  unfold execRegisterWrite at h
  dsimp only at h
  split at h
  · split at h
    · split at h
      · next h0 => cases h; exact State.fn_modFn_ne _ (h0.1 ▸ hg) _
      · cases h; rfl
    · split at h
      · cases h; rfl
      · split at h
        · cases h; rfl
        · split at h
          · cases h; exact State.fn_recUnknown ..
          · cases h; exact State.fn_modFn_ne _ hg _
  · cases h; rfl

/-- An access that either changes one function or does nothing leaves every other function as it is. -/
theorem State.fn_of_guarded_modFn {s t : State} {f g : Nat} {c : Prop} [Decidable c] {p : FnState → FnState} (hg : g ≠ f)
    (h : (if c then .next (s.modFn f p) else .next s : Out) = .next t) : t.fn g = s.fn g := by
  split at h <;> cases h
  · exact State.fn_modFn_ne _ hg _
  · rfl

theorem execEciDisable_other {f : Fn} {s t : State} {g : Nat} (hg : g ≠ f.val) (h : execEciDisable f s = .next t) :
    t.fn g = s.fn g := by
  unfold execEciDisable at h
  split at h <;> cases h
  · rw [State.fn_disableEci_ne _ hg, State.fn_modFn_ne _ hg]
  · rfl

/-! ### Odd accesses (R36) -/

theorem State.readBar0_odd (s : State) (f : Nat) {off w : Nat} (h : w ≠ 4 ∨ off % 4 ≠ 0) : s.readBar0 f off w = 0 :=
  if_pos (by tauto)

/-- The mailbox window of a function maps aligned offsets to aligned offsets. -/
theorem mailboxOffset_mod {f off x : Nat} (h : mailboxOffset f off = some x) : x % 4 = off % 4 := by
  unfold mailboxOffset at h
  split at h <;>
  · obtain ⟨hwin, hx⟩ := Option.ite_none_right_eq_some.mp h
    have := Option.some.inj hx
    omega

theorem execMailboxHostWrite_odd {f : Fn} {off : BitVec 18} {w : Fin 9} {v : Word} {b : Bool} (s : State)
    (h : w.val ≠ 4 ∨ off.toNat % 4 ≠ 0) : execMailboxHostWrite f off w v b s = .next s := by
  unfold execMailboxHostWrite
  split
  · rfl
  · next x hx =>
    rw [← mailboxOffset_mod hx] at h
    exact if_pos (by rcases h with h | h <;> simp [h])

/-! ### Ring bases (R38) -/

/-- A ring base with bits 31:12 given by a value written, and with bits 63:32 given. -/
def withBaseLow (b : BitVec 64) (v : Word) : BitVec 64 := (b >>> 32 <<< 32) ||| (v.setWidth 64 >>> 12 <<< 12)
def withBaseHigh (b : BitVec 64) (v : Word) : BitVec 64 := (b.setWidth 32).setWidth 64 ||| (v.setWidth 64 <<< 32)

theorem toNat_withBaseLow (b : BitVec 64) (v : Word) :
    (withBaseLow b v).toNat = b.toNat / 2 ^ 32 * 2 ^ 32 + v.toNat / 4096 * 4096 := by
  have hb := b.isLt
  have hv := v.isLt
  have high : (b >>> 32 <<< 32).toNat = b.toNat / 2 ^ 32 * 2 ^ 32 := by
    rw [BitVec.toNat_shiftLeft, BitVec.toNat_ushiftRight, Nat.shiftRight_eq_div_pow, Nat.shiftLeft_eq]
    omega
  have low : (v.setWidth 64 >>> 12 <<< 12).toNat = v.toNat / 4096 * 4096 := by
    rw [BitVec.toNat_shiftLeft, BitVec.toNat_ushiftRight, BitVec.toNat_setWidth, Nat.shiftRight_eq_div_pow, Nat.shiftLeft_eq]
    omega
  rw [withBaseLow, BitVec.toNat_or, high, low, ← Nat.shiftLeft_eq,
    Nat.shiftLeft_add_eq_or_of_lt (by omega : v.toNat / 4096 * 4096 < 2 ^ 32)]

theorem toNat_withBaseHigh (b : BitVec 64) (v : Word) :
    (withBaseHigh b v).toNat = v.toNat * 2 ^ 32 + b.toNat % 2 ^ 32 := by
  have hv := v.isLt
  have high : (v.setWidth 64 <<< 32).toNat = v.toNat * 2 ^ 32 := by
    rw [BitVec.toNat_shiftLeft, BitVec.toNat_setWidth, Nat.shiftLeft_eq]
    omega
  have low : ((b.setWidth 32).setWidth 64).toNat = b.toNat % 2 ^ 32 := by
    rw [BitVec.toNat_setWidth, BitVec.toNat_setWidth]
    omega
  rw [withBaseHigh, BitVec.toNat_or, high, low, Nat.or_comm, ← Nat.shiftLeft_eq,
    Nat.shiftLeft_add_eq_or_of_lt (Nat.mod_lt b.toNat (Nat.two_pow_pos 32))]

/-- The words that the two registers of a base read. -/
def baseLow (b : BitVec 64) : Word := b.setWidth 32
def baseHigh (b : BitVec 64) : Word := (b >>> 32).setWidth 32

theorem toNat_baseLow (b : BitVec 64) : (baseLow b).toNat = b.toNat % 2 ^ 32 := BitVec.toNat_setWidth ..

theorem toNat_baseHigh (b : BitVec 64) : (baseHigh b).toNat = b.toNat / 2 ^ 32 := by
  have hb := b.isLt
  simp only [baseHigh, BitVec.toNat_setWidth, BitVec.toNat_ushiftRight, Nat.shiftRight_eq_div_pow]
  omega

theorem baseLow_withBaseLow (b : BitVec 64) (v : Word) : baseLow (withBaseLow b v) = v - v % 4096 := by
  have hv := v.isLt
  have hmod : (v % 4096).toNat = v.toNat % 4096 := BitVec.toNat_umod
  apply BitVec.eq_of_toNat_eq
  rw [toNat_baseLow, toNat_withBaseLow, BitVec.toNat_sub, hmod]
  omega

theorem baseHigh_withBaseLow (b : BitVec 64) (v : Word) : baseHigh (withBaseLow b v) = baseHigh b := by
  have hv := v.isLt
  apply BitVec.eq_of_toNat_eq
  rw [toNat_baseHigh, toNat_baseHigh, toNat_withBaseLow]
  omega

theorem baseLow_withBaseHigh (b : BitVec 64) (v : Word) : baseLow (withBaseHigh b v) = baseLow b := by
  apply BitVec.eq_of_toNat_eq
  rw [toNat_baseLow, toNat_baseLow, toNat_withBaseHigh]
  omega

theorem baseHigh_withBaseHigh (b : BitVec 64) (v : Word) : baseHigh (withBaseHigh b v) = v := by
  apply BitVec.eq_of_toNat_eq
  rw [toNat_baseHigh, toNat_withBaseHigh]
  omega

/-- A read of a word of the registers that no mailbox window covers answers the register listed there, outside the safe
state. -/
theorem State.readBar0_register {s : State} {f off : Nat} (ha : off % 4 = 0) (hx : mailboxOffset f off = none)
    (hs : s.boot.stage ≠ .safe) : s.readBar0 f off 4 = ((s.bar0 f).lookup off).getD 0 := by
  unfold readBar0
  rw [if_neg (by simp [ha, hs]), hx]

/-- No mailbox window lies below 0x3000. -/
theorem mailboxOffset_low (f : Nat) {off : Nat} (h : off < 0x3000) : mailboxOffset f off = none := by
  unfold mailboxOffset
  split <;> exact if_neg (by omega)

/-- The register pair of a ring base in BAR0: what its two registers read of the base, and what a write to each leaves of
it. -/
structure RingBasePair (low : Nat) (base : FnState → BitVec 64) : Prop where
  aligned : low % 4 = 0
  below : low < 0x2000
  readLow (s : State) (f : Nat) : (s.bar0 f).lookup low = some (baseLow (base (s.fn f)))
  readHigh (s : State) (f : Nat) : (s.bar0 f).lookup (low + 4) = some (baseHigh (base (s.fn f)))
  writeLow (g : FnState) (f : Nat) (v : Word) : base (g.writeReg f low v) = withBaseLow (base g) v
  writeHigh (g : FnState) (f : Nat) (v : Word) : base (g.writeReg f (low + 4) v) = withBaseHigh (base g) v

theorem asqBasePair : RingBasePair 0x108 (·.asqBase) :=
  ⟨rfl, by decide, fun _ _ => rfl, fun _ _ => rfl, fun _ _ _ => rfl, fun _ _ _ => rfl⟩
theorem acqBasePair : RingBasePair 0x110 (·.acqBase) :=
  ⟨rfl, by decide, fun _ _ => rfl, fun _ _ => rfl, fun _ _ _ => rfl, fun _ _ _ => rfl⟩
theorem eqBasePair : RingBasePair 0x118 (·.eqBase) :=
  ⟨rfl, by decide, fun _ _ => rfl, fun _ _ => rfl, fun _ _ _ => rfl, fun _ _ _ => rfl⟩

theorem State.stage_of_hostWrites {s : State} {f : Nat} (h : s.hostWrites f = true) : s.boot.stage ≠ .safe := by
  simp only [hostWrites, Bool.and_eq_true, bne_iff_ne] at h
  exact h.2

/-- A write to a register below the recovery window writes the function's own register. -/
theorem execRegisterWrite_low {f : Fn} {off : BitVec 18} {v : Word} {s : State} (hw : s.hostWrites f.val = true)
    (ha : off.toNat % 4 = 0) (hl : off.toNat < 0x3000) :
    execRegisterWrite f false off 4 v s = .next (s.modFn f.val fun g => g.writeReg f.val off.toNat v) := by
  rw [execRegisterWrite_bar0 hw ha, if_neg (by omega), if_neg (by omega), if_neg (by omega)]

namespace RingBasePair

variable {low : Nat} {base : FnState → BitVec 64} (p : RingBasePair low base) {s : State} {f : Nat}
  (hs : s.boot.stage ≠ .safe)
include p hs

theorem readBar0_low : s.readBar0 f low 4 = baseLow (base (s.fn f)) := by
  have hb := p.below
  rw [State.readBar0_register p.aligned (mailboxOffset_low f (by omega)) hs, p.readLow]
  rfl

theorem readBar0_high : s.readBar0 f (low + 4) 4 = baseHigh (base (s.fn f)) := by
  have hb := p.below
  have ha := p.aligned
  rw [State.readBar0_register (by omega) (mailboxOffset_low f (by omega)) hs, p.readHigh]
  rfl

end RingBasePair

end Sys2Proof.Machine

namespace Sys2Proof

open Machine

/-- Settles O44. -/
theorem oddAccessesDoNothing : Obligations.OddAccessesDoNothing :=
  fun s f _ _ _ _ _ h => ⟨s.readBar0_odd f.val h, execRegisterWrite_odd s h, execMailboxHostWrite_odd s h⟩

/-- Settles O45: each of the five writes changes its own function at most. -/
theorem functionsHaveTheirOwnRegisters : Obligations.FunctionsHaveTheirOwnRegisters := by
  intro s t f g off w v bar4 i hfg hi h
  have hg : g.val ≠ f.val := fun h => hfg (Fin.ext h.symm)
  simp only [List.mem_cons, List.not_mem_nil, or_false] at hi
  rcases hi with rfl | rfl | rfl | rfl | rfl
  · exact execRegisterWrite_other hg h
  · exact State.fn_of_guarded_modFn hg h
  · exact execEciDisable_other hg h
  · exact State.fn_of_guarded_modFn hg h
  · exact State.fn_of_guarded_modFn hg h

/-- What a write to either register of a ring base leaves the pair to read (R38). -/
theorem ringBase_writes {low : BitVec 18} {base : FnState → BitVec 64} (p : RingBasePair low.toNat base) (s : State) (f : Fn)
    (v : BitVec 32) (hw : s.hostWrites f.val = true) :
    (∃ t, exec (.registerWrite f false low 4 v) s = .next t ∧
      t.readBar0 f.val low.toNat 4 = v - v % 4096 ∧
      t.readBar0 f.val (low.toNat + 4) 4 = s.readBar0 f.val (low.toNat + 4) 4 ∧
      (base (t.fn f.val)).toNat % 4096 = 0 ∧ (base (t.fn f.val)).toNat % 2 ^ 32 = v.toNat / 4096 * 4096) ∧
    (∃ t, exec (.registerWrite f false (low + 4) 4 v) s = .next t ∧ t.readBar0 f.val (low.toNat + 4) 4 = v ∧
      t.readBar0 f.val low.toNat 4 = s.readBar0 f.val low.toNat 4 ∧ (base (t.fn f.val)).toNat / 2 ^ 32 = v.toNat) := by
  have ha := p.aligned
  have hb := p.below
  have hs := State.stage_of_hostWrites hw
  have hv := v.isLt
  have hhigh : (low + 4).toNat = low.toNat + 4 := by bv_omega
  constructor
  · let t := s.modFn f.val fun g => g.writeReg f.val low.toNat v
    have ht : base (t.fn f.val) = withBaseLow (base (s.fn f.val)) v := by rw [State.fn_modFn_self, p.writeLow]
    refine ⟨t, execRegisterWrite_low hw ha (by omega), ?_, ?_, ?_, ?_⟩
    · rw [p.readBar0_low (s := t) hs, ht, baseLow_withBaseLow]
    · rw [p.readBar0_high (s := t) hs, p.readBar0_high hs, ht, baseHigh_withBaseLow]
    · rw [ht, toNat_withBaseLow]; omega
    · rw [ht, toNat_withBaseLow]; omega
  · let t := s.modFn f.val fun g => g.writeReg f.val (low.toNat + 4) v
    have ht : base (t.fn f.val) = withBaseHigh (base (s.fn f.val)) v := by rw [State.fn_modFn_self, p.writeHigh]
    have hx : exec (.registerWrite f false (low + 4) 4 v) s = .next t := by
      have := execRegisterWrite_low (off := low + 4) (v := v) hw (by omega) (by omega)
      rwa [hhigh] at this
    refine ⟨t, hx, ?_, ?_, ?_⟩
    · rw [p.readBar0_high (s := t) hs, ht, baseHigh_withBaseHigh]
    · rw [p.readBar0_low (s := t) hs, p.readBar0_low hs, ht, baseLow_withBaseHigh]
    · rw [ht, toNat_withBaseHigh]; omega

/-- Settles O43: the three pairs are ring bases. -/
theorem ringBasesAreAligned : Obligations.RingBasesAreAligned := by
  intro s f v hw r hr
  simp only [List.mem_cons, List.not_mem_nil, or_false] at hr
  rcases hr with rfl | rfl | rfl
  · exact ringBase_writes (low := 0x108) asqBasePair s f v hw
  · exact ringBase_writes (low := 0x110) acqBasePair s f v hw
  · exact ringBase_writes (low := 0x118) eqBasePair s f v hw

end Sys2Proof
end

section
/-!
O16. Doorbells, polls, the fast path and mailbox writes: what serving a queue does, what firmware needs to take up a
fast-path request, one lemma for each claim, and the obligation.
-/

namespace Sys2Proof.Machine

open Sys2Proof (Fn QId Fetch)

/-- A test holds of what is there, if anything. -/
theorem any_decide_iff {α : Type} (o : Option α) (p : α → Prop) [DecidablePred p] :
    (o.any fun u => decide (p u)) = true ↔ ∃ u, o = some u ∧ p u := by
  cases o <;> simp

/-- Serving a queue has one of three courses: its tail is bad, its turn has not come, or it is visited (R47, R48, R62). -/
theorem State.serveQueue_served (s : State) (f q : Nat) (es : List Fetch) :
    Claims.queueServed f q es s (s.serveQueue f q es) := by
  unfold Claims.queueServed State.serveQueue
  dsimp only
  rw [← any_decide_iff]
  refine ⟨fun hb => if_pos hb, fun hb ht => ?_, fun hb ht => ?_⟩
  · rw [if_neg hb, if_neg (by simp [ht])]
  · rw [if_neg hb, if_pos ht]

/-- A fast-path request may start when firmware runs and no fetched command on the same object has yet to start. -/
theorem State.mayStart_fast {s : State} {f slot op id h : Nat} (hrun : s.firmwareRuns = true)
    (hfree : ∀ u ∈ s.eci.fetched, h = 0 ∨ u.handle ≠ h) :
    s.mayStart { via := .fast f slot, seq := s.eci.nextSeq, opcode := op, cmdId := id, handle := h, fence := false } =
      true := by
  have hnone : (s.eci.fetched.any fun u => decide (u.seq < s.eci.nextSeq) && h != 0 && u.handle == h) = false := by
    rw [List.any_eq_false]
    intro u hu
    rcases hfree u hu with h0 | hne
    · simp [h0]
    · simp [hne]
  simp only [mayStart, hrun, hnone]
  rfl

end Sys2Proof.Machine

namespace Sys2Proof.Claims

open Machine

theorem dbSqWrite_holds (f : Fn) (q : QId) (v : BitVec 32) (es : List Fetch) : (dbSqWrite f q v es).Holds := by
  intro s ⟨hw, hv, hrun, hq⟩
  exact ⟨_, (if_pos (by simp [hw, hv, hrun])).trans (if_pos hq), s.serveQueue_served ..⟩

theorem dbSqWriteNoQueue_holds (f : Fn) (q : QId) (v : BitVec 32) (es : List Fetch) : (dbSqWriteNoQueue f q v es).Holds := by
  intro s ⟨hw, hv, hrun, hq, hq0⟩
  exact ⟨_, (if_pos (by simp [hw, hv, hrun])).trans ((if_neg (by simp [hq])).trans (if_neg hq0)), rfl⟩

theorem sqPoll_holds (f : Fn) (q : QId) (es : List Fetch) : (sqPoll f q es).Holds := by
  intro s ⟨hrun, hq⟩
  exact ⟨_, if_pos (by simp [hrun, hq]), s.serveQueue_served ..⟩

theorem dbFastWrite_holds (f : Fn) (v : BitVec 32) : (dbFastWrite f v).Holds := by
  intro s ⟨hw, hrdy, hpos, hmax, hwait, hrun⟩
  have hk : v.toNat % 65536 ≠ 0 := by omega
  exact ⟨_, (if_neg (by simp [hw, hrdy, hk])).trans ((if_neg (by omega)).trans (if_neg (by simp [hwait, hrun]))), rfl⟩

theorem dbFastWriteBusy_holds (f : Fn) (v : BitVec 32) : (dbFastWriteBusy f v).Holds := by
  intro s ⟨hw, hrdy, hpos, hmax, hbusy⟩
  have hk : v.toNat % 65536 ≠ 0 := by omega
  exact ⟨_, (if_neg (by simp [hw, hrdy, hk])).trans ((if_neg (by omega)).trans (if_pos (by simpa using hbusy))), rfl⟩

/-- A request of a known opcode is served, another completes with `E_BAD_OPCODE`. -/
theorem fastPathServe_holds (f : Fn) : (fastPathServe f).Holds := by
  intro s ⟨slot, rest, hq, hrdy, hrun, hfree⟩
  have hstart := State.mayStart_fast (f := f.val) (slot := slot)
    (op := u16 (s.eci.mailbox.load (fastSlot f.val slot) 64) 0)
    (id := u16 (s.eci.mailbox.load (fastSlot f.val slot) 64) 4) hrun hfree
  change Answers (execFastPathServe f s) _
  unfold execFastPathServe
  rw [hq]
  dsimp only
  rw [if_neg (by simp [hrdy, hstart])]
  split
  · next hop =>
    exact ⟨_, rfl, slot, rest, hq, fun e he => absurd (hop.symm.trans he) (by simp), fun _ => rfl⟩
  · next e hop =>
    exact ⟨_, rfl, slot, rest, hq, fun e' he => by cases hop.symm.trans he; rfl,
      fun hn => absurd (hop.symm.trans hn) (by simp)⟩

theorem mailboxHostWrite_holds (f : Fn) (off : BitVec 18) (v : BitVec 32) : (mailboxHostWrite f off v).Holds := by
  intro s ⟨hw, x, hx, ha, hwr⟩
  refine ⟨_, ?_, x, hx, rfl⟩
  change execMailboxHostWrite f off 4 v false s = _
  simp [execMailboxHostWrite, hx, hw, ha, hwr]

theorem mailboxCollision_holds (f : Fn) (off : BitVec 18) (v : BitVec 32) : (mailboxCollision f off v).Holds := by
  intro s ⟨hw, hst, x, hx, ha, hwr, hd⟩
  refine ⟨_, ?_, x, hx, rfl⟩
  change execMailboxHostWrite f off 4 v true s = _
  simp [execMailboxHostWrite, hx, hw, ha, hwr, hd, hst]

end Sys2Proof.Claims

namespace Sys2Proof

open Claims

/-- Settles O16: each claim is the branch of its meaning that its condition selects. -/
theorem doorbellsTakeEffect : Obligations.DoorbellsTakeEffect :=
  ⟨fun f q v es => ⟨dbSqWrite_holds f q v es, dbSqWriteNoQueue_holds f q v es⟩, sqPoll_holds,
    fun f v => ⟨dbFastWrite_holds f v, dbFastWriteBusy_holds f v⟩, fastPathServe_holds,
    fun f off v => ⟨mailboxHostWrite_holds f off v, mailboxCollision_holds f off v⟩⟩

end Sys2Proof
end

section
/-!
O52, O53 and O55. The common checks of R540 come in order, and what they refuse: a command's judgement is the first check
that fails; no check answers E_BUSY; the commands that a kind of queue refuses are read off the table.
-/

namespace Sys2Proof.Machine

open Sys2Proof (Submission)

variable {e : EciSpec} {k : Cmd} {s : State} {r : Reply}

/-! ### The order of the checks (R540) -/

theorem EciSpec.judge_of_pathCheck (h : e.pathCheck k s = some r) : e.judge k s = some r := by
  simp [judge, h]

theorem EciSpec.judge_of_entryCheck (hp : e.pathCheck k s = none) (h : e.entryCheck k = some r) : e.judge k s = some r := by
  simp [judge, hp, h]

theorem EciSpec.judge_of_handleCheck (hp : e.pathCheck k s = none) (he : e.entryCheck k = none)
    (h : e.handleCheck k s = some r) : e.judge k s = some r := by
  simp [judge, hp, he, h]

theorem EciSpec.judge_of_ownerCheck (hp : e.pathCheck k s = none) (he : e.entryCheck k = none)
    (hh : e.handleCheck k s = none) (h : e.ownerCheck k s = some r) : e.judge k s = some r := by
  simp [judge, hp, he, hh, h]

theorem EciSpec.judge_eq_formFail (hp : e.pathCheck k s = none) (he : e.entryCheck k = none)
    (hh : e.handleCheck k s = none) (ho : e.ownerCheck k s = none) :
    e.judge k s = formFail (e.form k.payload s ++ e.formIn k s) := by
  simp [judge, hp, he, hh, ho]

/-- A reply of the common checks is that of one of them. -/
theorem EciSpec.judge_cases (h : e.judge k s = some r) :
    e.pathCheck k s = some r ∨ e.entryCheck k = some r ∨ e.handleCheck k s = some r ∨ e.ownerCheck k s = some r ∨
      formFail (e.form k.payload s ++ e.formIn k s) = some r := by
  simp only [judge, Option.or_eq_some_iff] at h
  tauto

/-! ### No common check answers E_BUSY -/

/-- A list of checks answers one of its own replies. -/
theorem firstFail_mem {cs : List (Bool × Reply)} (h : firstFail cs = some r) : ∃ c ∈ cs, c.2 = r := by
  induction cs with
  | nil => cases h
  | cons c cs ih =>
    obtain ⟨bad, q⟩ := c
    unfold firstFail at h
    split at h
    · exact ⟨_, List.mem_cons_self, Option.some.inj h⟩
    · obtain ⟨c, hc, hr⟩ := ih h
      exact ⟨c, List.mem_cons_of_mem _ hc, hr⟩

theorem formFail_status {fs : List (Nat × Bool)} (h : formFail fs = some r) : r.status = .eBadParam := by
  induction fs with
  | nil => cases h
  | cons f fs ih =>
    obtain ⟨off, fine⟩ := f
    unfold formFail at h
    split at h
    · exact ih h
    · cases h; rfl

theorem EciSpec.pathCheck_status (h : e.pathCheck k s = some r) : r.status = .eBadOpcode ∨ r.status = .eSession := by
  unfold pathCheck at h
  dsimp only at h
  split at h <;> split at h <;> cases h
  · exact .inl rfl
  · exact .inl rfl
  · exact .inr rfl

theorem EciSpec.entryCheck_status (h : e.entryCheck k = some r) : r.status = .eBadParam := by
  obtain ⟨c, hc, rfl⟩ := firstFail_mem h
  simp only [List.mem_cons, List.not_mem_nil, or_false] at hc
  rcases hc with rfl | rfl | rfl | rfl | rfl | rfl | rfl <;> rfl

theorem EciSpec.handleCheck_status (h : e.handleCheck k s = some r) : r.status = .eBadHandle := by
  obtain ⟨-, hr⟩ := Option.ite_none_left_eq_some.mp h
  cases hr
  rfl

/-- A refusal, or else what comes after it, answers a reply. -/
theorem eq_or_of_ite_some {α : Type} {c : Prop} [Decidable c] {x y : α} {o : Option α}
    (h : (if c then some x else o) = some y) : x = y ∨ o = some y := by
  split at h
  · exact .inl (Option.some.inj h)
  · exact .inr h

theorem EciSpec.ownerCheck_status (h : e.ownerCheck k s = some r) : r.status = .eDenied ∨ e.locked k s = some r := by
  rcases eq_or_of_ite_some h with rfl | hl
  · exact .inl rfl
  · exact .inr hl

/-- Where a target's life cycle does not answer `E_BUSY`, no common check does. -/
theorem EciSpec.judge_not_busy (hl : ∀ q, e.locked k s = some q → q.status ≠ .eBusy) (h : e.judge k s = some r) :
    r.status ≠ .eBusy := by
  rcases judge_cases h with h | h | h | h | h
  · rcases pathCheck_status h with h | h <;> simp [h]
  · simp [entryCheck_status h]
  · simp [handleCheck_status h]
  · rcases ownerCheck_status h with h | h
    · simp [h]
    · exact hl r h
  · simp [formFail_status h]

/-! ### What each kind of queue takes (R60, R71) -/

/-- The commands that the admin queue alone takes are those of R60. -/
theorem eciTable_adminOnly :
    ∀ e ∈ eciTable, e.adminOnly = decide (e.opcode ∈ [0x0004, 0x0005, 0x0007, 0x0008, 0x0009, 0x000A]) := by
  decide +kernel

/-- The commands of a network session are those of R71. -/
theorem eciTable_sessionOnly : ∀ e ∈ eciTable, e.sessionOnly = decide (e.opcode ∈ [0x0010, 0x0011, 0x0012]) := by
  decide +kernel

/-- A queue refuses a session's commands, and an I/O queue the admin queue's. -/
theorem EciSpec.pathCheck_ring {f q : Nat} (h : k.tok.via = .ring f q) :
    e.pathCheck k s = if e.sessionOnly || (e.adminOnly && q != 0) then some { status := .eBadOpcode } else none := by
  simp only [pathCheck, h]

/-! ### A submission against its entry (R47, R59) -/

/-- A submission that is not among the fetched entries that may start does nothing. -/
theorem runEci_not_ready {c : Submission} (h : s.ready e.opcode c = none) : runEci e c s = .next s := by
  simp [runEci, h]

theorem State.hint_not_busy (h : r.status ≠ .eBusy) : s.hint r = (s, r) := if_neg h

/-- A submission that a common check refuses completes with the check's reply on the state with the entry taken up. -/
theorem runEci_refused {c : Submission} {t : Token} (hr : s.ready e.opcode c = some t)
    (hj : e.judge (t.cmd c) (s.takeUp t) = some r) (hb : r.status ≠ .eBusy) :
    runEci e c s = .next ((s.takeUp t).complete (t.cmd c) r) := by
  unfold Token.cmd at hj ⊢
  simp [runEci, EciSpec.serve, Answer.settle, hr, hj, State.hint_not_busy hb]

/-- Only `SEC.COUNTER` has a rule of its own on the target's life cycle, and it answers `E_DENIED`. -/
theorem specSecCounter_locked (h : specSecCounter.locked k s = some r) : r.status = .eDenied := by
  obtain ⟨-, hr⟩ := Option.ite_none_right_eq_some.mp h
  cases hr
  rfl

end Sys2Proof.Machine

namespace Sys2Proof.Claims

open Machine
open Sys2Proof (Submission)

/-- Each row of the list runs its command's description. -/
theorem exec_eciRows (c : Submission) : ∀ p ∈ eciRows c, exec p.1 = runEci p.2 c := List.map_inj_left.1 rfl

/-- Of the list, `SEC.COUNTER` alone has a rule of its own on the life cycle of its target. -/
theorem eciRows_locked (c : Submission) :
    ∀ p ∈ eciRows c, p.2.locked = if p.2.opcode = 0x0C0E then specSecCounter.locked else fun _ _ => none :=
  List.map_inj_left.1 rfl

/-- No rule on the life cycle of a target answers `E_BUSY`. -/
theorem eciRows_locked_not_busy {c : Submission} {p : Instr × EciSpec} (hp : p ∈ eciRows c) {k : Cmd} {s : State} {q : Reply}
    (h : p.2.locked k s = some q) : q.status ≠ .eBusy := by
  rw [eciRows_locked c p hp] at h
  split at h
  · simp [specSecCounter_locked h]
  · cases h

end Sys2Proof.Claims

namespace Sys2Proof

open Machine

/-- Settles O53: `judge` takes the first check that refuses. -/
theorem checksComeInOrder : Obligations.ChecksComeInOrder :=
  fun _ _ _ _ _ => ⟨EciSpec.judge_of_pathCheck, EciSpec.judge_of_entryCheck, EciSpec.judge_of_handleCheck,
    EciSpec.judge_of_ownerCheck, EciSpec.judge_eq_formFail⟩

/-- Settles O52: the branches of `runEci` for an entry that may not start and for one that a common check refuses. -/
theorem refusedCommandsCompleteUnchanged : Obligations.RefusedCommandsCompleteUnchanged := by
  intro c s p hp
  rw [Claims.exec_eciRows c p hp]
  refine ⟨runEci_not_ready, fun t r hr hj => ?_⟩
  have hb := EciSpec.judge_not_busy (fun _ => Claims.eciRows_locked_not_busy hp) hj
  exact ⟨hb, runEci_refused hr hj hb⟩

/-- Settles O55: which commands the check of the path refuses on a queue is read off the table. -/
theorem ioQueuesRefuseAdminCommands : Obligations.IoQueuesRefuseAdminCommands := by
  intro e he k s f q hv
  have ha := eciTable_adminOnly e he
  have hs := eciTable_sessionOnly e he
  have hp : e.pathCheck k s = _ := EciSpec.pathCheck_ring hv
  refine ⟨fun ⟨hq, hop⟩ => EciSpec.judge_of_pathCheck ?_, fun hop => EciSpec.judge_of_pathCheck ?_, fun hadm hses => ?_⟩
  · rw [hp, if_pos]
    simp [ha, hop, hq]
  · rw [hp, if_pos]
    simp [hs, hop]
  · rw [hp, if_neg]
    rcases hadm with hq | hop
    · simp [hs, hses, hq]
    · simp [hs, hses, ha, hop]

end Sys2Proof
end

section
/-!
O54. A command that completes with an error when it is run leaves the state as it was (R59). `Answer.KeepsOnError` says it of
one answer; a lemma for each way in which a command's meaning forms its answer carries it through the table.
-/

namespace Sys2Proof.Machine

/-- An answer that a command gives in a state: if it is a completion with an error, the state is as it was (R59). -/
def Answer.KeepsOnError (s : State) (a : Answer) : Prop :=
  ∀ r t, a = .done r t → r.status.isError = true → t = s

/-- Every answer that a command gives when it is run keeps the state if it is an error. -/
def EciSpec.KeepsOnError (e : EciSpec) : Prop := ∀ k s, (e.run k s).KeepsOnError s

namespace Answer.KeepsOnError

variable {s : State}

theorem refused {r : Reply} : (refuse s r).KeepsOnError s := by
  intro r' t h _; cases h; rfl

theorem completes {t : State} {r : Reply} (hr : r.status.isError = false) : (ok t r).KeepsOnError s := by
  intro r' t' h he; cases h; simp [hr] at he

theorem waits {w : Await} {r : Reply} {t : State} : (Answer.wait w r t).KeepsOnError s := by
  intro r' t' h; cases h

theorem stages {kind : BoundaryKind} {c : Change} {r : Reply} {t : State} : (stage t kind c r).KeepsOnError s := waits

theorem checks {cs : List (Bool × Reply)} {f : Unit → Answer} (h : ∀ u, (f u).KeepsOnError s) :
    (checked s cs f).KeepsOnError s := by
  unfold checked
  split
  · exact refused
  · exact h ()

/-- A die's own gate either refuses in the state before, or passes the answer on (R477). -/
theorem gates {d : Nat} {a : Answer} (h : a.KeepsOnError s) : (s.gated d a).KeepsOnError s := by
  unfold State.gated
  split
  · split
    · exact h
    · exact refused
  · exact refused
  · exact h

theorem branches {c : Prop} [Decidable c] {a b : Answer} (ha : a.KeepsOnError s) (hb : b.KeepsOnError s) :
    (if c then a else b).KeepsOnError s := by
  split
  · exact ha
  · exact hb

/-- A command that needs a signature completes without error, or waits for the security processor (R492). -/
theorem signs {k : Cmd} : (s.whenSigning (s.signedReply k)).KeepsOnError s := by
  refine branches (completes ?_) waits
  unfold State.signedReply
  split_ifs <;> rfl

end Answer.KeepsOnError

open Answer.KeepsOnError

theorem specQueueDelete_keepsOnError : specQueueDelete.KeepsOnError := by
  dsimp only [EciSpec.KeepsOnError, specQueueDelete]
  intro _ _
  split
  · exact refused
  · exact branches refused waits

theorem eciDeviceCmds_keepOnError : ∀ e ∈ eciDeviceCmds, e.KeepsOnError := by
  simp only [eciDeviceCmds, List.forall_mem_cons, List.not_mem_nil, IsEmpty.forall_iff, implies_true, and_true]
  exact ⟨fun _ _ => completes rfl, fun _ _ => completes rfl, fun _ _ => completes rfl,
    fun _ _ => checks fun _ => completes rfl, specQueueDelete_keepsOnError, fun _ _ => completes rfl,
    fun _ _ => checks fun _ => completes rfl, fun _ _ => completes rfl, fun _ _ => completes rfl,
    fun _ _ => completes rfl⟩

theorem eciSessions_keepOnError : ∀ e ∈ eciSessions, e.KeepsOnError := by
  simp only [eciSessions, List.forall_mem_cons, List.not_mem_nil, IsEmpty.forall_iff, implies_true, and_true]
  exact ⟨fun _ _ => checks fun _ => completes rfl, fun _ _ => completes rfl, fun _ _ => completes rfl⟩

theorem specChannelCreate_keepsOnError : specChannelCreate.KeepsOnError := by
  dsimp only [EciSpec.KeepsOnError, specChannelCreate]
  refine fun _ _ => checks fun _ => ?_
  split
  · exact refused
  · refine checks fun _ => ?_
    split
    · exact refused
    · exact completes rfl

/-- A command that places a configuration is refused where there is no place for it (R81). -/
theorem placing_keepOnError : specChannelAdmitCheck.KeepsOnError ∧ specChannelSet.KeepsOnError := by
  dsimp only [EciSpec.KeepsOnError, specChannelAdmitCheck, specChannelSet]
  refine ⟨?_, ?_⟩ <;>
  · refine fun _ _ => checks fun _ => ?_
    split
    · exact refused
    · exact checks fun _ => completes rfl

theorem specSlateCreate_keepsOnError : specSlateCreate.KeepsOnError := by
  dsimp only [EciSpec.KeepsOnError, specSlateCreate]
  refine fun _ _ => checks fun _ => ?_
  split
  · exact refused
  · split
    · exact refused
    · exact checks fun _ => completes rfl

theorem eciChannels_keepOnError : ∀ e ∈ eciChannels, e.KeepsOnError := by
  simp only [eciChannels, List.forall_mem_cons, List.not_mem_nil, IsEmpty.forall_iff, implies_true, and_true]
  obtain ⟨hadmit, hset⟩ := placing_keepOnError
  exact ⟨specChannelCreate_keepsOnError, hadmit, hset, fun _ _ => checks fun _ => stages,
    fun _ _ => checks fun _ => stages, fun _ _ => checks fun _ => completes rfl, fun _ _ => completes rfl,
    fun _ _ => gates (checks fun _ => stages), fun _ _ => gates (branches refused (completes rfl)),
    specSlateCreate_keepsOnError, fun _ _ => checks fun _ => completes rfl,
    fun _ _ => gates (branches refused (completes rfl))⟩

theorem eciCoding_keepOnError : ∀ e ∈ eciCoding, e.KeepsOnError := by
  simp only [eciCoding, List.forall_mem_cons, List.not_mem_nil, IsEmpty.forall_iff, implies_true, and_true]
  exact ⟨fun _ _ => checks fun _ => completes rfl, fun _ _ => checks fun _ => completes rfl,
    fun _ _ => checks fun _ => stages, fun _ _ => checks fun _ => completes rfl, fun _ _ => completes rfl,
    fun _ _ => checks fun _ => completes rfl, fun _ _ => checks fun _ => stages, fun _ _ => checks fun _ => completes rfl,
    fun _ _ => checks fun _ => stages, fun _ _ => checks fun _ => completes rfl, fun _ _ => checks fun _ => completes rfl,
    fun _ _ => checks fun _ => completes rfl⟩

/-- A command that creates an object and takes buffers or an ASRC for it is refused where either runs out. -/
theorem creatingWithParts_keepOnError : specLayerCreate.KeepsOnError ∧ specAudioProgramCreate.KeepsOnError := by
  dsimp only [EciSpec.KeepsOnError, specLayerCreate, specAudioProgramCreate]
  refine ⟨?_, ?_⟩ <;>
  · refine fun _ _ => checks fun _ => ?_
    split
    · exact refused
    · split
      · exact refused
      · exact completes rfl

theorem eciCompose_keepOnError : ∀ e ∈ eciCompose, e.KeepsOnError := by
  simp only [eciCompose, List.forall_mem_cons, List.not_mem_nil, IsEmpty.forall_iff, implies_true, and_true]
  exact ⟨fun _ _ => checks fun _ => completes rfl, creatingWithParts_keepOnError.1,
    fun _ _ => checks fun _ => completes rfl, fun _ _ => checks fun _ => stages, fun _ _ => completes rfl,
    fun _ _ => completes rfl, fun _ _ => checks fun _ => completes rfl, fun _ _ => gates (checks fun _ => completes rfl),
    fun _ _ => gates (branches refused (completes rfl))⟩

theorem specTraceCreate_keepsOnError : specTraceCreate.KeepsOnError := by
  dsimp only [EciSpec.KeepsOnError, specTraceCreate]
  refine fun _ _ => gates (checks fun _ => ?_)
  split
  · exact refused
  · split
    · exact refused
    · exact completes rfl

theorem eciSchedCmds_keepOnError : ∀ e ∈ eciSchedCmds, e.KeepsOnError := by
  simp only [eciSchedCmds, List.forall_mem_cons, List.not_mem_nil, IsEmpty.forall_iff, implies_true, and_true]
  exact ⟨fun _ _ => gates (completes rfl), fun _ _ => gates (completes rfl), fun _ _ => completes rfl,
    specTraceCreate_keepsOnError, fun _ _ => checks fun _ => completes rfl, fun _ _ => checks fun _ => completes rfl,
    fun _ _ => completes rfl, fun _ _ => completes rfl⟩

theorem specDecodeCreate_keepsOnError : specDecodeCreate.KeepsOnError := by
  dsimp only [EciSpec.KeepsOnError, specDecodeCreate]
  refine fun _ _ => checks fun _ => ?_
  split
  · exact refused
  · split
    · exact refused
    · split
      · exact refused
      · exact checks fun _ => completes rfl

theorem specChannelMode_keepsOnError : specChannelMode.KeepsOnError := by
  dsimp only [EciSpec.KeepsOnError, specChannelMode]
  refine fun _ _ => checks fun _ => branches (completes rfl) ?_
  split
  · exact refused
  · exact completes rfl

theorem specStatsSet_keepsOnError : specStatsSet.KeepsOnError := by
  dsimp only [EciSpec.KeepsOnError, specStatsSet]
  refine fun _ _ => checks fun _ => branches stages ?_
  split
  · exact refused
  · exact stages

/-- A command that moves the read index of a ring is refused where there is no ring or no such place in it. -/
theorem readingRings_keepOnError : specRefRing.KeepsOnError ∧ specStatsRead.KeepsOnError := by
  dsimp only [EciSpec.KeepsOnError, specRefRing, specStatsRead]
  refine ⟨?_, ?_⟩ <;>
  · intro _ _
    split
    · exact refused
    · exact branches refused (completes rfl)

theorem eciDecodeCh_keepOnError : ∀ e ∈ eciDecodeCh, e.KeepsOnError := by
  simp only [eciDecodeCh, List.forall_mem_cons, List.not_mem_nil, IsEmpty.forall_iff, implies_true, and_true]
  obtain ⟨href, hstats⟩ := readingRings_keepOnError
  exact ⟨specDecodeCreate_keepsOnError, fun _ _ => checks fun _ => completes rfl,
    fun _ _ => checks fun _ => completes rfl, fun _ _ => checks fun _ => completes rfl, specChannelMode_keepsOnError,
    fun _ _ => checks fun _ => waits, href, fun _ _ => checks fun _ => completes rfl, specStatsSet_keepsOnError, hstats,
    fun _ _ => checks fun _ => stages, fun _ _ => checks fun _ => stages, fun _ _ => checks fun _ => completes rfl,
    fun _ _ => completes rfl⟩

theorem eciAudio_keepOnError : ∀ e ∈ eciAudio, e.KeepsOnError := by
  simp only [eciAudio, List.forall_mem_cons, List.not_mem_nil, IsEmpty.forall_iff, implies_true, and_true]
  exact ⟨fun _ _ => checks fun _ => completes rfl, fun _ _ => checks fun _ => stages, fun _ _ => completes rfl,
    fun _ _ => checks fun _ => completes rfl, creatingWithParts_keepOnError.2, fun _ _ => stages,
    fun _ _ => checks fun _ => completes rfl, fun _ _ => completes rfl, fun _ _ => completes rfl,
    fun _ _ => completes rfl, fun _ _ => checks fun _ => stages⟩

/-- A command that creates an object of one part is refused where no index is left (R55). -/
theorem creating_keepOnError :
    specIngressCreate.KeepsOnError ∧ specEgressCreate.KeepsOnError ∧
      specPolicerCreate.KeepsOnError ∧ specKeyImport.KeepsOnError := by
  dsimp only [EciSpec.KeepsOnError, specIngressCreate, specEgressCreate, specPolicerCreate, specKeyImport]
  refine ⟨?_, ?_, ?_, ?_⟩ <;>
  · refine fun _ _ => checks fun _ => ?_
    split
    · exact refused
    · exact completes rfl

/-- A command whose fields depend on the stream refuses a bad one, and else stages what it sets. -/
theorem settingEgress_keepOnError : specEgressSet.KeepsOnError ∧ specEgressKey.KeepsOnError := by
  dsimp only [EciSpec.KeepsOnError, specEgressSet, specEgressKey]
  refine ⟨?_, ?_⟩ <;>
  · intro _ _
    split
    · exact refused
    · exact checks fun _ => stages

theorem specShaperSet_keepsOnError : specShaperSet.KeepsOnError := by
  dsimp only [EciSpec.KeepsOnError, specShaperSet]
  intro _ _
  split
  · exact refused
  · exact stages

theorem eciNet_keepOnError : ∀ e ∈ eciNet, e.KeepsOnError := by
  simp only [eciNet, List.forall_mem_cons, List.not_mem_nil, IsEmpty.forall_iff, implies_true, and_true]
  obtain ⟨hingress, hegress, hpolicer, -⟩ := creating_keepOnError
  obtain ⟨hset, hkey⟩ := settingEgress_keepOnError
  exact ⟨hingress, fun _ _ => checks fun _ => completes rfl, fun _ _ => completes rfl, hegress, hset,
    fun _ _ => checks fun _ => stages, fun _ _ => completes rfl, fun _ _ => checks fun _ => stages, hkey,
    fun _ _ => checks fun _ => stages, specShaperSet_keepsOnError, fun _ _ => checks fun _ => stages,
    fun _ _ => completes rfl, hpolicer, fun _ _ => stages, fun _ _ => completes rfl, fun _ _ => completes rfl,
    fun _ _ => checks fun _ => completes rfl⟩

theorem eciTime_keepOnError : ∀ e ∈ eciTime, e.KeepsOnError := by
  simp only [eciTime, List.forall_mem_cons, List.not_mem_nil, IsEmpty.forall_iff, implies_true, and_true]
  exact ⟨fun _ _ => completes rfl, fun _ _ => completes rfl, fun _ _ => checks fun _ => completes rfl,
    fun _ _ => completes rfl, fun _ _ => completes rfl, fun _ _ => stages, fun _ _ => completes rfl,
    fun _ _ => checks fun _ => completes rfl, fun _ _ => checks fun _ => completes rfl, fun _ _ => completes rfl⟩

theorem eciLane_keepOnError : ∀ e ∈ eciLane, e.KeepsOnError := by
  simp only [eciLane, List.forall_mem_cons, List.not_mem_nil, IsEmpty.forall_iff, implies_true, and_true]
  exact ⟨fun _ _ => checks fun _ => completes rfl, fun _ _ => checks fun _ => waits, fun _ _ => completes rfl,
    fun _ _ => checks fun _ => completes rfl, fun _ _ => checks fun _ => stages⟩

theorem specMemFreq_keepsOnError : specMemFreq.KeepsOnError := by
  dsimp only [EciSpec.KeepsOnError, specMemFreq]
  refine fun _ _ => gates (branches refused ?_)
  split
  · exact refused
  · exact stages

theorem specMemCopy_keepsOnError : specMemCopy.KeepsOnError := by
  dsimp only [EciSpec.KeepsOnError, specMemCopy]
  intro _ _
  split
  · exact refused
  · exact branches refused (branches (completes rfl) (completes rfl))

theorem eciMemCmds_keepOnError : ∀ e ∈ eciMemCmds, e.KeepsOnError := by
  simp only [eciMemCmds, List.forall_mem_cons, List.not_mem_nil, IsEmpty.forall_iff, implies_true, and_true]
  exact ⟨fun _ _ => gates (completes rfl), fun _ _ => gates (completes rfl), specMemFreq_keepsOnError,
    specMemCopy_keepsOnError⟩

/-- A command that must be allowed (R449, R452) is refused where it is not, and else completes. -/
theorem authorised_keepOnError :
    specSecLcAdvance.KeepsOnError ∧ specSecTamperClear.KeepsOnError ∧ specSecCredSet.KeepsOnError := by
  dsimp only [EciSpec.KeepsOnError, specSecLcAdvance, specSecTamperClear, specSecCredSet]
  refine ⟨?_, ?_, ?_⟩ <;>
  · intro _ _
    split
    · exact refused
    · exact completes rfl

theorem specSecOwnerKeyAdd_keepsOnError : specSecOwnerKeyAdd.KeepsOnError := by
  dsimp only [EciSpec.KeepsOnError, specSecOwnerKeyAdd]
  intro _ _
  split
  · exact refused
  · exact branches refused (completes rfl)

/-- A command that must be authorised (R449), and is then checked. -/
theorem authorisedWithChecks_keepOnError : specSecKeyRevoke.KeepsOnError ∧ specSecSvnCommit.KeepsOnError := by
  dsimp only [EciSpec.KeepsOnError, specSecKeyRevoke, specSecSvnCommit]
  refine ⟨?_, ?_⟩ <;>
  · intro _ _
    split
    · exact refused
    · exact checks fun _ => completes rfl

theorem specSecDebugUnlock_keepsOnError : specSecDebugUnlock.KeepsOnError := by
  dsimp only [EciSpec.KeepsOnError, specSecDebugUnlock]
  intro _ _
  split
  · exact refused
  · exact refused
  · refine branches refused ?_
    split
    · exact refused
    · exact branches refused (completes rfl)

theorem specSecTamperSet_keepsOnError : specSecTamperSet.KeepsOnError := by
  dsimp only [EciSpec.KeepsOnError, specSecTamperSet]
  refine fun _ _ => branches ?_ (completes rfl)
  split
  · exact refused
  · exact completes rfl

theorem eciSecurity_keepOnError : ∀ e ∈ eciSecurity, e.KeepsOnError := by
  simp only [eciSecurity, List.forall_mem_cons, List.not_mem_nil, IsEmpty.forall_iff, implies_true, and_true]
  obtain ⟨-, -, -, himport⟩ := creating_keepOnError
  obtain ⟨hmove, hclear, hcred⟩ := authorised_keepOnError
  obtain ⟨hrevoke, hsvn⟩ := authorisedWithChecks_keepOnError
  exact ⟨fun _ _ => signs, fun _ _ => signs, fun _ _ => signs, himport, fun _ _ => checks fun _ => completes rfl, hmove,
    specSecOwnerKeyAdd_keepsOnError, hrevoke, hsvn, fun _ _ => completes rfl, specSecDebugUnlock_keepsOnError,
    specSecTamperSet_keepsOnError, fun _ _ => completes rfl, hclear, fun _ _ => branches (completes rfl) (completes rfl),
    hcred, fun _ _ => checks fun _ => completes rfl⟩

theorem eciMp_keepOnError : ∀ e ∈ eciMp, e.KeepsOnError := by
  simp only [eciMp, List.forall_mem_cons, List.not_mem_nil, IsEmpty.forall_iff, implies_true, and_true]
  exact ⟨fun _ _ => checks fun _ => waits, fun _ _ => completes rfl,
    fun _ _ => branches (completes rfl) (checks fun _ => completes rfl), fun _ _ => gates (completes rfl),
    fun _ _ => completes rfl, fun _ _ => completes rfl⟩

theorem eciHealth_keepOnError : ∀ e ∈ eciHealth, e.KeepsOnError := by
  rw [eciHealth, List.forall_mem_singleton]
  exact fun _ _ => checks fun _ => waits

theorem eciTable_keepOnError : ∀ e ∈ eciTable, e.KeepsOnError := by
  simp only [eciTable, List.forall_mem_append, and_assoc]
  exact ⟨eciDeviceCmds_keepOnError, eciSessions_keepOnError, eciChannels_keepOnError, eciCoding_keepOnError,
    eciCompose_keepOnError, eciSchedCmds_keepOnError, eciDecodeCh_keepOnError, eciAudio_keepOnError, eciNet_keepOnError,
    eciTime_keepOnError, eciLane_keepOnError, eciMemCmds_keepOnError, eciSecurity_keepOnError, eciMp_keepOnError,
    eciHealth_keepOnError⟩

end Sys2Proof.Machine

namespace Sys2Proof

open Machine

/-- Settles O54: each command of the table keeps the state on an error. -/
theorem errorsMakeNoChange : Obligations.ErrorsMakeNoChange :=
  fun e he k s t r => eciTable_keepOnError e he k s r t

end Sys2Proof
end

section
/-!
O1. The device commands: what each answers, from its description's `run`, and the obligation.
-/

namespace Sys2Proof.Machine

open Sys2Proof (Byte)

/-- A field beyond the first one of a record. -/
theorem fieldAt_le_append_skip {n o : Nat} (h : n ≤ o) (v : Nat) (b : List Byte) (m : Nat) :
    fieldAt (le n v ++ b) o m = fieldAt b (o - n) m := by
  rw [fieldAt_append_right _ _ _ _ (by simpa using h), length_le]

@[simp] theorem State.length_configDigest (s : State) : s.configDigest.length = 32 := length_slice ..

/-- As many of a list's first entries as there is room for are all of them where no entry is left over. -/
theorem take_eq_self_of_not_more {α : Type} {l : List α} {n : Nat} (h : ¬ (l.take n).length < l.length) : l.take n = l :=
  List.take_of_length_le (by rw [List.length_take] at h; omega)

/-- Of two lists of checks in a row, the second answers where the first passes. -/
theorem firstFail_append (a b : List (Bool × Reply)) : firstFail (a ++ b) = (firstFail a).or (firstFail b) := by
  induction a with
  | nil => rfl
  | cons c a ih =>
    obtain ⟨bad, r⟩ := c
    cases bad
    · exact ih
    · rfl

end Sys2Proof.Machine

namespace Sys2Proof.Claims

open Machine Sys2Proof

theorem deviceIdentify_holds (c : Submission) : (deviceIdentify c).Holds := by
  refine eciClaim_holds rfl (fun _ => rfl) fun k s _ => ⟨_, rfl, ?_⟩
  refine ⟨by simp, ?_, ?_, ?_, ?_, ?_, ?_, ?_, ?_, ?_, List.drop_left' (by simp)⟩ <;>
    simp [u8, u32, u64, fieldAt_le_append, fieldAt_le_append_skip]

theorem deviceStatus_holds (c : Submission) : (deviceStatus c).Holds := by
  refine eciClaim_holds rfl (fun _ => rfl) fun k s _ => ⟨_, rfl, ?_⟩
  refine ⟨by simp, ?_, ?_, ?_, ?_, ?_⟩ <;>
    simp [u8, u16, u32, u64, fieldAt_le, fieldAt_le_append, fieldAt_le_append_skip]

theorem deviceEventMask_holds (c : Submission) : (deviceEventMask c).Holds :=
  eciClaim_holds rfl (fun _ => rfl) fun _ _ _ => rfl

theorem queueCreate_holds (c : Submission) : (queueCreate c).Holds := by
  refine eciClaim_holds rfl (fun _ => rfl) fun k s hg => ?_
  obtain ⟨hrdy, h1, h16, hfree, hs4, hs12, hc4, hc12, hsq, hcq⟩ := hg
  have hq : ¬ (u8 k.payload 0 = 0 ∨ 16 < u8 k.payload 0) := by omega
  dsimp only [specQueueCreate]
  rw [checked_pass]
  · rfl
  · simp only [firstFail, hrdy, hq, hfree, hs4, hs12, hc4, hc12, hsq, hcq]
    rfl

theorem queueDelete_holds (c : Submission) : (queueDelete c).Holds := by
  refine eciClaim_holds rfl (fun _ => rfl) fun k s ⟨hq, u, hu, hd⟩ => ⟨u, hu, ?_⟩
  dsimp only [specQueueDelete]
  rw [hu]
  exact if_neg (by simp [hq, hd])

theorem objectList_holds (c : Submission) : (objectList c).Holds := by
  refine eciClaim_holds rfl (fun _ => rfl) fun k s _ => ⟨_, _, rfl, fun h hh => ?_, fun hmore h ho hlo hty => ?_⟩
  · simpa using List.mem_filter.mp (List.mem_of_mem_take hh)
  · rw [take_eq_self_of_not_more (of_decide_eq_false hmore)]
    simpa [List.mem_filter] using ⟨ho, hlo, hty⟩

theorem objectReassign_holds (c : Submission) : (objectReassign c).Holds := by
  refine eciClaim_holds rfl (fun _ => rfl) fun k s h => ?_
  dsimp only [specObjectReassign]
  rw [checked_pass]
  · rfl
  · simp [firstFail, h]

theorem deviceVfQuota_holds (c : Submission) : (deviceVfQuota c).Holds :=
  eciClaim_holds rfl (fun _ => rfl) fun _ _ _ => rfl

theorem deviceImageLoad_holds (c : Submission) : (deviceImageLoad c).Holds := by
  refine eciClaim_holds rfl (fun _ => rfl) fun k s ⟨htype, hsize, hslot⟩ => ?_
  have hfit : firstFail (imageChecks (u8 k.payload 0) (k.payload.drop 4)) = none := by
    have hbig : (codeType (u8 k.payload 0) == 2 && decide (0x2000000 < (k.payload.drop 4).length)) = false := by
      rw [Bool.and_eq_false_imp, beq_iff_eq, decide_eq_false_iff_not, Nat.not_lt]
      exact hsize
    rw [imageChecks, firstFail, if_neg (by simp [htype]), firstFail, hbig]
    rfl
  dsimp only [specDeviceImageLoad, checked]
  rw [firstFail_append, hfit]
  cases happ : s.boot.fuses.approve (k.payload.drop 4) (codeType (u8 k.payload 0)) with
  | none => simp [firstFail, hslot, ok]
  | some why => simp [firstFail, hslot]

theorem deviceRestart_holds (c : Submission) : (deviceRestart c).Holds := by
  refine eciClaim_holds rfl (fun _ => rfl) fun k s h => ?_
  simp [specDeviceRestart, State.modBoot, h, ok]

theorem deviceNop_holds (c : Submission) : (deviceNop c).Holds :=
  eciClaim_holds rfl (fun _ => rfl) fun _ _ _ => rfl

end Sys2Proof.Claims

namespace Sys2Proof

open Claims

/-- Settles O1: each claim from its command's `run`. -/
theorem deviceCommandsComplete : Obligations.DeviceCommandsComplete :=
  fun c => ⟨deviceIdentify_holds c, deviceStatus_holds c, deviceEventMask_holds c, queueCreate_holds c,
    queueDelete_holds c, objectList_holds c, objectReassign_holds c, deviceVfQuota_holds c, deviceImageLoad_holds c,
    deviceRestart_holds c, deviceNop_holds c⟩

end Sys2Proof
end

section
/-!
O3 and O59. The channel commands: where an admission check and a placement refuse, the order of the checks of CHANNEL.CREATE and
CHANNEL.ADMIT_CHECK, what each command answers from its description's `run`, and the obligations.
-/

namespace Sys2Proof.Machine

open Sys2Proof (Byte)

/-! ### Lists of checks (R540) -/

/-- A list of checks passes when each of them does. -/
theorem firstFail_eq_none_iff {cs : List (Bool × Reply)} : firstFail cs = none ↔ ∀ c ∈ cs, c.1 = false := by
  induction cs with
  | nil => simp [firstFail]
  | cons c cs ih =>
    obtain ⟨bad, r⟩ := c
    cases bad <;> simp [firstFail, ih]

theorem firstFail_append_eq_none {a b : List (Bool × Reply)} (ha : firstFail a = none) (hb : firstFail b = none) :
    firstFail (a ++ b) = none := by
  rw [firstFail_append, ha, hb]; rfl

/-- A check that fails completes the command with its reply and no change. -/
theorem checked_refuse {s : State} {cs : List (Bool × Reply)} {f : Unit → Answer} {r : Reply} (h : firstFail cs = some r) :
    checked s cs f = .done r s := by
  simp [checked, h]

/-- A command on a die in service answers what it answers (R477). -/
theorem State.gated_of_dieGate {s : State} {h : Nat} {a : Answer} (hg : s.dieGate h = none) : s.gated h a = a := by
  unfold gated
  rw [hg]
  cases a <;> rfl

/-! ### Admission and placement (R78, R81) -/

/-- Every admission check refuses with `E_NO_CAPACITY`. -/
theorem State.admission_status {s : State} {others : List Charge} {g : Charge} {pipes : List (Nat × Option Nat)}
    {c : Bool × Reply} (h : c ∈ s.admission others g pipes) : c.2.status = .eNoCapacity := by
  simp only [admission, List.mem_append, List.mem_flatMap, List.mem_map, List.mem_cons, List.not_mem_nil, or_false] at h
  rcases h with ((((((((((⟨_, _, rfl⟩ | ⟨_, _, rfl⟩) | ⟨_, _, rfl⟩) | rfl) | ⟨_, _, rfl⟩) | ⟨_, _, rfl⟩) | ⟨_, _, rfl⟩) |
    ⟨_, _, rfl | rfl | rfl | rfl⟩) | ⟨_, _, rfl⟩) | ⟨_, _, rfl⟩)) <;> rfl

/-- Where a configuration has no place, the refusal is `E_NO_CAPACITY` (R81). -/
theorem State.choosePlace_error {s : State} {f kbps : Nat} {others : List Charge} {c : ChCfg} {e : Option Place × Reply}
    (h : s.choosePlace f others c kbps = .error e) : e.2.status = .eNoCapacity := by
  unfold choosePlace at h
  dsimp only at h
  split at h
  · cases h; rfl
  · split at h
    · cases h
    · next hnone =>
      split at h
      · cases h; rfl
      · next first rest htried =>
        cases h
        have hfirst := List.find?_eq_none.mp hnone first (htried ▸ List.mem_cons_self)
        obtain ⟨d, -, rfl⟩ := List.mem_map.mp (htried ▸ List.mem_cons_self : first ∈ _)
        obtain ⟨r, hr⟩ := Option.ne_none_iff_exists'.mp (by simpa using hfirst)
        obtain ⟨q, hq, rfl⟩ := firstFail_mem hr
        dsimp only
        rw [hr]
        exact admission_status hq

/-! ### Commands that place a configuration (R80, R81, R105) -/

/-- How CHANNEL.CREATE, CHANNEL.ADMIT_CHECK and CHANNEL.SET answer: checks, a place, the checks of the dies named; `refusal` is
the reply where there is no place, and `go` what the command does at a place. -/
def State.placing (s : State) (checks : List (Bool × Reply)) (place : Except (Option Place × Reply) Place)
    (service : Place → List (Bool × Reply)) (refusal : Option Place × Reply → Reply) (go : Place → Answer) : Answer :=
  checked s checks fun _ =>
    match place with
    | .error e => refuse s (refusal e)
    | .ok p => checked s (service p) fun _ => go p

section Placing

variable {s : State} {k : Cmd} {checks : List (Bool × Reply)} {place : Except (Option Place × Reply) Place}
  {service : Place → List (Bool × Reply)}

theorem State.placing_pass {p : Place} {refusal : Option Place × Reply → Reply} {go : Place → Answer}
    (hc : firstFail checks = none) (hp : place = .ok p) (hd : firstFail (service p) = none) :
    s.placing checks place service refusal go = go p := by
  subst hp
  exact (checked_pass _ _ _ hc).trans (checked_pass _ _ _ hd)

/-- Commands with the same checks and the same place are refused alike by a check, or have no place alike, or go on alike. -/
theorem State.placing_cases (s : State) (checks : List (Bool × Reply)) (place : Except (Option Place × Reply) Place)
    (service : Place → List (Bool × Reply)) :
    (∃ r, ∀ refusal go, s.placing checks place service refusal go = .done r s) ∨
      (∃ e, place = .error e ∧ ∀ refusal go, s.placing checks place service refusal go = .done (refusal e) s) ∨
      ∃ p, ∀ refusal go, s.placing checks place service refusal go = go p := by
  rcases hc : firstFail checks with _ | r
  · rcases place with e | p
    · exact .inr (.inl ⟨e, rfl, fun _ _ => checked_pass _ _ _ hc⟩)
    · rcases hd : firstFail (service p) with _ | r
      · exact .inr (.inr ⟨p, fun _ _ => placing_pass hc rfl hd⟩)
      · exact .inl ⟨r, fun _ _ => (checked_pass _ _ _ hc).trans (checked_refuse hd)⟩
  · exact .inl ⟨r, fun _ _ => checked_refuse hc⟩

/-- `placing` with the checks and the place that CHANNEL.CREATE and CHANNEL.ADMIT_CHECK have in common (R80). -/
def State.placingNew (s : State) (k : Cmd) : (Option Place × Reply → Reply) → (Place → Answer) → Answer :=
  let c := parseCh k.payload
  s.placing (s.chRules k 0 s.charges c {} ++ s.chQuota k true c) (s.choosePlace k.tok.via.fn s.charges c c.defaultCap)
    fun _ => s.dieService c

/-- What CHANNEL.CREATE does at a place: the channel is made there, if an index is left. -/
def State.createAt (s : State) (k : Cmd) (p : Place) : Answer :=
  let c := parseCh k.payload
  match s.newObject tChannel p.die s.boot.fuses.variant.channels k.tok.via.fn with
  | none => refuse s (noIndex tChannel)
  | some (h, t) =>
    let t := t.modChan fun x => { x with chans := x.chans.put h (c.toChannel k.payload p {}) }
    ok ((t.raise evChannelState h t.noChannelState (some 0)).useFree)
      { result := h, response := s.admissionResponse s.charges c (some p) }

theorem specChannelCreate_run : specChannelCreate.run k s = s.placingNew k (·.2) (s.createAt k) := rfl

theorem specChannelAdmitCheck_run :
    specChannelAdmitCheck.run k s =
      s.placingNew k (fun e => { e.2 with response := s.admissionResponse s.charges (parseCh k.payload) e.1 })
        fun p => ok s { response := s.admissionResponse s.charges (parseCh k.payload) (some p) } := rfl

/-- The three ways in which CHANNEL.CREATE and CHANNEL.ADMIT_CHECK answer one payload; where there is no place, the refusal is
an error. -/
theorem State.placingNew_cases (s : State) (k : Cmd) :
    (∃ r, ∀ refusal go, s.placingNew k refusal go = .done r s) ∨
      (∃ e : Option Place × Reply, e.2.status.isError = true ∧ ∀ refusal go, s.placingNew k refusal go = .done (refusal e) s) ∨
      ∃ p, ∀ refusal go, s.placingNew k refusal go = go p := by
  rcases s.placing_cases _ _ _ with h | ⟨e, he, h⟩ | h
  · exact .inl h
  · exact .inr (.inl ⟨e, by rw [choosePlace_error he]; rfl, h⟩)
  · exact .inr (.inr h)

/-- CHANNEL.CREATE at a place, where it is no error, answers the admission response of the place. -/
theorem State.createAt_response {p : Place} {q : Reply} {t : State} (h : s.createAt k p = .done q t)
    (hq : q.status.isError = false) :
    q.response = s.admissionResponse s.charges (parseCh k.payload) (some p) := by
  unfold createAt at h
  dsimp only at h
  split at h
  · cases h; cases hq
  · cases h; rfl

end Placing


/-! ### Bytes of a response -/

/-- Bytes that lie wholly beyond the first part. -/
theorem slice_append_right {a : List Byte} (b : List Byte) {o : Nat} (n : Nat) (h : a.length ≤ o) :
    slice (a ++ b) o n = slice b (o - a.length) n := by
  obtain ⟨d, rfl⟩ := Nat.exists_eq_add_of_le h
  simp [slice]

/-- Bytes that are exactly the first part. -/
theorem slice_append_left {a : List Byte} (b : List Byte) {n : Nat} (h : a.length = n) : slice (a ++ b) 0 n = a := by
  subst h
  simp [slice]

theorem slice_self {a : List Byte} {n : Nat} (h : a.length = n) : slice a 0 n = a := by
  simpa using slice_append_left [] h

end Sys2Proof.Machine

namespace Sys2Proof.Claims

open Machine Sys2Proof

theorem channelCreate_holds (c : Submission) : (channelCreate c).Holds := by
  refine eciClaim_holds rfl (fun _ => rfl) fun k s ⟨hrules, hquota, ⟨p, hp, hindex⟩, hdie⟩ => ?_
  obtain ⟨⟨h, t⟩, hnew⟩ := Option.isSome_iff_exists.mp hindex
  refine ⟨p, h, t, hp, hnew, ?_⟩
  rw [specChannelCreate_run]
  refine (State.placing_pass (firstFail_append_eq_none hrules hquota) hp hdie).trans ?_
  rw [State.createAt, hnew]
  rfl

theorem channelAdmitCheck_holds (c : Submission) : (channelAdmitCheck c).Holds := by
  refine eciClaim_holds rfl (fun _ => rfl) fun k s ⟨hrules, hquota, ⟨p, hp⟩, hdie⟩ => ⟨p, hp, ?_⟩
  rw [specChannelAdmitCheck_run]
  exact State.placing_pass (firstFail_append_eq_none hrules hquota) hp hdie

theorem channelSet_holds (c : Submission) : (channelSet c).Holds := by
  dsimp only [channelSet]
  refine eciClaim_holds rfl (fun _ => rfl) fun k s ⟨hkind, hidle, hpool, hrules, hquota, ⟨p, hp, hslot⟩, hdie⟩ => ⟨p, hp, ?_⟩
  refine State.placing_pass (firstFail_append_eq_none (firstFail_append_eq_none ?_ hrules) hquota) hp ?_
  · simpa [firstFail, hkind, hidle] using hpool
  · simpa [firstFail, hdie] using hslot

theorem channelStart_holds (c : Submission) : (channelStart c).Holds := by
  refine eciClaim_holds rfl (fun _ => rfl) fun k s ⟨hidle, hpipe, hlocked, hfenced, hready⟩ => ?_
  dsimp only [specChannelStart]
  rw [checked_pass]
  · rfl
  · simpa [firstFail, hidle, hpipe, hfenced, hready] using hlocked

theorem channelStop_holds (c : Submission) : (channelStop c).Holds := by
  refine eciClaim_holds rfl (fun _ => rfl) fun k s ⟨hruns, hpipe⟩ => ?_
  dsimp only [specChannelStop]
  rw [checked_pass]
  · rfl
  · simp [firstFail, hpipe, ← or_iff_not_imp_left, hruns]

theorem channelDestroy_holds (c : Submission) : (channelDestroy c).Holds := by
  refine eciClaim_holds rfl (fun _ => rfl) fun k s ⟨hidle, hfree⟩ => ?_
  dsimp only [specChannelDestroy]
  rw [checked_pass]
  · rfl
  · simp [firstFail, hidle, hfree]

theorem channelQuery_holds (c : Submission) : (channelQuery c).Holds := by
  refine eciClaim_holds rfl (fun _ => rfl) fun k s _ => ⟨_, rfl, ?_⟩
  refine ⟨by simp [picBytes], ?_, ?_, ?_, ?_, ?_, ?_, ?_, ?_, ?_⟩ <;>
    simp [picBytes, u8, u32, u64, fieldAt_le, fieldAt_le_append, fieldAt_le_append_skip]

theorem slotTableSet_holds (c : Submission) : (slotTableSet c).Holds := by
  refine eciClaim_holds rfl (fun _ => rfl) fun k s ⟨hgate, hdie, hslots, huse⟩ => ?_
  refine (State.gated_of_dieGate hgate).trans (checked_pass _ _ _ ?_)
  simp [firstFail, hdie, hslots, huse]

theorem slotTableGet_holds (c : Submission) : (slotTableGet c).Holds := by
  refine eciClaim_holds rfl (fun _ => rfl) fun k s ⟨hgate, hdie⟩ => ?_
  refine ⟨_, (State.gated_of_dieGate hgate).trans (if_neg hdie), ?_⟩
  simp only [List.append_assoc]
  refine ⟨by simp, ?_, ?_, ?_, ?_⟩
  · simp [u8, fieldAt_le_append]
  · simp (disch := simp) [slice_append_right, slice_append_left]
  · simp (disch := simp) [u8, fieldAt_append_right, fieldAt_le_append]
  · simp (disch := simp) [slice_append_right, slice_self]

theorem slateCreate_holds (c : Submission) : (slateCreate c).Holds := by
  dsimp only [slateCreate]
  refine eciClaim_holds rfl (fun _ => rfl) fun k s ⟨hform, hroom, ⟨h, t, hnew, hmap⟩, hdies⟩ => ?_
  obtain ⟨⟨as, u⟩, hmap⟩ := Option.isSome_iff_exists.mp hmap
  refine ⟨h, t, as, u, hnew, hmap, ?_⟩
  dsimp only [specSlateCreate]
  rw [checked_pass, hnew]
  · dsimp only
    rw [hmap]
    refine checked_pass _ _ _ ?_
    simpa [firstFail] using hdies
  · refine firstFail_append_eq_none (by simp [firstFail, hform]) (firstFail_eq_none_iff.mpr fun _ hc => ?_)
    obtain ⟨d, hd, rfl⟩ := List.mem_map.mp hc
    exact decide_eq_false (Nat.not_lt.mpr (hroom d hd))

theorem slateDestroy_holds (c : Submission) : (slateDestroy c).Holds := by
  refine eciClaim_holds rfl (fun _ => rfl) fun k s hfree => ?_
  dsimp only [specSlateDestroy]
  rw [checked_pass]
  · rfl
  · simpa [firstFail] using hfree

theorem dieLoad_holds (c : Submission) : (dieLoad c).Holds := by
  refine eciClaim_holds rfl (fun _ => rfl) fun k s ⟨hgate, hdie⟩ => ?_
  refine ⟨_, (State.gated_of_dieGate hgate).trans (if_neg hdie), ?_⟩
  refine ⟨by simp, ?_, ?_, ?_, ?_, ?_⟩ <;>
    simp [u32, fieldAt_le, fieldAt_le_append, fieldAt_le_append_skip]

end Sys2Proof.Claims

namespace Sys2Proof

open Machine Claims

/-- Settles O59: CHANNEL.CREATE and CHANNEL.ADMIT_CHECK have their checks and their place in common, and a place that cannot be
found is an error. -/
theorem admitCheckForetellsCreate : Obligations.AdmitCheckForetellsCreate := by
  intro k s
  refine ⟨rfl, ?_⟩
  rw [specChannelCreate_run, specChannelAdmitCheck_run]
  rcases s.placingNew_cases k with ⟨r, h⟩ | ⟨e, he, h⟩ | ⟨p, h⟩ <;> simp only [h]
  case inl => exact ⟨⟨r, rfl⟩, fun q t hq hok => by cases hq; exact ⟨_, rfl, hok, rfl⟩,
    fun q hq _ => by cases hq; exact ⟨_, rfl, rfl, rfl⟩⟩
  case inr.inl => exact ⟨⟨_, rfl⟩, fun q t hq hok => by cases hq; simp [he] at hok,
    fun r hr _ => by cases hr; exact ⟨_, rfl, rfl, rfl⟩⟩
  case inr.inr => exact ⟨⟨_, rfl⟩, fun q t hq hok => ⟨_, rfl, rfl, (State.createAt_response hq hok).symm⟩,
    fun r hr herr => by cases hr; cases herr⟩

/-- Settles O3: each claim from its command's `run`. -/
theorem channelCommandsComplete : Obligations.ChannelCommandsComplete :=
  fun c => ⟨channelCreate_holds c, channelAdmitCheck_holds c, channelSet_holds c, channelStart_holds c, channelStop_holds c,
    channelDestroy_holds c, channelQuery_holds c, slotTableSet_holds c, slotTableGet_holds c, slateCreate_holds c,
    slateDestroy_holds c, dieLoad_holds c⟩

end Sys2Proof
end

section
/-!
O25. Picture boundaries, source rows, composition and analysis: what a boundary finds where nothing waits, what a row of an SDI
input does, one lemma for each claim, and the obligation.
-/

namespace Sys2Proof.Machine

open Sys2Proof (RowSamples)

variable {s : State}

/-! ### Boundaries (R73, R83) -/

/-- Where nothing runs, nothing is completed. -/
theorem State.completeRunning_of_running_nil (h : s.eci.running = []) (p : Running → Bool) (f : Running → Reply) :
    s.completeRunning p f = s := by
  rw [completeRunning, h]; rfl

/-- A die with no fenced banks has none to replace. -/
theorem State.swapSpares_of_banksFenced_nil {d : Nat} (h : (s.boot.health.look {} d).banksFenced = []) :
    s.swapSpares d = s := by
  simp [swapSpares, h]

/-- With no command that waits, the end of a picture on pipe 3 leaves the pipe free. -/
theorem State.endPipe3_of_running_nil {d : Nat} (h : s.eci.running = []) :
    s.endPipe3 d = s.modChan fun x => { x with pipe3 := x.pipe3.upd d fun p => { p with coding := none } } := by
  simp only [endPipe3, modChan_eci, h, List.filterMap_nil, List.mergeSort_nil, List.getLast?_nil]
  exact completeRunning_of_running_nil (s := s.modChan _) h _ _

theorem State.eligible_endPipe3 {d : Nat} (h : s.eci.running = []) :
    ((s.endPipe3 d).chan.pipe3.look {} d).eligible = (s.chan.pipe3.look {} d).eligible := by
  simp only [endPipe3_of_running_nil h, modChan_chan, Tab.look, Tab.find_upd, if_true]
  cases s.chan.pipe3.find d <;> rfl

/-- An encode channel that is not on pipe 3, or that the hub fills, has picture boundaries of its own while the plane runs. -/
theorem boundary_passes {c : Nat} (henc : s.isEncoder c = true) (hrun : s.planeRuns = true)
    (hpipe : (s.ch c).pipe ≠ 3 ∨ (s.ch c).cond = .hubFill) :
    ¬ (!s.isEncoder c || !s.planeRuns || ((s.ch c).pipe == 3 && (s.ch c).cond != .hubFill)) = true := by
  simpa [henc, hrun, imp_iff_not_or] using hpipe

/-- A boundary of pipe 3 that the device may take, where the picture being coded is judged: the first eligible picture that is
ready, if any, has its turn (R83). -/
theorem execPipe3PictureBoundary_of_judged {d : DieNo} (hrun : s.planeRuns = true) (hfence : bit s.boot.diesFenced d.val = false)
    (hdie : d.val < s.dies) (hjudged : ∀ h n, (s.chan.pipe3.look {} d.val).coding = some (h, n) → (s.ch h).picJudged n = true) :
    let u := s.endPipe3 d.val
    execPipe3PictureBoundary d s = .next ((((((u.chan.pipe3.look {} d.val).eligible.find? (u.turnReady d.val)).elim u
      (u.takeTurn d.val)).swapSpares d.val)).policiesSettled) := by
  unfold execPipe3PictureBoundary
  dsimp only
  rw [if_neg]
  · cases ((s.endPipe3 d.val).chan.pipe3.look {} d.val).eligible.find? ((s.endPipe3 d.val).turnReady d.val) <;> rfl
  · split
    · next h n hc => simp [hrun, hfence, hdie, hjudged h n hc]
    · simp [hrun, hfence, hdie]

/-! ### Input loss (R97, R98) -/

/-- Where row 0 of the next wanted picture is late, a live input is lost, with that of the renditions that follow it; on pipe 3
the slot waits for its turn. -/
theorem execSourcePictureMissing_of_late {c : BitVec 32} (henc : s.isEncoder c.toNat = true) (hrun : s.planeRuns = true)
    (hstate : (s.ch c.toNat).state = .starting ∨ (s.ch c.toNat).state = .running) (href : (s.ch c.toNat).reference = false)
    (hanch : (s.ch c.toNat).anchored = true) (hfill : (s.ch c.toNat).cond ≠ .hubFill) (hfail : (s.ch c.toNat).failover = none)
    (hlast : (s.ch c.toNat).lastPic = none) (hsrc : handleType (s.ch c.toNat).cfg.source ≠ tChannel)
    (hlate : (s.ch c.toNat).captureNs (s.ch c.toNat).wantedSlot 1 ≤ s.now) :
    let g := s.ch c.toNat
    let u := if g.inCond = .live then (s.followers c.toNat).foldl
        (fun s r => if (s.ch r).inCond == .live then s.loseInput r (s.ch r).wantedSlot else s)
        (s.loseInput c.toNat g.wantedSlot)
      else s
    execSourcePictureMissing c s = .next (if g.pipe = 3 ∧ g.nextPic ≤ g.slotOf g.wantedSlot then
        (u.modCh c.toNat fun g => { g with blank := g.blank ++ [(s.ch c.toNat).wantedSlot] }).enterEligible g.die
          { chan := c.toNat, pic := g.wantedSlot, time := u.now, missing := true }
      else u) := by
  have hled : s.led c.toNat = false := by simp [State.led, hsrc]
  unfold execSourcePictureMissing
  dsimp only
  rw [if_neg]
  · simp only [Bool.and_eq_true, beq_iff_eq, decide_eq_true_eq, apply_ite Host.Outcome.next]
  · simpa [henc, hrun, href, hanch, hled, hfill, hfail, hlast, hlate, ← or_iff_not_imp_left] using hstate

/-! ### Rows of an SDI input (R180, R325, R399) -/

/-- What an SDI input gives as row `k` of a channel's picture: of the format found, or 4:2:2 of 10 bits without one. -/
def State.laneRow (s : State) (h k : Nat) (samples : RowSamples) : SourceRow :=
  let g := s.ch h
  let f := (s.lane.lanes.look {} (handleIndex g.cfg.source)).format
  let sampling := (f.map (·.sampling)).getD 1
  let depth := (f.map (·.depth)).getD 10
  { data := Machine.RowSamples.frame samples g.cfg sampling depth k, sampling, depth,
    same := sampling == g.cfg.chroma && depth == g.cfg.bitDepth }

/-- A channel that takes rows is an encode channel, and the data plane runs. -/
theorem State.takesRows_iff {h : Nat} : s.takesRows h = true ↔ s.isEncoder h = true ∧ s.planeRuns = true ∧
    ((s.ch h).state = .starting ∨ (s.ch h).state = .running ∨
      (s.ch h).state = .idle ∧ ((s.ch h).reference = true ∨ (s.ch h).pipe = 3)) := by
  simp [takesRows, and_assoc, or_assoc]

section Lane

variable {h k m : Nat} {samples : RowSamples}

theorem State.sourceFormat_of_lane (hsrc : handleType (s.ch h).cfg.source = tLane) :
    s.sourceFormat h =
      (((s.lane.lanes.look {} (handleIndex (s.ch h).cfg.source)).format.map (·.sampling)).getD 1,
        ((s.lane.lanes.look {} (handleIndex (s.ch h).cfg.source)).format.map (·.depth)).getD 10) := by
  unfold sourceFormat
  dsimp only
  rw [if_neg (by simp [hsrc, tLane, tIngress]), if_pos hsrc]
  cases (s.lane.lanes.look {} (handleIndex (s.ch h).cfg.source)).format <;> rfl

theorem State.sourceRow_of_lane (hsrc : handleType (s.ch h).cfg.source = tLane) :
    s.sourceRow h k m samples = some (s.laneRow h k samples, m) := by
  unfold sourceRow
  dsimp only
  rw [if_neg (by simp [hsrc, tLane, tChannel]), sourceFormat_of_lane hsrc]
  simp [hsrc, tLane, tIngress, laneRow]

theorem State.keepFed_of_lane {f : Frame} (hsrc : handleType (s.ch h).cfg.source = tLane) : s.keepFed h k f = s :=
  if_neg (by simp [hsrc, tLane, tIngress])

/-- A row of a channel without renditions, off pipe 3, arrives, and what waited for it goes on. -/
theorem State.sourceRowIn_of_no_renditions {d : SourceRow} (hpipe : (s.ch h).pipe ≠ 3) (hren : s.renditions h = []) :
    s.sourceRowIn h k m d = (s.rowArrives h k m d).goOn h := by
  simp [sourceRowIn, runningRenditions, takeRow, hren, hpipe]

/-- A row that is not row 0 is taken where it is the one expected next (R325). -/
theorem State.rowArrives_out_of_order {d : SourceRow} (ht : s.takesRows h = true) (hk : k ≠ 0) (hlt : k < (s.ch h).cfg.rows)
    (hne : (s.ch h).curRows ≠ k) : s.rowArrives h k m d = s := by
  simp [rowArrives, ht, hk, Nat.not_le.mpr hlt, hne.symm]

/-- A row that is not row 0 or the last, in its turn: it is counted with its lateness, and stored with the picture that takes
it (R180, R325). -/
theorem State.rowArrives_in_order {d : SourceRow} {o : Nat} (ht : s.takesRows h = true) (hk : k ≠ 0)
    (hlt : k + 1 < (s.ch h).cfg.rows) (hk' : (s.ch h).curRows = k) (ho : (s.ch h).cur = some o) :
    s.rowArrives h k m d = (s.modCh h fun g => { g with
      curRows := k + 1, curLate := g.curLate || decide (g.rowDeadlineNs g.curCapture k < s.now) }).storeRow h o k d := by
  have hlt' : ¬ (s.ch h).cfg.rows ≤ k := by omega
  have hlast : k + 1 ≠ (s.ch h).cfg.rows := by omega
  simp [rowArrives, ht, hk, hlt', hlast, hk', ho]

/-- A row of an SDI input, for a channel without renditions off pipe 3, arrives as the input gives it. -/
theorem execRowArrivalPost_of_lane {c : BitVec 32} {row : BitVec 8} {capture : BitVec 64} (ht : s.takesRows c.toNat = true)
    (hlt : row.toNat < (s.ch c.toNat).cfg.rows) (hsrc : handleType (s.ch c.toNat).cfg.source = tLane)
    (hpost : s.lanePosts (s.ch c.toNat).cfg.source (s.ch c.toNat).cfg = true) (hpipe : (s.ch c.toNat).pipe ≠ 3)
    (hren : s.renditions c.toNat = []) :
    execRowArrivalPost c row capture samples s =
      .next ((s.rowArrives c.toNat row.toNat capture.toNat (s.laneRow c.toNat row.toNat samples)).goOn c.toNat) := by
  obtain ⟨henc, hrun, -⟩ := State.takesRows_iff.mp ht
  have hsrc0 : (s.ch c.toNat).cfg.source ≠ 0 := fun h0 => by rw [h0] at hsrc; exact absurd hsrc (by decide)
  unfold execRowArrivalPost
  dsimp only
  rw [if_neg (by simp [henc, hrun, hsrc0, hpost, hlt]), State.sourceRow_of_lane hsrc]
  dsimp only
  rw [State.keepFed_of_lane hsrc, State.sourceRowIn_of_no_renditions hpipe hren]

end Lane

end Sys2Proof.Machine

namespace Sys2Proof.Claims

open Machine Sys2Proof

theorem pictureBoundaryIdle_holds (c : BitVec 32) : (pictureBoundaryIdle c).Holds := by
  intro s ⟨henc, hrun, hpipe, hidle⟩
  exact ⟨_, (if_neg (boundary_passes henc hrun hpipe)).trans (if_pos hidle), rfl⟩

theorem pictureBoundary_holds (c : BitVec 32) : (pictureBoundary c).Holds := by
  intro s ⟨henc, hrun, hpipe, hidle, hdue⟩
  refine ⟨_, (if_neg (boundary_passes henc hrun hpipe)).trans ((if_neg hidle).trans (if_neg (by simp [hdue]))), ?_⟩
  simp only [pictureBoundary, Bool.or_eq_true, beq_iff_eq]

theorem pictureBoundaryEarly_holds (c : BitVec 32) : (pictureBoundaryEarly c).Holds := by
  intro s ⟨hidle, hstop, hdue⟩
  have hquiet : ((s.ch c.toNat).reference && s.stopWaits c.toNat) = false := by rcases hstop with h | h <;> simp [h]
  refine ⟨s, ?_, rfl⟩
  change execPictureBoundary c s = _
  simp [execPictureBoundary, hidle, hdue, hquiet]

theorem pictureBoundaryStop_holds (c : BitVec 32) : (pictureBoundaryStop c).Holds := by
  intro s ⟨henc, hrun, hpipe, hidle, href, hstop, hdue⟩
  refine ⟨_, (if_neg (boundary_passes henc hrun hpipe)).trans ((if_neg hidle).trans (if_pos (by simp [hdue]))), ?_⟩
  exact if_pos (by simp [href, hstop])

theorem pipe3BoundaryEmpty_holds (d : DieNo) : (pipe3BoundaryEmpty d).Holds := by
  intro s ⟨hrun, hfence, hdie, hnone, hbanks, hcoding, hempty⟩
  refine ⟨_, execPipe3PictureBoundary_of_judged hrun hfence hdie (fun h n hc => by simp [hcoding] at hc), ?_⟩
  rw [State.eligible_endPipe3 hnone, hempty, List.find?_nil, Option.elim_none]
  dsimp only [pipe3BoundaryEmpty]
  rw [State.endPipe3_of_running_nil hnone, State.swapSpares_of_banksFenced_nil (s := s.modChan _) hbanks]

theorem pipe3BoundaryBusy_holds (d : DieNo) : (pipe3BoundaryBusy d).Holds := by
  intro s ⟨h, n, hcoding, hjudged⟩
  exact ⟨s, if_pos (by simp [hcoding, hjudged]), rfl⟩

theorem pipe3PictureBoundary_holds (d : DieNo) : (pipe3PictureBoundary d).Holds := by
  intro s ⟨hrun, hfence, hdie, hjudged, hturn⟩
  obtain ⟨e, he⟩ := Option.isSome_iff_exists.mp hturn
  refine ⟨_, execPipe3PictureBoundary_of_judged hrun hfence hdie hjudged, e, he, ?_⟩
  rw [he]
  rfl

theorem sourcePictureMissing_holds (c : BitVec 32) : (sourcePictureMissing c).Holds := by
  intro s ⟨henc, hrun, hstate, href, hanch, hcond, hfail, hlast, hpipe, hsrc, hlate⟩
  have hin : (s.ch c.toNat).inCond = .live := by simp [Channel.inCond, hcond]
  refine ⟨_, execSourcePictureMissing_of_late henc hrun hstate href hanch (by simp [hcond]) hfail hlast hsrc hlate, ?_⟩
  rw [if_neg (by simp [hpipe]), if_pos hin]
  rfl

theorem sourcePictureMissingPool_holds (c : BitVec 32) : (sourcePictureMissingPool c).Holds := by
  intro s ⟨henc, hrun, hstate, href, hanch, hcond, hfail, hlast, hpipe, hsrc, hlate, hnext⟩
  have hfill : (s.ch c.toNat).cond ≠ .hubFill := by rcases hcond with h | h <;> simp [h]
  have hin : (s.ch c.toNat).inCond ≠ .live := by rcases hcond with h | h <;> simp [Channel.inCond, h]
  refine ⟨_, execSourcePictureMissing_of_late henc hrun hstate href hanch hfill hfail hlast hsrc hlate, ?_⟩
  rw [if_pos ⟨hpipe, hnext⟩, if_neg hin]
  rfl

theorem rowArrivalPost_holds (c : BitVec 32) (row : BitVec 8) (capture : BitVec 64) (samples : RowSamples) :
    (rowArrivalPost c row capture samples).Holds := by
  intro s ⟨henc, hrun, hsrc, hpost, hrow⟩
  change Answers (execRowArrivalPost c row capture samples s) _
  unfold execRowArrivalPost
  dsimp only [rowArrivalPost]
  rw [if_neg (by simp [henc, hrun, hsrc, hpost, hrow])]
  cases s.sourceRow c.toNat row.toNat capture.toNat samples with
  | none => exact ⟨_, rfl, rfl⟩
  | some dm => exact ⟨_, rfl, rfl⟩

theorem rowArrivalInOrder_holds (c : BitVec 32) (row : BitVec 8) (capture : BitVec 64) (samples : RowSamples) :
    (rowArrivalInOrder c row capture samples).Holds := by
  intro s ⟨ht, hk, hlt, hsrc, hpost, hpipe, hcur, hren, hturn⟩
  obtain ⟨o, ho⟩ := Option.isSome_iff_exists.mp hcur
  refine ⟨_, execRowArrivalPost_of_lane ht (by omega) hsrc hpost hpipe hren, o, ho, ?_⟩
  rw [State.rowArrives_in_order ht hk hlt hturn ho]
  rfl

theorem rowArrivalOutOfOrder_holds (c : BitVec 32) (row : BitVec 8) (capture : BitVec 64) (samples : RowSamples) :
    (rowArrivalOutOfOrder c row capture samples).Holds := by
  intro s ⟨ht, hk, hlt, hsrc, hpost, hpipe, hren, hturn⟩
  refine ⟨_, execRowArrivalPost_of_lane ht hlt hsrc hpost hpipe hren, ?_⟩
  rw [State.rowArrives_out_of_order ht hk hlt hturn]
  rfl

/-- With the rows of the picture posted, the reply depends on whether a slot took it. -/
theorem pictureCopyDone_holds (c : BitVec 32) (luma chroma captions : List Byte) :
    (pictureCopyDone c luma chroma captions).Holds := by
  intro s hcopy
  obtain ⟨r, hr⟩ := Option.isSome_iff_exists.mp hcopy
  change Answers (execPictureCopyDone c luma chroma captions s) _
  unfold execPictureCopyDone
  dsimp only
  rw [hr]
  refine ⟨_, rfl, r, hr, ?_⟩
  dsimp only
  generalize List.foldl _ s _ = u
  cases (u.ch c.toNat).cur with
  | none => rfl
  | some o => rfl

theorem generatedRowAvailable_holds (c : BitVec 32) (row : BitVec 8) : (generatedRowAvailable c row).Holds := by
  intro s ⟨henc, hrun, hgen, hsrc, hrow, href, hanch⟩
  change Answers (execGeneratedRowAvailable c row s) _
  unfold execGeneratedRowAvailable
  dsimp only [generatedRowAvailable]
  rw [← apply_ite Host.Outcome.next]
  exact ⟨_, rfl, by simp [henc, hrun, hgen, hsrc, Nat.not_le.mpr hrow, href, hanch]⟩

theorem generatedRowFree_holds (c : BitVec 32) (row : BitVec 8) : (generatedRowFree c row).Holds := by
  intro s ⟨henc, hrun, hgen, hsrc, hrow, hfree⟩
  have hfree : ((s.ch c.toNat).anchored && !(s.ch c.toNat).reference) = false := by
    rcases hfree with h | h <;> simp [h]
  refine ⟨_, if_neg (by simp [henc, hrun, hgen, hsrc, hrow, hfree]), ?_⟩
  rw [hfree]
  rfl

theorem compositionRowDone_holds (c : BitVec 32) (pic : BitVec 64) (row : BitVec 8) :
    (compositionRowDone c pic row).Holds := by
  intro s ⟨hrun, hpic, hcomposes, hrows, hrow, hnew, hraw, habove⟩
  refine ⟨_, if_neg ?_, rfl⟩
  simpa [hrun, hpic, hcomposes, hrows, hrow, hnew, ← or_iff_not_imp_left, hraw] using habove

theorem commitAppliedReport_holds (c : BitVec 32) : (commitAppliedReport c).Holds := by
  intro s ⟨hidle, hreport⟩
  obtain ⟨r, hr⟩ := Option.isSome_iff_exists.mp hreport
  refine ⟨_, ?_, r, hr, rfl⟩
  change execCommitAppliedReport c s = _
  unfold execCommitAppliedReport
  dsimp only
  rw [hr]
  exact if_neg (by simp [hidle])

theorem analysisRowDone_holds (c : BitVec 32) (pic : BitVec 64) (row : BitVec 8) (odd : Bool) :
    (analysisRowDone c pic row odd).Holds := by
  intro s hmay
  refine ⟨_, if_neg (by simp [show s.mayMeasure _ _ _ _ = true from hmay]), ?_⟩
  simp only [analysisRowDone, Bool.and_eq_true, decide_eq_true_eq]

theorem analysisRowEarly_holds (c : BitVec 32) (pic : BitVec 64) (row : BitVec 8) (odd : Bool) :
    (analysisRowEarly c pic row odd).Holds := by
  intro s hmay
  exact ⟨s, if_pos (by simp [show s.mayMeasure _ _ _ _ = false from hmay]), rfl⟩

end Sys2Proof.Claims

namespace Sys2Proof

open Claims

/-- Settles O25: each claim is the branch of its meaning that its condition selects. -/
theorem pictureEventsTakeEffect : Obligations.PictureEventsTakeEffect :=
  ⟨pictureBoundaryIdle_holds, pictureBoundary_holds, pictureBoundaryEarly_holds, pictureBoundaryStop_holds,
    pipe3BoundaryEmpty_holds, pipe3BoundaryBusy_holds, pipe3PictureBoundary_holds, sourcePictureMissing_holds,
    sourcePictureMissingPool_holds, rowArrivalPost_holds, rowArrivalInOrder_holds, rowArrivalOutOfOrder_holds,
    pictureCopyDone_holds, generatedRowAvailable_holds, generatedRowFree_holds, compositionRowDone_holds,
    commitAppliedReport_holds, analysisRowDone_holds, analysisRowEarly_holds⟩

end Sys2Proof
end

section
/-!
O4. The coding commands: the check of commands of encode channels, the fields of a run of equal records, what each command
answers from its description's `run`, and the obligation.
-/

namespace Sys2Proof.Machine

open Sys2Proof (Byte)

/-- An encode channel passes the check of a command of encode channels. -/
theorem State.checked_notEncoder {s : State} {h : Nat} (henc : s.isDecoder h = false) (cs : List (Bool × Reply))
    (f : Unit → Answer) : checked s (s.notEncoder h :: cs) f = checked s cs f := by
  simp [checked, firstFail, notEncoder, henc]

/-- An IDLE encode channel passes the check of a command of IDLE encode channels. -/
theorem State.checked_notIdle {s : State} {h : Nat} (henc : s.isDecoder h = false) (hidle : (s.ch h).state = .idle)
    (cs : List (Bool × Reply)) (f : Unit → Answer) : checked s (s.notIdle h :: cs) f = checked s cs f := by
  simp [checked, firstFail, notIdle, henc, hidle]

/-- A command whose one check is that it names an encode channel does on one what follows the check. -/
theorem State.checked_encoder {s : State} {h : Nat} (henc : s.isDecoder h = false) (a : Answer) :
    checked s [s.notEncoder h] (fun _ => a) = a :=
  checked_notEncoder henc [] _

/-- The field of the `i`-th of a run of records, each one field of `n` bytes. -/
theorem fieldAt_flatMap_le {α : Type} (n : Nat) (f : α → Nat) {l : List α} {i : Nat} (h : i < l.length) :
    fieldAt (l.flatMap fun x => le n (f x)) (n * i) n = f l[i] % 256 ^ n := by
  induction l generalizing i with
  | nil => cases h
  | cons x l ih =>
    rw [List.flatMap_cons]
    cases i with
    | zero => exact fieldAt_le_append n (f x) _
    | succ i =>
      rw [fieldAt_le_append_skip (Nat.le_mul_of_pos_right n i.succ_pos), Nat.mul_succ, Nat.add_sub_cancel]
      exact ih (Nat.lt_of_succ_lt_succ h)

/-- A value in two's complement fits its width (R7). -/
theorem twos_lt (w : Nat) (i : Int) : twos w i < 2 ^ w := by
  have hw : (0 : Int) < (2 ^ w : Nat) := by positivity
  exact (Int.toNat_lt (Int.emod_nonneg i hw.ne')).mpr (Int.emod_lt_of_pos i hw)

/-- The structure payload takes 16 bytes (R171). -/
@[simp] theorem ChSettings.length_structBytes (t : ChSettings) : t.structBytes.length = 16 := by simp [structBytes]

end Sys2Proof.Machine

namespace Sys2Proof.Claims

open Machine Sys2Proof

theorem codingTools_holds (c : Submission) : (codingTools c).Holds := by
  refine eciClaim_holds rfl (fun _ => rfl) fun k s ⟨henc, hidle, _, hlevel⟩ => ?_
  dsimp only [specCodingTools]
  rw [State.checked_notIdle henc hidle, hlevel]
  rfl

theorem codingToolsGet_holds (c : Submission) : (codingToolsGet c).Holds := by
  refine eciClaim_holds rfl (fun _ => rfl) fun k s henc => ⟨_, State.checked_encoder henc _, ?_⟩
  refine ⟨?_, ?_, ?_, ?_⟩ <;>
    simp [u8, u64, fieldAt_le, fieldAt_le_append, fieldAt_le_append_skip]

theorem analysisSet_holds (c : Submission) : (analysisSet c).Holds :=
  eciClaim_holds rfl (fun _ => rfl) fun _ _ henc => State.checked_encoder henc _

theorem analysisQuery_holds (c : Submission) : (analysisQuery c).Holds := by
  refine eciClaim_holds rfl (fun _ => rfl) fun k s henc => ⟨_, State.checked_encoder henc _, ?_⟩
  refine ⟨?_, ?_, ?_, ?_, ?_, ?_, ?_, fun i hi => ?_⟩
  case refine_8 =>
    simp (disch := omega) only [List.append_assoc, u16, fieldAt_le_append_skip]
    rw [show 16 + 2 * i - 8 - 2 - 2 - 1 - 1 - 1 - 1 = 2 * i by omega, fieldAt_flatMap_le 2 _ (by simpa using hi),
      List.getElem_range]
    exact Nat.mod_eq_of_lt (twos_lt 16 _)
  all_goals simp [u8, u16, u64, fieldAt_le_append, fieldAt_le_append_skip]

theorem recipeInfo_holds (c : Submission) : (recipeInfo c).Holds := by
  refine eciClaim_holds rfl (fun _ => rfl) fun k s _ => ⟨_, rfl, ?_, ?_, List.drop_left' (by simp)⟩ <;>
    simp [u32, fieldAt_le_append]

theorem codingStructure_holds (c : Submission) : (codingStructure c).Holds := by
  refine eciClaim_holds rfl (fun _ => rfl) fun k s ⟨henc, hidle, hon, hperiod, hlevel⟩ => ?_
  dsimp only [specCodingStructure]
  rw [State.checked_notIdle henc hidle, checked_pass]
  · rfl
  · simp only [firstFail_eq_none_iff, List.forall_mem_cons, hlevel]
    refine ⟨Bool.and_eq_false_imp.mpr fun h => ?_, Bool.and_eq_false_imp.mpr fun h => ?_, ?_, rfl, nofun⟩
    · obtain ⟨hgop, hlook, _⟩ := hon (eq_of_beq h)
      simpa only [hgop, Bool.not_true, Bool.false_or, decide_eq_false_iff_not, Nat.not_lt] using hlook
    · obtain ⟨_, _, hrefresh⟩ := hon (eq_of_beq h)
      exact beq_eq_false_iff_ne.mpr hrefresh
    · simpa [← or_iff_not_imp_left] using hperiod

theorem codingSei_holds (c : Submission) : (codingSei c).Holds := by
  refine eciClaim_holds rfl (fun _ => rfl) fun k s ⟨henc, hsrc⟩ => ?_
  dsimp only [specCodingSei]
  rw [State.checked_notEncoder henc, checked_pass]
  · rfl
  rcases hsrc with hnone | ⟨htype, hobj, hmade, huse⟩
  · simp [firstFail, hnone]
  · simp [firstFail, htype, hobj, hmade, huse]

theorem codingStructureGet_holds (c : Submission) : (codingStructureGet c).Holds := by
  refine eciClaim_holds rfl (fun _ => rfl) fun k s henc => ⟨_, State.checked_encoder henc _, ?_⟩
  refine ⟨?_, ?_, ?_, ?_, ?_, ?_, ?_, ?_, ?_, List.drop_left' (by simp)⟩ <;>
    simp [ChSettings.structBytes, u8, u16, fieldAt_le_append, fieldAt_le_append_skip]

theorem rcSet_holds (c : Submission) : (rcSet c).Holds := by
  dsimp only [rcSet]
  refine eciClaim_holds rfl (fun _ => rfl) fun k s ⟨henc, hmin, htop, hrate, hpipes⟩ => ?_
  dsimp only [specRcSet]
  rw [List.cons_append, List.cons_append, State.checked_notEncoder henc, checked_pass]
  · rfl
  · refine firstFail_append_eq_none (firstFail_append_eq_none ?_ hrate) ?_
    · simp [firstFail, hmin, htop]
    · refine firstFail_eq_none_iff.mpr fun _ hc => ?_
      obtain ⟨q, hq, rfl⟩ := List.mem_map.mp hc
      obtain ⟨g, hg, hqg⟩ := List.mem_flatMap.mp hq
      obtain ⟨hg, hchan⟩ := List.mem_filter.mp hg
      exact decide_eq_false (Nat.not_lt.mpr (hpipes g hg (eq_of_beq hchan) q hqg))

theorem rcGet_holds (c : Submission) : (rcGet c).Holds := by
  refine eciClaim_holds rfl (fun _ => rfl) fun k s henc => ⟨_, State.checked_encoder henc _, ?_⟩
  refine ⟨?_, ?_, ?_, ?_, ?_, ?_, ?_, ?_, ?_, ?_, ?_, ?_⟩ <;>
    simp [u8, u16, u32, fieldAt_le_append, fieldAt_le_append_skip]

theorem rcQuery_holds (c : Submission) : (rcQuery c).Holds := by
  refine eciClaim_holds rfl (fun _ => rfl) fun k s henc => ⟨_, State.checked_encoder henc _, ?_⟩
  refine ⟨?_, ?_, ?_, ?_, ?_, ?_, ?_, ?_, ?_, ?_, ?_, ?_⟩ <;>
    simp [u8, u32, u64, fieldAt_le, fieldAt_le_append, fieldAt_le_append_skip]

theorem delayQuery_holds (c : Submission) : (delayQuery c).Holds := by
  refine eciClaim_holds rfl (fun _ => rfl) fun k s henc => ⟨_, State.checked_encoder henc _, ?_⟩
  refine ⟨?_, ?_, ?_, ?_, ?_, ?_, ?_, ?_, ?_⟩ <;>
    simp [u8, u32, u64, fieldAt_le, fieldAt_le_append, fieldAt_le_append_skip]

end Sys2Proof.Claims

namespace Sys2Proof

open Claims

/-- Settles O4: each claim from its command's `run`. -/
theorem codingCommandsComplete : Obligations.CodingCommandsComplete :=
  fun c => ⟨codingTools_holds c, codingToolsGet_holds c, analysisSet_holds c, analysisQuery_holds c, recipeInfo_holds c,
    codingStructure_holds c, codingSei_holds c, codingStructureGet_holds c, rcSet_holds c, rcGet_holds c, rcQuery_holds c,
    delayQuery_holds c⟩

end Sys2Proof
end

section
/-!
O26. Judgements, orders, the mitre seam and what the hub keeps of a die: what an order does by the decision that it carries out,
what makes an item of the partner link stale, one lemma for each claim, and the obligation.
-/

namespace Sys2Proof.Machine

variable {s : State}

/-! ### Judgement (R146, R191) -/

/-- The settings of a picture leave the channel's pictures as they are. -/
@[simp] theorem Channel.at_pics (c : Channel) (n : Nat) : (c.at_ n).pics = c.pics := by
  unfold Channel.at_
  split <;> rfl

@[simp] theorem Channel.at_pic (c : Channel) (n m : Nat) : (c.at_ n).pic m = c.pic m := by simp [Channel.pic]

/-- In stage 3 every row is filled, and the stage stays (R194). -/
theorem State.decide_of_stage3 {h n : Nat} (hstage : ((s.ch h).pic n).stage = 3) (k size : Nat) :
    s.decide_ h n k size =
      { pic := n, row := k, order := .fill, nextQp := ((s.ch h).pic n).rowQp, nextStage := 3, lowRun := 0 } := by
  simp [State.decide_, hstage]

/-! ### Orders (R143, R146, R201) -/

section Order

variable {h n k : Nat}

/-- An order that names no judged row is a bad one. -/
theorem State.carryOut_of_none (hnone : (s.ch h).orderFor n k = none) (f : Judgement → Option State) :
    s.carryOut h n k f = s.badOrder h := by
  rw [State.carryOut, hnone]

/-- The deadline wins against an order for the judged row. -/
theorem State.carryOut_of_deadlineWins (hsome : ((s.ch h).orderFor n k).isSome = true) (hwins : s.deadlineWins h n k = true)
    (f : Judgement → Option State) : s.carryOut h n k f = s := by
  obtain ⟨j, hj⟩ := Option.isSome_iff_exists.mp hsome
  rw [State.carryOut, hj]
  exact if_pos hwins

/-- Before the deadline an order that matches the judgement is carried out, and what waited goes on. -/
theorem State.carryOut_of_some {j : Judgement} {f : Judgement → Option State} {t : State}
    (hwins : s.deadlineWins h n k = false) (hj : (s.ch h).orderFor n k = some j) (hf : f j = some t) :
    s.carryOut h n k f = t.proceed h := by
  rw [State.carryOut, hj]
  simp [hwins, hf]

end Order

/-! ### The mitre pair (R153 to R155) -/

/-- What a half sends is found first among what it has sent. -/
theorem Crossing.half_of_find {l : List Crossing} {x : Crossing} {m : Nat} (hx : (l.find? fun x => x.half == m) = some x) :
    x.half = m :=
  eq_of_beq (List.find?_some hx :)

/-- An order is stale under an old token of its sender, and if its row's coding has a newer generation. -/
theorem State.staleItem_order {h n k kind : Nat} {x : Crossing} (hx : x.item = .order n k kind) :
    s.staleItem h x = true ↔
      (s.boot.health.look {} ((s.ch h).dieOf x.half)).token ≠ x.token ∨ x.gen < ((s.ch h).row n k).generation := by
  simp [State.staleItem, hx]

/-- A band, and columns, of the row's present generation and under the present token are not stale. -/
theorem State.staleItem_seam {h n k : Nat} {x : Crossing} (hx : x.item = .band n k ∨ x.item = .columns n k)
    (htok : x.token = (s.boot.health.look {} ((s.ch h).dieOf x.half)).token) (hgen : ((s.ch h).row n k).generation ≤ x.gen) :
    s.staleItem h x = false := by
  rcases hx with hx | hx <;> simp [State.staleItem, hx, htok, hgen]

/-- The odd die takes the even die's oldest item if it is an order, and squashes as it says unless it is stale. -/
theorem execPartnerOrder_of_order {c : BitVec 32} {x : Crossing} {n k kind : Nat}
    (hx : ((s.ch c.toNat).crossing.find? fun x => x.half == 0) = some x) (hitem : x.item = .order n k kind) :
    let u := s.takeItem c.toNat x
    let key := (s.ch c.toNat).rowKey n k
    let odd := (s.ch c.toNat).die + 1
    execPartnerOrder c s = .next ((if s.staleItem c.toNat x = true ∨ kind = 0 then u
      else if kind = 1 then u.squashRow c.toNat odd key
      else if kind = 2 then u.squashFlow c.toNat odd (key + 1) else u.squashFlow c.toNat odd key).proceed c.toNat) := by
  unfold execPartnerOrder
  dsimp only
  rw [hx]
  dsimp only
  rw [hitem]
  simp only [Bool.or_eq_true, beq_iff_eq]

/-- The oldest item that a half has sent, if it is no order, leaves the link and is kept unless it is stale. -/
theorem execSeamDataArrival_of_data {c : BitVec 32} {odd : Bool} {x : Crossing}
    (hx : ((s.ch c.toNat).crossing.find? fun x => x.half == b2n odd) = some x) (hitem : ∀ n k o, x.item ≠ .order n k o) :
    execSeamDataArrival c odd s = .next (if s.staleItem c.toNat x = true then s.takeItem c.toNat x
      else ((s.takeItem c.toNat x).keepItem c.toNat x).proceed c.toNat) := by
  unfold execSeamDataArrival
  dsimp only
  rw [hx]
  refine if_neg ?_
  split
  · next n k o ho => exact absurd ho (hitem n k o)
  · exact Bool.false_ne_true

end Sys2Proof.Machine

namespace Sys2Proof.Claims

open Machine Sys2Proof

/-! ### Judgement -/

theorem rowJudgement_holds (c : BitVec 32) : (rowJudgement c).Holds := by
  intro s ⟨henc, hrun, hnone, hheld, key, hkey, hrated, hstage, hplace, hspec, hcoded⟩
  change Answers (execRowJudgement c s) _
  unfold execRowJudgement
  dsimp only
  rw [hkey]
  dsimp only
  rw [if_neg (by simp [henc, hrun, hnone, hheld, hrated, hplace, hspec, hcoded]), if_neg hstage]
  exact ⟨_, rfl, key, hkey, rfl⟩

theorem rowJudgementS3_holds (c : BitVec 32) : (rowJudgementS3 c).Holds := by
  intro s ⟨henc, hrun, hnone, hheld, key, hkey, hrated, hstage⟩
  dsimp only [rowJudgementS3]
  rw [hkey, Option.getD_some, State.decide_of_stage3 hstage]
  refine ⟨_, ?_, rfl, rfl, rfl⟩
  change execRowJudgement c s = _
  unfold execRowJudgement
  dsimp only
  rw [hkey]
  dsimp only
  rw [if_neg (by simp [henc, hrun, hnone, hheld, hrated, hstage]), if_pos hstage, State.decide_of_stage3 hstage]

theorem rowJudgementNotYet_holds (c : BitVec 32) : (rowJudgementNotYet c).Holds := by
  intro s hgiven
  refine ⟨s, ?_, rfl⟩
  change execRowJudgement c s = _
  unfold execRowJudgement
  dsimp only
  cases hkey : (s.ch c.toNat).oldest with
  | none => rfl
  | some key =>
    refine if_pos ?_
    rcases hgiven with hfree | hnone | ⟨k, hk, hstage, hcoded⟩
    · simp [hfree]
    · simp [hkey] at hnone
    · obtain rfl : key = k := Option.some.inj (hkey.symm.trans hk)
      simp [hstage, hcoded]

/-! ### Orders -/

theorem commitOrder_holds (c : BitVec 32) (pic : BitVec 64) (row : BitVec 8) : (commitOrder c pic row).Holds := by
  intro s ⟨hwins, j, hj, hcommit⟩
  exact ⟨_, congrArg Host.Outcome.next (State.carryOut_of_some hwins hj (if_pos hcommit)), j, hj, rfl⟩

theorem rewindOrder_holds (c : BitVec 32) (pic : BitVec 64) (row : BitVec 8) : (rewindOrder c pic row).Holds := by
  intro s ⟨hwins, j, q, hj, hrewind⟩
  exact ⟨_, congrArg Host.Outcome.next (State.carryOut_of_some hwins hj (by rw [hrewind])), j, q, hj, hrewind, rfl⟩

theorem fillOrder_holds (c : BitVec 32) (pic : BitVec 64) (row : BitVec 8) : (fillOrder c pic row).Holds := by
  intro s ⟨hwins, j, hj, hfill⟩
  exact ⟨_, congrArg Host.Outcome.next (State.carryOut_of_some hwins hj (if_pos hfill)), j, hj, rfl⟩

/-- Each of the three orders carries out the decision of the judgement of its row, in its own way. -/
theorem exec_of_isOrder {o : Instr} {c : BitVec 32} {pic : BitVec 64} {row : BitVec 8} (ho : isOrder o c pic row) (s : State) :
    ∃ f, exec o s = .next (s.carryOut c.toNat pic.toNat row.toNat f) := by
  rcases ho with rfl | rfl | rfl <;> exact ⟨_, rfl⟩

theorem orderDiscarded_holds (o : Instr) (c : BitVec 32) (pic : BitVec 64) (row : BitVec 8) :
    (orderDiscarded o c pic row).Holds := by
  intro s ⟨ho, hnone, henc, hrun⟩
  obtain ⟨f, hf⟩ := exec_of_isOrder ho s
  exact ⟨_, hf.trans (congrArg Host.Outcome.next (State.carryOut_of_none hnone f)), if_pos (by simp [henc, hrun])⟩

theorem orderAfterDeadline_holds (o : Instr) (c : BitVec 32) (pic : BitVec 64) (row : BitVec 8) :
    (orderAfterDeadline o c pic row).Holds := by
  intro s ⟨ho, hsome, href, hpast⟩
  obtain ⟨f, hf⟩ := exec_of_isOrder ho s
  have hwins : s.deadlineWins c.toNat pic.toNat row.toNat = true := by simp [State.deadlineWins, href, hpast]
  exact ⟨s, hf.trans (congrArg Host.Outcome.next (State.carryOut_of_deadlineWins hsome hwins f)), rfl⟩

theorem checkpointRestoreDone_holds (c : BitVec 32) : (checkpointRestoreDone c).Holds := by
  intro s hrestoring
  obtain ⟨e, he⟩ := Option.isSome_iff_exists.mp hrestoring
  refine ⟨_, ?_, e, he, rfl⟩
  change execCheckpointRestoreDone c s = _
  unfold execCheckpointRestoreDone
  dsimp only
  rw [he]

/-! ### The mitre pair -/

theorem partnerOrder_holds (c : BitVec 32) : (partnerOrder c).Holds := by
  intro s ⟨x, n, k, kind, hx, hitem⟩
  refine ⟨_, execPartnerOrder_of_order hx hitem, x, n, k, kind, hx, hitem, ?_⟩
  simp only [State.staleItem_order hitem, Crossing.half_of_find hx]
  rfl

theorem seamDataArrival_holds (c : BitVec 32) (odd : Bool) : (seamDataArrival c odd).Holds := by
  intro s ⟨x, hx, hitem⟩
  exact ⟨_, execSeamDataArrival_of_data hx hitem, x, hx, rfl⟩

theorem seamRowArrival_holds (c : BitVec 32) (odd : Bool) (n k : Nat) (column : Bool) :
    (seamRowArrival c odd n k column).Holds := by
  intro s ⟨x, hx, hitem, htok, hgen⟩
  have hhalf := Crossing.half_of_find hx
  have hseam : x.item = .band n k ∨ x.item = .columns n k := by cases column <;> simp [hitem]
  have hfresh : s.staleItem c.toNat x = false := State.staleItem_seam hseam (hhalf ▸ htok) hgen
  refine ⟨_, execSeamDataArrival_of_data hx (by rcases hseam with h | h <;> simp [h]), x, hx, ?_⟩
  rw [if_neg (by simp [hfresh])]
  cases column <;> simp [State.keepItem, hitem, hhalf, State.takeItem]

/-! ### What the hub keeps -/

theorem failoverStateUpdate_holds (c : BitVec 32) : (failoverStateUpdate c).Holds := by
  intro s ⟨hrun, hfence, hdone⟩
  obtain ⟨e, he⟩ := Option.isSome_iff_exists.mp (List.getLast?_isSome.mpr hdone)
  refine ⟨_, ?_, e, he, rfl⟩
  change execFailoverStateUpdate c s = _
  unfold execFailoverStateUpdate
  dsimp only
  rw [he]
  exact if_neg (by simp [hrun, hfence])

theorem fillSetUpdate_holds (c : BitVec 32) (pic : BitVec 64) (tile : Fin 3) : (fillSetUpdate c pic tile).Holds := by
  intro s ⟨hrun, hpic, hkind, hjudged, htile, hfence⟩
  refine ⟨_, if_neg (by simp [hrun, hpic, hkind, hjudged, List.contains_iff_mem.mp htile, hfence]), ?_⟩
  dsimp only [fillSetUpdate]
  simp only [b2n, beq_iff_eq]

end Sys2Proof.Claims

namespace Sys2Proof

open Claims

/-- Settles O26: each claim is the branch of its meaning that its condition selects. -/
theorem rowEventsTakeEffect : Obligations.RowEventsTakeEffect :=
  ⟨rowJudgement_holds, rowJudgementS3_holds, rowJudgementNotYet_holds, commitOrder_holds, rewindOrder_holds, fillOrder_holds,
    orderDiscarded_holds, orderAfterDeadline_holds, checkpointRestoreDone_holds, partnerOrder_holds, seamDataArrival_holds,
    seamRowArrival_holds, failoverStateUpdate_holds, fillSetUpdate_holds⟩

end Sys2Proof
end

section
/-!
O27. Stitching, and release at the hub: what a decoding unit whose deadline has come does, when a unit is free to leave the hub,
what a unit that is not the first or the last of its picture adds as it leaves, one lemma for each claim, and the obligation.
-/

namespace Sys2Proof.Machine

variable {s : State}

/-! ### What a change of a channel leaves -/

@[simp] theorem State.modCh_boot (h : Nat) (f : Channel → Channel) : (s.modCh h f).boot = s.boot := rfl
@[simp] theorem State.modCh_now (h : Nat) (f : Channel → Channel) : (s.modCh h f).now = s.now := rfl
@[simp] theorem State.streamsOf_modCh (h g : Nat) (f : Channel → Channel) : (s.modCh g f).streamsOf h = s.streamsOf h := rfl

/-! ### Release (R176, R178) -/

/-- A decoding unit that is whole at the hub, not its picture's first or last, of a channel that feeds no stream, joins the
access unit and is counted; the ports go on sending. -/
theorem State.releaseDu_inside {h n j : Nat} (hnone : (s.ch h).missingTile n j = none) (hfirst : j ≠ 0)
    (hlast : j + 1 ≠ (s.ch h).cfg.dus) (hstreams : s.streamsOf h = []) :
    s.releaseDu h n j = ((s.modCh h fun x => { x with
      au := x.au ++ (s.ch h).joined n j
      auFilled := x.auFilled || ((s.ch h).tileList.filterMap fun t => (s.ch h).hubDus.find? fun u =>
        u.pic == n && u.du == j && u.tile == t).any (·.filledFrom.isSome)
      relDu := j + 1 }).modCh h fun x => x.modPic n fun p =>
        { p with released := j + 1, bytes := p.bytes + nalBits ((s.ch h).joined n j) / 8 }).sendAll := by
  simp [State.releaseDu, hnone, hfirst, hlast, hstreams]

end Sys2Proof.Machine

namespace Sys2Proof.Claims

open Machine Sys2Proof

/-! ### Stitching -/

/-- A deadline that has come is that of a decoding unit which the stitch unit of its channel works on. -/
theorem stitchDeadline_passes {s : State} {h n j : Nat} (hdue : deadlineDue s h n j) :
    let g := s.ch h
    let p := g.pic n
    ¬ (!s.isEncoder h || !s.planeRuns || g.reference || !g.pics.has n || p.kind == .hubFill || decide (g.cfg.dus ≤ j) ||
      decide (s.now < g.deadlineNs n j) ||
      (g.rows.any fun e => decide (e.1 < g.rowKey n (j * g.cfg.duRows)) && !e.2.judged) || p.holes.contains j) = true := by
  obtain ⟨henc, hrun, href, hpic, hkind, hunit, hpast, hearlier, hhole⟩ := hdue
  have hhole : j ∉ ((s.ch h).pic n).holes := by simpa using hhole
  simp [henc, hrun, href, hpic, hkind, Nat.not_le.mpr hunit, Nat.not_lt.mpr hpast, hearlier, hhole]

theorem stitchDeadline_holds (c : BitVec 32) (pic : BitVec 64) (du : BitVec 8) : (stitchDeadline c pic du).Holds := by
  intro s ⟨hdue, hopen⟩
  refine ⟨_, (if_neg (stitchDeadline_passes hdue)).trans (if_neg ?_), rfl⟩
  simpa using hopen

theorem stitchDeadlineHole_holds (c : BitVec 32) (pic : BitVec 64) (du : BitVec 8) : (stitchDeadlineHole c pic du).Holds := by
  intro s ⟨hdue, hjudged, hfilled, hthere⟩
  refine ⟨_, (if_neg (stitchDeadline_passes hdue)).trans ((if_pos ?_).trans (if_neg ?_)), rfl⟩
  · simpa using hjudged
  · simp [hfilled, hthere]

theorem stitchRelease_holds (c : BitVec 32) (tile : Fin 3) : (stitchRelease c tile).Holds := by
  intro s ⟨hrun, htile, hroom, n, hn, hmay⟩
  refine ⟨_, ?_, n, hn, rfl⟩
  change execStitchRelease c tile s = _
  unfold execStitchRelease
  dsimp only
  rw [hn]
  exact if_neg (by simp [hrun, List.contains_iff_mem.mp htile, hroom, hmay])

/-! ### Records at the hub -/

theorem duRecordArrival_holds (c : BitVec 32) : (duRecordArrival c).Holds := by
  intro s hsent
  obtain ⟨u, rest, hu⟩ := List.exists_cons_of_ne_nil hsent
  change Answers (execDuRecordArrival c s) _
  unfold execDuRecordArrival
  dsimp only
  rw [hu]
  dsimp only
  rw [← apply_ite Host.Outcome.next]
  refine ⟨_, rfl, u, rest, hu, ?_⟩
  refine (ite_not ..).symm.trans (if_congr ?_ rfl rfl)
  simp only [Bool.or_eq_true, Bool.and_eq_true, decide_eq_true_eq]
  simp [and_assoc]

/-! ### Release at the hub -/

/-- The next decoding unit of a channel is not early: in reference mode none is (R74, R176). -/
def notEarly (s : State) (h : Nat) : Prop :=
  let g := s.ch h
  g.reference = false → g.releaseNs g.relPic g.relDu ≤ s.now + 1000

/-- A channel that may release a decoding unit passes the checks of the release timer, unless the unit is early. -/
theorem duRelease_passes {s : State} {h : Nat} (hmay : mayRelease s h) (htime : notEarly s h) :
    let g := s.ch h
    ¬ (!s.isEncoder h || !s.planeRuns || !(g.state == .starting || g.state == .running || g.state == .draining) ||
      !g.pics.has g.relPic || (!g.reference && decide (s.now + 1000 < g.releaseNs g.relPic g.relDu)) ||
      decide (g.cfg.dus ≤ g.relDu)) = true := by
  intro g
  obtain ⟨henc, hrun, hstate, hpic, hunit⟩ := hmay
  have hstate : (g.state == .starting || g.state == .running || g.state == .draining) = true := by
    simpa [or_assoc] using hstate
  have htime : (!g.reference && decide (s.now + 1000 < g.releaseNs g.relPic g.relDu)) = false := by
    simpa [notEarly] using htime
  simp [g, henc, hrun, hstate, hpic, htime, Nat.not_le.mpr hunit]

/-- A unit that is there, or that the hub makes, leaves the hub at its time. -/
theorem execDuRelease_of_ready {c : BitVec 32} {s : State} (hmay : mayRelease s c.toNat) (htime : notEarly s c.toNat)
    (hready : (s.ch c.toNat).missingTile (s.ch c.toNat).relPic (s.ch c.toNat).relDu = none ∨
      (s.ch c.toNat).hubMakes (s.ch c.toNat).relPic = true) :
    execDuRelease c s = .next (s.releaseDu c.toNat (s.ch c.toNat).relPic (s.ch c.toNat).relDu) := by
  refine (if_neg (duRelease_passes hmay htime)).trans ?_
  split
  · rfl
  · next x hx => exact if_pos (hready.resolve_left (by simp [hx]))

theorem duRelease_holds (c : BitVec 32) : (duRelease c).Holds :=
  fun _ ⟨hmay, hready, htime⟩ => ⟨_, execDuRelease_of_ready hmay htime hready, rfl⟩

theorem duReleaseEarly_holds (c : BitVec 32) : (duReleaseEarly c).Holds := by
  intro s ⟨href, hearly⟩
  exact ⟨s, if_pos (by simp [href, hearly]), rfl⟩

theorem duReleaseAbsent_holds (c : BitVec 32) : (duReleaseAbsent c).Holds := by
  intro s ⟨hmay, href, hmakes, hpast, habsent⟩
  obtain ⟨x, hx⟩ := Option.isSome_iff_exists.mp habsent
  refine ⟨_, (if_neg (duRelease_passes hmay fun _ => Nat.le_add_right_of_le hpast)).trans ?_, x, hx, rfl⟩
  rw [hx]
  exact (if_neg (by simp [hmakes])).trans (if_neg (by simp [href, Nat.not_lt.mpr hpast]))

theorem duReleaseJoins_holds (c : BitVec 32) : (duReleaseJoins c).Holds :=
  fun _ ⟨hmay, hnone, hfirst, hlast, hstreams, htime⟩ =>
    ⟨_, execDuRelease_of_ready hmay htime (.inl hnone), State.releaseDu_inside hnone hfirst hlast hstreams⟩

end Sys2Proof.Claims

namespace Sys2Proof

open Claims

/-- Settles O27: each claim is the branch of its meaning that its condition selects. -/
theorem releaseTakesEffect : Obligations.ReleaseTakesEffect :=
  ⟨stitchDeadline_holds, stitchDeadlineHole_holds, stitchRelease_holds, duRecordArrival_holds, duRelease_holds,
    duReleaseEarly_holds, duReleaseAbsent_holds, duReleaseJoins_holds⟩

end Sys2Proof
end

section
/-!
O5. The scheduler and trace commands: the bytes of saturating counters and of a run of equal records, what each command answers
from its description's `run`, and the obligation.
-/

namespace Sys2Proof.Machine

open Sys2Proof (Byte)

/-! ### Bytes of the responses (R240) -/

@[simp] theorem length_sat (n v : Nat) : (sat n v).length = n := length_le ..

/-- A saturating counter at the front reads as the count, or as its largest value. -/
theorem fieldAt_sat_append (n v : Nat) (b : List Byte) : fieldAt (sat n v ++ b) 0 n = min v (256 ^ n - 1) :=
  (fieldAt_le_append ..).trans <| Nat.mod_eq_of_lt <|
    (Nat.min_le_right ..).trans_lt (Nat.sub_lt (Nat.pow_pos (by decide)) Nat.one_pos)

/-- A field beyond a saturating counter. -/
theorem fieldAt_sat_append_skip {n o : Nat} (h : n ≤ o) (v : Nat) (b : List Byte) (m : Nat) :
    fieldAt (sat n v ++ b) o m = fieldAt b (o - n) m := fieldAt_le_append_skip h ..

/-- A run of records of `n` bytes each. -/
theorem length_flatMap_of_length {α : Type} {n : Nat} {f : α → List Byte} (hf : ∀ x, (f x).length = n) (l : List α) :
    (l.flatMap f).length = l.length * n := by simp [List.length_flatMap, hf]

/-- The field of the `i`-th of a run of records, each one field of `n` bytes, with more behind the run. -/
theorem fieldAt_flatMap_le_append {α : Type} (n : Nat) (f : α → Nat) {l : List α} {i : Nat} (h : i < l.length)
    (b : List Byte) : fieldAt ((l.flatMap fun x => le n (f x)) ++ b) (n * i) n = f l[i] % 256 ^ n := by
  refine (fieldAt_append_left _ _ _ _ ?_).trans (fieldAt_flatMap_le n f h)
  rw [length_flatMap_of_length fun x => length_le n (f x), Nat.mul_comm l.length, ← Nat.mul_succ]
  exact Nat.mul_le_mul_left n h

/-- A field beyond a run of records, each one field of `n` bytes. -/
theorem fieldAt_flatMap_le_append_skip {α : Type} {n o : Nat} {l : List α} (h : l.length * n ≤ o) (f : α → Nat)
    (b : List Byte) (m : Nat) :
    fieldAt ((l.flatMap fun x => le n (f x)) ++ b) o m = fieldAt b (o - l.length * n) m := by
  have hlen := length_flatMap_of_length (fun x => length_le n (f x)) l
  rw [fieldAt_append_right _ _ _ _ (hlen ▸ h), hlen]

/-- The `i`-th of a run of records of `n` bytes each. -/
theorem slice_flatMap {α : Type} {n : Nat} {f : α → List Byte} (hf : ∀ x, (f x).length = n) {l : List α} {i : Nat}
    (h : i < l.length) : slice (l.flatMap f) (n * i) n = f l[i] := by
  induction l generalizing i with
  | nil => cases h
  | cons x l ih =>
    rw [List.flatMap_cons]
    cases i with
    | zero => exact slice_append_left _ (hf x)
    | succ i =>
      rw [slice_append_right _ _ (by rw [hf]; exact Nat.le_mul_of_pos_right n i.succ_pos), hf, Nat.mul_succ,
        Nat.add_sub_cancel]
      exact ih (Nat.lt_of_succ_lt_succ h)

/-- An entry of the SCHED.LOCKS response takes 8 bytes. -/
@[simp] theorem State.length_lockEntry (s : State) (n l : Nat) : (s.lockEntry n l).length = 8 := by simp [lockEntry]

/-- SCHED.FLOWS lists at most 16 flows. -/
theorem State.length_flowEntries_le (s : State) (h : Nat) : (s.flowEntries h).length ≤ 16 := List.length_take_le ..

theorem b2n_lt_256 (b : Bool) : b2n b < 256 := by cases b <;> decide

/-! ### The capture of a scheduler (R29) -/

/-- A capture leaves the schedulers as they are. -/
@[simp] theorem State.captureSched_sd (s : State) (n m : Nat) : (s.captureSched n).sd m = s.sd m := rfl

@[simp] theorem State.heldOf_captureSched_occupancy (s : State) (n : Nat) :
    (s.captureSched n).heldOf 2 0 = (s.sd n).occupancy := by simp [captureSched]

theorem State.heldOf_captureSched_ready (s : State) (n : Nat) {c : Nat} (h : c < 6) :
    (s.captureSched n).heldOf 2 (c + 1) = (s.sd n).readyOf c := by simp [captureSched, h]

end Sys2Proof.Machine

namespace Sys2Proof.Claims

open Machine Sys2Proof

theorem schedStatus_holds (c : Submission) : (schedStatus c).Holds := by
  refine eciClaim_holds rfl (fun _ => rfl) fun k s hgate => ⟨_, State.gated_of_dieGate hgate, ?_⟩
  simp only [Sched.statusBytes, List.append_assoc, State.captureSched_sd, State.heldOf_captureSched_occupancy]
  refine ⟨by simp, fun cls hcls => ?ready, ?_, ?_, ?_, ?_, ?_, ?_, ?_, ?_, ?_, ?_, ?_, ?_, ?_⟩
  case ready =>
    simp (disch := omega) only [u16, fieldAt_le_append_skip]
    rw [show 4 + 2 * cls - 2 - 2 = 2 * cls by omega, fieldAt_flatMap_le_append 2 _ (by simpa using hcls),
      List.getElem_range, State.heldOf_captureSched_ready s _ hcls]
    rfl
  all_goals
    simp [u16, u32, u64, fieldAt_le_append, fieldAt_le_append_skip, fieldAt_sat_append, fieldAt_sat_append_skip,
      fieldAt_flatMap_le_append_skip]

theorem schedLocks_holds (c : Submission) : (schedLocks c).Holds := by
  refine eciClaim_holds rfl (fun _ => rfl) fun k s hgate => ⟨_, State.gated_of_dieGate hgate, ?_, fun l hl => ?_⟩
  · rw [length_flatMap_of_length (State.length_lockEntry s _), List.length_range]
  · rw [slice_flatMap (State.length_lockEntry s _) (by simpa using hl), List.getElem_range]

theorem schedFlows_holds (c : Submission) : (schedFlows c).Holds := by
  refine eciClaim_holds rfl (fun _ => rfl) fun k s _ => ?_
  have hfew := s.length_flowEntries_le k.tok.handle
  have hcount : u8 (le 1 (s.flowEntries k.tok.handle).length ++ le 3 0 ++ (s.flowEntries k.tok.handle).flatMap (le 4)) 0 =
      (s.flowEntries k.tok.handle).length := by
    rw [List.append_assoc]
    exact (fieldAt_le_append ..).trans (Nat.mod_eq_of_lt (by omega))
  exact ⟨_, rfl, hcount, hcount.trans_le hfew, List.drop_left' (by simp)⟩

theorem traceCreate_holds (c : Submission) : (traceCreate c).Holds := by
  dsimp only [traceCreate]
  refine eciClaim_holds rfl (fun _ => rfl) fun k s ⟨hgate, hfew, hroom, h, t, hnew, hmap⟩ => ?_
  obtain ⟨⟨b, u⟩, hmap⟩ := Option.isSome_iff_exists.mp hmap
  refine ⟨h, t, b, u, hnew, hmap, (State.gated_of_dieGate hgate).trans ?_⟩
  dsimp only
  rw [checked_pass, hnew]
  · dsimp only
    rw [hmap]
    rfl
  · simp only [firstFail, decide_eq_false (Nat.not_le.mpr hfew), decide_eq_false (Nat.not_lt.mpr hroom)]
    rfl

theorem traceStart_holds (c : Submission) : (traceStart c).Holds := by
  refine eciClaim_holds rfl (fun _ => rfl) fun k s hstopped => ?_
  dsimp only [specTraceStart]
  rw [checked_pass]
  · rfl
  · simp [firstFail, hstopped]

theorem traceStop_holds (c : Submission) : (traceStop c).Holds := by
  refine eciClaim_holds rfl (fun _ => rfl) fun k s hruns => ?_
  dsimp only [specTraceStop]
  rw [checked_pass]
  · rfl
  · simp [firstFail, hruns]

theorem traceStatus_holds (c : Submission) : (traceStatus c).Holds := by
  refine eciClaim_holds rfl (fun _ => rfl) fun k s _ => ⟨_, rfl, ?_⟩
  simp only [List.append_assoc, State.heldOf_captureGroup]
  refine ⟨by simp, ?_, ?_, ?_, ?_, ?_⟩ <;>
    simp [u8, u32, u64, fieldAt_le, fieldAt_le_append, fieldAt_le_append_skip, Nat.mod_eq_of_lt (b2n_lt_256 _)]

theorem traceDestroy_holds (c : Submission) : (traceDestroy c).Holds :=
  eciClaim_holds rfl (fun _ => rfl) fun _ _ _ => rfl

end Sys2Proof.Claims

namespace Sys2Proof

open Claims

/-- Settles O5: each claim from its command's `run`. -/
theorem schedulerCommandsComplete : Obligations.SchedulerCommandsComplete :=
  fun c => ⟨schedStatus_holds c, schedLocks_holds c, schedFlows_holds c, traceCreate_holds c, traceStart_holds c,
    traceStop_holds c, traceStatus_holds c, traceDestroy_holds c⟩

end Sys2Proof
end

section
/-!
O28. What happens at the schedulers: what each operation on a scheduler does in the case that a claim speaks of, one lemma for each
claim, and the obligation.
-/

namespace Sys2Proof.Machine

variable {s : State} {k : Nat}

/-- A scheduler that runs passes the check with which each happening at a scheduler begins. -/
theorem State.schedRuns_passes (hrun : s.schedRuns k = true) : ¬ (!s.schedRuns k) = true := by simp [hrun]

/-- Where no entry meets a test, none is found by it. -/
theorem find?_eq_none_of_all_not {α : Type} {l : List α} {p : α → Bool} (h : l.all (fun e => !p e) = true) :
    l.find? p = none := by simpa using h

/-! ### Posts (R214, R215) -/

/-- A task post reaches the live task that it names, or is stale. -/
theorem State.taskPost_eq (id b : Nat) : s.taskPost k id b =
    if ((s.sd k).tasks.find (id % 2048)).any (fun x => x.gen == id / 2048) = true then
      s.modSd k fun d => { d with tasks := d.tasks.mapV fun j x => if j = id % 2048 then { x with flags := x.flags ||| b } else x }
    else s.modSd k fun d => { d with stale := d.stale + 1 } := by
  unfold State.taskPost
  cases (s.sd k).tasks.find (id % 2048) <;> simp [State.orFlags, State.stale]

section SeqPost

variable {fl q b : Nat} {f : Flow} (hf : (s.sd k).flows.find fl = some f)

include hf

/-- A sequence post before the head of its flow is stale. -/
theorem State.seqPost_of_passed (hbefore : seqAfter f.head q = false) : s.seqPost k fl q b = some (s.stale k) := by
  simp [State.seqPost, hf, hbefore]

variable (hkind : f.kind = 0)

include hkind

/-- A sequence post within the window is latched and reaches the flags of its number's tasks. -/
theorem State.seqPost_of_inWindow (hafter : seqAfter f.head q = true) (hnear : seqDist f.head q ≤ 255) :
    s.seqPost k fl q b = some ((s.modSd k fun d => { d with flows := d.flows.upd fl fun f =>
      { f with latched := f.latched.put q (f.latched.look 0 q ||| b) } }).orFlags k
        (fun _ t => t.flow == fl && t.seq == q) b) := by
  simp [State.seqPost, hf, hkind, hafter, Nat.not_lt.mpr hnear]

/-- A sequence post beyond the window must wait. -/
theorem State.seqPost_of_beyond (hafter : seqAfter f.head q = true) (hfar : 255 < seqDist f.head q) :
    s.seqPost k fl q b = none := by
  simp [State.seqPost, hf, hkind, hafter, hfar]

end SeqPost

/-- A flow post reaches the flags of every live task of an open flow. -/
theorem State.flowPost_of_open {fl b : Nat} (hopen : (s.sd k).flows.has fl = true) : s.flowPost k fl b =
    s.modSd k fun d => { d with tasks := d.tasks.mapV fun _ x => if x.flow = fl then { x with flags := x.flags ||| b } else x } := by
  simp [State.flowPost, State.orFlags, hopen]

/-! ### Back-pressure (R235) -/

/-- A hardware producer that holds a task stalls; firmware and the host are answered `E_BUSY`. -/
theorem State.holdBack_task (a b : Nat) (y : Task × Bool) :
    s.holdBack k { producer := a, bound := b, task := some y } =
      let x : TraceEvent := { type := 8, agent := a, prio := y.1.prio, flow := y.1.flow, seq := y.1.seq, detail := b
                              cls := some y.1.cls }
      let u := (s.modSd k fun g => { g with bpEvents := g.bpEvents + 1 }).trace k x
      if a = 0xFFF then
        (u.modSd k fun g => { g with answers := g.answers ++ [(.eBusy, (u.sd k).retryHint u.now)] }).trace k { x with type := 9 }
      else u.modSd k fun g => { g with stalled := g.stalled ++ [{ producer := a, bound := b, task := some y }] } := by
  exact if_congr (by simp) rfl rfl

/-! ### Dispatch and completion (R216, R221) -/

/-- An agent that is busy takes nothing. -/
theorem State.dispatch_of_busy {a : Nat} (hbusy : (s.sd k).busy a = true) : s.dispatch k a = s := if_pos (by simp [hbusy])

/-- The agent of a live task ends it; readiness, lock grants and the occupancy follow. -/
theorem State.completeTask_of_live {a id : Nat} {x : Task} (hx : (s.sd k).tasks.find (id % 2048) = some x)
    (hgen : x.gen = id / 2048) (hagent : x.agent = some a) :
    s.completeTask k a id = ((s.finishTask k (id % 2048) x .done).noteOccupancy k).settleSd k := by
  simp [State.completeTask, hx, hgen, hagent]

/-- The agent of a cancelled task gives its slot back. -/
theorem State.completeTask_of_held {a id : Nat} {g : HeldSlot} (hnone : (s.sd k).tasks.find (id % 2048) = none)
    (hg : (s.sd k).held.find (id % 2048) = some g) (hgen : g.gen = id / 2048) (hagent : g.agent = a) :
    s.completeTask k a id = ((s.reportHeld k (id % 2048) g).noteOccupancy k).settleSd k := by
  simp [State.completeTask, hnone, hg, hgen, hagent]

/-- A completion that names neither is stale. -/
theorem State.completeTask_of_neither {a id : Nat} (hnone : (s.sd k).tasks.find (id % 2048) = none)
    (hheld : (s.sd k).held.find (id % 2048) = none) :
    s.completeTask k a id = ((s.staleReport k a id).noteOccupancy k).settleSd k := by
  simp [State.completeTask, hnone, hheld]

end Sys2Proof.Machine

namespace Sys2Proof.Claims

open Machine Sys2Proof

/-! ### Enqueue and back-pressure -/

theorem descriptorRefused_holds (k : SchedNo) (a : AgentId) (d : Descriptor) : (descriptorRefused k a d).Holds := by
  intro s ⟨hrun, hbad⟩
  refine ⟨_, (if_neg (State.schedRuns_passes hrun)).trans (if_pos (by simp [hbad])), ?_⟩
  dsimp only [descriptorRefused]
  split <;> rfl

theorem descriptorEnqueue_holds (k : SchedNo) (a : AgentId) (d : Descriptor) : (descriptorEnqueue k a d).Holds := by
  intro s ⟨hrun, hok, hfree⟩
  refine ⟨_, (if_neg (State.schedRuns_passes hrun)).trans ((if_neg (by simp [hok])).trans ?_), rfl⟩
  generalize taskOf d = y at hfree ⊢
  obtain ⟨x, last⟩ := y
  dsimp only
  rw [hfree]

theorem descriptorHeld_holds (k : SchedNo) (a : AgentId) (d : Descriptor) : (descriptorHeld k a d).Holds := by
  intro s ⟨hrun, hok, hpassed, hbound⟩
  obtain ⟨b, hb⟩ := Option.isSome_iff_exists.mp hbound
  refine ⟨_, (if_neg (State.schedRuns_passes hrun)).trans ((if_neg (by simp [hok])).trans ?_), b, hb, State.holdBack_task ..⟩
  generalize taskOf d = y at hpassed hb ⊢
  obtain ⟨x, last⟩ := y
  dsimp only
  rw [hb]
  exact if_neg (by simp [hpassed])

theorem backpressureEnd_holds (k : SchedNo) : (backpressureEnd k).Holds := by
  intro s ⟨hrun, x, y, hx, hy⟩
  refine ⟨_, (if_neg (State.schedRuns_passes hrun)).trans ?_, x, y, hx, hy, rfl⟩
  rw [hx]
  dsimp only
  rw [hy]
  simp only [Stalled.event, hy]

/-! ### Posts -/

theorem taskPost_holds (k : SchedNo) (task : BitVec 16) (b : BitVec 32) : (taskPost k task b).Holds := by
  intro s hrun
  exact ⟨_, if_pos hrun, by rw [State.taskPost_eq]; rfl⟩

/-- A sequence post that need not wait is followed by readiness and lock grants. -/
theorem execSequencePost_some {k : SchedNo} {flow : BitVec 12} {q : BitVec 24} {b : BitVec 32} {s u : State}
    (hrun : s.schedRuns k.val = true) (hu : s.seqPost k.val flow.toNat q.toNat b.toNat = some u) :
    execSequencePost k flow q b s = .next ((u.settleSd k.val).afterSched k.val) := by
  refine (if_neg (State.schedRuns_passes hrun)).trans ?_
  rw [hu]

theorem sequencePost_holds (k : SchedNo) (flow : BitVec 12) (q : BitVec 24) (b : BitVec 32) :
    (sequencePost k flow q b).Holds :=
  fun _ ⟨hrun, _, hf, hkind, hafter, hnear⟩ =>
    ⟨_, execSequencePost_some hrun (State.seqPost_of_inWindow hf hkind hafter hnear), rfl⟩

theorem sequencePostStale_holds (k : SchedNo) (flow : BitVec 12) (q : BitVec 24) (b : BitVec 32) :
    (sequencePostStale k flow q b).Holds :=
  fun _ ⟨hrun, _, hf, _, hbefore⟩ => ⟨_, execSequencePost_some hrun (State.seqPost_of_passed hf hbefore), rfl⟩

theorem sequencePostWaits_holds (k : SchedNo) (flow : BitVec 12) (q : BitVec 24) (b : BitVec 32) :
    (sequencePostWaits k flow q b).Holds := by
  intro s ⟨hrun, f, hf, hkind, hafter, hfar⟩
  refine ⟨_, (if_neg (State.schedRuns_passes hrun)).trans ?_, rfl⟩
  rw [State.seqPost_of_beyond hf hkind hafter hfar]
  rfl

theorem flowPost_holds (k : SchedNo) (flow : BitVec 12) (b : BitVec 32) : (flowPost k flow b).Holds := by
  intro s ⟨hrun, hopen⟩
  exact ⟨_, if_pos hrun, by rw [State.flowPost_of_open hopen]; rfl⟩

/-! ### Dispatch and completion -/

theorem taskDispatch_holds (k : SchedNo) (a : AgentId) : (taskDispatch k a).Holds := by
  intro s ⟨hrun, hex, hcls, hfenced, hheld, hidle, hsome⟩
  obtain ⟨⟨i, x⟩, hbest⟩ := Option.isSome_iff_exists.mp hsome
  refine ⟨_, if_pos hrun, i, x, hbest, congrArg (State.afterSched · k.val) ((if_neg ?_).trans ?_)⟩
  · simpa [hex, hcls, hheld, hidle] using hfenced
  · rewrite [hbest]
    rfl

theorem taskDispatchBusy_holds (k : SchedNo) (a : AgentId) : (taskDispatchBusy k a).Holds := by
  intro s ⟨hrun, hbusy⟩
  exact ⟨_, if_pos hrun, by rw [State.dispatch_of_busy hbusy]; rfl⟩

theorem taskComplete_holds (k : SchedNo) (a : AgentId) (task : BitVec 16) : (taskComplete k a task).Holds := by
  intro s ⟨hrun, x, hx, hgen, hagent⟩
  refine ⟨_, (if_neg (State.schedRuns_passes hrun)).trans ?_, x, hx, rfl⟩
  rw [State.completeTask_of_live hx hgen hagent, hx]
  simp [Option.filter, hgen, hagent]

theorem taskCompleteLate_holds (k : SchedNo) (a : AgentId) (task : BitVec 16) : (taskCompleteLate k a task).Holds := by
  intro s ⟨hrun, hnone, g, hg, hgen, hagent⟩
  refine ⟨_, (if_neg (State.schedRuns_passes hrun)).trans ?_, g, hg, rfl⟩
  rw [State.completeTask_of_held hnone hg hgen hagent, hnone, hg]
  simp [Option.filter, hgen, hagent]

theorem taskCompleteStale_holds (k : SchedNo) (a : AgentId) (task : BitVec 16) : (taskCompleteStale k a task).Holds := by
  intro s ⟨hrun, hnone, hheld⟩
  refine ⟨_, (if_neg (State.schedRuns_passes hrun)).trans ?_, rfl⟩
  rw [State.completeTask_of_neither hnone hheld, hnone, hheld]
  rfl

/-! ### Cancels -/

theorem taskCancel_holds (k : SchedNo) (task : BitVec 16) : (taskCancel k task).Holds := by
  intro s hrun
  refine ⟨_, if_neg (State.schedRuns_passes hrun), ?_⟩
  dsimp only [taskCancel]
  cases (s.sd k.val).tasks.find (task.toNat % 2048) <;> rfl

theorem flowSquash_holds (k : SchedNo) (flow : BitVec 12) (q : BitVec 24) : (flowSquash k flow q).Holds := by
  intro s ⟨hrun, hopen⟩
  obtain ⟨f, hf⟩ := Option.isSome_iff_exists.mp hopen
  refine ⟨_, if_pos hrun, ?_⟩
  dsimp only [State.squash, flowSquash]
  rw [hf]

theorem deadlineExpiry_holds (k : SchedNo) : (deadlineExpiry k).Holds :=
  fun _ hrun => ⟨_, if_neg (State.schedRuns_passes hrun), rfl⟩

/-! ### Keeper locks taken directly -/

theorem directLockAcquire_holds (k : SchedNo) (a : AgentId) (l : BitVec 8) : (directLockAcquire k a l).Holds := by
  intro s ⟨hrun, hdirect, howner, hfirst⟩
  exact ⟨_, if_neg (by simpa [hrun, hdirect, howner] using hfirst), rfl⟩

theorem directLockRelease_holds (k : SchedNo) (a : AgentId) (l : BitVec 8) : (directLockRelease k a l).Holds := by
  intro s (hrun : s.schedRuns k.val = true)
  by_cases howner : ((s.sd k.val).locks.look {} l.toNat).owner = some (a.toNat, 0)
  · exact ⟨_, if_pos (by simp [hrun, howner]), (if_pos howner).symm⟩
  · exact ⟨_, if_neg (by simp [howner]), (if_neg howner).symm⟩

/-! ### The task watchdog -/

theorem taskWatchdog_holds (k : SchedNo) (a : AgentId) : (taskWatchdog k a).Holds := by
  intro s ⟨hrun, hstill, e, he⟩
  refine ⟨_, (if_neg (by simp [hrun, hstill])).trans ?_, e, he, rfl⟩
  dsimp only
  rw [he]
  simp only [Bool.and_eq_true, bne_iff_ne, beq_iff_eq]

theorem taskWatchdogInTime_holds (k : SchedNo) (a : AgentId) : (taskWatchdogInTime k a).Holds := by
  intro s ⟨htasks, hheld⟩
  refine ⟨s, ?_, rfl⟩
  change execTaskWatchdog k a s = _
  dsimp only [execTaskWatchdog]
  rw [find?_eq_none_of_all_not htasks, find?_eq_none_of_all_not hheld]
  exact ite_self _

end Sys2Proof.Claims

namespace Sys2Proof

open Claims

/-- Settles O28: each claim is the branch of its meaning that its condition selects. -/
theorem schedulerEventsTakeEffect : Obligations.SchedulerEventsTakeEffect :=
  ⟨descriptorRefused_holds, descriptorEnqueue_holds, descriptorHeld_holds, backpressureEnd_holds, taskPost_holds,
    sequencePost_holds, sequencePostStale_holds, sequencePostWaits_holds, flowPost_holds, taskDispatch_holds,
    taskDispatchBusy_holds, taskComplete_holds, taskCompleteLate_holds, taskCompleteStale_holds, taskCancel_holds,
    flowSquash_holds, deadlineExpiry_holds, directLockAcquire_holds, directLockRelease_holds, taskWatchdog_holds,
    taskWatchdogInTime_holds⟩

end Sys2Proof
end

section
/-!
O7. The commands of decode channels, reference mode, jig streams, statistics and check units: what each command answers from
its description's `run`, and the obligation.
-/

namespace Sys2Proof.Machine

/-- A bound that is kept refuses nothing. -/
theorem bound_pass {code place used limit unit : Nat} (h : used ≤ limit) : (bound code place used limit unit).1 = false :=
  decide_eq_false (Nat.not_lt.mpr h)

end Sys2Proof.Machine

namespace Sys2Proof.Claims

open Machine Sys2Proof

/-! ### Decode channels -/

theorem decodeCreate_holds (c : Submission) : (decodeCreate c).Holds := by
  refine eciClaim_holds rfl (fun _ => rfl) fun k s ⟨hrules, hdies, q, h, t, hplace, hnew, hmap⟩ => ?_
  obtain ⟨⟨b, u⟩, hmap⟩ := Option.isSome_iff_exists.mp hmap
  refine ⟨q, h, t, b, u, hplace, hnew, hmap, ?_⟩
  dsimp only [specDecodeCreate]
  rw [checked_pass _ _ _ hrules, hplace]
  dsimp only
  rw [hnew]
  dsimp only
  rw [hmap]
  refine ⟨_, checked_pass _ _ _ hdies, ?_⟩
  simp only [List.append_assoc]
  refine ⟨by simp, ?_, ?_, ?_, ?_, ?_, ?_⟩ <;>
    simp [u8, u32, u64, fieldAt_le, fieldAt_le_append, fieldAt_le_append_skip]

theorem decodeSubmit_holds (c : Submission) : (decodeSubmit c).Holds := by
  refine eciClaim_holds rfl (fun _ => rfl) fun k s ⟨hdec, hsrc, hstate, hroom⟩ => ?_
  dsimp only [specDecodeSubmit]
  rw [checked_pass]
  · rfl
  · have hstate : ((s.ch k.tok.handle).state == .starting || (s.ch k.tok.handle).state == .running) = true := by
      simpa using hstate
    simp [firstFail, hdec, hsrc, hstate, Nat.not_lt.mpr hroom]

theorem decodeReturn_holds (c : Submission) : (decodeReturn c).Holds := by
  refine eciClaim_holds rfl (fun _ => rfl) fun k s ⟨hdec, hmask⟩ => ?_
  dsimp only [specDecodeReturn]
  rw [checked_pass]
  · rfl
  · simp [firstFail, hdec, hmask]

theorem decodeQuery_holds (c : Submission) : (decodeQuery c).Holds := by
  refine eciClaim_holds rfl (fun _ => rfl) fun k s (hdec : s.isDecoder k.tok.handle = true) => ?_
  dsimp only [specDecodeQuery]
  refine ⟨_, checked_pass _ _ _ (by simp [firstFail, hdec]), by simp, ?_, ?_, ?_, ?_⟩ <;>
    simp [u64, fieldAt_le, fieldAt_le_append, fieldAt_le_append_skip]

/-! ### Reference mode, submitted pictures and jig streams -/

theorem channelMode_holds (c : Submission) : (channelMode c).Holds := by
  dsimp only [channelMode]
  refine eciClaim_holds rfl (fun _ => rfl) fun k s ⟨henc, hidle, hsrc, hring⟩ => ?_
  have hsrc : (u8 k.payload 0 == 1 && (s.ch k.tok.handle).cfg.source != 0) = false := by simpa using hsrc
  dsimp only [specChannelMode]
  rw [State.checked_notIdle henc hidle]
  by_cases hsame : (s.dec.auRings.find k.tok.handle).map (·.log2) = some (u8 k.payload 1)
  · obtain ⟨r, hr, hlog⟩ := Option.map_eq_some_iff.mp hsame
    refine .inl ⟨r, hr, hlog, ?_⟩
    rw [checked_pass]
    · simp [hr, hlog, ok]
    · simp [firstFail, hsrc, hsame, bound]
  · obtain ⟨hfit, hnew⟩ := hring.resolve_left hsame
    obtain ⟨⟨b, t⟩, hnew⟩ := Option.isSome_iff_exists.mp hnew
    refine .inr ⟨hsame, b, t, hnew, ?_⟩
    rw [checked_pass]
    · simp [hsame, hnew, ok]
    · simp [firstFail, hsrc, hsame, bound_pass hfit]

theorem picSubmit_holds (c : Submission) : (picSubmit c).Holds := by
  refine eciClaim_holds rfl (fun _ => rfl) fun k s ⟨henc, hgen, hsrc, hfmt, hbuf, hfew⟩ => ?_
  dsimp only [specPicSubmit]
  refine ⟨_, checked_pass _ _ _ ?_⟩
  simp only [firstFail_eq_none_iff, List.forall_mem_cons]
  refine ⟨by simp [henc, hgen], by simp [hsrc], ?fmt, by simpa using hbuf, by simp [hfew], nofun⟩
  case fmt =>
    rcases hfmt with h | h | ⟨f, hf, hle⟩
    · simp [h]
    · simp [h]
    · simp [hf, hle]

theorem refRing_holds (c : Submission) : (refRing c).Holds := by
  refine eciClaim_holds rfl (fun _ => rfl) fun k s ⟨r, hr, hoff⟩ => ⟨r, hr, ?_⟩
  dsimp only [specRefRing]
  rw [hr]
  exact if_neg (Nat.not_le.mpr hoff)

theorem jigSet_holds (c : Submission) : (jigSet c).Holds := by
  refine eciClaim_holds rfl (fun _ => rfl) fun k s ⟨henc, hidle, hnum, hlen, hmax, heff, hsrc⟩ => ?_
  dsimp only [specJigSet]
  rw [State.checked_notIdle henc hidle, checked_pass]
  · rfl
  · simpa [firstFail, hnum, hlen, Nat.not_lt.mpr hmax, heff] using hsrc

/-! ### Statistics -/

theorem statsSet_holds (c : Submission) : (statsSet c).Holds := by
  dsimp only [statsSet]
  refine eciClaim_holds rfl (fun _ => rfl) fun k s ⟨hsize, hring⟩ => ?_
  have hsize : (u8 k.payload 0 != 0 && decide (u8 k.payload 0 < 20 ∨ 30 < u8 k.payload 0)) = false := by
    rcases hsize with h | ⟨hmin, hmax⟩
    · simp [h]
    · simp [Nat.not_lt.mpr hmin, Nat.not_lt.mpr hmax]
  dsimp only [specStatsSet]
  rcases hring with ⟨hsame, hall, hmine⟩ | ⟨hother, hall, hpool, hnew⟩
  · obtain ⟨r, hr, hlog⟩ := Option.map_eq_some_iff.mp hsame
    refine ⟨r.base, s, ?_, .inl ⟨r, hr, hlog, rfl, rfl⟩⟩
    rw [checked_pass]
    · simp [hr, hlog, stage]
    · simp only [firstFail_eq_none_iff, List.forall_mem_cons]
      refine ⟨hsize, ?_, ?_, nofun⟩
      · simp [hr, hlog, Nat.sub_add_cancel hmine, hall]
      · simp [hr, hlog, bound]
  · obtain ⟨⟨b, t⟩, hnew⟩ := Option.isSome_iff_exists.mp hnew
    have hother : ((s.dec.stats.find k.tok.handle).map (·.log2) == some (u8 k.payload 0)) = false :=
      beq_false_of_ne hother
    refine ⟨b, t, ?_, .inr hnew⟩
    simp only [hother, Bool.false_eq_true, or_false, if_false]
    rw [checked_pass, hnew]
    · rfl
    · simp only [firstFail_eq_none_iff, List.forall_mem_cons]
      refine ⟨hsize, decide_eq_false (Nat.not_lt.mpr hall), bound_pass ?_, nofun⟩
      by_cases hn : u8 k.payload 0 = 0
      · simp [hn]
      · rw [if_neg hn, if_neg (Nat.two_pow_pos _).ne']
        exact hpool.resolve_left hn

theorem statsRead_holds (c : Submission) : (statsRead c).Holds := by
  refine eciClaim_holds rfl (fun _ => rfl) fun k s ⟨r, hr, hoff⟩ => ⟨r, hr, ?_⟩
  dsimp only [specStatsRead]
  rw [hr]
  exact if_neg (Nat.not_le.mpr hoff)

/-! ### Check units -/

theorem checkBind_holds (c : Submission) : (checkBind c).Holds := by
  refine eciClaim_holds rfl (fun _ => rfl) fun k s ⟨huse, hsuits⟩ => ?_
  dsimp only [specCheckBind]
  rw [checked_pass]
  · rfl
  · simp [firstFail, huse, hsuits]

theorem checkUnbind_holds (c : Submission) : (checkUnbind c).Holds := by
  refine eciClaim_holds rfl (fun _ => rfl) fun k s (hbound : (s.checkUnit k.tok.handle).bound = true) => ?_
  dsimp only [specCheckUnbind]
  rw [checked_pass]
  · rfl
  · simp [firstFail, hbound]

theorem checkExpect_holds (c : Submission) : (checkExpect c).Holds := by
  dsimp only [checkExpect]
  refine eciClaim_holds rfl (fun _ => rfl) fun k s ⟨hbound, hwidth, hroom⟩ => ?_
  dsimp only [specCheckExpect]
  rw [List.findIdx?_eq_none_iff.mpr fun e he => decide_eq_false (Nat.not_le.mpr (hwidth e he)), checked_pass]
  · rfl
  · simpa [firstFail, hbound] using hroom

theorem checkQuery_holds (c : Submission) : (checkQuery c).Holds := by
  refine eciClaim_holds rfl (fun _ => rfl) fun k s _ => ⟨_, rfl, ?_⟩
  refine ⟨by simp, ?_, ?_, ?_, ?_, ?_, ?_, ?_⟩ <;>
    simp [u16, u32, u64, fieldAt_le, fieldAt_le_append, fieldAt_le_append_skip]

end Sys2Proof.Claims

namespace Sys2Proof

open Claims

/-- Settles O7: each claim from its command's `run`. -/
theorem decodeCommandsComplete : Obligations.DecodeCommandsComplete :=
  fun c => ⟨decodeCreate_holds c, decodeSubmit_holds c, decodeReturn_holds c, decodeQuery_holds c, channelMode_holds c,
    picSubmit_holds c, refRing_holds c, jigSet_holds c, statsSet_holds c, statsRead_holds c, checkBind_holds c,
    checkUnbind_holds c, checkExpect_holds c, checkQuery_holds c⟩

end Sys2Proof
end

section
/-!
O31. Decoding, check units and SDI outputs: what an access unit that arrives comes to, what a value of a check unit meets and
what it changes, one lemma for each claim, and the obligation.
-/

namespace Sys2Proof.Machine

/-! ### Values of check units (R263, R265) -/

/-- A value meets an entry without a tag, or with its picture's. -/
theorem testValue_of_tag {q v x : Nat} {tag : Option Nat} {r : List (Option Nat × Nat)} (htag : tag = none ∨ tag = some q) :
    testValue q v ((tag, x) :: r) = { compared := true, differs := x != v, queue := r } := by
  rcases htag with rfl | rfl
  · rfl
  · exact if_pos rfl

/-- An entry of a later picture stays. -/
theorem testValue_of_before {q v n x : Nat} {r : List (Option Nat × Nat)} (h : q < n) :
    testValue q v ((some n, x) :: r) = { queue := (some n, x) :: r } :=
  (if_neg h.ne').trans (if_pos h)

/-- An entry of an earlier picture is missed, and the value goes on. -/
theorem testValue_of_after {q v n x : Nat} {r : List (Option Nat × Nat)} (h : n < q) :
    testValue q v ((some n, x) :: r) = { testValue q v r with missed := n :: (testValue q v r).missed } :=
  (if_neg h.ne).trans (if_neg h.asymm)

/-- A check unit after a value `v` of picture `q` that met `t`. -/
def CheckUnit.tested (u : CheckUnit) (q v : Nat) (t : Tested) : CheckUnit :=
  { u with
    queue := t.queue, compared := u.compared + b2n t.compared, mismatched := u.mismatched + b2n t.differs
    missed := u.missed + t.missed.length, unchecked := u.unchecked + b2n (!t.compared)
    lastPic := q, lastValue := v, ready := u.ready.sel fun n _ => decide (q < n), emptyRaised := u.emptyRaised || t.empty }

/-- The state after a value `v` of picture `q` of a check unit met `t`: the unit, and the events of entries missed, of a
difference, and of the first value that meets an empty queue (R265). -/
def State.tested (s : State) (h q v : Nat) (t : Tested) : State :=
  let u := s.checkUnit h
  let s := s.modDec fun d => { d with checks := d.checks.put h (u.tested q v t) }
  let s := t.missed.foldl (fun s m => s.raise evCheckMismatch h (2 * 2 ^ 32) (some m)) s
  let s := if t.differs then s.raise evCheckMismatch h (v % 2 ^ 32 + 2 ^ 32) (some q) else s
  if t.empty && !u.emptyRaised then s.raise evCheckEmpty h 0 (some q) else s

end Sys2Proof.Machine

namespace Sys2Proof.Claims

open Machine Sys2Proof

variable {s : State} {c : BitVec 32}

/-! ### Access units that arrive -/

/-- An access unit of a channel that takes input begins a sequence that does not fit, is skipped, or is offered to the coded
buffer. -/
theorem execDecoderAuArrival_of_next {x : ArrivedAu} {fed : FedAu} {rest : List FedAu} (hnext : nextAu c s fed rest) :
    let g := s.ch c.toNat
    let d := s.dec.decoders.look {} c.toNat
    let fits := (auSps c x s).any g.cfg.decodes
    let u := s.modDecoder c.toNat fun d => { d with submitted := rest, sps := auSps c x s }
    let v := u.modDecoder c.toNat fun d => { d with rejecting := false }
    execDecoderAuArrival c x s = .next (
      if x.sps.isSome && !fits then (u.modDecoder c.toNat fun d => { d with rejecting := true }).discardAu c.toNat 4
      else if !fits || (d.rejecting && !x.randomAccess) then u.discardAu c.toNat 0
      else if g.cfg.codedBuffer < (d.coded.map (·.data.length)).sum + fed.data.length then v.discardAu c.toNat 5
      else v.modDecoder c.toNat fun d => { d with
        coded := d.coded ++ [{ data := fed.data, arrival := s.stamp, sps := (auSps c x s).getD {}, lost := fed.lost }] }) := by
  obtain ⟨hdec, -, hsub⟩ := hnext
  unfold execDecoderAuArrival
  dsimp only
  rw [hsub]
  dsimp only
  rw [if_neg (by simp [hdec])]
  simp only [apply_ite Host.Outcome.next]
  rfl

theorem decoderAuArrival_holds (c : BitVec 32) (x : ArrivedAu) : (decoderAuArrival c x).Holds := by
  intro s ⟨⟨fed, rest, hnext⟩, hfits, htakes⟩
  refine ⟨_, execDecoderAuArrival_of_next hnext, fed, rest, hnext, ?_⟩
  rw [if_neg (by simp [hfits]), if_neg]
  · rfl
  · rcases htakes with h | h <;> simp [hfits, h]

theorem decoderAuRejected_holds (c : BitVec 32) (x : ArrivedAu) : (decoderAuRejected c x).Holds := by
  intro s ⟨⟨fed, rest, hnext⟩, g, hg, hbad⟩
  refine ⟨_, execDecoderAuArrival_of_next hnext, fed, rest, hnext, ?_⟩
  rw [if_pos (by simp [auSps, hg, hbad])]
  rfl

theorem decoderAuSkipped_holds (c : BitVec 32) (x : ArrivedAu) : (decoderAuSkipped c x).Holds := by
  intro s ⟨⟨fed, rest, hnext⟩, hskip⟩
  refine ⟨_, execDecoderAuArrival_of_next hnext, fed, rest, hnext, ?_⟩
  rw [if_neg, if_pos]
  · rfl
  · rcases hskip with ⟨-, hbad⟩ | ⟨-, hrej, hra⟩
    · simp [hbad]
    · simp [hrej, hra]
  · rcases hskip with ⟨hnone, -⟩ | ⟨hfits, -, -⟩
    · simp [hnone]
    · simp [hfits]

/-! ### Decoded pictures -/

theorem decodePictureDone_holds (c : BitVec 32) (p : DecodedPicture) : (decodePictureDone c p).Holds := by
  intro s ⟨hdec, au, rest, hcoded, hroom⟩
  refine ⟨_, ?_, au, rest, hcoded, rfl⟩
  change execDecodePictureDone c p s = _
  unfold execDecodePictureDone
  dsimp only
  rw [hcoded]
  exact (if_neg (by simp [hdec])).trans (if_neg (Nat.not_le.mpr hroom))

theorem decodePictureFull_holds (c : BitVec 32) (p : DecodedPicture) : (decodePictureFull c p).Holds := by
  intro s ⟨hdec, au, rest, hcoded, hfull⟩
  refine ⟨_, ?_, rfl⟩
  change execDecodePictureDone c p s = _
  unfold execDecodePictureDone
  dsimp only
  rw [hcoded]
  exact (if_neg (by simp [hdec])).trans (if_pos hfull)

theorem decodePictureEmpty_holds (c : BitVec 32) (p : DecodedPicture) : (decodePictureEmpty c p).Holds := by
  intro s (hempty : (s.dec.decoders.look {} c.toNat).coded = [])
  refine ⟨s, ?_, rfl⟩
  change execDecodePictureDone c p s = _
  unfold execDecodePictureDone
  dsimp only
  rw [hempty]

/-! ### Check units -/

/-- A unit that checks a picture tests its value. -/
theorem execCheckValueComplete_of_checksPic {u : BitVec 32} {pic v : BitVec 64} (h : checksPic u pic s) :
    let x := s.checkUnit u.toNat
    let value := s.checkValue x pic.toNat v.toNat
    execCheckValueComplete u pic v s = .next (s.tested u.toNat pic.toNat value (testValue pic.toNat value x.queue)) := by
  obtain ⟨hrun, hfence, hbound, hstart⟩ := h
  have hlive : (handleDie u.toNat != 0xFF && bit s.boot.diesFenced (handleDie u.toNat)) = false := by
    rcases hfence with h | h <;> simp [h]
  have hbound : ((s.checkUnit u.toNat).bound || (s.checkUnit u.toNat).until_.any fun n => decide (pic.toNat < n)) = true := by
    rwa [Bool.or_eq_true]
  exact if_neg (by simp only [hrun, hlive, hbound, hstart]; decide)

theorem checkValueComplete_holds (u : BitVec 32) (pic v : BitVec 64) : (checkValueComplete u pic v).Holds := by
  intro s ⟨hchecks, tag, x, rest, hqueue, htag⟩
  refine ⟨_, execCheckValueComplete_of_checksPic hchecks, tag, x, rest, hqueue, ?_⟩
  rw [hqueue, testValue_of_tag htag]
  simp [State.tested, CheckUnit.tested, b2n]

theorem checkValueEmpty_holds (u : BitVec 32) (pic v : BitVec 64) : (checkValueEmpty u pic v).Holds := by
  intro s ⟨hchecks, hqueue⟩
  refine ⟨_, execCheckValueComplete_of_checksPic hchecks, ?_⟩
  dsimp only [checkValueEmpty]
  rw [hqueue]
  cases hraised : (s.checkUnit u.toNat).emptyRaised <;> simp [State.tested, CheckUnit.tested, testValue, hraised, b2n]

theorem checkValueAhead_holds (u : BitVec 32) (pic v : BitVec 64) : (checkValueAhead u pic v).Holds := by
  intro s ⟨hchecks, n, x, rest, hqueue, hbefore⟩
  refine ⟨_, execCheckValueComplete_of_checksPic hchecks, ?_⟩
  dsimp only [checkValueAhead]
  rw [hqueue, testValue_of_before hbefore]
  simp [State.tested, CheckUnit.tested, b2n]

theorem checkValueMissed_holds (u : BitVec 32) (pic v : BitVec 64) : (checkValueMissed u pic v).Holds := by
  intro s ⟨hchecks, n, x, y, rest, hqueue, hafter, hx⟩
  refine ⟨_, execCheckValueComplete_of_checksPic hchecks, n, x, y, rest, hqueue, ?_⟩
  rw [hqueue, testValue_of_after hafter, testValue_of_tag (.inr rfl), ← hx]
  simp [State.tested, CheckUnit.tested, b2n]

theorem checkValueStale_holds (u : BitVec 32) (pic v : BitVec 64) : (checkValueStale u pic v).Holds := by
  intro s ⟨hdie, hfence⟩
  exact ⟨s, if_pos (by simp [hdie, hfence]), rfl⟩

/-! ### SDI outputs -/

theorem sdiOutPictureBoundary_holds (l : Fin 8) : (sdiOutPictureBoundary l).Holds := by
  intro s ⟨hrun, hout, hmode, htest, hdue⟩
  refine ⟨_, if_neg ?_, rfl⟩
  simpa [hrun, hout, hmode, htest] using hdue

theorem sdiOutEarly_holds (l : Fin 8) : (sdiOutEarly l).Holds := by
  intro s ⟨hdec, hearly⟩
  exact ⟨s, if_pos (by simp [hdec, hearly]), rfl⟩

end Sys2Proof.Claims

namespace Sys2Proof

open Claims

/-- Settles O31: each claim is the branch of its meaning that its condition selects. -/
theorem decodeEventsTakeEffect : Obligations.DecodeEventsTakeEffect :=
  ⟨decoderAuArrival_holds, decoderAuRejected_holds, decoderAuSkipped_holds, decodePictureDone_holds, decodePictureFull_holds,
    decodePictureEmpty_holds, checkValueComplete_holds, checkValueEmpty_holds, checkValueAhead_holds, checkValueMissed_holds,
    checkValueStale_holds, sdiOutPictureBoundary_holds, sdiOutEarly_holds⟩

end Sys2Proof
end

section
/-!
O6. The composition commands: checks of one kind on each of several dies, what each command answers from its description's
`run`, and the obligation.
-/

namespace Sys2Proof.Machine

/-- A check of each of several dies passes when it passes for each. -/
theorem firstFail_map_eq_none {α : Type} {l : List α} {f : α → Bool × Reply} (h : ∀ d ∈ l, (f d).1 = false) :
    firstFail (l.map f) = none :=
  firstFail_eq_none_iff.mpr (List.forall_mem_map.mpr h)

end Sys2Proof.Machine

namespace Sys2Proof.Claims

open Machine Sys2Proof

/-! ### Colour and layers -/

theorem composeSet_holds (c : Submission) : (composeSet c).Holds := by
  refine eciClaim_holds rfl (fun _ => rfl) fun k s ⟨henc, hidle⟩ => ?_
  dsimp only [specComposeSet]
  rw [State.checked_notIdle henc hidle]
  rfl

theorem layerCreate_holds (c : Submission) : (layerCreate c).Holds := by
  dsimp only [layerCreate]
  refine eciClaim_holds rfl (fun _ => rfl) fun k s ⟨henc, hformat, hfew, hdies, hroom, l, t, hnew, hmap⟩ => ?_
  obtain ⟨⟨as, u⟩, hmap⟩ := Option.isSome_iff_exists.mp hmap
  refine ⟨l, t, as, u, hnew, hmap, ?_⟩
  dsimp only [specLayerCreate]
  rw [checked_pass, hnew]
  · dsimp only
    rw [hmap]
    refine ⟨_, rfl, ?_⟩
    have hnone : List.replicate 16 0 = le 8 0 ++ le 8 0 := rfl
    have hlast : (if u8 k.payload 5 = 2 then as.getD (u8 k.payload 5 + 1) 0 else 0) =
        if u8 k.payload 5 = 2 then as.getD 3 0 else 0 := ite_congr rfl (fun h => by rw [h]) fun _ => rfl
    rw [hnone, hlast]
    by_cases htwo : 1 < (s.ch k.tok.handle).dies.length <;>
      simp [htwo, u64, fieldAt_le, fieldAt_le_append, fieldAt_le_append_skip]
  · refine firstFail_append_eq_none ?_ (firstFail_map_eq_none fun d hd => bound_pass (hroom d hd))
    simpa [firstFail, State.notEncoder, henc, hformat, Nat.not_le.mpr hfew] using hdies

theorem layerSet_holds (c : Submission) : (layerSet c).Holds := by
  refine eciClaim_holds rfl (fun _ => rfl) fun k s ⟨hbuf, hformat, hfits⟩ => ?_
  dsimp only [specLayerSet]
  rw [checked_pass]
  · rfl
  · simp [firstFail, Nat.not_le.mpr hbuf, hformat, hfits]

theorem layerCommit_holds (c : Submission) : (layerCommit c).Holds := by
  refine eciClaim_holds rfl (fun _ => rfl) fun k s ⟨henc, hgeom, hline, hload⟩ => ?_
  dsimp only [specLayerCommit]
  rw [checked_pass]
  · rfl
  · refine firstFail_append_eq_none ?_ (firstFail_map_eq_none fun d hd => bound_pass (hload d hd))
    simp [firstFail, State.notEncoder, henc, hgeom, hline]

theorem layerDestroy_holds (c : Submission) : (layerDestroy c).Holds :=
  eciClaim_holds rfl (fun _ => rfl) fun _ _ _ => rfl

theorem layerQuery_holds (c : Submission) : (layerQuery c).Holds := by
  refine eciClaim_holds rfl (fun _ => rfl) fun k s _ => ⟨_, rfl, by simp, ?_, ?_⟩
  · exact slice_append_left _ (length_slice ..)
  · simp [slice_append_right, slice_self]

/-! ### Scaling -/

theorem renditionScale_holds (c : Submission) : (renditionScale c).Holds := by
  dsimp only [renditionScale]
  refine eciClaim_holds rfl (fun _ => rfl) fun k s ⟨henc, hidle, hparent, hline⟩ => ?_
  dsimp only [specRenditionScale]
  rw [State.checked_notIdle henc hidle, checked_pass]
  · rfl
  · simp [firstFail, hparent, hline]

theorem scalerCoefSet_holds (c : Submission) : (scalerCoefSet c).Holds := by
  refine eciClaim_holds rfl (fun _ => rfl) fun k s ⟨hgate, hdie, huse⟩ => ?_
  refine (State.gated_of_dieGate hgate).trans (checked_pass _ _ _ ?_)
  simp [firstFail, hdie, huse]

theorem scalerCoefGet_holds (c : Submission) : (scalerCoefGet c).Holds := by
  refine eciClaim_holds rfl (fun _ => rfl) fun k s ⟨hgate, hdie⟩ => ?_
  refine ⟨_, (State.gated_of_dieGate hgate).trans (if_neg hdie), ?_, fun hcustom => ?_, fun hfixed => ?_⟩
  · simp [u8, fieldAt_le_append]
  · rw [if_pos hcustom]
    exact List.drop_left' (by simp)
  · rw [if_neg hfixed]
    exact List.drop_left' (by simp)

end Sys2Proof.Claims

namespace Sys2Proof

open Claims

/-- Settles O6: each claim from its command's `run`. -/
theorem compositionCommandsComplete : Obligations.CompositionCommandsComplete :=
  fun c => ⟨composeSet_holds c, layerCreate_holds c, layerSet_holds c, layerCommit_holds c, layerDestroy_holds c,
    layerQuery_holds c, renditionScale_holds c, scalerCoefSet_holds c, scalerCoefGet_holds c⟩

end Sys2Proof
end

section
/-!
O8. The audio commands: what each command answers from its description's `run`, and the obligation.
-/

namespace Sys2Proof.Claims

open Machine Sys2Proof

/-! ### Ports and frame clocks -/

theorem audioPortSet_holds (c : Submission) : (audioPortSet c).Holds := by
  refine eciClaim_holds rfl (fun _ => rfl) fun k s ⟨hon, hoff, hrate, hfamily⟩ => ?_
  have hon : (u8 k.payload 0 != 0) = true := bne_iff_ne.mpr hon
  dsimp only [specAudioPortSet]
  rw [checked_pass]
  · simp only [hon, Bool.true_and, if_true]
    rfl
  · simp only [firstFail_eq_none_iff, List.forall_mem_cons]
    refine ⟨by rw [hoff, hon]; rfl, by simp [Nat.not_lt.mpr hrate], ?_, nofun⟩
    by_cases hmaster : u8 k.payload 1 = 0
    · simp [hmaster, hfamily hmaster]
    · simp [hmaster]

theorem audioPortSetOff_holds (c : Submission) : (audioPortSetOff c).Holds := by
  refine eciClaim_holds rfl (fun _ => rfl) fun k s (hoff : u8 k.payload 0 = 0) => ?_
  have hoff : (u8 k.payload 0 != 0) = false := by simp [hoff]
  dsimp only [specAudioPortSet]
  simp only [hoff, Bool.false_and]
  rfl

theorem audioPortSlots_holds (c : Submission) : (audioPortSlots c).Holds := by
  dsimp only [audioPortSlots]
  refine eciClaim_holds rfl (fun _ => rfl) fun k s ⟨hmode, hin, hout, hmap, huse⟩ => ?_
  dsimp only [specAudioPortSlots]
  rw [checked_pass]
  · rfl
  · simp only [firstFail_eq_none_iff, List.forall_mem_cons]
    refine ⟨beq_false_of_ne hmode, ?_, ?_, ?_, nofun⟩
    · rw [decide_eq_false (Nat.not_le.mpr hin), decide_eq_false (Nat.not_le.mpr hout)]
      rfl
    · exact List.any_eq_false.mpr fun e he => by simp [hmap e he]
    · rw [List.findSome?_eq_none_iff.mpr fun e he => by rw [huse e he]]
      rfl

theorem audioPortQuery_holds (c : Submission) : (audioPortQuery c).Holds := by
  refine eciClaim_holds rfl (fun _ => rfl) fun k s _ => ⟨_, rfl, ?_⟩
  simp only [List.flatMap_cons, List.flatMap_nil, List.append_assoc, List.append_nil]
  refine ⟨?_, ?_, ?_, ?_, ?_, ?_, ?_, ?_, ?_, ?_, ?_⟩
  case refine_11 => rfl
  all_goals simp [u8, u32, fieldAt_le_append, fieldAt_le_append_skip]

theorem frameClockSet_holds (c : Submission) : (frameClockSet c).Holds := by
  refine eciClaim_holds rfl (fun _ => rfl) fun k s ⟨hfree, hhz⟩ => ?_
  dsimp only [specFrameClockSet]
  rw [checked_pass]
  · rfl
  · simp only [firstFail_eq_none_iff, List.forall_mem_cons]
    refine ⟨List.any_eq_false.mpr fun e he => ?_, ?_, nofun⟩
    · simpa using hfree e he
    · rcases hhz with h | h | h | h <;> simp [h]

/-! ### Programs -/

theorem audioProgramCreate_holds (c : Submission) : (audioProgramCreate c).Holds := by
  refine eciClaim_holds rfl (fun _ => rfl) fun k s ⟨hrules, h, t, hnew, hasrc⟩ => ?_
  obtain ⟨⟨x, u⟩, hasrc⟩ := Option.isSome_iff_exists.mp hasrc
  refine ⟨h, t, x, u, hnew, hasrc, ?_⟩
  dsimp only [specAudioProgramCreate]
  rw [checked_pass _ _ _ hrules, hnew]
  dsimp only
  rw [hasrc]
  refine ⟨_, _, rfl, ?_⟩
  simp only [List.append_assoc]
  refine ⟨by simp, ?_, ?_, rfl, rfl⟩ <;>
    simp [u32, fieldAt_le, fieldAt_le_append, fieldAt_le_append_skip]

theorem audioProgramSet_holds (c : Submission) : (audioProgramSet c).Holds :=
  eciClaim_holds rfl (fun _ => rfl) fun _ _ _ => rfl

theorem audioProgramDestroy_holds (c : Submission) : (audioProgramDestroy c).Holds := by
  refine eciClaim_holds rfl (fun _ => rfl) fun k s (hfree : s.programUsed k.tok.handle = false) => ?_
  dsimp only [specAudioProgramDestroy]
  refine ⟨_, checked_pass _ _ _ (by simp [firstFail, hfree]), ?_⟩
  cases (s.audio.programs.look {} k.tok.handle).asrc <;> exact ⟨rfl, rfl⟩

theorem audioProgramQuery_holds (c : Submission) : (audioProgramQuery c).Holds := by
  refine eciClaim_holds rfl (fun _ => rfl) fun k s _ => ⟨_, rfl, ?_⟩
  simp only [List.append_assoc]
  refine ⟨slice_append_left _ (length_slice ..), ?_, ?_, ?_⟩ <;>
    simp [u64, fieldAt_append_right, fieldAt_le, fieldAt_le_append]

/-! ### Converters and rates -/

theorem asrcQuery_holds (c : Submission) : (asrcQuery c).Holds := by
  refine eciClaim_holds rfl (fun _ => rfl) fun k s _ => ⟨_, rfl, by simp, ?_, ?_, ?_⟩
  case refine_2 =>
    simp only [List.append_assoc, u32, State.heldOf_captureGroup, fieldAt_le_append_skip, Nat.le_refl, Nat.sub_self,
      fieldAt_le_append]
    exact Nat.mod_eq_of_lt ((b2n_lt_256 _).trans (by decide))
  all_goals simp [u32, u64, fieldAt_le, fieldAt_le_append, fieldAt_le_append_skip]

theorem audioRateQuery_holds (c : Submission) : (audioRateQuery c).Holds := by
  refine eciClaim_holds rfl (fun _ => rfl) fun k s _ => ⟨_, rfl, by simp, ?_, ?_, ?_⟩ <;>
    simp [u8, u32, u64, fieldAt_le, fieldAt_le_append, fieldAt_le_append_skip]

/-! ### Embedding -/

theorem audioEmbedSet_holds (c : Submission) : (audioEmbedSet c).Holds := by
  dsimp only [audioEmbedSet]
  refine eciClaim_holds rfl (fun _ => rfl) fun k s ⟨hout, hgroups⟩ => ?_
  dsimp only [specAudioEmbedSet]
  rw [checked_pass]
  · rfl
  · simp only [firstFail_eq_none_iff, List.forall_mem_cons]
    refine ⟨by simp [hout], ?_, ?_, ?_, nofun⟩
    · rw [List.findSome?_eq_none_iff.mpr fun g hg => (hgroups g hg).1]
      rfl
    · refine List.any_eq_false.mpr fun g hg => ?_
      obtain ⟨-, hgroup, hkind, hrate, hchans, -⟩ := hgroups g hg
      simp [Nat.not_le.mpr hgroup, hkind, hrate, Nat.not_lt.mpr hchans]
    · refine List.any_eq_false.mpr fun g hg => ?_
      obtain ⟨-, -, -, -, -, hclock⟩ := hgroups g hg
      simp [hclock]

end Sys2Proof.Claims

namespace Sys2Proof

open Claims

/-- Settles O8: each claim from its command's `run`. -/
theorem audioCommandsComplete : Obligations.AudioCommandsComplete :=
  fun c => ⟨audioPortSet_holds c, audioPortSetOff_holds c, audioPortSlots_holds c, audioPortQuery_holds c,
    frameClockSet_holds c, audioProgramCreate_holds c, audioProgramSet_holds c, audioProgramDestroy_holds c,
    audioProgramQuery_holds c, asrcQuery_holds c, audioRateQuery_holds c, audioEmbedSet_holds c⟩

end Sys2Proof
end

section
/-!
O32 and O60. Audio in the data plane: frames of a port, what samples of a program come to, one lemma for each claim, and the
obligations.
-/

namespace Sys2Proof.Machine

variable {s : State}

/-! ### Frames of a port (R294, R297) -/

/-- An edge of a port that runs, or ends at this frame, starts a frame now: a master port's not before its sample period is
over. -/
def State.edgeDue (s : State) (i : Nat) : Prop :=
  let q := s.audio.ports.look {} i
  s.planeRuns = true ∧ (q.mode ≠ 0 ∨ q.ending = true) ∧
    (q.role = 1 ∨ ∀ l, q.lastFsync = some l → l + 1000000000 / rateHz q.rate ≤ s.now)

/-- A frame of a port begins that was `q` before its edge: its ramps and its count go on, sets that wait for the frame apply, and
the port sends. -/
def State.startFrame (s : State) (i : Nat) (q : AudioPort) : State :=
  let ramps := q.outGains.filterMap fun e => (s.slotRamp q e.1 e.2).map fun g => (e.1, g)
  let u := (s.modAp i fun q => { q with
    outGains := ramps, frames := if q.lastFsync.isSome = true then q.frames + 1 else q.frames
    lastFsync := some s.now }).frameBoundary i
  u.modAp i fun q => { q with sdout := if q.mode = 0 then [] else u.outFrame q }

/-- No time before `t` is the last one of an option. -/
theorem any_before_eq_false {o : Option Nat} {d t : Nat} (h : ∀ l, o = some l → l + d ≤ t) :
    (o.any fun l => decide (t < l + d)) = false := by
  cases o with
  | none => rfl
  | some l => exact decide_eq_false (Nat.not_lt.mpr (h l rfl))

/-- An edge that is due is judged, as the return of a lost clock or as a framing error, and starts a frame. -/
theorem execAudioFsyncEdge_of_due {i : Fin 8} {good : Bool} (h : s.edgeDue i.val) :
    let q := s.audio.ports.look {} i.val
    let u := if q.clockLost = true then (s.modAp i.val fun q => { q with clockLost := false }).portEvent i.val 2 else s
    execAudioFsyncEdge i good s = .next (State.startFrame
      (if (!good && q.role == 1 && q.lastFsync.isSome && !q.clockLost) = true then
        (u.modAp i.val fun q => { q with
          framingErrors := q.framingErrors + 1, framingSince := q.framingSince + 1 }).portEvent i.val 3
      else u) i.val q) := by
  obtain ⟨hrun, hon, hdue⟩ := h
  refine if_neg ?_
  have hoff : ((s.audio.ports.look {} i.val).mode == 0 && !(s.audio.ports.look {} i.val).ending) = false := by
    rcases hon with h | h
    · rw [beq_false_of_ne h, Bool.false_and]
    · rw [h, Bool.not_true, Bool.and_false]
  have hearly : ((s.audio.ports.look {} i.val).role == 0 && (s.audio.ports.look {} i.val).lastFsync.any fun t =>
      decide (s.now < t + 1000000000 / rateHz (s.audio.ports.look {} i.val).rate)) = false := by
    rcases hdue with h | h
    · rw [h]; rfl
    · rw [any_before_eq_false h, Bool.and_false]
  rw [hrun, hoff, hearly]
  decide

/-! ### Samples (R303, R307, R311) -/

/-- The time of a source's first sample belongs to no program. -/
theorem State.fixTe_programs (h n : Nat) : (s.fixTe h n).audio.programs = s.audio.programs := by
  unfold State.fixTe
  split <;> rfl

/-- A sample of a position that has passed, or is due, is late: it is counted and changes nothing else (R307). -/
theorem State.takeSample_of_late {g : Program} {k : Nat} (vals : Tab Int) (h : k < g.next ∨ s.positionDue g k = true) :
    s.takeSample g vals k = { g with late := g.late + 1 } :=
  if_pos (by simpa using h)

/-- The state in which samples of a program are judged: the time of its source's first sample is fixed, and an ASRC whose range
they leave has lost lock (R304, R311). -/
def State.beforeSamples (s : State) (h : Nat) (x : AudioSamples) : State :=
  let u := s.fixTe (s.audio.programs.look {} h).source x.first.toNat
  match (s.audio.programs.look {} h).asrc with
  | some a => if x.inRange = true then u else u.unlockAsrc a
  | none => u

/-- Without an ASRC, and behind one in its range, only the time of the first sample is fixed. -/
theorem State.beforeSamples_of_inRange {h : Nat} {x : AudioSamples}
    (hrange : (s.audio.programs.look {} h).asrc = none ∨ x.inRange = true) :
    s.beforeSamples h x = s.fixTe (s.audio.programs.look {} h).source x.first.toNat := by
  unfold State.beforeSamples
  dsimp only
  split
  · next a hasrc => exact if_pos (hrange.resolve_left (by simp [hasrc]))
  · rfl

/-- Samples outside the range of a program's ASRC make it lose lock. -/
theorem State.beforeSamples_of_outOfRange {h a : Nat} {x : AudioSamples}
    (hasrc : (s.audio.programs.look {} h).asrc = some a) (hrange : x.inRange = false) :
    s.beforeSamples h x = (s.fixTe (s.audio.programs.look {} h).source x.first.toNat).unlockAsrc a := by
  unfold State.beforeSamples
  rw [hasrc, hrange]
  rfl

/-- A program takes samples of its source position by position, and reports the ones that came too early. -/
def State.takeSamples (s : State) (h : Nat) (x : AudioSamples) : State :=
  let g := s.audio.programs.look {} h
  let chans := s.fedChannels g x.present.toNat
  let base := s.samplePosition g x.first.toNat
  let rows := x.rows.map (s.sourceSamples g)
  let input := g.input ++ rows
  let fed : Program := if g.asrc.isSome = true then { g with input := input.drop (input.length - 4096) } else g
  let n := if fed.asrc.isSome = true then x.positions.toNat else rows.length
  let y := (List.range n).foldl (fun y i =>
    s.takeSample y (s.positionValues y chans (rows.getD i []) (base + i)) (base + i)) fed
  (s.modProg h fun _ => y).reportOverrun h

/-- One row of samples that comes late is counted and nothing else, without an ASRC (R307). -/
theorem State.takeSamples_of_late {h : Nat} {first mask : BitVec 64} {row : List (BitVec 32)}
    (hasrc : (s.audio.programs.look {} h).asrc = none)
    (hlate : s.samplePosition (s.audio.programs.look {} h) first.toNat < (s.audio.programs.look {} h).next ∨
      s.positionDue (s.audio.programs.look {} h) (s.samplePosition (s.audio.programs.look {} h) first.toNat) = true) :
    let g := s.audio.programs.look {} h
    s.takeSamples h { first, rows := [row], present := mask } =
      (s.modProg h fun _ => { g with late := g.late + 1 }).reportOverrun h := by
  simp [State.takeSamples, hasrc, State.takeSample_of_late _ hlate]

/-- Samples of a program are taken when they reach a channel, at the rate that it needs and in the range of its ASRC. -/
theorem execAudioSampleArrival_of_program {p : BitVec 32} (x : AudioSamples) (hrun : s.planeRuns = true)
    (hprog : s.audio.programs.has p.toNat = true) :
    let u := s.beforeSamples p.toNat x
    let g := u.audio.programs.look {} p.toNat
    execAudioSampleArrival p x s = .next (
      if ((u.fedChannels g x.present.toNat).isEmpty || u.rateLost g || (g.asrc.isSome && !x.inRange)) = true then u
      else u.takeSamples p.toNat x) := by
  simp only [apply_ite Host.Outcome.next]
  exact if_neg (by simp [hrun, hprog])

end Sys2Proof.Machine

namespace Sys2Proof.Claims

open Machine Sys2Proof

/-! ### Ports -/

theorem audioFsyncEdge_holds (i : Fin 8) : (audioFsyncEdge i).Holds := by
  intro s ⟨hrun, hon, hclock, hdue⟩
  refine ⟨_, execAudioFsyncEdge_of_due ⟨hrun, hon, hdue⟩, ?_⟩
  rw [hclock]
  rfl

theorem audioFramingError_holds (i : Fin 8) : (audioFramingError i).Holds := by
  intro s ⟨hrun, hon, hslave, hclock, hlast⟩
  refine ⟨_, execAudioFsyncEdge_of_due ⟨hrun, hon, .inl hslave⟩, ?_⟩
  rw [hclock, hslave, hlast]
  rfl

theorem audioClockReturn_holds (i : Fin 8) (good : Bool) : (audioClockReturn i good).Holds := by
  intro s ⟨hrun, hmode, hslave, hclock⟩
  refine ⟨_, execAudioFsyncEdge_of_due ⟨hrun, .inl hmode, .inl hslave⟩, ?_⟩
  rw [hclock, Bool.not_true, Bool.and_false]
  rfl

theorem audioClockLoss_holds (i : Fin 8) : (audioClockLoss i).Holds := by
  intro s ⟨hrun, hmode, hslave, hclock, hlate⟩
  refine ⟨_, if_neg ?_, rfl⟩
  rw [hrun, hslave, hclock, beq_false_of_ne hmode, any_before_eq_false hlate]
  decide

/-! ### Samples and their delivery -/

theorem audioSampleArrival_holds (p : BitVec 32) (x : AudioSamples) : (audioSampleArrival p x).Holds := by
  intro s ⟨hrun, hprog, hrange, hkept, hfed, hrate⟩
  refine ⟨_, execAudioSampleArrival_of_program x hrun hprog, ?_⟩
  rw [State.beforeSamples_of_inRange hrange]
  refine if_neg ?_
  rcases hkept with h | h <;> simp [hfed, hrate, h]

theorem audioSamplesOutOfRange_holds (p : BitVec 32) (x : AudioSamples) (a : Nat) : (audioSamplesOutOfRange p x a).Holds := by
  intro s ⟨hrun, hprog, hrange, hasrc, hkept⟩
  refine ⟨_, execAudioSampleArrival_of_program x hrun hprog, ?_⟩
  rw [State.beforeSamples_of_outOfRange hasrc hrange]
  exact if_pos (by simp [hrange, hkept])

theorem audioSamplesRateLost_holds (p : BitVec 32) (x : AudioSamples) : (audioSamplesRateLost p x).Holds := by
  intro s ⟨hrun, hprog, hasrc, hlost⟩
  refine ⟨_, execAudioSampleArrival_of_program x hrun hprog, ?_⟩
  rw [State.beforeSamples_of_inRange (.inl hasrc)]
  exact if_pos (by simp [hlost])

theorem audioPositionDelivery_holds (p : BitVec 32) : (audioPositionDelivery p).Holds := by
  intro s ⟨hrun, hprog, hdue⟩
  refine ⟨_, if_neg (by simp [hrun, hprog, hdue]), ?_⟩
  simp only [audioPositionDelivery, Bool.and_eq_true, beq_iff_eq, and_assoc]

theorem audioPositionEarly_holds (p : BitVec 32) : (audioPositionEarly p).Holds :=
  fun s (hearly : s.positionDue _ _ = false) => ⟨s, if_pos (by simp [hearly]), rfl⟩

/-! ### Rates, converters and DSPs -/

theorem rateWindowEnd_holds (h : BitVec 32) (f : BitVec 64) (n : BitVec 32) : (rateWindowEnd h f n).Holds := by
  intro s ⟨hrun, hmeasured, hover⟩
  refine ⟨_, if_neg ?_, rfl⟩
  rcases hover with h | h
  · simp [hrun, hmeasured, h]
  · simp [hrun, hmeasured, Nat.not_lt.mpr h]

theorem asrcLock_holds (n : Fin 64) (ratio : BitVec 64) : (asrcLock n ratio).Holds := by
  intro s ⟨hrun, hasrc, hfree⟩
  exact ⟨_, if_neg (by rw [hrun, hasrc, hfree]; decide), rfl⟩

theorem aacAuDone_holds (p : BitVec 32) (data : List Byte) : (aacAuDone p data).Holds := by
  intro s ⟨hrun, howes, hloud, hdsp⟩
  obtain ⟨d, hdsp⟩ := Option.isSome_iff_exists.mp hdsp
  refine ⟨_, ?_, d, hdsp, rfl⟩
  change execAacAuDone p data s = _
  unfold execAacAuDone
  dsimp only
  rw [hdsp]
  exact if_neg (by rw [hrun, howes, hloud]; decide)

theorem dspWatchdog_holds (d : Fin 4) : (dspWatchdog d).Holds := by
  intro s ⟨hrun, hfree, hlate, howes⟩
  exact ⟨_, if_neg (by rw [hrun, hfree, howes, decide_eq_false (Nat.not_lt.mpr hlate)]; decide), rfl⟩

theorem dspRestartDone_holds (d : Fin 4) : (dspRestartDone d).Holds := by
  intro s ⟨hrun, hrestart⟩
  refine ⟨_, if_neg ?_, rfl⟩
  rw [hrun, Option.isNone_eq_false_iff.mpr hrestart]
  decide

end Sys2Proof.Claims

namespace Sys2Proof

open Claims Machine

/-- Settles O32: each claim is the branch of its meaning that its condition selects. -/
theorem audioEventsTakeEffect : Obligations.AudioEventsTakeEffect :=
  ⟨audioFsyncEdge_holds, audioFramingError_holds, audioClockReturn_holds, audioClockLoss_holds, audioSampleArrival_holds,
    audioSamplesOutOfRange_holds, audioSamplesRateLost_holds, audioPositionDelivery_holds, audioPositionEarly_holds,
    rateWindowEnd_holds, asrcLock_holds, aacAuDone_holds, dspWatchdog_holds, dspRestartDone_holds⟩

/-- Settles O60: a row of samples for one position is taken as that position's, and a late one is only counted. -/
theorem lateSamplesAreDiscarded : Obligations.LateSamplesAreDiscarded := by
  intro s p first mask row hrun hprog hasrc u g k hfed hrate hlate
  have hg : g.asrc = none := by rwa [← State.fixTe_programs] at hasrc
  obtain ⟨t, ht, htaken⟩ := audioSampleArrival_holds p { first, rows := [row], present := mask } s
    ⟨hrun, hprog, .inl hasrc, .inl hg, hfed, hrate⟩
  exact ht.trans (congrArg _ (htaken.trans (State.takeSamples_of_late hg hlate)))

end Sys2Proof
end

section
/-!
O9. The ingress, egress and traffic commands: when the fields of a payload are all in range, what each command answers from its
description's `run`, and the obligation.
-/

namespace Sys2Proof.Machine

/-- A form passes when each of its fields is in range. -/
theorem formFail_eq_none_iff {fs : List (Nat × Bool)} : formFail fs = none ↔ ∀ f ∈ fs, f.2 = true := by
  induction fs with
  | nil => simp [formFail]
  | cons f fs ih =>
    obtain ⟨off, ok⟩ := f
    cases ok <;> simp [formFail, ih]

end Sys2Proof.Machine

namespace Sys2Proof.Claims

open Machine Sys2Proof

/-! ### Ingress streams -/

theorem ingressCreate_holds (c : Submission) : (ingressCreate c).Holds := by
  refine eciClaim_holds rfl (fun _ => rfl) fun k s ⟨hformat, hpresent, halone, hquota, hnew⟩ => ?_
  obtain ⟨⟨h, t⟩, hnew⟩ := Option.isSome_iff_exists.mp hnew
  refine ⟨h, t, hnew, ?_⟩
  dsimp only [specIngressCreate]
  rw [checked_pass, hnew]
  · rfl
  · simp only [firstFail_eq_none_iff, List.forall_mem_cons]
    refine ⟨by rw [hformat]; rfl, ?_, hquota, nofun⟩
    rw [Bool.or_eq_false_iff]
    refine ⟨List.any_eq_false.mpr fun m hm => by simp [hpresent m hm], List.any_eq_false.mpr fun e he => ?_⟩
    simpa using halone e he

theorem ingressDestroy_holds (c : Submission) : (ingressDestroy c).Holds := by
  refine eciClaim_holds rfl (fun _ => rfl) fun k s (hfree : s.ingressUsed k.tok.handle = false) => ?_
  dsimp only [specIngressDestroy]
  exact checked_pass _ _ _ (by simp [firstFail, hfree])

theorem ingressQuery_holds (c : Submission) : (ingressQuery c).Holds := by
  refine eciClaim_holds rfl (fun _ => rfl) fun k s _ => ⟨_, rfl, ?_⟩
  simp only [List.append_assoc, State.heldOf_captureGroup]
  refine ⟨by simp, ?_, ?_, ?_, ?_, ?_, ?_, ?_⟩ <;>
    simp [u8, u64, fieldAt_le, fieldAt_le_append, fieldAt_le_append_skip]

/-! ### Egress streams -/

theorem egressCreate_holds (c : Submission) : (egressCreate c).Holds := by
  refine eciClaim_holds rfl (fun _ => rfl) fun k s ⟨huse, hrules, hquota, hadmit, hnew⟩ => ?_
  obtain ⟨⟨h, t⟩, hnew⟩ := Option.isSome_iff_exists.mp hnew
  refine ⟨h, t, hnew, ?_⟩
  dsimp only [specEgressCreate]
  rw [checked_pass, hnew]
  · rfl
  · refine firstFail_append_eq_none (firstFail_append_eq_none (firstFail_append_eq_none ?_ hrules) ?_) hadmit
    · rw [huse]; rfl
    · simp [firstFail, hquota]

theorem egressSet_holds (c : Submission) : (egressSet c).Holds := by
  refine eciClaim_holds rfl (fun _ => rfl) fun k s ⟨hform, hrules, hadmit⟩ => ?_
  dsimp only [specEgressSet]
  rw [hform]
  exact checked_pass _ _ _ (firstFail_append_eq_none hrules hadmit)

theorem egressDestroy_holds (c : Submission) : (egressDestroy c).Holds := by
  refine eciClaim_holds rfl (fun _ => rfl) fun k s ⟨hdec, hcheck⟩ => ?_
  dsimp only [specEgressDestroy]
  refine (checked_pass _ _ _ ?_).trans rfl
  simpa [firstFail, hcheck] using hdec

theorem egressQuery_holds (c : Submission) : (egressQuery c).Holds := by
  refine eciClaim_holds rfl (fun _ => rfl) fun k s _ => ⟨_, rfl, ?_⟩
  simp only [List.append_assoc, State.heldOf_captureGroup]
  refine ⟨by simp, ?_, ?_, ?_, ?_, ?_, ?_⟩
  case refine_6 => simp [u8, fieldAt_le, fieldAt_le_append_skip, Nat.mod_eq_of_lt (b2n_lt_256 _)]
  all_goals simp [u64, fieldAt_le_append, fieldAt_le_append_skip]

theorem egressProvenance_holds (c : Submission) : (egressProvenance c).Holds := by
  refine eciClaim_holds rfl (fun _ => rfl) fun k s ⟨hkind, hrate, hload⟩ => ?_
  dsimp only [specEgressProvenance]
  refine (checked_pass _ _ _ ?_).trans rfl
  simp only [firstFail_eq_none_iff, List.forall_mem_cons]
  refine ⟨decide_eq_false (Nat.not_lt.mpr hkind), ?_, bound_pass hload, nofun⟩
  by_cases hon : u8 k.payload 0 = 1
  · rcases hrate hon with h | h <;> simp [h]
  · simp [hon]

theorem egressKey_holds (c : Submission) : (egressKey c).Holds := by
  refine eciClaim_holds rfl (fun _ => rfl) fun k s ⟨hvideo, hanc, hext, hkey⟩ => ?_
  dsimp only [specEgressKey]
  generalize s.net.egress.look {} k.tok.handle = g at hvideo hanc hext ⊢
  rw [formFail_eq_none_iff.mpr]
  · refine (checked_pass _ _ _ ?_).trans rfl
    simp only [firstFail_eq_none_iff, List.forall_mem_cons]
    refine ⟨by simp [hvideo, hanc], ?_, ?_, nofun⟩
    · split
      · rfl
      · next hne => rw [(hkey hne).1]; rfl
    · by_cases hnone : u32 k.payload 0 = 0
      · simp [hnone]
      · simpa [hnone] using (hkey hnone).2
  · simp only [List.forall_mem_singleton]
    rcases hext with h | h | h <;> simp [h]

theorem egressImpair_holds (c : Submission) : (egressImpair c).Holds := by
  refine eciClaim_holds rfl (fun _ => rfl) fun k s ⟨hmask, hseed, hmode, hlow, hhigh, hfew, hmany, hprob, hdelay⟩ => ?_
  dsimp only [specEgressImpair]
  generalize s.net.egress.look {} k.tok.handle = g at hmask ⊢
  refine (checked_pass _ _ _ ?_).trans rfl
  simp only [firstFail_eq_none_iff, List.forall_mem_cons, Bool.or_eq_false_iff, and_assoc]
  refine ⟨?_, ?_, beq_false_of_ne hseed, decide_eq_false (Nat.not_le.mpr hmode), decide_eq_false (by omega),
    decide_eq_false (by omega), ?_, ?_, nofun⟩
  · exact decide_eq_false (by split at hmask <;> omega)
  · by_cases hts : g.kind = 7 ∨ g.kind = 8
    · rcases hts with h | h <;> simp [h]
    · rw [if_neg hts] at hmask
      rw [decide_eq_false (Nat.not_le.mpr hmask), Bool.and_false]
  · exact List.any_eq_false.mpr fun i hi => by simpa using hprob i (List.mem_range.mp hi)
  · cases hon : bit (u8 k.payload 0) 5
    · rfl
    · have := hdelay hon
      exact decide_eq_false (by omega)

/-! ### Shapers and gate lists -/

theorem shaperSet_holds (c : Submission) : (shaperSet c).Holds := by
  refine eciClaim_holds rfl (fun _ => rfl) fun k s ⟨hrate, hburst, hslope⟩ => ?_
  dsimp only [specShaperSet]
  rw [formFail_eq_none_iff.mpr]
  · rfl
  · simp only [List.forall_mem_cons]
    refine ⟨by simpa [or_iff_not_imp_left] using hrate, by simpa [← imp_iff_not_or] using hburst, ?_, nofun⟩
    split at hslope
    · next h => simpa [h] using hslope
    · next h => simpa [h] using hslope

theorem gatelistSet_holds (c : Submission) : (gatelistSet c).Holds := by
  refine eciClaim_holds rfl (fun _ => rfl) fun k s hlong => ?_
  dsimp only [specGatelistSet]
  refine (checked_pass _ _ _ ?_).trans rfl
  simp [firstFail, hlong]

theorem gatelistQuery_holds (c : Submission) : (gatelistQuery c).Holds := by
  refine eciClaim_holds rfl (fun _ => rfl) fun k s _ => ⟨_, rfl, ?_⟩
  simp only [List.append_assoc]
  refine ⟨by simp, slice_append_left _ (length_slice ..), ?_, ?_⟩
  · rw [slice_append_right _ _ (by simp), length_slice, Nat.sub_self, slice_append_left _ (length_slice ..)]
  · simp [u64, fieldAt_append_right, fieldAt_le]

/-! ### Policers, ports and the arbiter -/

theorem policerCreate_holds (c : Submission) : (policerCreate c).Holds := by
  refine eciClaim_holds rfl (fun _ => rfl) fun k s ⟨hfree, htarget, hnew⟩ => ?_
  obtain ⟨⟨h, t⟩, hnew⟩ := Option.isSome_iff_exists.mp hnew
  refine ⟨h, t, hnew, ?_⟩
  dsimp only [specPolicerCreate]
  rw [checked_pass, hnew]
  · rfl
  · simpa [firstFail, htarget] using hfree

theorem policerSet_holds (c : Submission) : (policerSet c).Holds :=
  eciClaim_holds rfl (fun _ => rfl) fun _ _ _ => rfl

theorem policerDestroy_holds (c : Submission) : (policerDestroy c).Holds :=
  eciClaim_holds rfl (fun _ => rfl) fun _ _ _ => rfl

theorem portAddr_holds (c : Submission) : (portAddr c).Holds :=
  eciClaim_holds rfl (fun _ => rfl) fun _ _ _ => rfl

theorem arbiterMode_holds (c : Submission) : (arbiterMode c).Holds := by
  refine eciClaim_holds rfl (fun _ => rfl) fun k s ⟨hnone, hrate⟩ => ?_
  dsimp only [specArbiterMode]
  refine (checked_pass _ _ _ ?_).trans rfl
  simpa [firstFail, hnone] using hrate

end Sys2Proof.Claims

namespace Sys2Proof

open Claims

/-- Settles O9: each claim from its command's `run`. -/
theorem networkCommandsComplete : Obligations.NetworkCommandsComplete :=
  fun c => ⟨ingressCreate_holds c, ingressDestroy_holds c, ingressQuery_holds c, egressCreate_holds c, egressSet_holds c,
    egressDestroy_holds c, egressQuery_holds c, egressProvenance_holds c, egressKey_holds c, egressImpair_holds c,
    shaperSet_holds c, gatelistSet_holds c, gatelistQuery_holds c, policerCreate_holds c, policerSet_holds c,
    policerDestroy_holds c, portAddr_holds c, arbiterMode_holds c⟩

end Sys2Proof
end

section
/-!
O29. Frames received and sent: what a policer and a stream do with a frame, what a whole frame comes to at its port, one lemma for
each claim, and the obligation.
-/

namespace Sys2Proof.Machine

open Sys2Proof (RxFrame)

variable {s u : State} {f : RxFrame} {h path target bytes : Nat}

/-! ### Policers and streams (R322, R352) -/

/-- What no policer judges passes. -/
theorem State.police_of_no_policer (hnone : (s.net.policers.find? fun e => e.2.target == target) = none) :
    s.police target bytes = (true, s) := by
  unfold police
  rw [hnone]

/-- A policer with credit lets a frame pass, and pays its wire bytes. -/
theorem State.police_of_credit {q : Nat} {g : Policer}
    (hfind : s.net.policers.find? (fun e => e.2.target == target) = some (q, g)) (hcredit : 0 ≤ g.tokens) :
    s.police target bytes = (true, s.modNet fun n => { n with policers := n.policers.upd q fun g =>
      { g with tokens := g.tokens - wireTokens bytes } }) := by
  unfold police
  rw [hfind]
  exact if_pos hcredit

/-- A stream takes a packet that its checksum and its policer let through. -/
theorem State.ingressFrame_of_pass (hsum : f.badChecksum = false) (hpass : s.police h f.bytes.toNat = (true, u)) :
    s.ingressFrame f h path = u.ingressTake h path f := by
  simp [ingressFrame, hsum, hpass]

theorem State.ingressFrame_of_badChecksum (hsum : f.badChecksum = true) :
    s.ingressFrame f h path = s.modIng h fun g => { g with checksumDrops := g.checksumDrops + 1 } := by
  simp [ingressFrame, hsum]

/-- What a whole frame comes to at port `i`: a frame that no stream matches is judged by the port's policer and counted; one above
the ingress share is dropped; any other is judged and taken by each stream that it matches (R321, R323, R432). -/
def State.wholeFrame (s : State) (i : Nat) (f : RxFrame) : State :=
  if s.ingressMatches i f = [] then
    let v := if f.exempt = true then (true, s) else s.police (mkHandle tPort 0xFF i) f.bytes.toNat
    if v.1 = true ∧ f.management = false then v.2.modNp i fun p => { p with unmatched := p.unmatched + 1 } else v.2
  else if f.overShare = true then s.dropIngress i
  else (s.ingressMatches i f).foldl (fun s e => s.ingressFrame f e.1 e.2) s

/-- A frame that no stream matches and that its port's policer, if any, lets through is counted where it is not management's. -/
theorem State.wholeFrame_of_pass {i : Nat} (hnone : s.ingressMatches i f = [])
    (hpass : (if f.exempt = true then (true, s) else s.police (mkHandle tPort 0xFF i) f.bytes.toNat) = (true, u)) :
    s.wholeFrame i f =
      if f.management = true then u else u.modNp i fun p => { p with unmatched := p.unmatched + 1 } := by
  rw [wholeFrame, if_pos hnone, hpass]
  cases f.management <;> rfl

theorem State.wholeFrame_of_overShare {i : Nat} (hsome : s.ingressMatches i f ≠ []) (hshare : f.overShare = true) :
    s.wholeFrame i f = s.dropIngress i :=
  (if_neg hsome).trans (if_pos hshare)

theorem State.wholeFrame_of_matches {i : Nat} (hsome : s.ingressMatches i f ≠ []) (hshare : f.overShare = false) :
    s.wholeFrame i f = (s.ingressMatches i f).foldl (fun s e => s.ingressFrame f e.1 e.2) s :=
  (if_neg hsome).trans (if_neg (by simp [hshare]))

theorem State.wholeFrame_of_match {i : Nat} {e : Nat × Nat} (hone : s.ingressMatches i f = [e])
    (hshare : f.overShare = false) : s.wholeFrame i f = s.ingressFrame f e.1 e.2 := by
  rw [wholeFrame_of_matches (by simp [hone]) hshare, hone]
  rfl

end Sys2Proof.Machine

namespace Sys2Proof.Claims

open Machine Sys2Proof

variable {s : State} {i : Fin 18} {f : RxFrame}

/-! ### Frames at a port -/

/-- A port that is up, without a line test, counts the errors of its lane and discards what came spoilt, oversize, or as FEC or
RTCP. -/
theorem execIngressPacket_of_up (hup : s.portUp i.val = true) (htest : (s.ln (s.portLane i.val)).test = 0) :
    execIngressPacket i f s = .next (
      let u := received i f s
      if f.badFcs = true ∨ f.fecUncorr ≠ 0 then
        (u.modNp i.val fun p => { p with badFcs := p.badFcs + 1 }).modLn (s.portLane i.val) fun l =>
          { l with crcErr := l.crcErr + 1 }
      else if 9022 < f.bytes.toNat then u.modNp i.val fun p => { p with oversize := p.oversize + 1 }
      else if f.fecOrRtcp = true then u.modNp i.val fun p => { p with fecDropped := p.fecDropped + 1 }
      else u.wholeFrame i.val f) := by
  refine (if_neg (by simp [htest])).trans ((if_neg (by simp [hup])).trans ?_)
  simp only [apply_ite Host.Outcome.next]
  refine ite_congr (by simp) (fun _ => rfl) fun _ => ite_congr rfl (fun _ => rfl) fun _ => ite_congr rfl (fun _ => rfl) fun _ => ?_
  simp only [State.wholeFrame, apply_ite Host.Outcome.next]
  refine ite_congr ?_ (fun _ => ite_congr ?_ (fun _ => rfl) fun _ => rfl) fun _ => rfl
  · rw [List.isEmpty_iff]; rfl
  · rw [Bool.and_eq_true, Bool.not_eq_true']; rfl

/-- A whole frame comes to what `wholeFrame` says, with the errors of its lane counted. -/
theorem execIngressPacket_of_whole (hwhole : whole i f s) :
    execIngressPacket i f s = .next ((received i f s).wholeFrame i.val f) := by
  obtain ⟨hup, htest, hfcs, hfec, hsize, hkind⟩ := hwhole
  rw [execIngressPacket_of_up hup htest]
  dsimp only
  rw [if_neg (by simp [hfcs, hfec]), if_neg (Nat.not_lt.mpr hsize), if_neg (by simp [hkind])]

theorem ingressBad_holds (i : Fin 18) (f : RxFrame) : (ingressBad i f).Holds := by
  intro s ⟨hup, htest, hbad⟩
  refine ⟨_, execIngressPacket_of_up hup htest, ?_⟩
  refine ite_congr rfl (fun _ => rfl) fun hwhole => ite_congr rfl (fun _ => rfl) fun hsize => if_pos ?_
  exact (or_assoc.mpr hbad).elim (absurd · hwhole) fun h => h.resolve_left hsize

theorem ingressUnmatched_holds (i : Fin 18) (f : RxFrame) : (ingressUnmatched i f).Holds := by
  intro s ⟨hwhole, hnone, hmanagement, hexempt, hfree⟩
  refine ⟨_, execIngressPacket_of_whole hwhole, ?_⟩
  refine (State.wholeFrame_of_pass hnone ((if_neg (by simp [hexempt])).trans (State.police_of_no_policer hfree))).trans ?_
  exact if_neg (by simp [hmanagement])

theorem ingressExempt_holds (i : Fin 18) (f : RxFrame) : (ingressExempt i f).Holds :=
  fun _ ⟨hwhole, hnone, hexempt⟩ =>
    ⟨_, execIngressPacket_of_whole hwhole, State.wholeFrame_of_pass hnone (if_pos hexempt)⟩

theorem ingressBadChecksum_holds (i : Fin 18) (f : RxFrame) : (ingressBadChecksum i f).Holds := by
  intro s ⟨hwhole, hshare, hsum, e, hone⟩
  refine ⟨_, execIngressPacket_of_whole hwhole, e, hone, ?_⟩
  rw [State.wholeFrame_of_match hone hshare, State.ingressFrame_of_badChecksum hsum]

theorem ingressPacket_holds (i : Fin 18) (f : RxFrame) : (ingressPacket i f).Holds := by
  intro s ⟨hwhole, hsum, e, hone, hfree⟩
  refine ⟨_, execIngressPacket_of_whole hwhole, e, hone, ?_⟩
  split
  · next hshare => exact State.wholeFrame_of_overShare (by simp [hone]) hshare
  · next hshare =>
    rw [State.wholeFrame_of_match hone (Bool.eq_false_of_not_eq_true hshare),
      State.ingressFrame_of_pass hsum (State.police_of_no_policer hfree)]

theorem ingressPoliced_holds (i : Fin 18) (f : RxFrame) : (ingressPoliced i f).Holds := by
  intro s ⟨hwhole, hsum, hshare, e, q, g, hone, hfind, hcredit⟩
  refine ⟨_, execIngressPacket_of_whole hwhole, e, q, g, hone, hfind, ?_⟩
  rw [State.wholeFrame_of_match hone hshare, State.ingressFrame_of_pass hsum (State.police_of_credit hfind hcredit)]

theorem ingressShared_holds (i : Fin 18) (f : RxFrame) : (ingressShared i f).Holds :=
  fun _ ⟨hwhole, hshare, hsome⟩ => ⟨_, execIngressPacket_of_whole hwhole, State.wholeFrame_of_matches hsome hshare⟩

/-! ### Losses, paths and SDI lines -/

theorem packetLossDeclare_holds (g : BitVec 32) : (packetLossDeclare g).Holds := by
  intro s hlate
  obtain ⟨m, hm, hdue⟩ := List.any_eq_true.mp hlate
  have hsome : ((s.ing g.toNat).missing.filter fun m => decide (m.2 ≤ s.now)).length ≠ 0 :=
    (List.length_pos_of_mem (List.mem_filter.mpr ⟨hm, hdue⟩)).ne'
  refine ⟨_, if_neg hsome, rfl⟩

theorem pathDownTimeout_holds (g : BitVec 32) (i : Fin 2) : (pathDownTimeout g i).Holds := by
  intro s ⟨hstream, hup, hquiet⟩
  exact ⟨_, if_pos (by rw [hup, hquiet, hstream]; rfl), rfl⟩

theorem pathUp_holds (g : BitVec 32) (i : Fin 2) : (pathUp g i).Holds := by
  intro s ⟨hdown, hlast, hrun⟩
  exact ⟨_, if_pos (by rw [hdown, hlast, hrun]; rfl), rfl⟩

theorem sdiLineDown_holds (l : Fin 16) (x : SdiLine) : (sdiLineDown l x).Holds := by
  intro s hoff
  refine ⟨s, if_pos ?_, rfl⟩
  rcases hoff with h | h <;> simp [h]

theorem sdiLineReceive_holds (l : Fin 16) (x : SdiLine) : (sdiLineReceive l x).Holds := by
  intro s ⟨hup, htest⟩
  exact ⟨_, if_neg (by simp [hup, htest]), rfl⟩

/-! ### Manifests -/

theorem manifestSigned_holds (g : BitVec 32) : (manifestSigned g).Holds := by
  intro s ⟨hsp, hsome⟩
  obtain ⟨x, rest, hsign⟩ := List.exists_cons_of_ne_nil hsome
  change Answers (execManifestSigned g s) _
  unfold execManifestSigned
  dsimp only
  rw [hsign]
  refine ⟨_, if_neg (by simp [hsp]), x, rest, hsign, ?_⟩
  simp only [Bool.not_eq_true', Bool.and_eq_true, List.isEmpty_iff, and_assoc]

theorem manifestWaits_holds (g : BitVec 32) : (manifestWaits g).Holds := by
  intro s (hsp : s.boot.sec.spUp = false)
  refine ⟨s, ?_, rfl⟩
  change execManifestSigned g s = _
  unfold execManifestSigned
  dsimp only
  cases (s.eg g.toNat).prov.toSign with
  | nil => rfl
  | cons x rest => exact if_pos (by simp [hsp])

/-! ### Ticks, transmission and gates -/

theorem refillTick_holds : refillTick.Holds := fun _ hdue => ⟨_, if_neg (Nat.not_lt.mpr hdue), rfl⟩

theorem frameTxEnd_holds (i : Fin 18) : (frameTxEnd i).Holds := by
  intro s ⟨f, hwire, hend⟩
  refine ⟨_, ?_, f, hwire, rfl⟩
  change execFrameTxEnd i s = _
  unfold execFrameTxEnd
  dsimp only
  rw [hwire]
  exact if_neg (Nat.not_lt.mpr hend)

theorem frameTxBusy_holds (i : Fin 18) : (frameTxBusy i).Holds := by
  intro s (hbusy : s.now < (s.np i.val).wireEnd)
  refine ⟨s, ?_, rfl⟩
  change execFrameTxEnd i s = _
  unfold execFrameTxEnd
  dsimp only
  cases (s.np i.val).wire with
  | none => rfl
  | some f => exact if_pos hbusy

theorem gateEntryChange_holds (i : Fin 18) : (gateEntryChange i).Holds := by
  intro s hsome
  obtain ⟨l, hgates⟩ := Option.isSome_iff_exists.mp hsome
  refine ⟨_, ?_, l, hgates, rfl⟩
  change execGateEntryChange i s = _
  unfold execGateEntryChange
  dsimp only
  rw [hgates]

theorem gatelistStart_holds (i : Fin 18) : (gatelistStart i).Holds := by
  intro s ⟨l, hnext, hstart⟩
  refine ⟨_, ?_, l, hnext, rfl⟩
  change execGatelistStart i s = _
  unfold execGatelistStart
  dsimp only
  rw [hnext]
  exact if_neg (Nat.not_lt.mpr hstart)

/-! ### PTP messages -/

theorem ptpSendTrigger_holds (i : Fin 16) (m : PtpSend) : (ptpSendTrigger i m).Holds := by
  intro s ⟨hfree, hport, hmay⟩
  exact ⟨_, if_neg (by rw [hfree, hport, hmay]; decide), rfl⟩

end Sys2Proof.Claims

namespace Sys2Proof

open Claims

/-- Settles O29: each claim is the branch of its meaning that its condition selects. -/
theorem trafficEventsTakeEffect : Obligations.TrafficEventsTakeEffect :=
  ⟨ingressBad_holds, ingressUnmatched_holds, ingressExempt_holds, ingressBadChecksum_holds, ingressPacket_holds,
    ingressPoliced_holds, ingressShared_holds, packetLossDeclare_holds, pathDownTimeout_holds, pathUp_holds,
    sdiLineDown_holds, sdiLineReceive_holds, manifestSigned_holds, manifestWaits_holds, refillTick_holds, frameTxEnd_holds,
    frameTxBusy_holds, gateEntryChange_holds, gatelistStart_holds, ptpSendTrigger_holds⟩

end Sys2Proof
end

section
/-!
O36, O39, O40. The clock in units of 2^-32 ns: what cycles of `TCLK` add, and whether `TIME_NS` carries; what a step keeps.
-/

namespace Sys2Proof.Machine

/-! ### The epoch and the counter (R360 to R363) -/

/-- The epoch holds a number of nanoseconds modulo 2^48 s. -/
theorem TimeState.setEpoch_epochNs (t : TimeState) (n : Int) :
    (t.setEpoch n).epochNs = n % (2 ^ 48 * 1000000000) := by
  simp only [epochNs, setEpoch]
  omega

/-- The epoch is read from two registers of the clock alone. -/
theorem TimeState.epochNs_congr {t u : TimeState} (hsec : t.epSec = u.epSec) (hns : t.epNs = u.epNs) :
    t.epochNs = u.epochNs := by
  rw [epochNs, epochNs, hsec, hns]

/-- Counter and fraction together, in units of 2^-32 ns. -/
def TimeState.units (t : TimeState) : Nat := t.ns * 2 ^ 32 + t.frac

theorem TimeState.units_congr {t u : TimeState} (hns : t.ns = u.ns) (hfrac : t.frac = u.frac) : t.units = u.units := by
  rw [units, units, hns, hfrac]

/-- The units that `n` cycles add: the first at the present addend, every other at the one that applies next. -/
def TimeState.growth (t : TimeState) (n : Nat) : Nat :=
  if n = 0 then 0 else (2 ^ 33 + t.adj).toNat + (n - 1) * (2 ^ 33 + t.adjNext.getD t.adj).toNat

theorem TimeState.growth_one (t : TimeState) : t.growth 1 = (2 ^ 33 + t.adj).toNat := by
  simp [growth]

/-- `n` cycles with the addends that they leave, before a carry is handled. -/
def TimeState.counted (t : TimeState) (n : Nat) : TimeState :=
  let u := if n = 0 then t else { t with adj := t.adjNext.getD t.adj, adjNext := none }
  { u with ns := (t.units + t.growth n) / 2 ^ 32 % 2 ^ 32, frac := (t.units + t.growth n) % 2 ^ 32 }

theorem TimeState.counted_wraps (t : TimeState) (n : Nat) : (t.counted n).wraps = t.wraps := by
  unfold counted; split <;> rfl

theorem TimeState.counted_epochNs (t : TimeState) (n : Nat) : (t.counted n).epochNs = t.epochNs := by
  unfold counted; split <;> exact epochNs_congr rfl rfl

theorem TimeState.counted_units (t : TimeState) (n : Nat) : (t.counted n).units = (t.units + t.growth n) % 2 ^ 64 := by
  change (t.units + t.growth n) / 2 ^ 32 % 2 ^ 32 * 2 ^ 32 + (t.units + t.growth n) % 2 ^ 32 = _
  omega

/-- Cycles count; a carry out of `TIME_NS` also counts a wrap and moves the epoch. -/
theorem TimeState.advance_eq (t : TimeState) (n : Nat) : t.advance n =
    if t.units + t.growth n < 2 ^ 64 then t.counted n
    else { (t.counted n).setEpoch (t.epochNs + 2 ^ 32) with wraps := t.wraps + 1 } := by
  rw [← counted_epochNs t n, ← counted_wraps t n]
  rfl

theorem TimeState.advance_units (t : TimeState) (n : Nat) : (t.advance n).units = (t.units + t.growth n) % 2 ^ 64 := by
  rw [advance_eq, ← counted_units]
  split
  · rfl
  · exact units_congr rfl rfl

theorem TimeState.advance_of_no_carry {t : TimeState} {n : Nat} (h : t.units + t.growth n < 2 ^ 64) :
    (t.advance n).wraps = t.wraps ∧ (t.advance n).epochNs = t.epochNs := by
  rw [advance_eq, if_pos h]
  exact ⟨counted_wraps t n, counted_epochNs t n⟩

theorem TimeState.advance_of_carry {t : TimeState} {n : Nat} (h : 2 ^ 64 ≤ t.units + t.growth n) :
    (t.advance n).wraps = t.wraps + 1 ∧ (t.advance n).epochNs = (t.epochNs + 2 ^ 32) % (2 ^ 48 * 1000000000) := by
  rw [advance_eq, if_neg (Nat.not_lt.mpr h)]
  refine ⟨rfl, .trans ?_ (setEpoch_epochNs (t.counted n) (t.epochNs + 2 ^ 32))⟩
  exact epochNs_congr rfl rfl

/-! ### A step -/

/-- Between two states that keep what a command must keep, a sound state stays sound. -/
theorem State.sound_of_kept {q s : State} (hq : q.sound) (hk : q.Kept s) : s.sound := by
  obtain ⟨hclock, hmailbox, hdata⟩ := hq
  obtain ⟨-, hktime, hkmailbox, hkdata⟩ := hk
  exact ⟨hktime hclock, hkmailbox hmailbox, hkdata hdata⟩

/-- With no command waiting a step is a cycle of the clock. -/
theorem step_of_idle {s : State} (h : s.pending = []) : step s = .next s.tick := by
  unfold step
  rw [h]

theorem State.tick_of_held {s : State} (h : s.boot.held = true) : s.tick = s := if_pos h

theorem State.tick_of_running {s : State} (h : s.boot.held = false) : s.tick = s.modTime fun t => t.advance 1 :=
  if_neg (by simp [h])

/-- A cycle changes the clock alone. -/
theorem State.tick_eq (s : State) : s.tick = { s with time := s.tick.time } := by
  unfold tick
  split <;> rfl

end Sys2Proof.Machine

namespace Sys2Proof

open Machine

/-- Settles O40: an idle step is a cycle of the clock, and any other step is that of a command, which keeps a sound clock and
canonical memories. -/
theorem stepsKeepStateSound : Obligations.StepsKeepStateSound := by
  intro s t hs hstep
  cases hp : s.pending with
  | nil =>
    rw [step_of_idle hp] at hstep
    cases hstep
    exact State.sound_of_kept hs (State.tick_kept (Kept.refl s))
  | cons c rest =>
    rw [stepRunsFrontCommand s c rest hp] at hstep
    -- the state with the queue's rest is as sound as `s`, whose clock and memories it has
    have hrest : State.sound { s with pending := rest } := hs
    exact State.sound_of_kept hrest (exec_kept c (Kept.refl _) t hstep)

/-- Settles O36: the cycle is `TimeState.advance` of one, with or without a carry. -/
theorem idleStepIsOneCycle : Obligations.IdleStepIsOneCycle := by
  intro s hidle
  refine ⟨s.tick, step_of_idle hidle, s.tick_eq, State.tick_of_held, fun hrun _ _ => ?_⟩
  rw [State.tick_of_running hrun, ← TimeState.growth_one]
  exact ⟨TimeState.advance_units s.time 1, TimeState.advance_of_no_carry, TimeState.advance_of_carry⟩

/-- Settles O39: after reset the clock stands at zero and the memories list nothing. -/
theorem resetStateSound : Obligations.ResetStateSound := by
  have hclock : State.reset.clockSound := by
    unfold State.clockSound TimeState.sound
    decide
  exact ⟨hclock, Memory.wf_nil, Memory.wf_nil⟩

end Sys2Proof
end

section
/-!
O10. The time and alignment commands: what each command answers from its description's `run`, and the obligation.
-/

namespace Sys2Proof.Machine

/-- A capture of device time changes firmware's holding set alone (R31 to R33). -/
@[simp] theorem State.captureTime_stamp (s : State) : s.captureTime.stamp = s.stamp := rfl

/-- Transmit low-power idle ends on lane `i` if it is a port of the mask (R392). -/
def State.endLpiTx (mask : Nat) (s : State) (i : Nat) : State :=
  if bit mask i then s.modLane fun l => { l with lanes := l.lanes.upd i fun x => { x with lpiTx := false } } else s

theorem State.endLpiTx_modLane (mask : Nat) (s : State) (i : Nat) : ∃ g, s.endLpiTx mask i = s.modLane g := by
  unfold endLpiTx
  split
  · exact ⟨_, rfl⟩
  · exact ⟨id, rfl⟩

/-- The end of low-power idle on every port of the mask changes the lanes alone (R392). -/
theorem State.foldl_endLpiTx_modLane (mask : Nat) (l : List Nat) (s : State) :
    ∃ g, l.foldl (State.endLpiTx mask) s = s.modLane g := by
  induction l generalizing s with
  | nil => exact ⟨id, rfl⟩
  | cons i l ih =>
    obtain ⟨g, hg⟩ := endLpiTx_modLane mask s i
    obtain ⟨g', hg'⟩ := ih (s.modLane g)
    exact ⟨g' ∘ g, by rw [List.foldl_cons, hg, hg']; rfl⟩

end Sys2Proof.Machine

namespace Sys2Proof.Claims

open Machine Sys2Proof

/-! ### Device time and the servo (R361 to R376) -/

theorem timeQuery_holds (c : Submission) : (timeQuery c).Holds := by
  refine eciClaim_holds rfl (fun _ => rfl) fun k s _ => ⟨_, rfl, ?_⟩
  simp only [List.append_assoc, State.captureTime_stamp]
  have hsteps : min 255 s.time.steps % 256 = min 255 s.time.steps := Nat.mod_eq_of_lt (by omega)
  have hrest : (s.ptpNow % 1000000000).toNat % 4294967296 = (s.ptpNow % 1000000000).toNat := Nat.mod_eq_of_lt (by omega)
  refine ⟨by simp, ?_, ?_, ?_, ?_, ?_, ?_, ?_, ?_, ?_, ?_, ?_, ?_⟩ <;>
    simp [u8, u32, u64, fieldAt_le_append, fieldAt_le_append_skip, hsteps, hrest]

theorem servoSet_holds (c : Submission) : (servoSet c).Holds := by
  refine eciClaim_holds rfl (fun _ => rfl) fun k s _ => ⟨fun hfree => ?_, fun hon hnew hrun => ?_, fun hon hsame => ?_⟩
  · exact congrArg ok (if_pos hfree)
  · refine congrArg ok ((if_neg hon).trans (if_pos ?_))
    simp [hnew, hrun]
  · refine congrArg ok ((if_neg hon).trans (if_neg ?_))
    rcases hsame with h | h <;> simp [h]

theorem servoReset_holds (c : Submission) : (servoReset c).Holds := by
  refine eciClaim_holds rfl (fun _ => rfl) fun k s (hidle : s.alignedBusy = false) => ?_
  dsimp only [specServoReset]
  exact checked_pass _ _ _ (by simp [firstFail, hidle])

/-! ### PTP, PPS and the time of day (R368 to R378) -/

theorem ptpSet_holds (c : Submission) : (ptpSet c).Holds := by
  refine eciClaim_holds rfl (fun _ => rfl) fun k s _ => ?_
  obtain ⟨g, hg⟩ := s.foldl_endLpiTx_modLane (parsePtp k.payload).portMask (List.range 16)
  exact ⟨_, congrArg (fun u : State => ok (u.modTime fun t => { t with ptp := parsePtp k.payload })) hg, rfl, rfl, rfl, rfl⟩

theorem ptpPortSet_holds (c : Submission) : (ptpPortSet c).Holds :=
  eciClaim_holds rfl (fun _ => rfl) fun _ _ _ => rfl

theorem ppsSet_holds (c : Submission) : (ppsSet c).Holds :=
  eciClaim_holds rfl (fun _ => rfl) fun _ _ _ => rfl

theorem timeSetTod_holds (c : Submission) : (timeSetTod c).Holds :=
  eciClaim_holds rfl (fun _ => rfl) fun _ _ _ => rfl

/-! ### Alignment (R380, R381) -/

theorem domainSet_holds (c : Submission) : (domainSet c).Holds := by
  refine eciClaim_holds rfl (fun _ => rfl) fun k s (hidle : s.alignedBusy = false) => ?_
  dsimp only [specDomainSet]
  exact checked_pass _ _ _ (by simp [firstFail, hidle])

theorem channelAlign_holds (c : Submission) : (channelAlign c).Holds := by
  refine eciClaim_holds rfl (fun _ => rfl) fun k s ⟨hoffset, henc, hidle, hon⟩ => ?_
  dsimp only [specChannelAlign]
  refine checked_pass _ _ _ ?_
  simp only [firstFail_eq_none_iff, List.forall_mem_cons]
  refine ⟨decide_eq_false (Nat.not_le.mpr hoffset), by rw [henc, hidle]; rfl, ?_, nofun⟩
  by_cases h : u8 k.payload 0 = 1
  · obtain ⟨href, hmember⟩ := hon h
    simp [href, hmember]
  · simp [h]

theorem alignQuery_holds (c : Submission) : (alignQuery c).Holds := by
  refine eciClaim_holds rfl (fun _ => rfl) fun k s _ => ⟨_, rfl, ?_⟩
  simp only [List.append_assoc]
  refine ⟨by simp, ?_, ?_, ?_⟩ <;>
    simp [u8, u64, fieldAt_le, fieldAt_le_append, fieldAt_le_append_skip, Nat.mod_eq_of_lt (b2n_lt_256 _)]

end Sys2Proof.Claims

namespace Sys2Proof

open Claims

/-- Settles O10: each claim from its command's `run`. -/
theorem timeCommandsComplete : Obligations.TimeCommandsComplete :=
  fun c => ⟨timeQuery_holds c, servoSet_holds c, servoReset_holds c, ptpSet_holds c, ptpPortSet_holds c, ppsSet_holds c,
    timeSetTod_holds c, domainSet_holds c, channelAlign_holds c, alignQuery_holds c⟩

end Sys2Proof
end

section
/-!
O33. Wraps, maintenance, PTP, the servo, PPS and 10 MHz: when the cycles up to a wrap carry, what a port that hears a message does
with it, one lemma for each claim, and the obligation.
-/

namespace Sys2Proof.Machine

/-! ### The cycles up to a wrap (R361) -/

/-- So many times `b` as the rounded-up quotient says reaches `a`. -/
theorem le_cdiv_mul {b : Nat} (a : Nat) (hb : 0 < b) : a ≤ cdiv a b * b := by
  have := Nat.lt_div_mul_add (a := a + b - 1) hb
  unfold cdiv
  omega

/-- The cycles up to a wrap carry `TIME_NS`, at an addend that lets it grow. -/
theorem TimeState.carry_toWrap {t : TimeState} (hgrow : 0 < (2 ^ 33 + t.adjNext.getD t.adj).toNat) :
    2 ^ 64 ≤ t.units + t.growth t.toWrap := by
  have hcycles : t.toWrap = if 2 ^ 64 - t.units ≤ (2 ^ 33 + t.adj).toNat then 1 else
      1 + cdiv (2 ^ 64 - t.units - (2 ^ 33 + t.adj).toNat) (2 ^ 33 + t.adjNext.getD t.adj).toNat := rfl
  rw [hcycles]
  split
  · rw [growth_one]
    omega
  · have := le_cdiv_mul (2 ^ 64 - t.units - (2 ^ 33 + t.adj).toNat) hgrow
    rw [growth, if_neg (by omega), Nat.add_sub_cancel_left]
    omega

/-! ### Ports (R368 to R370) -/

@[simp] theorem State.ptpPort_modPtp (s : State) (p : Nat) (f : PtpPort → PtpPort) :
    (s.modPtp p f).ptpPort p = f (s.ptpPort p) :=
  Tab.look_modD_self ..

/-- A Sync on a port in slave state, where the servo follows PTP, is a measurement (R370, R372). -/
theorem State.syncOffset_of_slave {s : State} {p : Nat} (received origin : Int) (hslave : (s.ptpPort p).state = .slave)
    (hptp : s.time.servoCfg.source = 1) : s.syncOffset p received origin =
      (s.modPtp p fun q => { q with syncReceived := received, syncOrigin := origin, syncPending := none }).measure
        (received - origin - s.time.pathDelayNs - (s.ptpPort p).asymPs / 1000) := by
  unfold syncOffset
  dsimp only
  rw [ptpPort_modPtp, if_pos ⟨hslave, hptp⟩]
  rfl

/-! ### Settings of PPS (R377) -/

/-- Settings of PPS that apply leave the state of the device. -/
@[simp] theorem State.applyPps_boot (s : State) : s.applyPps.boot = s.boot := by
  unfold applyPps
  refine List.foldlRecOn (motive := fun u : State => u.boot = s.boot) _ _ ?_ fun u hu t _ => ?_
  · rfl
  · rw [← hu]
    split <;> rfl

/-- Out of reset an edge of `PPS_IN` finds the settings due applied. -/
theorem State.applyPps_of_running {s : State} (hrun : s.boot.held = false) :
    (if s.boot.held = true then s else s.applyPps) = s.applyPps := if_neg (by simp [hrun])

end Sys2Proof.Machine

namespace Sys2Proof.Claims

open Machine Sys2Proof

/-! ### Device time (R361, R365) -/

theorem timeWrap_holds : timeWrap.Holds := by
  intro s ⟨hrun, _, _, hlow, _, hnext⟩
  have hgrow : 0 < (2 ^ 33 + s.time.adjNext.getD s.time.adj).toNat := by
    rw [hnext, Option.getD_none]
    omega
  obtain ⟨hwraps, hepoch⟩ := TimeState.advance_of_carry (TimeState.carry_toWrap hgrow)
  exact ⟨_, if_neg (by simp [hrun]), hwraps, hepoch, rfl⟩

theorem maintenancePass_holds : maintenancePass.Holds := fun _ hrun => ⟨_, if_pos hrun, rfl⟩

/-! ### PTP messages (R368 to R371) -/

/-- The condition under which a port passes a message over fails on a port that hears it. -/
theorem not_deaf_of_ptpHears {i : Fin 16} {d : BitVec 8} {s : State} (h : ptpHears i.val d s) :
    ¬(!bit s.time.ptp.portMask i.val || s.boot.held || !(s.lane.lanes.look {} i.val).up ||
      d.toNat != s.time.ptp.domainNum) = true := by
  obtain ⟨hrun, hmask, hup, hdomain⟩ := h
  simp [hrun, hmask, hup, hdomain]

theorem ptpSync_holds (i : Fin 16) (d : BitVec 8) (o : Nat) (corr : Int) : (ptpSync i d o corr).Holds := by
  intro s ⟨hhears, hslave, hptp⟩
  exact ⟨_, if_neg (not_deaf_of_ptpHears hhears), State.syncOffset_of_slave _ _ hslave hptp⟩

theorem ptpSyncTwoStep_holds (i : Fin 16) (d : BitVec 8) (corr : Int) : (ptpSyncTwoStep i d corr).Holds :=
  fun _ hhears => ⟨_, if_neg (not_deaf_of_ptpHears hhears), rfl⟩

theorem ptpFollowUp_holds (i : Fin 16) (d : BitVec 8) (o : Nat) (corr : Int) : (ptpFollowUp i d o corr).Holds := by
  intro s ⟨hhears, hslave, hptp, hpending⟩
  obtain ⟨rx, hrx⟩ := Option.isSome_iff_exists.mp hpending
  refine ⟨_, ?_, rx, hrx, State.syncOffset_of_slave _ _ hslave hptp⟩
  change execPtpMessageReceive i d (.followUp o corr) s = _
  unfold execPtpMessageReceive
  dsimp only
  rw [if_neg (not_deaf_of_ptpHears hhears), hrx]

theorem ptpDelayResp_holds (i : Fin 16) (d : BitVec 8) (r : Nat) (corr : Int) : (ptpDelayResp i d r corr).Holds := by
  intro s ⟨hhears, hend, hfollows⟩
  refine ⟨_, (if_neg (not_deaf_of_ptpHears hhears)).trans (if_neg ?_), rfl⟩
  rcases hfollows with h | h <;> simp [h, hend]

theorem ptpPdelayResp_holds (i : Fin 16) (d : BitVec 8) (r o : Nat) (corr : Int) : (ptpPdelayResp i d r o corr).Holds := by
  intro s ⟨hhears, hpeer, hfollows⟩
  refine ⟨_, (if_neg (not_deaf_of_ptpHears hhears)).trans (if_neg ?_), rfl⟩
  rcases hfollows with h | h <;> simp [h, hpeer]

theorem ptpAnnounce_holds (i : Fin 16) (d : BitVec 8) (a : Announce) : (ptpAnnounce i d a).Holds := by
  intro s hhears
  refine ⟨_, if_neg (not_deaf_of_ptpHears hhears), ?_⟩
  exact ite_congr (by simp) (fun _ => rfl) fun _ => rfl

theorem ptpRequests_holds (i : Fin 16) (d : BitVec 8) : (ptpRequests i d).Holds :=
  fun _ hhears => ⟨_, if_neg (not_deaf_of_ptpHears hhears), rfl⟩

theorem ptpPdelayReq_holds (i : Fin 16) (d : BitVec 8) : (ptpPdelayReq i d).Holds :=
  fun _ hhears => ⟨_, if_neg (not_deaf_of_ptpHears hhears), rfl⟩

theorem ptpManagement_holds (i : Fin 16) (d : BitVec 8) (set : Bool) : (ptpManagement i d set).Holds := by
  intro s hhears
  cases set with
  | true => exact ⟨_, if_neg (not_deaf_of_ptpHears hhears), rfl⟩
  | false => exact ⟨_, if_neg (not_deaf_of_ptpHears hhears), rfl⟩

theorem ptpOtherDomain_holds (i : Fin 16) (d : BitVec 8) (m : PtpMessage) : (ptpOtherDomain i d m).Holds := by
  intro s (hdomain : d.toNat ≠ s.time.ptp.domainNum)
  exact ⟨s, if_pos (by simp [hdomain]), rfl⟩

theorem ptpMasked_holds (i : Fin 16) (d : BitVec 8) (m : PtpMessage) : (ptpMasked i d m).Holds := by
  intro s (hmask : bit s.time.ptp.portMask i.val = false)
  exact ⟨s, if_pos (by simp [hmask]), rfl⟩

/-! ### PTP port states (R368, R369) -/

theorem announceReceiptTimeout_holds (i : Fin 16) : (announceReceiptTimeout i).Holds := by
  intro s ⟨hbest, hlate⟩
  exact ⟨_, if_pos (by simp [hbest, hlate]), rfl⟩

theorem ptpPortStateChange_holds (i : Fin 16) : (ptpPortStateChange i).Holds := by
  intro s ⟨hrun, hother, hmask⟩
  exact ⟨_, if_neg (by simp [hrun, hother, hmask]), rfl⟩

theorem ptpMasterRefused_holds (i : Fin 16) : (ptpMasterRefused i).Holds := by
  intro s (hslave : s.time.ptp.masterCapable = false)
  exact ⟨s, if_pos (by simp [hslave]), rfl⟩

/-! ### The servo, PPS and 10 MHz (R374 to R378) -/

theorem servoHoldoverTimeout_holds : servoHoldoverTimeout.Holds := by
  intro s ⟨hlocked, hlate⟩
  exact ⟨_, if_pos (by simp [hlocked, hlate]), rfl⟩

theorem ppsOutEdge_holds : ppsOutEdge.Holds := by
  intro s ⟨hrun, hsafe⟩
  refine ⟨_, (if_neg (by simp [hrun, hsafe])).trans (apply_ite Host.Outcome.next _ _ _).symm, ?_⟩
  exact ite_congr (by simp) (fun _ => rfl) fun _ => rfl

theorem ppsInWrongEdge_holds (rising : Bool) : (ppsInWrongEdge rising).Holds := by
  intro s ⟨hrun, hpolarity⟩
  refine ⟨s.applyPps, ?_, rfl⟩
  change execPpsInEdge rising s = _
  unfold execPpsInEdge
  rw [State.applyPps_of_running hrun]
  exact if_pos (by simp [hpolarity])

theorem ppsInEdge_holds (rising : Bool) : (ppsInEdge rising).Holds := by
  intro s ⟨hrun, hpolarity, hpresent, hsource, l, hlast, hgap⟩
  refine ⟨_, ?_, l, hlast, rfl⟩
  change execPpsInEdge rising s = _
  have hboot : s.applyPps.boot.held = false := by simp [hrun]
  unfold execPpsInEdge
  rw [State.applyPps_of_running hrun]
  generalize s.applyPps = u at *
  have hlate : decide (1500000000 < u.time.now - l) = false := decide_eq_false (Nat.not_lt.mpr hgap)
  dsimp only
  rw [if_neg (by simp [hboot, hpolarity]), if_neg (fun h => hsource h.1 : ¬(u.time.servoCfg.source = 2 ∧ _)), hlast]
  cases u.time.todNext with
  | none => simp [State.modTime, hlate, hpresent]
  | some v => simp [State.modTime, hlate, hpresent]

theorem ppsInLost_holds : ppsInLost.Holds := by
  intro s ⟨hpresent, l, hlast, hlate⟩
  refine ⟨_, ?_, rfl⟩
  change execPpsInLost s = _
  unfold execPpsInLost
  rw [hlast]
  exact if_pos (by simp [hpresent, hlate])

theorem ref10mInLost_holds : ref10mInLost.Holds := fun _ hpresent => ⟨_, if_pos hpresent, rfl⟩

theorem ref10mInReturn_holds : ref10mInReturn.Holds := fun _ _ => ⟨_, rfl, rfl⟩

end Sys2Proof.Claims

namespace Sys2Proof

open Claims

/-- Settles O33: each claim is the branch of its meaning that its condition selects. -/
theorem timeEventsTakeEffect : Obligations.TimeEventsTakeEffect :=
  ⟨timeWrap_holds, maintenancePass_holds, ptpSync_holds, ptpSyncTwoStep_holds, ptpFollowUp_holds, ptpDelayResp_holds,
    ptpPdelayResp_holds, ptpAnnounce_holds, ptpRequests_holds, ptpPdelayReq_holds, ptpManagement_holds, ptpOtherDomain_holds,
    ptpMasked_holds, announceReceiptTimeout_holds, ptpPortStateChange_holds, ptpMasterRefused_holds,
    servoHoldoverTimeout_holds, ppsOutEdge_holds, ppsInWrongEdge_holds, ppsInEdge_holds, ppsInLost_holds, ref10mInLost_holds,
    ref10mInReturn_holds⟩

end Sys2Proof
end

section
/-!
O35, O37, O38, O42 and O51. What holds of every command, what the safe state discards, and the bytes of a completion entry.
-/

namespace Sys2Proof.Machine

open Sys2Proof

variable {s : State}

/-! ### Every command -/

/-- A meaning completes when it answers a next state. -/
def Out.Completes (o : Out) : Prop := ∃ t, o = .next t

theorem completes_ite {c : Prop} [Decidable c] {a b : Out} (ha : a.Completes) (hb : b.Completes) :
    (if c then a else b).Completes := by
  split
  · exact ha
  · exact hb

theorem runEci_completes (e : EciSpec) (c : Submission) (s : State) : (runEci e c s).Completes := by
  unfold runEci
  split <;> exact ⟨_, rfl⟩

theorem closeAfter_completes {o : Out} (h : o.Completes) : o.closeAfter.Completes := by
  obtain ⟨t, rfl⟩ := h
  exact ⟨_, rfl⟩

/-- What becomes of an uncorrectable error turns on the region alone. -/
theorem execDramUncorrectable_completes (die : DramNo) (region : ErrorRegion) (line : BitVec 32) :
    (execDramUncorrectable die region line s).Completes := by
  cases region <;> exact completes_ite ⟨_, rfl⟩ ⟨_, rfl⟩

/-- Every row completes: an ECI command, a meaning without a condition, with one condition, with several, or with the cases of an
option or a constructor. -/
theorem exec_completes (c : Instr) (s : State) : Out.Completes (exec c s) := by
  cases c with
  | deviceIdentify | deviceStatus | deviceEventMask | queueCreate | queueDelete | objectList | objectReassign | deviceVfQuota |
    deviceImageLoad | deviceRestart | deviceNop | sessionOpen | sessionKeepalive | channelCreate | channelAdmitCheck |
    channelSet | channelStart | channelStop | channelDestroy | channelQuery | slotTableSet | slotTableGet | slateCreate |
    slateDestroy | dieLoad | codingTools | codingToolsGet | analysisSet | analysisQuery | recipeInfo | codingStructure |
    codingSei | codingStructureGet | rcSet | rcGet | rcQuery | delayQuery | schedStatus | schedLocks | schedFlows | traceCreate
    | traceStart | traceStop | traceStatus | traceDestroy | decodeCreate | decodeSubmit | decodeReturn | decodeQuery |
    channelMode | picSubmit | refRing | jigSet | statsSet | statsRead | checkBind | checkUnbind | checkExpect | checkQuery |
    composeSet | layerCreate | layerSet | layerCommit | layerDestroy | layerQuery | renditionScale | scalerCoefSet |
    scalerCoefGet | audioPortSet | audioPortSlots | audioPortQuery | frameClockSet | audioProgramCreate | audioProgramSet |
    audioProgramDestroy | audioProgramQuery | asrcQuery | audioRateQuery | audioEmbedSet | ingressCreate | ingressDestroy |
    ingressQuery | egressCreate | egressSet | egressDestroy | egressQuery | egressProvenance | egressKey | egressImpair |
    shaperSet | gatelistSet | gatelistQuery | policerCreate | policerSet | policerDestroy | portAddr | provKey | arbiterMode |
    timeQuery | servoSet | servoReset | ptpSet | ptpPortSet | ppsSet | timeSetTod | domainSet | channelAlign | alignQuery |
    laneSet | laneTrain | laneQuery | laneTaps | sdiOutSet | memQuery | memSet | memFreq | memCopy | secQuote | secCerts |
    keyImport | keyDestroy | secLcAdvance | secOwnerKeyAdd | secKeyRevoke | secSvnCommit | secDebugChallenge | secDebugUnlock |
    secTamperSet | secTamperLog | secTamperClear | secCounter | secCredSet | healthQuery | bootSlotSet | dieRepair | mpRepair |
    isstQuery | kaLog | thermQuery => exact runEci_completes _ _ _
  | sessionClose => exact closeAfter_completes (runEci_completes _ _ _)
  | perstNRelease | commitOrder | rewindOrder | fillOrder | wipeDone | kaSwitchToBackup | kaSwitchToMain | ref10mInReturn =>
    exact ⟨_, rfl⟩
  | eciEnable | eciDisable | sqPoll | intCauseClear | intMaskWrite | bootStageCapture | timeNsCapture | recStateCapture |
    mbxCollideCntRead | functionLevelReset | vfRemoval | vfEnable | perstNAssert | pcieLinkDown | pcieLinkTrained |
    pcieEqRequest | aspmL0sEntry | aspmL1Entry | recGetReasons | recResetNormal | recResetRecovery | pipe3PictureBoundary |
    packetLossDeclare | pathDownTimeout | pathUp | sdiRateLock | sdiLineReceive | compositionRowDone | analysisRowDone |
    taskPost | flowPost | taskDispatch | taskComplete | taskCancel | flowSquash | deadlineExpiry | directLockAcquire |
    directLockRelease | refillTick | ptpSendTrigger | checkValueComplete | sdiOutPictureBoundary | audioFsyncEdge |
    audioClockLoss | audioPositionDelivery | rateWindowEnd | asrcLock | dspWatchdog | dspRestartDone | timeWrap |
    maintenancePass | announceReceiptTimeout | ptpPortStateChange | servoHoldoverTimeout | ref10mInLost | laneDetectorAssert |
    autonegDone | trainingDone | trainingWaitTimeout | lpiEntry | scrubPass | arbiterCutoff | dowelFlitError | dowelRetrainDone
    | dowelStall | tapInstructionLoad | spFatalError | powerGood | brownOut | sysRstNLow | sysRstNRelease | firmwareReady |
    dieReady | firmwareReadyTimeout | failedStartRestart | mpReport | mpReportTimeout | standbyStartDone | dieHeartbeat |
    heartbeatTimeout | fillSetUpdate | isstSliceStart | thermTrip | dieRepairBistDone | mpRepairBistDone |
    securityProcessorRestartDone | generatedRowAvailable | firmwareStateJournal | lpiWakeExpiry | partnerLpi | sdiAdaptationFail
    => exact completes_ite ⟨_, rfl⟩ ⟨_, rfl⟩
  | registerWrite | eciRdySet | dbSqWrite | dbFastWrite | bar2Access | sessionConnect | pictureBoundary | sourcePictureMissing |
    ingressPacket | stitchDeadline | audioSampleArrival | ppsOutEdge | ppsInEdge | coeffUpdateRequest | arbiterRequest |
    tamperTrip | romStart | bistDone | dieReadyTimeout | mpFatalError | isstSliceEnd | thermalSample =>
    repeat' refine completes_ite ?_ ?_
    all_goals exact ⟨_, rfl⟩
  | fastPathServe | coalesceTimeout | mailboxHostWrite | pcieLinkReturn | pcieLinkLossTimeout | handshakeH1 | handshakeH3 |
    handshakeTimeout | connectionLockoutEnd | protectedFrame | sessionIdleTimeout | stagedSetArrival | restartDelayExpiry |
    recGetAttestation | recLoadImage | recSetBootSlot | recRestart | recFinishLcMove | rowArrivalPost | pictureCopyDone |
    commitAppliedReport | descriptorEnqueue | backpressureEnd | sequencePost | taskWatchdog | rowJudgement |
    checkpointRestoreDone | partnerOrder | seamDataArrival | stitchRelease | duRecordArrival | duRelease | manifestSigned |
    frameTxEnd | gateEntryChange | gatelistStart | decoderAuArrival | decodePictureDone | aacAuDone | ptpMessageReceive |
    ppsInLost | laneUpTimer | freqChangeDone | thermalWaitCheck | imageVerifyDone | takeoverComplete | failoverStateUpdate |
    fencedProcessorLateWrite =>
    dsimp only [exec, execFastPathServe, execCoalesceTimeout, execMailboxHostWrite, execPcieLinkReturn, execPcieLinkLossTimeout,
      execHandshakeH1, execHandshakeH3, execHandshakeTimeout, execConnectionLockoutEnd, execProtectedFrame,
      execSessionIdleTimeout, execStagedSetArrival, execRestartDelayExpiry, execRecGetAttestation, execRecLoadImage,
      execRecSetBootSlot, execRecRestart, execRecFinishLcMove, execRowArrivalPost, execPictureCopyDone, execCommitAppliedReport,
      execDescriptorEnqueue, execBackpressureEnd, execSequencePost, execTaskWatchdog, execRowJudgement,
      execCheckpointRestoreDone, execPartnerOrder, execSeamDataArrival, execStitchRelease, execDuRecordArrival, execDuRelease,
      execManifestSigned, execFrameTxEnd, execGateEntryChange, execGatelistStart, execDecoderAuArrival, execDecodePictureDone,
      execAacAuDone, execPtpMessageReceive, execPpsInLost, execLaneUpTimer, execFreqChangeDone, execThermalWaitCheck,
      execImageVerifyDone, execTakeoverComplete, execFailoverStateUpdate, execFencedProcessorLateWrite]
    repeat' split
    all_goals exact ⟨_, rfl⟩
  | dramUncorrectable => exact execDramUncorrectable_completes _ _ _

/-! ### The safe state (R484) -/

/-- In the safe state no access of the host writes (R484). -/
theorem State.hostWrites_of_safe (h : s.boot.stage = .safe) (f : Nat) : s.hostWrites f = false := by
  simp [State.hostWrites, h]

theorem execMailboxHostWrite_of_noWrites {f : Fn} {off : BitVec 18} {w : Fin 9} {v : BitVec 32} {b : Bool}
    (h : s.hostWrites f.val = false) : execMailboxHostWrite f off w v b s = .next s := by
  unfold execMailboxHostWrite
  split
  · rfl
  · exact if_pos (by simp [h])

/-! ### Completion entries (R50) -/

/-- The byte of four flags. -/
def flagByte (a b c d : Bool) : Nat := (b2n a + 2 * b2n b + 4 * b2n c + 8 * b2n d) % 256

theorem flagByte_def (a b c d : Bool) : flagByte a b c d = (b2n a + 2 * b2n b + 4 * b2n c + 8 * b2n d) % 256 := rfl

/-- Four flags in one byte read back, each at its bit. -/
theorem bit_flagByte (a b c d : Bool) :
    bit (flagByte a b c d) 0 = a ∧ bit (flagByte a b c d) 1 = b ∧ bit (flagByte a b c d) 2 = c ∧
      bit (flagByte a b c d) 3 = d := by
  revert a b c d
  decide

end Sys2Proof.Machine

namespace Sys2Proof

open Machine

/-- Settles O35: no row of the table has bits. -/
theorem noWordSpellsACommand : Obligations.NoWordSpellsACommand := fun _ _ _ => ⟨rfl, rfl⟩

/-- Settles O37, from the shape of each row's meaning. -/
theorem everyCommandAnswers : Obligations.EveryCommandAnswers := exec_completes

/-- Settles O38: a command keeps all that `State.Kept` names, of which the queue is a part. -/
theorem commandsKeepTheQueue : Obligations.CommandsKeepTheQueue := by
  intro c s t hnext
  obtain ⟨hpending, -⟩ := exec_kept c (Kept.refl s) t hnext
  exact hpending

/-- Settles O42: each of these accesses asks first whether the host writes, which it does not in the safe state. -/
theorem safeStateDiscardsWrites : Obligations.SafeStateDiscardsWrites := by
  intro s f off w v q es b at_ data bar4 hsafe
  have hno := State.hostWrites_of_safe hsafe
  have and_neg {p : Bool} (g : Nat) : ¬ (s.hostWrites g && p) = true := by simp [hno]
  refine ⟨if_neg ?_, if_neg (and_neg _), if_neg (and_neg _), if_neg ?_, if_neg ?_, if_neg ?_, if_pos ?_,
    execMailboxHostWrite_of_noWrites (hno _), if_neg ?_, if_neg ?_, if_neg (and_neg _), if_pos ?_, if_neg ?_, if_neg ?_⟩
  all_goals simp [hno, hsafe]

/-- Settles O51: each field is read back from its own part of the entry. -/
theorem completionEntryLayout : Obligations.CompletionEntryLayout := by
  intro c
  unfold Completion.encode
  simp only [List.append_assoc]
  refine ⟨by simp, ?_⟩
  simp only [u8, u16, u32, u64, fieldAt_le_append_skip, fieldAt_le_append, fieldAt_le, Nat.reduceLeDiff, Nat.reduceSub,
    Nat.reducePow, ← flagByte_def, bit_flagByte, true_and]
  refine ⟨fun h => ?_, fun n h => ?_, fun n h => ?_⟩ <;> simp [h]

end Sys2Proof
end

section
/-!
O11. The lane commands: what each command answers from its description's `run`, and the obligation.
-/

namespace Sys2Proof.Machine

open Sys2Proof (Byte)

/-- The settings of `LANE.SET`, with the two cases in which no FEC is forced taken together (R388, R408). -/
theorem Lane.withSet_eq (l : Lane) (i : Nat) (p : List Byte) :
    l.withSet i p = { l with
      mode := u8 p 0, media := u8 p 1, an := u8 p 2 == 1, train := u8 p 3 == 1, fec := u8 p 4, eee := u8 p 5
      test := u8 p 6, attempt := laneAttempt i p
      fecUsed := if isEthernet i = false ∨ u8 p 2 = 1 ∧ u8 p 0 < 3 then 0 else forcedFec (u8 p 0) (u8 p 4)
      format := none, candidate := none, posting := false, link := 0xFF, found := false, skewed := false } := by
  cases h : isEthernet i <;> simp [Lane.withSet, h]

/-- The state of a lane that `LANE.QUERY` answers fits its byte (R409). -/
theorem laneState_lt (up searching : Prop) [Decidable up] [Decidable searching] :
    (if up then 2 else if searching then 1 else 0) < 256 := by
  split
  · decide
  · split <;> decide

@[simp] theorem State.captureGroup_ln (s : State) (g : Nat) (vs : List Nat) (i : Nat) : (s.captureGroup g vs).ln i = s.ln i := rfl

end Sys2Proof.Machine

namespace Sys2Proof.Claims

open Machine Sys2Proof

theorem laneSet_holds (c : Submission) : (laneSet c).Holds := by
  dsimp only [laneSet]
  refine eciClaim_holds rfl (fun _ => rfl) fun k s ⟨hport, hattempt, hsdi, hpcie, hmode, hquad⟩ => ?_
  dsimp only [specLaneSet]
  rw [checked_pass]
  · simp only [Lane.withSet_eq, bne_iff_ne, Bool.and_eq_true, Bool.not_eq_true', ne_eq]
    rfl
  simp only [firstFail_eq_none_iff, List.forall_mem_cons]
  refine ⟨?_, hpcie, hmode, hquad, nofun⟩
  simp only [List.forall_mem_cons] at hport
  simpa [hattempt] using ⟨hport, hsdi⟩

theorem laneTrain_holds (c : Submission) : (laneTrain c).Holds := by
  refine eciClaim_holds rfl (fun _ => rfl) fun k s ⟨hpcie, hout, hmode⟩ => ?_
  dsimp only [specLaneTrain]
  rw [checked_pass]
  simp [firstFail, hpcie, hout, hmode]

theorem laneQuery_holds (c : Submission) : (laneQuery c).Holds := by
  refine eciClaim_holds rfl (fun _ => rfl) fun k s _ => ⟨_, rfl, ?_⟩
  simp only [List.append_assoc]
  refine ⟨?_, ?_, ?_, ?_, ?_, ?_, ?_, ?_, ?_⟩
  case refine_1 =>
    simp only [u8, fieldAt_le_append, State.heldOf_captureGroup]
    exact Nat.mod_eq_of_lt (laneState_lt _ _)
  all_goals simp [u8, u16, u32, u64, fieldAt_le_append, fieldAt_le_append_skip, fieldAt_sat_append, fieldAt_sat_append_skip]

theorem laneTaps_holds (c : Submission) : (laneTaps c).Holds := by
  refine eciClaim_holds rfl (fun _ => rfl) fun k s ⟨heth, htrain⟩ => ?_
  dsimp only [specLaneTaps]
  rw [checked_pass]
  · rfl
  · simp [firstFail, heth, htrain]

theorem sdiOutSet_holds (c : Submission) : (sdiOutSet c).Holds := by
  refine eciClaim_holds rfl (fun _ => rfl) fun k s ⟨hout, huse, hkind, hquad, hdec⟩ => ?_
  dsimp only [specSdiOutSet]
  rw [checked_pass]
  · rfl
  simp only [firstFail_eq_none_iff, List.forall_mem_cons]
  refine ⟨?_, ?_, ?_, ?_, ?_, ?_, nofun⟩
  · simp [hout]
  · rcases huse with h | h <;> simp [h]
  · rcases hkind with h | ⟨htype, hin⟩ | h
    · simp [h]
    · simp [htype, hin]
    · simp [h]
  · cases hd : s.isDecoder (u32 k.payload 0)
    · rfl
    · simp [(hdec hd).1]
  · simpa using hquad
  · cases hd : s.isDecoder (u32 k.payload 0)
    · rfl
    · obtain ⟨-, hwidth, hheight, hrate⟩ := hdec hd
      simp [Nat.not_lt.mpr hwidth, Nat.not_lt.mpr hheight, Nat.not_lt.mpr hrate]

end Sys2Proof.Claims

namespace Sys2Proof

open Claims

/-- Settles O11: each claim from its command's `run`. -/
theorem laneCommandsComplete : Obligations.LaneCommandsComplete :=
  fun c => ⟨laneSet_holds c, laneTrain_holds c, laneQuery_holds c, laneTaps_holds c, sdiOutSet_holds c⟩

end Sys2Proof
end

section
/-!
O30 and O19. Events of the lanes and of the PCIe link: each claim is the branch of its meaning that its condition selects.
-/

namespace Sys2Proof.Machine

theorem not_isPcie_of_isSdiIn {i : Nat} (h : isSdiIn i = true) : isPcie i = false := by
  simp only [isSdiIn, isPcie, decide_eq_true_eq, decide_eq_false_iff_not] at h ⊢
  omega

theorem not_isSdiOut_of_isSdiIn {i : Nat} (h : isSdiIn i = true) : isSdiOut i = false := by
  simp only [isSdiIn, isSdiOut, decide_eq_true_eq, decide_eq_false_iff_not] at h ⊢
  omega

theorem tapsOk_iff (taps : List Int) : tapsOk taps = true ↔ (taps.map Int.natAbs).sum ≤ 64 ∧ 16 ≤ taps.getD 3 0 := by
  simp [tapsOk]

end Sys2Proof.Machine

namespace Sys2Proof.Claims

open Machine Sys2Proof

/-! ### Lanes (R388 to R409) -/

theorem lpiWakeExpiry_holds (l : Fin 16) : (lpiWakeExpiry l).Holds := by
  intro s ⟨hidle, hwaking⟩
  exact ⟨_, if_pos (by simp [hidle, hwaking]), rfl⟩

theorem sdiRateLock_holds (l : Fin 16) (r : Fin 5) (f : Bool) : (sdiRateLock l r f).Holds :=
  fun _ hmode => ⟨_, if_neg hmode, rfl⟩

theorem laneDetectorAssert_holds (l : Fin 104) (v : BitVec 5) : (laneDetectorAssert l v).Holds := by
  intro s ⟨hhardware, hkind⟩
  refine ⟨_, if_neg ?_, rfl⟩
  cases hin : isSdiIn l.val with
  | true => simp [hhardware, not_isPcie_of_isSdiIn hin, not_isSdiOut_of_isSdiIn hin]
  | false =>
    obtain ⟨hpcie, hout⟩ := hkind.resolve_left (by simp [hin])
    simp [hhardware, hpcie, hout]

theorem laneUpTimer_holds (l : Fin 104) : (laneUpTimer l).Holds := by
  intro s ⟨hdown, hclear, hmode, c, hsince, hpassed⟩
  refine ⟨_, ?_, rfl⟩
  change execLaneUpTimer l s = _
  unfold execLaneUpTimer
  dsimp only
  rw [hsince]
  exact if_pos (by simp [hdown, hclear, hmode, hpassed])

theorem autonegDone_holds (l : Fin 18) (f : Fin 4) : (autonegDone l f).Holds := by
  intro s ⟨hattempt, han⟩
  exact ⟨_, if_neg (by simp [hattempt, han]), if_congr (by simp) rfl rfl⟩

theorem coeffUpdateRequest_holds (l : Fin 16) (k : Fin 5) (up : Bool) : (coeffUpdateRequest l k up).Holds := by
  intro s ⟨htrain, hattempt, htap⟩
  have hnrz (h : (s.ln (s.portLane l.val)).mode = 1 ∨ (s.ln (s.portLane l.val)).mode = 2) : 1 < k.val :=
    htap.resolve_right (not_not.mpr h)
  exact ⟨_, (if_neg (by simpa [htrain, hattempt] using hnrz)).trans (apply_ite Host.Outcome.next _ _ _).symm,
    if_congr (tapsOk_iff _) rfl rfl⟩

theorem trainingDone_holds (l : Fin 16) (e : Fin 101) : (trainingDone l e).Holds := by
  intro s ⟨htrain, hattempt⟩
  exact ⟨_, if_pos (by simp [htrain, hattempt]), rfl⟩

theorem trainingWaitTimeout_holds (l : Fin 16) : (trainingWaitTimeout l).Holds := by
  intro s ⟨htrain, hattempt, hdown⟩
  exact ⟨_, if_pos (by simp [htrain, hattempt, hdown]), rfl⟩

theorem sdiAdaptationFail_holds (l : Fin 16) : (sdiAdaptationFail l).Holds := by
  intro s ⟨hattempt, hdown⟩
  exact ⟨_, if_pos (by simp [hattempt, hdown]), rfl⟩

theorem lpiEntry_holds (l : Fin 16) : (lpiEntry l).Holds := by
  intro s ⟨hallowed, hup, hidle, hquiet, hwire, hqueues⟩
  unfold State.np at hquiet hwire hqueues
  exact ⟨_, if_pos (by simp [hallowed, hup, hidle, hquiet, hwire, hqueues]), rfl⟩

theorem partnerLpi_holds (l : Fin 16) (enter : Bool) : (partnerLpi l enter).Holds := by
  intro s ⟨hup, hfrom, hto⟩
  exact ⟨_, (apply_ite Host.Outcome.next _ _ _).symm, if_congr (by simp [hup, hfrom, hto]) rfl rfl⟩

/-! ### The PCIe link (R403 to R407, R542) -/

theorem perstNAssert_holds : perstNAssert.Holds := by
  intro s (hfree : s.eci.perst = false)
  exact ⟨_, if_neg (by simp [hfree]), rfl, rfl, rfl⟩

theorem perstNRelease_holds : perstNRelease.Holds := fun _ _ => ⟨_, rfl, rfl⟩

theorem pcieLinkDown_holds : pcieLinkDown.Holds := fun _ hup => ⟨_, if_pos hup, rfl⟩

theorem pcieLinkReturn_holds : pcieLinkReturn.Holds := by
  intro s ⟨hup, t, hdown, hsoon⟩
  refine ⟨_, ?_, rfl⟩
  change execPcieLinkReturn s = _
  unfold execPcieLinkReturn
  rw [hdown]
  exact if_pos ⟨hsoon, hup⟩

theorem pcieLinkLossTimeout_holds : pcieLinkLossTimeout.Holds := by
  intro s ⟨t, hdown, hpassed⟩
  refine ⟨_, ?_, rfl⟩
  change execPcieLinkLossTimeout s = _
  unfold execPcieLinkLossTimeout
  rw [hdown]
  exact if_pos hpassed

theorem pcieLinkTrained_holds (g : Fin 6) (w : Fin 9) (x : Fin 11) : (pcieLinkTrained g w x).Holds := by
  intro s ⟨hup, hspeed, hwidth⟩
  refine ⟨_, if_neg (by simpa [hup, hspeed, or_iff_not_imp_left] using hwidth), fun htold => ?_, fun hfast hwide hsame => ?_⟩
  · exact if_pos (by simpa [or_assoc] using htold)
  · exact if_neg (by simpa [hfast, hwide] using hsame)

theorem pcieEqRequest_holds (l : Fin 8) (p : Fin 11) : (pcieEqRequest l p).Holds :=
  fun _ hup => ⟨_, if_neg (by simp [show State.pcieUp _ = true from hup]), rfl⟩

theorem aspmL0sEntry_holds : aspmL0sEntry.Holds := fun _ ⟨hup, hfull⟩ => ⟨_, if_pos (by simp [hup, hfull]), rfl⟩

theorem aspmL1Entry_holds : aspmL1Entry.Holds := fun _ hup => ⟨_, if_pos hup, rfl⟩

end Sys2Proof.Claims

namespace Sys2Proof

open Claims

/-- Settles O30: each claim is the branch of its meaning that its condition selects. -/
theorem laneEventsTakeEffect : Obligations.LaneEventsTakeEffect :=
  ⟨lpiWakeExpiry_holds, sdiRateLock_holds, laneDetectorAssert_holds, laneUpTimer_holds, autonegDone_holds,
    coeffUpdateRequest_holds, trainingDone_holds, trainingWaitTimeout_holds, sdiAdaptationFail_holds, lpiEntry_holds,
    partnerLpi_holds⟩

/-- Settles O19: each claim is the branch of its meaning that its condition selects. -/
theorem pcieLinkTakesEffect : Obligations.PcieLinkTakesEffect :=
  ⟨perstNAssert_holds, perstNRelease_holds, pcieLinkDown_holds, pcieLinkReturn_holds, pcieLinkLossTimeout_holds,
    pcieLinkTrained_holds, pcieEqRequest_holds, aspmL0sEntry_holds, aspmL1Entry_holds⟩

end Sys2Proof
end

section
/-!
O12 and O2. The memory and session commands: what each command answers from its description's `run`, and the obligations.
-/

namespace Sys2Proof.Machine

@[simp] theorem State.captureGroup_hostRate (s : State) (g : Nat) (vs : List Nat) (d : Nat) :
    (s.captureGroup g vs).hostRate d = s.hostRate d := rfl

/-- A response that fits a fast-path slot completes as it is (R53). -/
theorem Answer.fits_done {k : Cmd} {s t : State} {r : Reply} (h : r.response.length ≤ 32) :
    (Answer.done r t).fits k s = .done r t := by
  dsimp only [fits]
  cases k.tok.via with
  | fast f slot => exact if_neg (Nat.not_lt.mpr h)
  | ring | session => rfl

/-- A command that is done, with a status other than `E_BUSY`, completes (R59). -/
theorem Answer.settle_done {k : Cmd} {t : State} {r : Reply} (h : r.status ≠ .eBusy) :
    (Answer.done r t).settle k = t.complete k r := by
  change (t.hint r).1.complete k (t.hint r).2 = _
  rw [State.hint_not_busy h]

end Sys2Proof.Machine

namespace Sys2Proof.Claims

open Machine Sys2Proof

/-! ### Memory (R419 to R443) -/

theorem memQuery_holds (c : Submission) : (memQuery c).Holds := by
  refine eciClaim_holds rfl (fun _ => rfl) fun k s hgate => ?_
  refine ⟨_, State.gated_of_dieGate hgate, ?_⟩
  simp only [List.append_assoc]
  refine ⟨by simp, ?_, ?_, ?_, ?_, ?_, ?_, ?_, ?_, ?_, ?_, ?_, ?_, ?_, ?_⟩ <;>
    simp [u8, u16, u32, u64, fieldAt_le_append, fieldAt_le_append_skip, fieldAt_sat_append, fieldAt_sat_append_skip]

theorem memSet_holds (c : Submission) : (memSet c).Holds :=
  eciClaim_holds rfl (fun _ => rfl) fun _ _ hgate => State.gated_of_dieGate hgate

theorem memFreq_holds (c : Submission) : (memFreq c).Holds := by
  refine eciClaim_holds rfl (fun _ => rfl) fun k s ⟨hgate, hdie, hpasses⟩ => ?_
  refine (State.gated_of_dieGate hgate).trans ((if_neg hdie).trans ?_)
  rw [hpasses]
  rfl

theorem memCopy_holds (c : Submission) : (memCopy c).Holds := by
  refine eciClaim_holds rfl (fun _ => rfl) fun k s ⟨e, hbuffer, howner⟩ => ⟨e, hbuffer, ?_⟩
  dsimp only [specMemCopy]
  rw [hbuffer]
  exact if_neg (by rcases howner with h | h <;> simp [h])

/-! ### Sessions (R461) -/

theorem sessionOpen_holds (c : Submission) : (sessionOpen c).Holds := by
  refine eciClaim_holds rfl (fun _ => rfl) fun k s ⟨hfn, hclosed⟩ => ?_
  dsimp only [specSessionOpen]
  rw [checked_pass]
  · refine ⟨_, rfl, ?_⟩
    by_cases hport : u16 k.payload 2 = 0
    · simp only [hport, if_true]
      exact ⟨rfl, rfl, rfl⟩
    · simp only [hport, if_false]
      exact ⟨rfl, rfl, rfl⟩
  · simp [firstFail, hfn, hclosed]

theorem sessionClose_holds (c : Submission) : (sessionClose c).Holds := by
  intro s ⟨t, hready, hjudge⟩
  refine ⟨_, congrArg Out.closeAfter (runEci_run specSessionClose c s t hready hjudge), t, hready, ?_⟩
  have hserved : ((specSessionClose.run (t.cmd c) (s.takeUp t)).fits (t.cmd c) (s.takeUp t)).settle (t.cmd c) =
      ((s.takeUp t).modSession (t.cmd c).session fun x => { x with closing := true }).complete (t.cmd c) {} := by
    refine (congrArg _ (Answer.fits_done ?_)).trans (Answer.settle_done ?_) <;> decide
  rw [hserved]

theorem sessionKeepalive_holds (c : Submission) : (sessionKeepalive c).Holds :=
  eciClaim_holds rfl (fun _ => rfl) fun _ _ _ => rfl

end Sys2Proof.Claims

namespace Sys2Proof

open Claims

/-- Settles O12: each claim from its command's `run`. -/
theorem memoryCommandsComplete : Obligations.MemoryCommandsComplete :=
  fun c => ⟨memQuery_holds c, memSet_holds c, memFreq_holds c, memCopy_holds c⟩

/-- Settles O2: each claim from its command's `run`. -/
theorem sessionCommandsComplete : Obligations.SessionCommandsComplete :=
  fun c => ⟨sessionOpen_holds c, sessionClose_holds c, sessionKeepalive_holds c⟩

end Sys2Proof
end

section
/-!
O13. The security commands: what a signing command and a command without a needed block come to, what each command answers from its
description's `run`, and the obligation.
-/

namespace Sys2Proof.Machine

open Sys2Proof (Byte)

variable {s : State}

/-! ### Authorisation (R449) -/

/-- A command that needs no authority has no block refused. -/
theorem State.blockRefused_of_none {op target off : Nat} {p : List Byte} (h : s.boot.fuses.authority op target = .none) :
    s.blockRefused op target p off = none := by
  unfold blockRefused authorise
  dsimp only
  rw [h]

/-- A command that needs no authority leaves the counter. -/
theorem State.acceptBlock_of_none {op target : Nat} (h : s.boot.fuses.authority op target = .none) :
    s.acceptBlock op target = s := by
  unfold acceptBlock
  rw [h]

end Sys2Proof.Machine

namespace Sys2Proof.Claims

open Machine Sys2Proof

/-! ### Quotes, certificates and keys (R338, R456 to R458) -/

theorem secQuote_holds (c : Submission) : (secQuote c).Holds := by
  refine eciClaim_holds rfl (fun _ => rfl) fun k s (hop : k.tok.opcode = 0x0C01) => ?_
  dsimp only [specSecQuote, State.whenSigning, State.signedReply]
  simp only [hop]
  rfl

theorem secCerts_holds (c : Submission) : (secCerts c).Holds := by
  refine eciClaim_holds rfl (fun _ => rfl) fun k s (hop : k.tok.opcode = 0x0C02) => ?_
  dsimp only [specSecCerts, State.whenSigning, State.signedReply]
  simp only [hop]
  rfl

theorem provKey_holds (c : Submission) : (provKey c).Holds := by
  refine eciClaim_holds rfl (fun _ => rfl) fun k s (hop : k.tok.opcode = 0x0812) => ?_
  dsimp only [specProvKey, State.whenSigning, State.signedReply]
  simp only [hop]
  rfl

theorem keyImport_holds (c : Submission) : (keyImport c).Holds := by
  refine eciClaim_holds rfl (fun _ => rfl) fun k s ⟨hfree, hfew, hup, hwipe, hnew⟩ => ?_
  obtain ⟨⟨h, t⟩, hnew⟩ := Option.isSome_iff_exists.mp hnew
  refine ⟨h, t, hnew, ?_⟩
  dsimp only [specKeyImport]
  cases hkey : s.unwrap k.payload with
  | none => rfl
  | some m =>
    rw [checked_pass, hnew]
    · rfl
    · simp only [firstFail_eq_none_iff, List.forall_mem_cons]
      refine ⟨rfl, ?_, decide_eq_false (Nat.not_le.mpr hfew), by simp [hup, hwipe], nofun⟩
      exact List.any_eq_false.mpr fun e he => by simp [hfree e he]

theorem keyDestroy_holds (c : Submission) : (keyDestroy c).Holds := by
  refine eciClaim_holds rfl (fun _ => rfl) fun k s (hfree : s.keyUsed k.tok.handle = false) => ?_
  dsimp only [specKeyDestroy]
  rw [checked_pass]
  · rfl
  · simp [firstFail, hfree]

/-! ### Life cycle and fuses (R448 to R453) -/

theorem secLcAdvance_holds (c : Submission) : (secLcAdvance c).Holds := by
  refine eciClaim_holds rfl (fun _ => rfl) fun k s _ => ?_
  dsimp only [specSecLcAdvance]
  cases s.lcRefused k.payload <;> rfl

theorem secOwnerKeyAdd_holds (c : Submission) : (secOwnerKeyAdd c).Holds := by
  refine eciClaim_holds rfl (fun _ => rfl) fun k s (hfree : s.boot.fuses.programmed 5 = false) => ?_
  dsimp only [specSecOwnerKeyAdd]
  cases s.blockRefused 0x0C06 0 k.payload 0x20 with
  | some r => rfl
  | none => exact if_neg (by simp [hfree])

theorem secKeyRevoke_holds (c : Submission) : (secKeyRevoke c).Holds := by
  refine eciClaim_holds rfl (fun _ => rfl) fun k s hothers => ?_
  dsimp only [specSecKeyRevoke] at hothers ⊢
  cases s.blockRefused 0x0C07 0 k.payload 4 with
  | some r => rfl
  | none =>
    have hlast : (if u8 k.payload 0 < 4 then !s.boot.fuses.othersUsable [0, 1, 2, 3] (u8 k.payload 0)
        else decide (2 ≤ s.boot.fuses.lcState) && !s.boot.fuses.othersUsable [4, 5] (u8 k.payload 0)) = false := by
      split_ifs at hothers ⊢
      · simp [hothers]
      · simpa using hothers
    dsimp only
    rw [hlast]
    cases s.signsActive (u8 k.payload 0) <;> rfl

theorem secSvnCommit_holds (c : Submission) : (secSvnCommit c).Holds := by
  dsimp only [secSvnCommit]
  refine eciClaim_holds rfl (fun _ => rfl) fun k s htrial => ?_
  dsimp only [specSecSvnCommit] at htrial ⊢
  cases s.blockRefused 0x0C08 0 k.payload 4 with
  | some r => rfl
  | none =>
    dsimp only
    rw [checked_pass]
    · rfl
    · cases hslot : s.boot.flash.trial with
      | none => simp [firstFail]
      | some t =>
        have hle := htrial t hslot
        simpa [firstFail, or_iff_not_imp_left] using hle

/-! ### Debug (R454, R455) -/

theorem secDebugChallenge_holds (c : Submission) : (secDebugChallenge c).Holds := by
  refine eciClaim_holds rfl (fun _ => rfl) fun k s _ => ?_
  exact ⟨_, _, rfl, length_slice .., rfl⟩

theorem secDebugUnlock_holds (c : Submission) : (secDebugUnlock c).Holds := by
  refine eciClaim_holds rfl (fun _ => rfl) fun k s ⟨hopen, n, since, hnonce, hsoon⟩ => ⟨n, since, hnonce, ?_⟩
  dsimp only [specSecDebugUnlock]
  rw [hnonce]
  have hlate : ¬ since + 60000000000 < s.now := Nat.not_lt.mpr hsoon
  rcases hopen with h | h <;> rw [h] <;> dsimp only <;> rw [if_neg hlate] <;>
    cases s.authorise 0x0C0A 0 k.payload 4 (u64 n 0) n { status := .eIntegrity } <;> rfl

/-! ### Tamper (R463 to R467) -/

theorem secTamperSet_holds (c : Submission) : (secTamperSet c).Holds := by
  dsimp only [secTamperSet]
  refine eciClaim_holds rfl (fun _ => rfl) fun k s hallowed => ?_
  dsimp only [specSecTamperSet]
  cases hlowers : s.boot.ka.lowers k.payload with
  | false => rfl
  | true =>
    have hnone := hallowed.resolve_left (by simp [hlowers])
    rw [State.blockRefused_of_none hnone, State.acceptBlock_of_none hnone]
    rfl

theorem secTamperLog_holds (c : Submission) : (secTamperLog c).Holds := by
  refine eciClaim_holds rfl (fun _ => rfl) fun k s _ => ⟨_, rfl, ?_⟩
  simp only [List.append_assoc]
  refine ⟨?_, ?_, rfl⟩ <;> simp [u16, fieldAt_le_append, fieldAt_le_append_skip]

theorem secTamperClear_holds (c : Submission) : (secTamperClear c).Holds := by
  refine eciClaim_holds rfl (fun _ => rfl) fun k s hnone => ?_
  dsimp only [specSecTamperClear]
  rw [State.blockRefused_of_none hnone, State.acceptBlock_of_none hnone]
  rfl

/-! ### Counter and credentials (R462, R468) -/

theorem secCounter_holds (c : Submission) : (secCounter c).Holds := by
  refine eciClaim_holds rfl (fun _ => rfl) fun k s _ => ?_
  dsimp only [specSecCounter]
  split <;> rfl

theorem secCredSet_holds (c : Submission) : (secCredSet c).Holds := by
  refine eciClaim_holds rfl (fun _ => rfl) fun k s hnone => ?_
  dsimp only [specSecCredSet]
  rw [State.blockRefused_of_none hnone, State.acceptBlock_of_none hnone]
  rfl

end Sys2Proof.Claims

namespace Sys2Proof

open Claims

/-- Settles O13: each claim from its command's `run`. -/
theorem securityCommandsComplete : Obligations.SecurityCommandsComplete :=
  fun c => ⟨secQuote_holds c, secCerts_holds c, provKey_holds c, keyImport_holds c, keyDestroy_holds c, secLcAdvance_holds c,
    secOwnerKeyAdd_holds c, secKeyRevoke_holds c, secSvnCommit_holds c, secDebugChallenge_holds c, secDebugUnlock_holds c,
    secTamperSet_holds c, secTamperLog_holds c, secTamperClear_holds c, secCounter_holds c, secCredSet_holds c⟩

end Sys2Proof
end

section
/-!
O22. Tamper, the test port and the security processor: what the last steps of a wipe leave of the keys, one lemma for each claim, and
the obligation.
-/

namespace Sys2Proof.Machine

variable (s : State)

/-! ### The safe state, sessions and the wipe (R466, R484) -/

/-- The safe state leaves the security processor's own state. -/
theorem State.enterSafe_sec (reason : Nat) : (s.enterSafe reason).boot.sec = s.boot.sec := by
  simp [enterSafe, logReason, setStage_boot]

/-- Closing a session changes the host interface alone. -/
theorem State.onlyEci_closeSession (n cause : Nat) : s.OnlyEci (s.closeSession n cause) := by
  unfold closeSession
  split
  · exact .refl s
  · dsimp only
    split
    · exact .trans (.modEci s _) (State.onlyEci_raiseOwn _ _ _ _)
    · exact .modEci s _

theorem State.onlyEci_raiseTamper (e : TamperEntry) (safe : Bool) : s.OnlyEci (s.raiseTamper e safe) :=
  State.onlyEci_raise ..

/-- The wipe deletes every key, and what it closes and reports then leaves it so (R466 steps 5 and 6). -/
theorem State.wipedKeys (names : List Nat) (trips : List TamperEntry) (safe : Bool) (detail : Nat) :
    ((trips.foldl (fun s e => s.raiseTamper e safe) (names.foldl (fun s n => s.closeSession n 0) s.deleteKeys)).raise
      evKeyWiped deviceHandle detail).boot.sec.keys = [] := by
  have hclosed := State.OnlyEci.foldl (l := names) (fun s n => s.onlyEci_closeSession n 0) s.deleteKeys
  have htold := hclosed.trans (State.OnlyEci.foldl (l := trips) (fun s e => s.onlyEci_raiseTamper e safe) _)
  rw [State.raise_boot, htold.boot]
  rfl

/-- After the last steps of a wipe that was pending none is, and no key is left. -/
theorem State.finishWipe_sec (h : s.boot.sec.wipePending.isSome = true) :
    s.finishWipe.boot.sec.wipePending = none ∧ s.finishWipe.boot.sec.keys = [] := by
  obtain ⟨⟨trips, response⟩, hpending⟩ := Option.isSome_iff_exists.mp h
  unfold finishWipe
  rw [hpending]
  dsimp only
  split
  · rw [enterSafe_sec]
    exact ⟨rfl, s.wipedKeys ..⟩
  · exact ⟨rfl, s.wipedKeys ..⟩

/-! ### Trips (R463) -/

theorem State.sensorLive_of_powered {i : Nat} (hpower : s.boot.railsGood = true) (hloop : i = 5 → s.boot.ka.loopArmed = true) :
    s.sensorLive i false = true := by
  by_cases h : i = 5 <;> simp [sensorLive, hpower, h, hloop]

end Sys2Proof.Machine

namespace Sys2Proof.Claims

open Machine Sys2Proof

theorem tamperTrip_holds (i : Fin 6) : (tamperTrip i).Holds := by
  intro s ⟨hpower, hloop⟩
  have hlive := s.sensorLive_of_powered hpower hloop
  have hhit : ((i.val :: ((none : Option (Fin 6)).map Fin.val).toList).eraseDups).filter (s.sensorLive · false) = [i.val] := by
    simp [List.eraseDups_cons, hlive]
  dsimp only [tamperTrip]
  refine ⟨_, ?_, rfl⟩
  change execTamperTrip i none false s = _
  unfold execTamperTrip
  dsimp only
  rw [hhit]
  simp only [Bool.false_eq_true, if_false, List.map_cons, List.map_nil, List.foldl_cons, List.foldl_nil, Nat.zero_max]
  exact (apply_ite Host.Outcome.next _ _ _).symm

theorem wipeDone_holds : wipeDone.Holds := fun s hpending => ⟨_, rfl, rfl, s.finishWipe_sec hpending⟩

theorem tapInstructionLoad_holds (i : TapInstruction) : (tapInstructionLoad i).Holds := by
  intro s (hsafe : s.boot.stage ≠ .safe)
  exact ⟨_, (apply_ite Host.Outcome.next _ _ _).symm, if_congr (by simp [hsafe]) rfl rfl⟩

theorem spFatalError_holds : spFatalError.Holds := by
  intro s ⟨hready, hup⟩
  exact ⟨_, if_pos (by simp [hready, hup]), rfl⟩

theorem securityProcessorRestartDone_holds : securityProcessorRestartDone.Holds := by
  intro s (hdown : s.boot.sec.spUp = false)
  exact ⟨_, if_neg (by simp [hdown]), rfl⟩

end Sys2Proof.Claims

namespace Sys2Proof

open Claims

/-- Settles O22: each claim is the branch of its meaning that its condition selects. -/
theorem securityEventsTakeEffect : Obligations.SecurityEventsTakeEffect :=
  ⟨tamperTrip_holds, wipeDone_holds, tapInstructionLoad_holds, spFatalError_holds, securityProcessorRestartDone_holds⟩

end Sys2Proof
end

section
/-!
O24. Connections, handshakes and protected frames, and the staged sets that reach their units: what each arrival does by where its set
lands, one lemma for each claim, and the obligation.
-/

namespace Sys2Proof.Machine

variable {s : State} {r : Running} {kind : BoundaryKind} {c : Change}

/-! ### Staged sets (R19 to R22) -/

/-- The oldest set that is on its way is `r`'s, for a boundary of a kind, and no take-over runs. -/
def State.arriving (s : State) (r : Running) (kind : BoundaryKind) (c : Change) : Prop :=
  s.eci.running.find? Running.onItsWay = some r ∧ r.await = .arrival kind c ∧ s.boot.fencedAt = none

/-- A set is lost on its way to a die that is fenced: to its pipe 3, or to a channel that it carries (R22). -/
def State.setLost (s : State) : BoundaryKind → Bool
  | .pipe3 d => bit s.boot.diesFenced d
  | .source h => (s.ch h).dies.any (bit s.boot.diesFenced)
  | _ => false

/-- The state without a command that waited. -/
def State.withoutRunning (s : State) (r : Running) : State :=
  s.modEci fun e => { e with running := e.running.filter (· != r) }

theorem execStagedSetArrival_of_lost (ha : s.arriving r kind c) (hlost : s.setLost kind = true) :
    execStagedSetArrival s = .next ((s.withoutRunning r).complete r.cmd { r.reply with status := .eHwFault }) := by
  obtain ⟨hfind, hawait, hfree⟩ := ha
  unfold execStagedSetArrival
  rw [hfind]
  dsimp only
  rw [hfree, hawait]
  exact if_pos hlost

/-- What becomes of a set and its command by where the set lands. -/
def State.settleSet (s : State) (r : Running) (kind : BoundaryKind) (c : Change) : Landing × Reply → State
  | (.now b, reply) => ((s.withoutRunning r).applyChange none c).complete r.cmd { reply with boundary := b.bind c.reported }
  | (.later b, reply) =>
    ((s.withoutRunning r).noteStaged kind b r.cmd.tok.seq c).complete r.cmd { reply with boundary := c.reported b }
  | (.hold, _) => match kind with
    | .pipe3 d => s.modEci fun e => { e with
        running := e.running.map fun x => if x = r then { x with await := .pipe3Boundary d c } else x }
    | _ => s

/-- A set whose landing no rule of its own moves lands where its boundary is. -/
theorem State.land_of_plain {q : Reply} (hgates : ∀ port p, c ≠ .gates port p) (hpps : ∀ p, c ≠ .pps p)
    (hkey : ∀ h x y, c ≠ .egressKey h x y) : s.land kind c q = s.deferred kind c (s.landing kind) q := by
  unfold State.land
  split
  · exact absurd rfl (hgates _ _)
  · exact absurd rfl (hpps _)
  · exact absurd rfl (hkey _ _ _)
  · rfl

/-- Nothing defers a set that waits for no boundary of its own. -/
theorem State.deferred_of_not_later {l : Landing} {q : Reply} (h : ∀ b, l ≠ .later b) : s.deferred kind c l q = (l, q) := by
  unfold State.deferred
  split
  · exact absurd rfl (h _)
  · exact absurd rfl (h _)
  · rfl

/-- A set for pipe 3 of a die takes effect at once while the pipe is idle, and is held while it codes (R20). -/
theorem State.land_pipe3 {d : Nat} {q : Reply} (hgates : ∀ port p, c ≠ .gates port p) (hpps : ∀ p, c ≠ .pps p)
    (hkey : ∀ h x y, c ≠ .egressKey h x y) : s.land (.pipe3 d) c q =
      (if (s.chan.pipe3.look {} d).coding.isNone = true then .now (some (.time s.stamp)) else .hold, q) := by
  rw [State.land_of_plain hgates hpps hkey]
  refine State.deferred_of_not_later fun b => ?_
  dsimp only [State.landing]
  split <;> nofun

theorem execStagedSetArrival_of_live (ha : s.arriving r kind c) (hlive : s.setLost kind = false) :
    execStagedSetArrival s = .next (s.settleSet r kind c (s.land kind c r.reply)) := by
  obtain ⟨hfind, hawait, hfree⟩ := ha
  unfold execStagedSetArrival
  rw [hfind]
  dsimp only
  rw [hfree, hawait]
  refine (if_neg (Bool.eq_false_iff.mp hlive)).trans ?_
  obtain ⟨l, reply⟩ := s.land kind c r.reply
  cases l <;> rfl

end Sys2Proof.Machine

namespace Sys2Proof.Claims

open Machine Sys2Proof

/-! ### Connections and handshakes (R459, R460) -/

theorem sessionConnect_holds (n : Fin 5) (port : BitVec 16) : (sessionConnect n port).Holds := by
  intro s ⟨hruns, hport, hopen, hroom, hfree, hnumber⟩
  refine ⟨_, (if_neg ?_).trans ((if_neg ?_).trans ((if_neg ?_).trans (if_neg ?_))), rfl⟩
  · simp [hruns, hport]
  · simp [hopen]
  · exact Nat.not_le.mpr hroom
  · simp [hfree, hnumber]

theorem sessionLockout_holds (n : Fin 5) (port : BitVec 16) : (sessionLockout n port).Holds := by
  intro s ⟨hruns, hport, hlocked⟩
  exact ⟨_, (if_neg (by simp [hruns, hport])).trans (if_pos hlocked), rfl⟩

theorem handshakeH1_holds (n : Fin 5) (frame : List (BitVec 8)) : (handshakeH1 n frame).Holds := by
  intro s ⟨hruns, hup, hform, c, hfind, hphase⟩
  refine ⟨_, ?_, rfl⟩
  change execHandshakeH1 n frame s = _
  unfold execHandshakeH1
  dsimp only
  rw [hfind]
  exact (if_neg (by simp [hphase, hruns, hup])).trans (if_neg (by simp [hform]))

theorem handshakeH3_holds (n : Fin 5) (frame : List (BitVec 8)) : (handshakeH3 n frame).Holds := by
  intro s ⟨hruns, hup, c, hfind, hphase⟩
  change Answers (execHandshakeH3 n frame s) _
  unfold execHandshakeH3
  dsimp only
  rw [hfind]
  dsimp only
  rw [if_neg (by simp [hphase, hruns, hup])]
  cases hcred : s.credentialOf (h1Key c.h1) (h1Cert c.h1) with
  | none => exact ⟨_, rfl, c, hfind, by rw [hcred]⟩
  | some e =>
    by_cases hgood : frame.length = 4397 ∧
        Config.mlDsaVerify 65 (h1Key c.h1) (sha3 (c.h1 ++ c.h2 ++ slice frame 0 1088)) (slice frame 1088 3309) = true
    · refine ⟨_, if_neg (by simpa using hgood), c, hfind, ?_⟩
      rw [hcred]
      exact (if_pos hgood).mpr rfl
    · refine ⟨_, if_pos (by simpa [or_iff_not_imp_left] using hgood), c, hfind, ?_⟩
      rw [hcred]
      exact (if_neg hgood).mpr rfl

theorem handshakeTimeout_holds (n : Fin 5) : (handshakeTimeout n).Holds := by
  intro s ⟨c, hfind, hphase, hpassed⟩
  refine ⟨_, ?_, rfl⟩
  change execHandshakeTimeout n s = _
  unfold execHandshakeTimeout
  rw [hfind]
  exact if_pos (by simp [hphase, hpassed])

theorem connectionLockoutEnd_holds : connectionLockoutEnd.Holds := by
  intro s ⟨t, hlocked, hpassed⟩
  refine ⟨_, ?_, rfl⟩
  change execConnectionLockoutEnd s = _
  unfold execConnectionLockoutEnd
  rw [hlocked]
  exact if_pos hpassed

/-! ### Protected frames (R71, R460) -/

theorem protectedFrame_holds (n : Fin 4) (frame : List (BitVec 8)) : (protectedFrame n frame).Holds := by
  intro s ⟨hruns, c, hfind, hphase⟩
  change Answers (execProtectedFrame n frame s) _
  unfold execProtectedFrame
  rw [hfind]
  dsimp only
  rw [if_neg (by simp [hphase, hruns])]
  cases hopen : Config.gcmOpen c.rxKey (le 4 0 ++ le 8 c.rxCount) (le 4 frame.length) frame with
  | none => exact ⟨_, rfl, c, hfind, by rw [hopen]⟩
  | some plain =>
    refine ⟨_, rfl, c, hfind, ?_⟩
    rw [hopen]
    refine if_congr ?_ rfl rfl
    simp [Option.any_eq_true]

theorem sessionIdleTimeout_holds (n : Fin 4) : (sessionIdleTimeout n).Holds := by
  intro s ⟨c, hfind, hphase, hpassed⟩
  refine ⟨_, ?_, rfl⟩
  change execSessionIdleTimeout n s = _
  unfold execSessionIdleTimeout
  rw [hfind]
  exact if_pos (by simp [hphase, hpassed])

/-! ### Arrivals (R19 to R22) -/

theorem stagedSetArrival_holds : stagedSetArrival.Holds := by
  intro s ⟨r, kind, c, hfind, hawait, hfree, hpipe, hsource⟩
  have hlive : s.setLost kind = false := by
    cases kind with
    | pipe3 d => exact absurd rfl (hpipe d)
    | source h => exact hsource h rfl
    | _ => rfl
  refine ⟨_, execStagedSetArrival_of_live ⟨hfind, hawait, hfree⟩ hlive, r, kind, c, hfind, hawait, ?_⟩
  obtain ⟨l, reply⟩ := s.land kind c r.reply
  exact ⟨fun b (h : l = .now b) => by rw [h]; rfl, fun b (h : l = .later b) => by rw [h]; rfl⟩

theorem stagedSetWaits_holds : stagedSetWaits.Holds := by
  intro s (hfenced : s.boot.fencedAt.isSome = true)
  refine ⟨s, ?_, rfl⟩
  change execStagedSetArrival s = _
  unfold execStagedSetArrival
  split
  · rfl
  · exact if_pos hfenced

theorem stagedSetPipe3_holds (d : Nat) (c : Change) : (stagedSetPipe3 d c).Holds := by
  intro s ⟨hfree, hlive, hgates, hpps, hkey, r, hfind, hawait⟩
  refine ⟨_, execStagedSetArrival_of_live ⟨hfind, hawait, hfree⟩ hlive, r, hfind, fun hidle => ?_, fun hcodes => ?_⟩
  · rw [State.land_pipe3 hgates hpps hkey, if_pos (by simp [hidle])]
    rfl
  · rw [State.land_pipe3 hgates hpps hkey, if_neg (by simpa [Option.isSome_iff_ne_none] using hcodes)]
    rfl

theorem stagedSetLost_holds (d : Nat) (c : Change) : (stagedSetLost d c).Holds := by
  intro s ⟨hfree, hfenced, r, hfind, hawait⟩
  exact ⟨_, execStagedSetArrival_of_lost ⟨hfind, hawait, hfree⟩ hfenced, r, hfind, rfl⟩

theorem stagedStartLost_holds (h : Nat) (c : Change) : (stagedStartLost h c).Holds := by
  intro s ⟨hfree, hfenced, r, hfind, hawait⟩
  exact ⟨_, execStagedSetArrival_of_lost ⟨hfind, hawait, hfree⟩ hfenced, r, hfind, rfl⟩

end Sys2Proof.Claims

namespace Sys2Proof

open Claims

/-- Settles O24: each claim is the branch of its meaning that its condition selects. -/
theorem sessionEventsTakeEffect : Obligations.SessionEventsTakeEffect :=
  ⟨sessionConnect_holds, sessionLockout_holds, handshakeH1_holds, handshakeH3_holds, handshakeTimeout_holds,
    connectionLockoutEnd_holds, protectedFrame_holds, sessionIdleTimeout_holds, stagedSetArrival_holds, stagedSetWaits_holds,
    stagedSetPipe3_holds, stagedSetLost_holds, stagedStartLost_holds⟩

end Sys2Proof
end

section
/-!
O14. The health and repair commands: what each command answers from its description's `run`, and the obligation.
-/

namespace Sys2Proof.Claims

open Machine Sys2Proof

theorem healthQuery_holds (c : Submission) : (healthQuery c).Holds := by
  refine eciClaim_holds rfl (fun _ => rfl) fun k s _ => ⟨_, rfl, ?_⟩
  simp only [List.append_assoc]
  refine ⟨?_, ?_, ?_, ?_, ?_⟩ <;> simp [u8, u32, u64, fieldAt_le_append, fieldAt_le_append_skip]

theorem bootSlotSet_holds (c : Submission) : (bootSlotSet c).Holds := by
  refine eciClaim_holds rfl (fun _ => rfl) fun k s _ => ?_
  refine if_congr Iff.rfl rfl ?_
  cases happroved : s.slotApproved (u8 k.payload 0) <;> simp [checked, firstFail, ok]

theorem dieRepair_holds (c : Submission) : (dieRepair c).Holds := by
  refine eciClaim_holds rfl (fun _ => rfl) fun k s ⟨hdie, hfenced, hidle⟩ => ?_
  dsimp only [specDieRepair]
  rw [checked_pass]
  simp [firstFail, hdie, hfenced, hidle]

theorem mpRepair_holds (c : Submission) : (mpRepair c).Holds := by
  refine eciClaim_holds rfl (fun _ => rfl) fun k s hfenced => ?_
  dsimp only [specMpRepair]
  rw [checked_pass]
  have hsome : s.boot.fencedMp.isNone = false := by simpa [Option.isSome_iff_ne_none] using hfenced
  simp [firstFail, hsome]

theorem isstQuery_holds (c : Submission) : (isstQuery c).Holds := by
  refine eciClaim_holds rfl (fun _ => rfl) fun k s hgate => ⟨_, State.gated_of_dieGate hgate, ?_⟩
  simp only [List.append_assoc]
  refine ⟨by simp, ?_, ?_, ?_, ?_, ?_⟩ <;> simp [u8, u16, u32, fieldAt_le_append, fieldAt_le_append_skip]

theorem kaLog_holds (c : Submission) : (kaLog c).Holds := by
  refine eciClaim_holds rfl (fun _ => rfl) fun k s _ => ⟨_, rfl, by simp, ?_⟩
  simp only [List.append_assoc, u16, fieldAt_le_append]
  rfl

theorem thermQuery_holds (c : Submission) : (thermQuery c).Holds := by
  refine eciClaim_holds rfl (fun _ => rfl) fun k s _ => ⟨_, rfl, ?_⟩
  simp only [List.append_assoc]
  refine ⟨by simp, fun d hd => ?_, ?_, ?_, ?_⟩
  · rw [u16, fieldAt_flatMap_le_append 2 _ (by simpa using hd), List.getElem_range]
    rfl
  case refine_3 =>
    simp only [u8, fieldAt_flatMap_le_append_skip, fieldAt_le_append_skip, fieldAt_le_append, List.length_range,
      Nat.reduceMul, Nat.reduceLeDiff, Nat.reduceSub]
    exact Nat.mod_eq_of_lt (b2n_lt_256 _)
  all_goals
    simp [u8, u16, fieldAt_flatMap_le_append_skip, fieldAt_le_append_skip, fieldAt_le_append, fieldAt_le]

end Sys2Proof.Claims

namespace Sys2Proof

open Claims

/-- Settles O14: each claim from its command's `run`. -/
theorem healthCommandsComplete : Obligations.HealthCommandsComplete :=
  fun c => ⟨healthQuery_holds c, bootSlotSet_holds c, dieRepair_holds c, mpRepair_holds c, isstQuery_holds c, kaLog_holds c,
    thermQuery_holds c⟩

end Sys2Proof
end

section
/-!
O17. Power, resets and start-up: what stays outside the start-up's own parts of the state, what the ROM decides, one lemma for each
claim, and the obligation.
-/

namespace Sys2Proof.Machine

open Sys2Proof (Byte)

variable {s t u : State}

/-! ### States that differ in start-up and the host interface alone -/

/-- Two states that differ in start-up and the host interface at most. -/
def State.OnlyBootEci (s t : State) : Prop := t = { s with boot := t.boot, eci := t.eci }

theorem State.OnlyBootEci.trans (h : s.OnlyBootEci t) (k : t.OnlyBootEci u) : s.OnlyBootEci u := by
  unfold OnlyBootEci at *
  rw [k, h]

theorem State.modBoot_now (s : State) (f : Boot → Boot) : (s.modBoot f).now = s.now := rfl

theorem State.OnlyEci.bootEci (h : s.OnlyEci t) : s.OnlyBootEci t := by
  unfold OnlyEci at h
  rw [h]
  rfl

theorem State.onlyBootEci_modBoot (s : State) (f : Boot → Boot) : s.OnlyBootEci (s.modBoot f) := rfl

theorem State.OnlyBootEci.modBoot (h : s.OnlyBootEci t) (f : Boot → Boot) : s.OnlyBootEci (t.modBoot f) :=
  h.trans (t.onlyBootEci_modBoot f)

theorem State.onlyBootEci_setStage (s : State) (st : Stage) : s.OnlyBootEci (s.setStage st) := by
  unfold setStage
  split
  · rfl
  · exact (s.onlyBootEci_modBoot _).trans (State.onlyEci_causeAll _ _).bootEci

theorem State.onlyBootEci_failStart (s : State) (r : Nat) : s.OnlyBootEci (s.failStart r) := rfl

theorem State.onlyBootEci_logReason (s : State) (r d : Nat) : s.OnlyBootEci (s.logReason r d) := rfl

theorem State.onlyBootEci_enterRecovery (s : State) (r : Nat) : s.OnlyBootEci (s.enterRecovery r) := by
  unfold enterRecovery
  exact ((s.onlyBootEci_logReason r 0).trans (State.onlyBootEci_setStage _ _)).modBoot _

/-- Two such states with an open value used between them (log entry 4). -/
theorem State.OnlyBootEci.of_useFree (h : s.OnlyBootEci u) (k : u.useFree.OnlyBootEci t) :
    t = { s with boot := t.boot, eci := t.eci, free := t.free } := by
  unfold OnlyBootEci at h k
  rw [k, h]
  rfl

/-! ### What the ROM decides (R450, R474, R475, R479) -/

/-- A reason for recovery mode turns on the life cycle and the keep-alive island. -/
theorem Boot.recoveryReason_congr {a b : Boot} {strap : Bool} {x : Nat} (hlc : a.fuses.lcState = b.fuses.lcState)
    (hshadow : a.ka.lcShadow = b.ka.lcShadow) (hrequest : a.ka.request = b.ka.request)
    (hcount : a.ka.bootCount = b.ka.bootCount) (hattempt : a.ka.attempt = b.ka.attempt) :
    a.recoveryReason strap x = b.recoveryReason strap x := by
  unfold recoveryReason
  rw [hlc, hshadow, hrequest, hcount, hattempt]

/-- That there is none does not rest on the code that no rule gives: the code stands in one of the branches with a reason. -/
theorem Boot.recoveryReason_none {b : Boot} {strap : Bool} (x y : Nat) (h : b.recoveryReason strap x = none) :
    b.recoveryReason strap y = none := by
  unfold recoveryReason at h ⊢
  grind

/-- The ROM's start: what it notes of the straps and of a cold island, the stage, and the count of starts (R475, R486). -/
def State.begun (s : State) (host : Bool) : State :=
  ((((s.modBoot fun b => { b with
    bootHost := host, startRef := 0, kaColdAtStart := !s.boot.ka.signature, counterRestored := !s.boot.ka.signature
    ka := if !s.boot.ka.signature then b.coldKa else b.ka }).setStage .rom).countUp).modBoot fun b => { b with
      sec := { b.sec with issued := b.ka.counter } })

theorem State.onlyBootEci_begun (s : State) (host : Bool) : s.OnlyBootEci (s.begun host) :=
  (((s.onlyBootEci_modBoot _).trans (State.onlyBootEci_setStage _ _)).modBoot _).modBoot _

@[simp] theorem State.begun_free (s : State) (host : Bool) : (s.begun host).free = s.free := by
  simp [begun, countUp]

@[simp] theorem State.begun_stage (s : State) (host : Bool) : (s.begun host).boot.stage = .rom := by
  simp [begun, countUp, setStage_boot]

@[simp] theorem State.begun_tooHot (s : State) (host : Bool) : (s.begun host).boot.tooHot = s.boot.tooHot := by
  simp [begun, countUp, setStage_boot, Boot.tooHot]

theorem State.modBoot_tooHot {f : Boot → Boot} (hjunctions : (f s.boot).junctions = s.boot.junctions)
    (hfuses : (f s.boot).fuses = s.boot.fuses) : (s.modBoot f).boot.tooHot = s.boot.tooHot := by
  rw [Boot.tooHot, modBoot_boot, hjunctions, hfuses]
  rfl

/-- The start is judged by the island as the ROM finds it, or as it sets a cold one. -/
theorem State.begun_recoveryReason (s : State) (host strap : Bool) (x : Nat) : (s.begun host).boot.recoveryReason strap x =
    (if s.boot.ka.signature = true then s.boot else { s.boot with ka := s.boot.coldKa }).recoveryReason strap x := by
  cases hsig : s.boot.ka.signature <;> refine Boot.recoveryReason_congr ?_ ?_ ?_ ?_ ?_ <;>
    simp [begun, countUp, setStage_boot, hsig]

theorem State.romGoesOn_recovers {r : Nat} (h : s.boot.recoverAs = some r) : s.romGoesOn = s.enterRecovery r := by
  unfold romGoesOn
  rw [h]

/-- A trip that is logged on a condition changes start-up alone. -/
theorem State.ite_logTrip (s : State) (c : Prop) [Decidable c] (e : TamperEntry) :
    (if c then s.logTrip e else s) = s.modBoot fun b => { b with ka := if c then b.ka.logTamper e else b.ka } := by
  split
  · rfl
  · rfl

/-- The ROM at the start of a device out of reset: the decision, on the state that has begun. -/
theorem execRomStart_begun {host strap dram flash : Bool} (hheld : s.boot.held = false) (hstage : s.boot.stage = .reset) :
    execRomStart host strap dram flash s =
      let why := (s.begun host).boot.recoveryReason strap (Config.freeNat s.free % 256)
      let u := (s.begun host).useFree
      if !dram && why.isNone then .next (u.failStart 0x31)
      else if !flash && why.isNone then .next (u.failStart 0x32)
      else
        let v := if why = some 0x29 then u.logTrip (u.tripEntry 3 false) else u
        let w := v.modBoot fun b => { b with
          ka := { b.ka with lcShadow := max b.ka.lcShadow b.fuses.lcState }, recoverAs := why }
        if w.boot.tooHot then .next (w.modBoot fun b => { b with thermalWait := some w.now }) else .next w.romGoesOn := by
  rw [← s.begun_free host]
  exact if_neg (by simp [hheld, hstage])

/-! ### READY (R463, R474, R475, R477, R486) -/

/-- A report that is made at most. -/
theorem State.OnlyEci.ite {c : Prop} [Decidable c] (h : s.OnlyEci t) : s.OnlyEci (if c then t else s) := by
  split
  · exact h
  · exact .refl s

/-- READY as firmware reports it, before the events that tell of the start. -/
def State.readied (s : State) : State :=
  let s := s.setStage .ready
  (((s.modBoot fun b => { b with
    ka := { b.ka with bootCount := 0, tripsWhileOff := [] }
    flash := if b.trialRun then
      { b.flash with active := b.slot, trial := none, tried := false, seqNo := b.flash.seqNo + 1 } else b.flash
    lastReport := s.now, journaledAt := s.now }).modEci fun e => { e with
      sessionPort := s.boot.flash.sessionPort.getD 7418 }).modNet fun n => { n with
        ports := s.boot.flash.portAddr.foldl (fun t e => t.modD {} e.1 fun p => { p with addr := e.2 }) n.ports })

theorem State.readied_frame (h : s.readied.OnlyBootEci t) : t = { s with boot := t.boot, eci := t.eci, net := t.net } := by
  have hstage := s.onlyBootEci_setStage .ready
  unfold OnlyBootEci at h hstage
  rw [h, readied, hstage]
  rfl

/-- What READY leaves of start-up (R474, R475). -/
theorem State.readied_boot (s : State) : s.readied.boot = { s.boot with
    stage := .ready
    ka := { s.boot.ka with bootCount := 0, tripsWhileOff := [] }
    flash := if s.boot.trialRun then
      { s.boot.flash with active := s.boot.slot, trial := none, tried := false, seqNo := s.boot.flash.seqNo + 1 } else s.boot.flash
    lastReport := s.now, journaledAt := s.now } := by
  simp [readied, setStage_boot, now]

/-- The events that tell of a start, from what the start left in `b`. -/
def State.tellStart (s : State) (b : Boot) : State :=
  let s := if b.kaColdAtStart then s.raise evKaSupply deviceHandle (3 + s.kaSeconds * 65536) else s
  let s := if b.counterRestored then s.raise evCounterRestored deviceHandle b.ka.counter else s
  let s := b.ka.tripsWhileOff.foldl (fun s t => s.raiseTamper t false) s
  let s := match b.fallback with
    | some (slot, reason) => s.raise evBootFallback deviceHandle (slot + reason * 256)
    | none => s
  ((List.range s.dies).filter fun d => bit b.diesFenced d).foldl (fun s d => s.raise evDieFault (dieHandle d) (7 + d * 256)) s

theorem State.onlyEci_tellStart (s : State) (b : Boot) : s.OnlyEci (s.tellStart b) := by
  have hcold : s.OnlyEci (if b.kaColdAtStart then s.raise evKaSupply deviceHandle (3 + s.kaSeconds * 65536) else s) :=
    (s.onlyEci_raise _ _ _ none).ite
  have hlost (u : State) : u.OnlyEci (if b.counterRestored then u.raise evCounterRestored deviceHandle b.ka.counter else u) :=
    (u.onlyEci_raise _ _ _ none).ite
  refine hcold.trans ((hlost _).trans
    ((State.OnlyEci.foldl (l := b.ka.tripsWhileOff) (fun s e => s.onlyEci_raiseTamper e false) _).trans ?_))
  refine State.OnlyEci.trans ?_ (State.OnlyEci.foldl (fun s d => s.onlyEci_raise _ _ _ none) _)
  cases b.fallback with
  | none => exact .refl _
  | some e => exact State.onlyEci_raise _ _ _ _ none

theorem State.onlyBootEci_degrade (s : State) : s.OnlyBootEci s.degrade :=
  (s.onlyBootEci_modBoot _).trans (State.onlyEci_raise _ _ _ _ none).bootEci

@[simp] theorem State.degrade_boot (s : State) : s.degrade.boot = { s.boot with degraded := true } := by
  simp [degrade]

/-- READY, told, and degraded while a die is held. -/
theorem execFirmwareReady_readied (hstage : s.boot.stage = .fwStart) (hrunning : s.boot.failedAt = none) :
    ∃ c : Bool, execFirmwareReady s = .next (if c then s.readied.tellStart (s.setStage .ready).boot
      else (s.readied.tellStart (s.setStage .ready).boot).degrade) :=
  ⟨_, if_neg (by simp [hstage, hrunning])⟩

end Sys2Proof.Machine

namespace Sys2Proof.Claims

open Machine Sys2Proof

/-! ### Power and `SYS_RST_N` (R470, R508, R523) -/

theorem powerGood_holds : powerGood.Holds := by
  intro s (hoff : s.boot.railsGood = false)
  exact ⟨_, if_neg (by simp [hoff]), rfl⟩

theorem brownOut_holds : brownOut.Holds := fun _ hon => ⟨_, if_pos hon, rfl⟩

theorem sysRstNLow_holds (ns : Nat) : (sysRstNLow ns).Holds := by
  intro s (hns : ns < 1000 ∨ 2000 ≤ ns)
  change Answers (execSysRstNLow ns s) _
  unfold execSysRstNLow
  have hopen : decide (1000 ≤ ns ∧ ns < 2000) = false := decide_eq_false (by omega)
  rw [hopen]
  rcases hns with hshort | hlong
  · exact ⟨s, if_neg (by simp; omega), fun _ => rfl, fun h => absurd h (by omega)⟩
  · exact ⟨_, if_pos (by simpa using hlong), fun h => absurd h (by omega), fun _ => rfl⟩

theorem sysRstNRelease_holds : sysRstNRelease.Holds := fun _ hlow => ⟨_, if_pos hlow, rfl⟩

/-! ### Restarts (R70, R451, R478) -/

theorem restartDelayExpiry_holds : restartDelayExpiry.Holds := by
  intro s ⟨e, hdue, hpassed⟩
  change Answers (execRestartDelayExpiry s) _
  unfold execRestartDelayExpiry
  rw [hdue]
  refine ⟨_, if_pos hpassed, e, hdue, ?_⟩
  obtain ⟨t, recovers⟩ := e
  cases recovers <;> rfl

theorem failedStartRestart_holds : failedStartRestart.Holds := fun _ hfailed => ⟨_, if_pos hfailed, rfl⟩

/-! ### ROM (R452, R474, R475, R479) -/

theorem romStart_holds (host strap : Bool) : (romStart host strap).Holds := by
  intro s ⟨hheld, hstage, hsignature, hcool, hreason⟩
  have hnone : (s.begun host).boot.recoveryReason strap (Config.freeNat s.free % 256) = none := by
    rw [s.begun_recoveryReason, if_pos hsignature]
    exact Boot.recoveryReason_none 0 _ hreason
  refine ⟨_, (execRomStart_begun hheld hstage).trans ?_, rfl⟩
  rw [hnone]
  refine (if_neg (by simp)).trans ((if_neg (by simp)).trans
    ((if_neg (ne_true_of_eq_false ((s.begun_tooHot host).trans hcool))).trans ?_))
  rw [State.begun, hsignature]
  rfl

theorem romStartRecovers_holds (host strap dram flash : Bool) : (romStartRecovers host strap dram flash).Holds := by
  intro s ⟨hheld, hstage, hsignature, hcool, r, hreason⟩
  have hsome : (s.begun host).boot.recoveryReason strap (Config.freeNat s.free % 256) = some r := by
    rw [s.begun_recoveryReason, if_pos hsignature]
    exact hreason
  have hout : ∃ u : State, (s.begun host).useFree.OnlyBootEci u ∧
      execRomStart host strap dram flash s = .next (u.enterRecovery r) := by
    rw [execRomStart_begun hheld hstage, hsome]
    dsimp only
    rw [if_neg (by simp), if_neg (by simp), State.ite_logTrip]
    refine ⟨_, (State.onlyBootEci_modBoot _ _).modBoot _,
      (if_neg (ne_true_of_eq_false ?_)).trans (congrArg _ (State.romGoesOn_recovers rfl))⟩
    exact (State.modBoot_tooHot rfl rfl).trans ((State.modBoot_tooHot rfl rfl).trans ((s.begun_tooHot host).trans hcool))
  obtain ⟨u, hu, hnext⟩ := hout
  refine ⟨_, hnext, (s.onlyBootEci_begun host).of_useFree (hu.trans (u.onlyBootEci_enterRecovery r)), ?_⟩
  simp [State.enterRecovery, State.setStage_boot]

theorem romStartFails_holds (host strap dram : Bool) : (romStartFails host strap dram).Holds := by
  intro s ⟨hheld, hstage, hreason⟩
  have hnone := (s.begun_recoveryReason host strap _).trans (Boot.recoveryReason_none 0 (Config.freeNat s.free % 256) hreason)
  refine ⟨(s.begun host).useFree.failStart (if dram = true then 0x32 else 0x31), (execRomStart_begun hheld hstage).trans ?_,
    (s.onlyBootEci_begun host).of_useFree (State.onlyBootEci_failStart _ _), rfl, rfl, s.begun_stage host⟩
  rw [hnone]
  cases dram <;> rfl

theorem thermalWaitCheck_holds (j : Junctions) : (thermalWaitCheck j).Holds := by
  intro s ⟨w, hwait, hpassed⟩
  change Answers (execThermalWaitCheck j s) _
  unfold execThermalWaitCheck
  rw [hwait]
  dsimp only
  rw [if_neg (Nat.not_lt.mpr hpassed), ← apply_ite Host.Outcome.next, State.modBoot_now]
  exact ⟨_, rfl, w, hwait, rfl⟩

theorem imageVerifyDone_holds : imageVerifyDone.Holds := by
  intro s ⟨hstage, hcool, hrunning, hseed⟩
  dsimp only [imageVerifyDone]
  change Answers (execImageVerifyDone true s) _
  unfold execImageVerifyDone
  rw [if_neg (by simp [hstage, hcool, hrunning])]
  dsimp only
  rw [State.setStage_boot]
  dsimp only
  rw [if_neg (by simpa using hseed)]
  cases (s.boot.fuses.approve (s.boot.flash.image s.boot.slot 1) 1).or (s.boot.fuses.approve (s.boot.flash.image s.boot.slot 2) 2) with
  | some r => exact ⟨_, rfl, (s.onlyBootEci_setStage _).trans (State.onlyBootEci_failStart _ _), nofun,
      fun _ hr => ⟨by simp [State.failStart, State.logReason, State.setStage_boot], by injection hr, rfl⟩⟩
  | none =>
    refine ⟨_, rfl, ((s.onlyBootEci_setStage _).modBoot _).trans (State.onlyBootEci_setStage _ _), fun _ => ?_, nofun⟩
    simp [State.setStage_boot]

theorem imageVerifyNoSecret_holds : imageVerifyNoSecret.Holds := by
  intro s ⟨hstage, hcool, hrunning⟩
  change Answers (execImageVerifyDone false s) _
  unfold execImageVerifyDone
  rw [if_neg (by simp [hstage, hcool, hrunning])]
  exact ⟨_, rfl, (s.onlyBootEci_setStage _).trans rfl, rfl, rfl, rfl⟩

/-! ### BIST and READY (R475 to R478) -/

theorem bistDone_holds (a b : Bool) : (bistDone a b).Holds := by
  intro s ⟨hstage, hrunning, hleft⟩
  change Answers (execBistDone _ s) _
  unfold execBistDone
  rw [if_neg (by simp [hstage, hrunning]), if_neg (by simpa using hleft)]
  dsimp only [List.foldl]
  refine ⟨_, rfl, ((s.onlyBootEci_modBoot _).trans (State.onlyBootEci_setStage _ _)).modBoot _, ?_⟩
  simp [State.setStage_boot]

theorem bistFails_holds (r : BistReport) : (bistFails r).Holds := by
  intro s ⟨hstage, hrunning, hfault⟩
  exact ⟨_, (if_neg (by simp [hstage, hrunning])).trans (if_pos (by simpa using hfault)), rfl, rfl, rfl⟩

theorem firmwareReady_holds : firmwareReady.Holds := by
  intro s ⟨hstage, hrunning⟩
  obtain ⟨c, hnext⟩ := execFirmwareReady_readied hstage hrunning
  have htold := s.readied.onlyEci_tellStart (s.setStage .ready).boot
  cases c
  · refine ⟨_, hnext, State.readied_frame (htold.bootEci.trans (State.onlyBootEci_degrade _)), ?_⟩
    simp [htold.boot, State.readied_boot, apply_ite Flash.active]
  · refine ⟨_, hnext, State.readied_frame htold.bootEci, ?_⟩
    simp [htold.boot, State.readied_boot, apply_ite Flash.active]

theorem dieReady_holds (d : DieNo) : (dieReady d).Holds := by
  intro s ⟨hstage, hexists, hout, hnew⟩
  exact ⟨_, if_neg (by simpa [hout, hnew, hexists, or_iff_not_imp_left] using hstage), rfl⟩

theorem dieReadyTimeout_holds (d : DieNo) : (dieReadyTimeout d).Holds := by
  intro s ⟨hstage, hexists, hout, hnew, hpast⟩
  exact ⟨_, (if_neg (by simpa [hout, hnew, hexists, hpast, or_iff_not_imp_left] using hstage)).trans
    (apply_ite Host.Outcome.next _ _ _).symm, rfl⟩

theorem firmwareReadyTimeout_holds : firmwareReadyTimeout.Holds := by
  intro s ⟨hstage, hrunning, hpast⟩
  exact ⟨_, if_pos (by simpa [hrunning, hpast, or_assoc] using hstage), rfl⟩

/-! ### Supplies (R485) -/

theorem kaSwitchToBackup_holds : kaSwitchToBackup.Holds := by
  intro s (hmain : s.boot.ka.onBackup = false)
  exact ⟨_, rfl, if_neg (by simp [hmain])⟩

theorem kaSwitchToMain_holds : kaSwitchToMain.Holds := by
  intro s (hbackup : s.boot.ka.onBackup = true)
  exact ⟨_, rfl, if_neg (by simp [hbackup])⟩

end Sys2Proof.Claims

namespace Sys2Proof
open Claims

/-- Settles O17: power, the resets and the ROM by the model's own branches; BIST, READY and their bounds by the same; a start with a
reason for recovery mode by the reason that the ROM finds on the state that has begun. -/
theorem startUpTakesEffect : Obligations.StartUpTakesEffect := by
  unfold Obligations.StartUpTakesEffect
  exact ⟨powerGood_holds, brownOut_holds, sysRstNLow_holds, sysRstNRelease_holds, restartDelayExpiry_holds, failedStartRestart_holds,
    romStart_holds, romStartFails_holds, romStartRecovers_holds, thermalWaitCheck_holds, imageVerifyDone_holds,
    imageVerifyNoSecret_holds, bistDone_holds, bistFails_holds, firmwareReady_holds,
    fun d => ⟨dieReady_holds d, dieReadyTimeout_holds d⟩, firmwareReadyTimeout_holds, kaSwitchToBackup_holds, kaSwitchToMain_holds⟩

end Sys2Proof
end

section
/-!
O18. The recovery window: one lemma for each claim, and the obligation.
-/

namespace Sys2Proof.Claims

open Machine Sys2Proof

/-- The guard of a recovery command passes where the window is idle. -/
theorem recGuard_pass {s : State} (hidle : s.recIdle = true) : ¬ ((!s.recIdle) = true) := by
  simp [hidle]

theorem recLocked_none {s : State} (cmd : Nat) (hlc : s.boot.fuses.lcState ≠ 4) : s.recLocked cmd = none := if_neg hlc

theorem recLocked_retired {s : State} (cmd : Nat) (hlc : s.boot.fuses.lcState = 4) :
    s.recLocked cmd = some (s.recDone cmd .eLocked []) := if_pos hlc

theorem recGetReasons_holds : recGetReasons.Holds := fun _ hidle => ⟨_, if_pos hidle, rfl⟩

theorem recGetAttestation_holds : recGetAttestation.Holds := by
  intro s ⟨hidle, hlc, hformed⟩
  change Answers (execRecGetAttestation s) _
  unfold execRecGetAttestation
  rw [if_neg (recGuard_pass hidle), recLocked_none 2 hlc]
  exact ⟨_, if_neg (by simp [hformed]), rfl⟩

theorem recLoadImage_holds : recLoadImage.Holds := by
  intro s ⟨hidle, hlc, hcode, hlen, hchecks⟩
  dsimp only [recLoadImage]
  change Answers (execRecLoadImage s) _
  unfold execRecLoadImage
  rw [if_neg (recGuard_pass hidle), recLocked_none 3 hlc]
  dsimp only
  rw [if_neg (by simp [hchecks, hcode, hlen])]
  cases s.boot.fuses.approve (s.mem.data.load 0 s.boot.recLen) (codeType s.boot.recArg) with
  | none => exact ⟨_, rfl, rfl⟩
  | some r => exact ⟨_, rfl, rfl⟩

theorem recSetBootSlot_holds : recSetBootSlot.Holds := by
  intro s ⟨hidle, hlc, hslot⟩
  change Answers (execRecSetBootSlot s) _
  unfold execRecSetBootSlot
  rw [if_neg (recGuard_pass hidle), recLocked_none 4 hlc]
  dsimp only
  rw [if_neg (Nat.not_le.mpr hslot)]
  cases happroved : s.slotApproved s.boot.recArg with
  | true => exact ⟨_, rfl, (if_pos happroved).symm⟩
  | false => exact ⟨_, rfl, (if_neg (by simp [happroved])).symm⟩

theorem recRestart_holds : recRestart.Holds := by
  intro s ⟨hidle, hlc, harg⟩
  change Answers (execRecRestart s) _
  unfold execRecRestart
  rw [if_neg (recGuard_pass hidle), recLocked_none 5 hlc]
  exact ⟨_, if_neg (Nat.not_le.mpr harg), rfl⟩

theorem recFinishLcMove_holds : recFinishLcMove.Holds := by
  intro s ⟨hidle, hlc⟩
  dsimp only [recFinishLcMove]
  change Answers (execRecFinishLcMove s) _
  unfold execRecFinishLcMove
  rw [if_neg (recGuard_pass hidle), recLocked_none 6 hlc]
  dsimp only
  cases (formFail (lcForm (s.eci.mailbox.load 0 (min 65536 s.boot.recLen)))).or
      (s.lcRefused (s.eci.mailbox.load 0 (min 65536 s.boot.recLen))) with
  | some r => exact ⟨_, rfl, rfl⟩
  | none => exact ⟨_, rfl, rfl⟩

/-- A recovery command whose body is guarded by the idle window and by RETIRED is locked there. -/
theorem recLocked_holds {row : Instr} {cmd : Nat} {body : State → Out}
    (hrow : ∀ s : State, exec row s =
      if !s.recIdle then .next s
      else match s.recLocked cmd with
        | some t => .next t
        | none => body s) :
    (recLocked row cmd).Holds := by
  intro s ⟨hidle, hlc⟩
  refine ⟨_, (hrow s).trans ?_, rfl⟩
  rw [if_neg (recGuard_pass hidle), recLocked_retired cmd hlc]

theorem recResetNormal_holds : recResetNormal.Holds := fun _ hwrites => ⟨_, if_pos hwrites, rfl⟩

theorem recResetRecovery_holds : recResetRecovery.Holds := fun _ hwrites => ⟨_, if_pos hwrites, rfl⟩

end Sys2Proof.Claims

namespace Sys2Proof
open Claims

/-- Settles O18: each command by the guard of the idle window, the lock of RETIRED by the guard that five of them share. -/
theorem recoveryTakesEffect : Obligations.RecoveryTakesEffect := by
  unfold Obligations.RecoveryTakesEffect
  exact ⟨recGetReasons_holds, recGetAttestation_holds, recLoadImage_holds, recSetBootSlot_holds, recRestart_holds,
    recFinishLcMove_holds, recLocked_holds fun _ => rfl, recLocked_holds fun _ => rfl, recLocked_holds fun _ => rfl,
    recLocked_holds fun _ => rfl, recLocked_holds fun _ => rfl, recResetNormal_holds, recResetRecovery_holds⟩

end Sys2Proof
end

section
/-!
O21. Heartbeats, self-test, repair, memory errors and temperatures: one lemma for each claim, and the obligation.
-/

namespace Sys2Proof.Machine

variable {s : State}

/-- A change of a die's health is known by what it makes of the health there. -/
theorem State.modHealth_congr {d : Nat} {f g : DieHealth → DieHealth}
    (h : f (s.boot.health.look {} d) = g (s.boot.health.look {} d)) : s.modHealth d f = s.modHealth d g := by
  exact congrArg (fun v => s.modBoot fun b => { b with health := b.health.put d v }) h

/-- A change of a die's memory is known by what it makes of the memory there. -/
theorem State.modDie_congr {d : Nat} {f g : DieMem → DieMem} (h : f (s.dm d) = g (s.dm d)) : s.modDie d f = s.modDie d g := by
  exact congrArg (fun v => s.modMem fun m => { m with dies := m.dies.put d v }) h

theorem State.modDie_boot (d : Nat) (f : DieMem → DieMem) : (s.modDie d f).boot = s.boot := rfl

theorem State.dm_modDie_self (d : Nat) (f : DieMem → DieMem) : (s.modDie d f).dm d = f (s.dm d) := Tab.look_modD_self _ _ _ _

theorem State.dm_raise (k : EventKind) (h n : Nat) (p : Option Nat) (d : Nat) : (s.raise k h n p).dm d = s.dm d :=
  congrArg (fun m : Mem => m.dies.look {} d) (s.raise_mem k h n p)

end Sys2Proof.Machine

namespace Sys2Proof.Claims

open Machine Sys2Proof

/-! ### Heartbeats and self-test (R494, R500 to R502) -/

theorem dieHeartbeat_holds (d : DieNo) (core : Fin 2) : (dieHeartbeat d core).Holds := fun _ hserves => ⟨_, if_pos hserves, rfl⟩

theorem heartbeatTimeout_holds (d : DieNo) : (heartbeatTimeout d).Holds := by
  intro s ⟨hserves, hmissed⟩
  exact ⟨_, if_pos (by simpa [hserves] using hmissed), rfl⟩

theorem isstSliceStart_holds (d : DieNo) : (isstSliceStart d).Holds := by
  intro s ⟨hserves, hperiod⟩
  exact ⟨_, if_neg (by simpa [hserves] using hperiod), rfl⟩

theorem isstSlicePass_holds (d : DieNo) : (isstSlicePass d).Holds := by
  intro s ⟨hserves, hrunning⟩
  refine ⟨_, (if_neg (by simpa [hserves, ← Option.isSome_iff_ne_none] using hrunning)).trans
    ((if_neg (by simp)).trans (congrArg Host.Outcome.next (if_neg (by simp)))), State.modHealth_congr ?_⟩
  by_cases hwrap : (s.boot.health.look {} d.val).slice + 1 = 572
  · simp [hwrap, cycleSlices, b2n]
  · simp only [hwrap, cycleSlices, b2n, beq_eq_false_iff_ne.mpr hwrap]
    rfl

theorem isstSliceDeferred_holds (d : DieNo) : (isstSliceDeferred d).Holds := by
  intro s ⟨hserves, hrunning⟩
  exact ⟨_, (if_neg (by simpa [hserves, ← Option.isSome_iff_ne_none] using hrunning)).trans (if_pos rfl), rfl⟩

theorem isstSliceFail_holds (d : DieNo) : (isstSliceFail d).Holds := by
  intro s ⟨hserves, hrunning, hmore⟩
  refine ⟨_, (if_neg (by simpa [hserves, ← Option.isSome_iff_ne_none] using hrunning)).trans (if_neg (by simp)), ?_⟩
  have hwrap : ((s.boot.health.look {} d.val).slice + 1 == cycleSlices) = false := beq_eq_false_iff_ne.mpr hmore.ne
  dsimp only [isstSliceFail]
  rw [hwrap]
  cases (s.boot.health.look {} d.val).fenced (sliceElement (s.boot.health.look {} d.val).slice) with
  | true => exact if_neg (by simp)
  | false => exact if_pos (by simp)

theorem dieRepairBistDone_holds (d : DieNo) (pass : Bool) : (dieRepairBistDone d pass).Holds := by
  intro s (hrepairing : s.boot.repairing.contains d.val = true)
  exact ⟨_, if_neg (by rw [hrepairing]; exact Bool.false_ne_true), rfl⟩

/-! ### Uncorrectable errors (R415, R433 to R435) -/

theorem dramUncorrectable_holds (d : DieNo) (ch line : BitVec 32) : (dramUncorrectable d ch line).Holds := by
  intro s ⟨hup, hexists, hout⟩
  have hkey : dramKey d.castSucc = d.val := if_neg (by simp; omega)
  change Answers (execDramUncorrectable d.castSucc (.workingSet ch) line s) _
  unfold execDramUncorrectable
  dsimp only
  rw [hkey, if_neg (by simp [State.dramRuns, hup, hexists, hout]), if_neg (by omega)]
  exact ⟨_, rfl, by simp [dramUncorrectable, regionCode]⟩

theorem hostBufferUncorrectable_holds (line : BitVec 32) : (hostBufferUncorrectable line).Holds := by
  intro s ⟨hup, hnew⟩
  refine ⟨_, if_neg (by simp [State.dramRuns, hup, dramKey]), ?_⟩
  refine State.modDie_congr ?_
  simpa [State.dm_raise, State.dm_modDie_self, dramKey] using hnew

theorem journalUncorrectable_holds (line : BitVec 32) : (journalUncorrectable line).Holds := by
  intro s ⟨hup, hruns⟩
  change Answers (execDramUncorrectable 8 .journal line s) _
  unfold execDramUncorrectable
  dsimp only
  rw [if_neg (by simp [State.dramRuns, hup]), if_pos (by simpa [State.firmwareRuns, State.modDie_boot] using hruns)]
  exact ⟨_, rfl, by simp [journalUncorrectable, regionCode]⟩

/-! ### Link stalls and temperatures (R25, R503, R504) -/

theorem dowelStall_holds (l : Fin 16) : (dowelStall l).Holds := fun _ hserves => ⟨_, if_pos hserves, rfl⟩

theorem thermalSample_holds (j : Junctions) : (thermalSample j).Holds := by
  intro s ⟨hready, hdies⟩
  have hall : (j.dies ++ List.replicate 8 250).take 8 = j.dies := by simp [hdies]
  change Answers (execThermalSample j s) _
  unfold execThermalSample
  dsimp only
  rw [hall, if_neg (by simp [State.planeRuns, hready]), ← apply_ite Host.Outcome.next, ← apply_ite Host.Outcome.next]
  refine ⟨_, rfl, ?_⟩
  simp only [Bool.and_eq_true, Bool.not_eq_true', decide_eq_true_eq]
  rfl

theorem thermTrip_holds : thermTrip.Holds := by
  intro s _
  change Answers (execThermTrip 8 s) _
  unfold execThermTrip
  rw [if_neg (by simp)]
  exact ⟨_, rfl, rfl⟩

end Sys2Proof.Claims

namespace Sys2Proof
open Claims

/-- Settles O21: the branches of each command, with the slice's wrap, the region and the sample's dies taken apart once. -/
theorem healthEventsTakeEffect : Obligations.HealthEventsTakeEffect := by
  unfold Obligations.HealthEventsTakeEffect
  exact ⟨dieHeartbeat_holds, heartbeatTimeout_holds, isstSliceStart_holds, isstSlicePass_holds, isstSliceDeferred_holds,
    isstSliceFail_holds, dieRepairBistDone_holds, dramUncorrectable_holds, hostBufferUncorrectable_holds,
    journalUncorrectable_holds, dowelStall_holds, thermalSample_holds, thermTrip_holds⟩

end Sys2Proof
end
